-- ==== Sys2Proof/Wire.lean ====
section
/-! DEFINITION. The headers of what arrives on a Trellis or a Graft port, as operands of the arrival commands (20 R503, 21 R528). -/
namespace Sys2Proof

/-- Header of a Trellis cell, the port it arrived on and its check sequence (R503). CLASS and SUB are those of the command, LEN is the length of its
payload; `ok` = false stands for a SUB that its class does not assign. -/
structure CellHdr where
  port : Fin 8
  ok : Bool
  dst : BitVec 12
  src : BitVec 12
  hops : BitVec 6
  tree : Bool
  alt : Bool
  seq : BitVec 16
  ack : BitVec 16
  fcs : BitVec 32
deriving DecidableEq, Repr

/-- Header of a Graft frame, the port it arrived on and its check sequence (R528). TYPE is that of the command, LEN is the length of its payload;
`ok` = false stands for a reserved TYPE. -/
structure FrameHdr where
  port : Fin 2
  ok : Bool
  more : Bool
  gseq : BitVec 32
  ack : BitVec 32
  epoch : BitVec 32
  fcs : BitVec 32
deriving DecidableEq, Repr

end Sys2Proof
end

