-- ==== Sys2Proof/Word.lean ====
section
/-! DEFINITION. The word types of the model. -/
namespace Sys2Proof

/-- A byte of memory. -/
abbrev Byte := BitVec 8

/-- A register's content: 32-bit registers use the low half (R8). -/
abbrev Word := BitVec 64

end Sys2Proof
end

