-- ==== Sys2Proof/Syntax.lean ====
section
/-! DEFINITION. The commands of the block, one constructor for each row of spec/opcode_table.json, in the table's order. A row that is a write or a
read of a register carries `src`, the source (03 R14, log 30); a row that is an arrival carries what arrives. -/
namespace Sys2Proof

inductive Instr
  /-- BEAM_CYCLE (R40). -/
  | beamCycle
  /-- ENCODER_TRANSITION (R45). -/
  | encoderTransition (e : Fin 8) (a b : Bool)
  /-- INDEX_EDGE (R46). -/
  | indexEdge (e : Fin 8) (level : Bool)
  /-- BEAM_LOSS_TIMEOUT (R49). -/
  | beamLossTimeout (b : Fin 8)
  /-- BEAM_RESUME (R54). -/
  | beamResume (src : Fin 30) (b : Fin 8) (v : BitVec 32)
  /-- TICK_BOUNDARY (R59). -/
  | tickBoundary
  /-- BEAM_LT_SET (R58). -/
  | beamLtSet (src : Fin 30) (v : BitVec 64)
  /-- BEAM_BROADCAST (R62). -/
  | beamBroadcast (b : Fin 8) (stem : Bool)
  /-- BROADCAST_RECORD_RECEIVE (R65). -/
  | broadcastRecordReceive (image : Bool) (b : Fin 8) (bs : List Byte)
  /-- PIN_INPUT_CHANGE (R67). -/
  | pinInputChange (p : Fin 96) (level : Bool) (back : Fin 4)
  /-- PIN_CHANGE_ACCEPTED (R69). -/
  | pinChangeAccepted (p : Fin 96)
  /-- BEAM_POS_SNAPSHOT (R70). -/
  | beamPosSnapshot (src : Fin 30) (b : Fin 8) (wide : Bool)
  /-- STEM_FLIT_RECEIVE (R19). -/
  | stemFlitReceive (die : Fin 2) (bs : List Byte) (lat : BitVec 16)
  /-- STEM_NAK_REPLAY (R23). -/
  | stemNakReplay (die : Fin 2) (ack : BitVec 12)
  /-- REGISTER_ACCESS (R20). -/
  | registerAccess (die : Fin 2) (src : Fin 30) (write : Bool) (tag : BitVec 8) (off : BitVec 32) (wide : Bool) (v : BitVec 64)
  /-- FAST_RETRAIN (R24). -/
  | fastRetrain
  /-- FAST_RETRAIN_END (R24). -/
  | fastRetrainEnd (ok : Bool)
  /-- FULL_RETRAIN (R25). -/
  | fullRetrain
  /-- FULL_RETRAIN_END (R25). -/
  | fullRetrainEnd (lanesB lanesI : BitVec 8)
  /-- STEM_CTRL_FULL_RETRAIN (R29). -/
  | stemCtrlFullRetrain (src : Fin 30) (die : Fin 2) (v : BitVec 32)
  /-- STEM_CTRL_FAST_RETRAIN (R29). -/
  | stemCtrlFastRetrain (src : Fin 30) (die : Fin 2) (v : BitVec 32)
  /-- REGISTER_WRITE (R15). -/
  | registerWrite (src : Fin 30) (a : BitVec 48) (wide : Bool) (v : BitVec 64)
  /-- READ_CLEAR (R12). -/
  | readClear (src : Fin 30) (a : BitVec 48) (wide : Bool)
  /-- SNAP_READ (R12). -/
  | snapRead (src : Fin 30) (a : BitVec 48) (wide : Bool)
  /-- STAGING_WRITE (R76). -/
  | stagingWrite (src : Fin 30) (a : BitVec 48) (wide : Bool) (v : BitVec 64)
  /-- GO (R82). -/
  | go (src : Fin 30) (g : Fin 8) (v : BitVec 32)
  /-- DISCARD (R80). -/
  | discard (src : Fin 30) (g : Fin 8) (v : BitVec 32)
  /-- UNPOISON (R79). -/
  | unpoison (src : Fin 30) (g : Fin 8) (v : BitVec 32)
  /-- COMMIT_ARM (R85). -/
  | commitArm (g : BitVec 8)
  /-- ARM_RECEIVE (R90). -/
  | armReceive (dom : Fin 32) (g : BitVec 8) (csn : BitVec 32)
  /-- ACK_RECEIVE (R90). -/
  | ackReceive (g : BitVec 8) (dom : Fin 32) (csn : BitVec 32)
  /-- COMMIT_APPLY (R89). -/
  | commitApply (g : BitVec 8)
  /-- WITHDRAW (R88). -/
  | withdraw (g : BitVec 8)
  /-- REMOTE_SWAP (R89). -/
  | remoteSwap (dom : Fin 32) (g : BitVec 8)
  /-- SWAP_RECEIVE (R89). -/
  | swapReceive (dom : Fin 32) (g : BitVec 8) (csn : BitVec 32)
  /-- ABORT_RECEIVE (R91). -/
  | abortReceive (dom : Fin 32) (g : BitVec 8) (csn : BitVec 32)
  /-- SNAPSHOT_OPEN (R94). -/
  | snapshotOpen (src : Fin 30)
  /-- SNAPSHOT_CLOSE (R95). -/
  | snapshotClose (src : Fin 30)
  /-- SNAP_TMO (R95). -/
  | snapTmo
  /-- SNAPSHOT_VIEW_READ (R94). -/
  | snapshotViewRead (src : Fin 30) (a : BitVec 48) (wide : Bool)
  /-- HOST_WRITE_ABANDON (R99). -/
  | hostWriteAbandon
  /-- LIST_MEMORY_WRITE (R118). -/
  | listMemoryWrite (src : Fin 30) (off : BitVec 20) (bs : List Byte)
  /-- MIRROR_ACK (R119). -/
  | mirrorAck
  /-- MIRROR_COPY (R121). -/
  | mirrorCopy
  /-- SWITCH_EDGE (R152). -/
  | switchEdge (c : Fin 1024)
  /-- CAM_CORR_IN (R145). -/
  | camCorrIn (src : Fin 30) (c : Fin 1024) (v : BitVec 32)
  /-- CAM_OVR_REQ (R153). -/
  | camOvrReq (src : Fin 30) (c : BitVec 32)
  /-- ITEM_DIRECT_WRITE (R171). -/
  | itemDirectWrite (src : Fin 30) (off : BitVec 22) (bs : List Byte)
  /-- ITEM_HRING_RD (R185). -/
  | itemHringRd (src : Fin 30) (v : BitVec 32)
  /-- VERDICT_OR (R187). -/
  | verdictOr (slot : BitVec 16) (id : BitVec 32) (m : BitVec 64)
  /-- VERDICT_EXPECT (R187). -/
  | verdictExpect (slot : BitVec 16) (id : BitVec 32) (key last : BitVec 64)
  /-- VERDICT_DONE (R187). -/
  | verdictDone (slot : BitVec 16) (id : BitVec 32) (m key : BitVec 64)
  /-- PRINT_ACK (R187). -/
  | printAck (slot : BitVec 16) (id : BitVec 32) (key : BitVec 64)
  /-- PRINT_END (R187). -/
  | printEnd (slot : BitVec 16) (id : BitVec 32)
  /-- VERDICT_DEADLINE (R187). -/
  | verdictDeadline
  /-- PRINT_ACK_DEADLINE (R188). -/
  | printAckDeadline
  /-- ITEM_CMD_NOP (R191). -/
  | itemCmdNop (src : Fin 30) (ch : Fin 8) (slot : BitVec 16)
  /-- ITEM_CMD_SOW (R191). -/
  | itemCmdSow (src : Fin 30) (ch : Fin 8) (autoId : Bool)
  /-- ITEM_CMD_READ (R191). -/
  | itemCmdRead (src : Fin 30) (ch : Fin 8) (slot : BitVec 16)
  /-- ITEM_CMD_WRITE (R191). -/
  | itemCmdWrite (src : Fin 30) (ch : Fin 8) (slot : BitVec 16)
  /-- SETV (R191). -/
  | setv (src : Fin 30) (ch : Fin 8) (slot : BitVec 16)
  /-- CLRV (R191). -/
  | clrv (src : Fin 30) (ch : Fin 8) (slot : BitVec 16)
  /-- ITEM_CMD_HARVEST (R191). -/
  | itemCmdHarvest (src : Fin 30) (ch : Fin 8) (slot : BitVec 16) (noRing : Bool)
  /-- MOVE (R191). -/
  | move (src : Fin 30) (ch : Fin 8) (slot : BitVec 16)
  /-- FLUSH_BEAM (R191). -/
  | flushBeam (src : Fin 30) (ch : Fin 8) (slot : BitVec 16)
  /-- ITEM_CMD_RESERVED (R191). -/
  | itemCmdReserved (src : Fin 30) (ch : Fin 8) (code : Fin 7) (slot : BitVec 16)
  /-- ITEM_FLUSH (R184). -/
  | itemFlush (src : Fin 30) (v : BitVec 32)
  /-- STATION_EVALUATION (R200). -/
  | stationEvaluation
  /-- ACTION_NONE (R205). -/
  | actionNone (stn : Fin 512) (slot : BitVec 16)
  /-- ACTION_PULSE (R210). -/
  | actionPulse (stn : Fin 512) (slot : BitVec 16)
  /-- ACTION_CAMERA (R205). -/
  | actionCamera (stn : Fin 512) (slot : BitVec 16)
  /-- ACTION_OVERRIDE (R205). -/
  | actionOverride (stn : Fin 512) (slot : BitVec 16)
  /-- ACTION_EVENT (R205). -/
  | actionEvent (stn : Fin 512) (slot : BitVec 16)
  /-- ACTION_HARVEST (R205). -/
  | actionHarvest (stn : Fin 512) (slot : BitVec 16)
  /-- ACTION_TRANSFER (R181). -/
  | actionTransfer (stn : Fin 512) (slot : BitVec 16)
  /-- ACTION_HANDOFF (R517). -/
  | actionHandoff (stn : Fin 512) (slot : BitVec 16)
  /-- ACTION_SOW (R205). -/
  | actionSow (stn : Fin 512) (slot : BitVec 16)
  /-- PULSE_END (R210). -/
  | pulseEnd
  /-- DOWNLINK_TRANSMIT (R223). -/
  | downlinkTransmit (p : Fin 64)
  /-- UPLINK_RECEIVE (R225). -/
  | uplinkReceive (p : Fin 64) (start : BitVec 64) (signal : Bool) (groups : List (BitVec 10))
  /-- UPLINK_MISS (R225). -/
  | uplinkMiss (p : Fin 64)
  /-- DRIVE_SYNC_ACQUIRED (R228). -/
  | driveSyncAcquired (p : Fin 64)
  /-- DRIVE_SYNC_LOSS (R228). -/
  | driveSyncLoss (p : Fin 64)
  /-- MOV (R271). -/
  | opMov (c : Fin 25)
  /-- ZEXT (R271). -/
  | opZext (c : Fin 25)
  /-- SEXT (R271). -/
  | opSext (c : Fin 25)
  /-- LEA (R271). -/
  | opLea (c : Fin 25)
  /-- PUSH (R271). -/
  | opPush (c : Fin 25)
  /-- POP (R271). -/
  | opPop (c : Fin 25)
  /-- XCHG (R271). -/
  | opXchg (c : Fin 25)
  /-- ADD (R272). -/
  | opAdd (c : Fin 25)
  /-- SUB (R272). -/
  | opSub (c : Fin 25)
  /-- ADDX (R274). -/
  | opAddx (c : Fin 25)
  /-- SUBX (R274). -/
  | opSubx (c : Fin 25)
  /-- NEG (R272). -/
  | opNeg (c : Fin 25)
  /-- MUL (R272). -/
  | opMul (c : Fin 25)
  /-- MIN (R272). -/
  | opMin (c : Fin 25)
  /-- MAX (R272). -/
  | opMax (c : Fin 25)
  /-- AND (R272). -/
  | opAnd (c : Fin 25)
  /-- OR (R272). -/
  | opOr (c : Fin 25)
  /-- XOR (R272). -/
  | opXor (c : Fin 25)
  /-- BIC (R272). -/
  | opBic (c : Fin 25)
  /-- NOT (R272). -/
  | opNot (c : Fin 25)
  /-- SHL (R273). -/
  | opShl (c : Fin 25)
  /-- SHR (R273). -/
  | opShr (c : Fin 25)
  /-- SAR (R273). -/
  | opSar (c : Fin 25)
  /-- ROL (R273). -/
  | opRol (c : Fin 25)
  /-- ROR (R273). -/
  | opRor (c : Fin 25)
  /-- SET (R275). -/
  | opSet (c : Fin 25)
  /-- CB (R275). -/
  | opCb (c : Fin 25)
  /-- J (R276). -/
  | opJ (c : Fin 25)
  /-- JSR (R276). -/
  | opJsr (c : Fin 25)
  /-- JR (R276). -/
  | opJr (c : Fin 25)
  /-- RTS (R276). -/
  | opRts (c : Fin 25)
  /-- RTI (R334). -/
  | opRti (c : Fin 25)
  /-- NOP (R278). -/
  | opNop (c : Fin 25)
  /-- FENCE (R98). -/
  | opFence (c : Fin 25)
  /-- IFLUSH (R279). -/
  | opIflush (c : Fin 25)
  /-- WAIT (R280). -/
  | opWait (c : Fin 25)
  /-- BRK (R278). -/
  | opBrk (c : Fin 25)
  /-- TRAP (R278). -/
  | opTrap (c : Fin 25)
  /-- EOI (R278). -/
  | opEoi (c : Fin 25)
  /-- MULD (R281). -/
  | opMuld (c : Fin 25)
  /-- MAC (R285). -/
  | opMac (c : Fin 25)
  /-- DIV (R282). -/
  | opDiv (c : Fin 25)
  /-- DIVU (R281). -/
  | opDivu (c : Fin 25)
  /-- REM (R282). -/
  | opRemS (c : Fin 25)
  /-- REMU (R281). -/
  | opRemu (c : Fin 25)
  /-- SQRT (R281). -/
  | opSqrt (c : Fin 25)
  /-- CRC32C (R284). -/
  | opCrc32c (c : Fin 25)
  /-- LONG_OPERATION_COMPLETE (R283). -/
  | longOperationComplete (c : Fin 25) (n : Fin 4)
  /-- MOVS (R287). -/
  | opMovs (c : Fin 25)
  /-- FILS (R287). -/
  | opFils (c : Fin 25)
  /-- CMPS (R287). -/
  | opCmps (c : Fin 25)
  /-- SCNS (R287). -/
  | opScns (c : Fin 25)
  /-- SUMS (R287). -/
  | opSums (c : Fin 25)
  /-- RESERVED_OPCODE (R267). -/
  | reservedOpcode (c : Fin 25)
  /-- STORE_BUFFER_DRAIN (R304). -/
  | storeBufferDrain (c : Fin 25) (n : Fin 8)
  /-- FAR_READ_RETURN (R299). -/
  | farReadReturn (c : Fin 25)
  /-- ICACHE_LINE_FILL (R294). -/
  | icacheLineFill (c : Fin 25)
  /-- PP_OUT (R257). -/
  | ppOut (c : Fin 24) (bank : Fin 8) (v : BitVec 32)
  /-- PP_SET (R257). -/
  | ppSet (c : Fin 24) (bank : Fin 8) (v : BitVec 32)
  /-- PP_CLR (R257). -/
  | ppClr (c : Fin 24) (bank : Fin 8) (v : BitVec 32)
  /-- PP_TGL (R257). -/
  | ppTgl (c : Fin 24) (bank : Fin 8) (v : BitVec 32)
  /-- CORE_TIMER_MATCH (R258). -/
  | coreTimerMatch (c : Fin 24)
  /-- CORECTL_RESET (R260). -/
  | corectlReset (src : Fin 30) (c : Fin 24)
  /-- RELEASE (R260). -/
  | release (src : Fin 30) (c : Fin 24)
  /-- HALT (R261). -/
  | halt (src : Fin 30) (c : Fin 24)
  /-- RESUME (R261). -/
  | resume (src : Fin 30) (c : Fin 24)
  /-- STEP (R261). -/
  | step (src : Fin 30) (c : Fin 24)
  /-- CORECTL_DREG_DATA (R261). -/
  | corectlDregData (src : Fin 30) (c : Fin 24) (v : Option (BitVec 32))
  /-- INTC_RAISE (R319). -/
  | intcRaise (src : Fin 30) (v : BitVec 32)
  /-- EVENT_FLIT (R338). -/
  | eventFlit (die : Fin 2) (k : Fin 512) (bs : List Byte)
  /-- INTERRUPT_ENTRY (R330). -/
  | interruptEntry (c : Fin 25) (k : Fin 512) (early : Bool)
  /-- CORE_CLAIM (R324). -/
  | coreClaim (c : Fin 25)
  /-- CORE_EOI (R328). -/
  | coreEoi (c : Fin 25) (k : Fin 512)
  /-- INTC_Q_RD (R337). -/
  | intcQRd (src : Fin 30) (q : Fin 16) (v : BitVec 32)
  /-- TMR_LOAD (R351). -/
  | tmrLoad (src : Fin 30) (n : Fin 32) (v : BitVec 32)
  /-- TMR_PRELOAD_WRITE (R351). -/
  | tmrPreloadWrite (src : Fin 30) (n : Fin 32) (which : Fin 3) (v : BitVec 32)
  /-- TMR_COUNT (R356). -/
  | tmrCount (src : Fin 30) (n : Fin 32)
  /-- PIN_SWITCH_END (R364). -/
  | pinSwitchEnd (n : Fin 248)
  /-- CAMERA_TAG (R372). -/
  | cameraTag (bs : List Byte)
  /-- FRAME_START (R372). -/
  | frameStart (p : Fin 16) (vc : Fin 4) (ecc : Fin 3)
  /-- LONG_PACKET (R369). -/
  | longPacket (p : Fin 16) (vc : Fin 4) (dt : BitVec 6) (ecc : Fin 3) (crcOk : Bool) (ago : BitVec 32) (bs : List Byte)
  /-- FRAME_END (R377). -/
  | frameEnd (p : Fin 16) (vc : Fin 4) (ecc : Fin 3)
  /-- UNTAGGED (R372). -/
  | untagged (p : Fin 16)
  /-- FRAME_TIMEOUT (R372). -/
  | frameTimeout (p : Fin 16)
  /-- NO_FRAME (R372). -/
  | noFrame (p : Fin 16)
  /-- SIEVE_JOB_START (R378). -/
  | sieveJobStart (q : Fin 4)
  /-- SIEVE_END (R385). -/
  | sieveEnd (q : Fin 4)
  /-- CORRECT (R381). -/
  | correct (q : Fin 4)
  /-- REGISTER (R382). -/
  | sieveRegister (q : Fin 4)
  /-- TILECMP (R383). -/
  | tilecmp (q : Fin 4)
  /-- PRESENCE (R380). -/
  | presence (q : Fin 4)
  /-- COLOUR (R380). -/
  | colour (q : Fin 4)
  /-- CODE (R384). -/
  | code (q : Fin 4)
  /-- SIEVE_CB (R380). -/
  | sieveCb (q : Fin 4)
  /-- SIEVE_SETV (R380). -/
  | sieveSetv (q : Fin 4)
  /-- CORRX (R386). -/
  | corrx (q : Fin 4)
  /-- CALC (R380). -/
  | calc (q : Fin 4)
  /-- RESULT (R387). -/
  | result (q : Fin 4)
  /-- SIEVE_JOB_ABORT (R390). -/
  | sieveJobAbort (q : Fin 4)
  /-- CAMIN_I2C_CMD (R376). -/
  | caminI2cCmd (src : Fin 30) (p : Fin 16) (v : BitVec 32)
  /-- I2C_DONE (R376). -/
  | i2cDone (p : Fin 16) (outcome : Fin 5) (written : BitVec 4) (rdata : BitVec 64)
  /-- PIPE_FRAME_START (R399). -/
  | pipeFrameStart (p : Fin 8)
  /-- COMP_GO (R398). -/
  | compGo (src : Fin 30) (p : Fin 8)
  /-- MIRROR_LIST (R408). -/
  | mirrorList (p : Fin 8)
  /-- PIPE_LINE_START (R410). -/
  | pipeLineStart (p : Fin 8)
  /-- GOLDEN_ENTRY_VALID (R419). -/
  | goldenEntryValid (p : Fin 8)
  /-- COMP_TLOAD (R420). -/
  | compTload (src : Fin 30) (p : Fin 8) (v : BitVec 32)
  /-- TLOAD_DONE (R420). -/
  | tloadDone (raster : Bool) (p : Fin 8)
  /-- DRAW_Q_WR (R426). -/
  | drawQWr (src : Fin 30) (e : Fin 2) (v : BitVec 32)
  /-- DRAW_NOP (R430). -/
  | drawNop (e : Fin 2)
  /-- FILL (R430). -/
  | fill (e : Fin 2)
  /-- COPY (R430). -/
  | copy (e : Fin 2)
  /-- GLYPH (R434). -/
  | glyph (e : Fin 2)
  /-- SYMBOL (R435). -/
  | symbol (e : Fin 2)
  /-- CLIP (R438). -/
  | clip (e : Fin 2)
  /-- SIGNAL (R430). -/
  | signal (e : Fin 2)
  /-- DRAW_RESUME (R442). -/
  | drawResume (src : Fin 30) (e : Fin 2) (v : BitVec 32)
  /-- SWATH_START (R447). -/
  | swathStart (bs : List Byte)
  /-- TIME_FRAME (R445). -/
  | timeFrame (n : Fin 8)
  /-- STATUS_FRAME (R444). -/
  | statusFrame (n : Fin 8) (start : BitVec 64) (blocks : List (BitVec 66))
  /-- LINE_FRAME (R448). -/
  | lineFrame (n : Fin 8)
  /-- RASTER_LOSS (R446). -/
  | rasterLoss (n : Fin 8)
  /-- RASTER_TLOAD (R452). -/
  | rasterTload (src : Fin 30) (n : Fin 8) (v : BitVec 32)
  /-- HPD (R458). -/
  | hpd (p : Fin 3) (kind : Fin 4) (rate : BitVec 4) (lanes : BitVec 3) (psr psr2 : Bool)
  /-- TRAIN_FAIL (R458). -/
  | trainFail (p : Fin 3)
  /-- PSR_ENTER (R459). -/
  | psrEnter (src : Fin 30) (v : BitVec 32)
  /-- PSR_EXIT (R459). -/
  | psrExit (src : Fin 30) (v : BitVec 32)
  /-- DISP_SU (R459). -/
  | dispSu (src : Fin 30) (p : Fin 3) (v : BitVec 32)
  /-- DISP_AUX_CMD (R461). -/
  | dispAuxCmd (src : Fin 30) (p : Fin 3) (v : BitVec 32)
  /-- AUX_DONE (R461). -/
  | auxDone (p : Fin 3) (outcome : Fin 4) (bs : List Byte)
  /-- AUDIO_FRAME (R467). -/
  | audioFrame (dom : Fin 3)
  /-- TDM_FRAME (R465). -/
  | tdmFrame (p : Fin 4) (clocks : BitVec 16) (words : List (BitVec 32))
  /-- UNLOCK (R462). -/
  | unlock (dom : Fin 3)
  /-- AUD_KEY_ON (R472). -/
  | audKeyOn (src : Fin 30) (m : BitVec 32)
  /-- AUD_KEY_OFF (R472). -/
  | audKeyOff (src : Fin 30) (m : BitVec 32)
  /-- ORDER_ANALYSIS_SEGMENT (R475). -/
  | orderAnalysisSegment (c : Fin 8)
  /-- MEMC_TRAIN (R486). -/
  | memcTrain (src : Fin 30)
  /-- TRAINED (R486). -/
  | trained
  /-- SCRUB (R488). -/
  | scrub (line : BitVec 31) (found : Fin 3)
  /-- DMA_CH_WR (R490). -/
  | dmaChWr (src : Fin 30) (e : Fin 3) (c : Fin 16) (v : BitVec 32)
  /-- DMA_COPY (R492). -/
  | dmaCopy (e : Fin 3) (ue : Option (BitVec 31))
  /-- DMA_FILL (R492). -/
  | dmaFill (e : Fin 3)
  /-- DMA_NOP (R492). -/
  | dmaNop (e : Fin 3)
  /-- DESCRIPTOR_COMPLETE (R495). -/
  | descriptorComplete (e : Fin 3)
  /-- DMA_RESUME (R496). -/
  | dmaResume (src : Fin 30) (e : Fin 3) (c : Fin 16)
  /-- TRELLIS_LANE_LOCK (R502). -/
  | trellisLaneLock (p : Fin 8)
  /-- PORT_DOWN (R502). -/
  | portDown (p : Fin 8)
  /-- HELLO (R508). -/
  | hello (h : CellHdr) (bs : List Byte)
  /-- ROUTE (R510). -/
  | route (h : CellHdr) (bs : List Byte)
  /-- ID_REQ (R509). -/
  | idReq (h : CellHdr) (bs : List Byte)
  /-- ID_GRANT (R509). -/
  | idGrant (h : CellHdr) (bs : List Byte)
  /-- SYNC (R512). -/
  | sync (rx : Option CellHdr) (bs : List Byte)
  /-- SYNC_REPLY (R512). -/
  | syncReply (h : CellHdr) (bs : List Byte)
  /-- LBEAM (R513). -/
  | lbeam (k : Fin 64)
  /-- LBEAM_RECEIVE (R514). -/
  | lbeamReceive (h : CellHdr) (bs : List Byte)
  /-- CELL_REPLAY (R506). -/
  | cellReplay (p : Fin 8)
  /-- UNREACHABLE_HOLD_EXPIRY (R511). -/
  | unreachableHoldExpiry
  /-- OFFER (R518). -/
  | offer (h : CellHdr) (bs : List Byte)
  /-- ACCEPT (R519). -/
  | accept (h : CellHdr) (bs : List Byte)
  /-- HANDOFF_REFUSE (R519). -/
  | handoffRefuse (h : CellHdr) (bs : List Byte)
  /-- HANDOFF_DONE (R519). -/
  | handoffDone (h : CellHdr) (bs : List Byte)
  /-- HANDOFF_ABORT (R519). -/
  | handoffAbort (h : CellHdr) (bs : List Byte)
  /-- TRL_HO_TMO (R519). -/
  | trlHoTmo
  /-- HO_LOST (R519). -/
  | hoLost
  /-- WRITE (R516). -/
  | write (h : CellHdr) (bs : List Byte)
  /-- RD_REQ (R516). -/
  | rdReq (h : CellHdr) (bs : List Byte)
  /-- RD_RESP (R516). -/
  | rdResp (h : CellHdr) (bs : List Byte)
  /-- EXPORT_READ_TIMEOUT (R516). -/
  | exportReadTimeout
  /-- REG_RD (R505). -/
  | regRd (h : CellHdr) (bs : List Byte)
  /-- REG_RESP (R505). -/
  | regResp (h : CellHdr) (bs : List Byte)
  /-- PREPARE (R521). -/
  | prepare (h : CellHdr) (bs : List Byte)
  /-- READY (R520). -/
  | ready (h : CellHdr) (bs : List Byte)
  /-- LC_REFUSE (R520). -/
  | lcRefuse (h : CellHdr) (bs : List Byte)
  /-- CONFIRM_POINT (R520). -/
  | confirmPoint (g : Fin 8)
  /-- CONFIRM (R521). -/
  | confirm (h : CellHdr) (bs : List Byte)
  /-- LC_ABORT (R521). -/
  | lcAbort (h : CellHdr) (bs : List Byte)
  /-- LC_SPLIT (R521). -/
  | lcSplit (g : Fin 8)
  /-- LC_RESULT (R520). -/
  | lcResult (h : CellHdr) (bs : List Byte)
  /-- ALARM (R522). -/
  | alarm (h : CellHdr) (bs : List Byte)
  /-- ALARM_WINDOW_END (R522). -/
  | alarmWindowEnd
  /-- HEARTBEAT (R530). -/
  | heartbeat (h : FrameHdr) (bs : List Byte)
  /-- GRAFT_COMMIT (R537). -/
  | graftCommit (h : FrameHdr) (bs : List Byte)
  /-- CRESULT (R537). -/
  | cresult (h : FrameHdr) (bs : List Byte)
  /-- FURROW (R538). -/
  | furrow (h : FrameHdr) (bs : List Byte)
  /-- MEMWR (R536). -/
  | memwr (h : FrameHdr) (bs : List Byte)
  /-- GRAFT_BEAM (R541). -/
  | graftBeam (h : FrameHdr) (bs : List Byte)
  /-- GRAFT_SYNC (R541). -/
  | graftSync (h : Option FrameHdr) (reply : Bool) (bs : List Byte)
  /-- GRAFT_HANDOFF (R540). -/
  | graftHandoff (h : FrameHdr) (bs : List Byte)
  /-- JOIN_REQ (R547). -/
  | joinReq (h : FrameHdr) (bs : List Byte)
  /-- JOIN_ACK (R547). -/
  | joinAck (h : FrameHdr) (bs : List Byte)
  /-- GRAFT_COPY (R547). -/
  | graftCopy (h : FrameHdr) (bs : List Byte)
  /-- REGIMG (R547). -/
  | regimg (h : FrameHdr) (bs : List Byte)
  /-- JOIN_DONE (R547). -/
  | joinDone (h : FrameHdr) (bs : List Byte)
  /-- GRAFT_RESEND (R529). -/
  | graftResend
  /-- HEARTBEAT_MISSED (R542). -/
  | heartbeatMissed
  /-- TAKEOVER (R544). -/
  | takeover
  /-- DEPOSED (R535). -/
  | deposed
  /-- PAIR_TIMEOUT (R534). -/
  | pairTimeout
  /-- GRF_JOIN (R549). -/
  | grfJoin (src : Fin 30)
  /-- GRF_LEAVE (R549). -/
  | grfLeave (src : Fin 30)
  /-- GRF_TAKEOVER (R543). -/
  | grfTakeover (src : Fin 30)
  /-- PWR_DOM_REQ (R552). -/
  | pwrDomReq (src : Fin 30) (w : Fin 3) (v : BitVec 32)
  /-- DOMAIN_SWITCH (R552). -/
  | domainSwitch
  /-- OFF_ACCESS (R553). -/
  | offAccess (src : Fin 30) (isWrite : Bool) (a : BitVec 48) (bs : List Byte)
  /-- STANDBY (R555). -/
  | standby (src : Fin 30)
  /-- CLOCHE (R556). -/
  | cloche (src : Fin 30)
  /-- PWR_RUN (R555). -/
  | pwrRun (src : Fin 30)
  /-- WAKE_EVENT (R556). -/
  | wakeEvent (source : Fin 8) (k : Fin 512)
  /-- CLUSTER_CLOCK_CHANGE (R561). -/
  | clusterClockChange (c : Fin 6)
  /-- THERMAL_SAMPLE (R565). -/
  | thermalSample (ts : List (BitVec 16))
  /-- DROOP (R566). -/
  | droop (m : Fin 16) (n : BitVec 32)
  /-- HEALTH_PLAN (R568). -/
  | healthPlan (margins : List (List (BitVec 16))) (bad : BitVec 8)
  /-- CAP_COMMIT_WAIT (R569). -/
  | capCommitWait
  /-- REF_LOSS (R575). -/
  | refLoss
  /-- DOM_REQ (R573). -/
  | domReq (m : BitVec 28)
  /-- DOM_ACK (R573). -/
  | domAck (on failed : BitVec 28)
  /-- MON_READ (R573). -/
  | monRead (first : BitVec 16) (count : Fin 16)
  /-- MON_DATA (R573). -/
  | monData (first : BitVec 16) (slacks : List (BitVec 32))
  /-- THERM (R573). -/
  | therm (sensor v : BitVec 16)
  /-- DROOP_REPORT (R573). -/
  | droopReport (m : Fin 16) (n : BitVec 32)
  /-- LOG_PUT (R584). -/
  | logPut (src : Fin 30) (v : BitVec 32)
  /-- LOG_ALM_RAISE (R579). -/
  | logAlmRaise (src : Fin 30) (v : BitVec 32)
  /-- ALARM_REPORT (R581). -/
  | alarmReport (subject : BitVec 12) (cls : BitVec 8) (bitmap at0 : BitVec 64) (detail : BitVec 32) (reporter : BitVec 12) (held : Bool)
  /-- ALARM_ENTRY_WRITE (R582). -/
  | alarmEntryWrite (p : Fin 3) (n : Fin 1024)
  /-- LOG_ALM_ACK (R583). -/
  | logAlmAck (src : Fin 30) (v : BitVec 32)
  /-- AUTO_ACK (R583). -/
  | autoAck (n : Fin 1024)
  /-- LOG_TAIL_DRAIN (R584). -/
  | logTailDrain (p : Fin 3)
  /-- LOG_RING_RD (R585). -/
  | logRingRd (src : Fin 30) (v : BitVec 32)
  /-- LOG_TRC_PUT (R587). -/
  | logTrcPut (src : Fin 30) (t : Fin 64) (v : BitVec 64)
  /-- CREDIT_BOUNDARY (R589). -/
  | creditBoundary
  /-- LOCK (R593). -/
  | lock (src : Fin 30) (confirm : BitVec 16)
  /-- PASSWORD (R595). -/
  | password (src : Fin 30)
  /-- CHALLENGE (R595). -/
  | challenge (src : Fin 30)
  /-- RESPOND (R595). -/
  | respond (src : Fin 30)
  /-- RELOCK (R591). -/
  | relock (src : Fin 30)
  /-- VERIFY (R601). -/
  | verify (src : Fin 30)
  /-- VERIFY_COMPLETE (R602). -/
  | verifyComplete
  /-- OTP_PROG (R599). -/
  | otpProg (src : Fin 30) (confirm : BitVec 16)
  /-- CODE_DENY (R603). -/
  | codeDeny (src : Fin 30) (a : BitVec 48) (bs : List Byte)
  /-- BOOT (R604). -/
  | boot (bootSrc : Fin 4) (slotA slotB : List Byte)
  /-- POR (R607). -/
  | por
  /-- PIN_RESET (R607). -/
  | pinReset
  /-- DEVICE_RESET (R607). -/
  | deviceReset (src : Fin 30)
  /-- CONTROL_PLANE_RESET (R607). -/
  | controlPlaneReset (src : Fin 30)
  /-- DATA_PLANE_RESET (R607). -/
  | dataPlaneReset (src : Fin 30)
  /-- MANAGEMENT_PLANE_RESET (R607). -/
  | managementPlaneReset (src : Fin 30)
  /-- BEAM_STOP (R609). -/
  | beamStop (reg : Option (BitVec 9)) (pinLow : Bool)
  /-- HOST_READ (R619). -/
  | hostRead (bar0 : Bool) (off : BitVec 32) (size : BitVec 13) (tag : BitVec 16)
  /-- HOST_WRITE (R619). -/
  | hostWrite (bar0 : Bool) (off : BitVec 32) (bs : List Byte)
  /-- HOST_READ_TIMEOUT (R619). -/
  | hostReadTimeout
  /-- PERST_N (R617). -/
  | perstN (low : Bool)
  /-- HOST_VEC_EOI (R620). -/
  | hostVecEoi (src : Fin 30) (v : BitVec 32)
  /-- MAILBOX_READ (R623). -/
  | mailboxRead (dst srcMac : BitVec 48) (ety : BitVec 16) (head data : List Byte)
  /-- MAILBOX_WRITE (R623). -/
  | mailboxWrite (dst srcMac : BitVec 48) (ety : BitVec 16) (head data : List Byte)
  /-- WAKE_FRAME (R625). -/
  | wakeFrame (dst srcMac : BitVec 48) (ety : BitVec 16) (head : List Byte)
  /-- HOST_MDIO (R627). -/
  | hostMdio (src : Fin 30) (v : BitVec 32)
  /-- GRAFT_LANE_LOCK (R527). -/
  | graftLaneLock (p : Fin 2)
  /-- GRAFT_PORT_LOSS (R527). -/
  | graftPortLoss (p : Fin 2)
  /-- RASTER_LANE_LOCK_LOSS (R446). -/
  | rasterLaneLockLoss (n : Fin 8)
  /-- CAMERA_LANE_SYNC (R393). -/
  | cameraLaneSync (p : Fin 16) (deskew : Bool)
  /-- DISPLAY_LINK_TRAINED (R458). -/
  | displayLinkTrained (p : Fin 3) (rate : BitVec 4) (lanes : BitVec 3)
  /-- PCIE_LINK_CHANGE (R627). -/
  | pcieLinkChange (st : Fin 4) (width rate : BitVec 3)
  /-- ETH_LINK_CHANGE (R627). -/
  | ethLinkChange (up : Bool)
  /-- MDIO_DONE (R627). -/
  | mdioDone (v : BitVec 16)
  /-- FUSE_PROGRAM_DONE (R599). -/
  | fuseProgramDone
  /-- LOG_TRACE_CELL (R577). -/
  | logTraceCell (h : CellHdr) (trace : Bool) (bs : List Byte)
  /-- WCK2DQ_TRACKING (R486). -/
  | wck2dqTracking (c : Fin 8)
  /-- SIEVE_RR_RD (R387). -/
  | sieveRrRd (src : Fin 30) (v : BitVec 32)
  /-- LOG_TRING_RD (R587). -/
  | logTringRd (src : Fin 30) (v : BitVec 32)
  /-- TAP_INSTRUCTION (R642). -/
  | tapInstruction (kind : Fin 5) (levels : BitVec 248)
deriving DecidableEq, Repr, Inhabited

end Sys2Proof
end

