-- ==== Sys2Proof/Decode.lean ====
section
/-! DEFINITION. Commands spelled by words: no row of spec/opcode_table.json has bits. -/
namespace Sys2Proof

/-- The command that a word spells by the table's bits: the table gives no row any, so none. -/
def decodeTableWord (_nbits _w : Nat) : Option Instr := none

end Sys2Proof
end

