-- ==== Sys2Proof/Config.lean ====
section
/-! DEFINITION. What one device fixes and the spec leaves open: factory values and the free values. None of the
constants here has a body a proof could use. -/
namespace Sys2Proof.Config

/-- The UID of the ID block, 'Factory' (R616, R508). -/
opaque uid : BitVec 64

/-- Whether the part is a GW964-E2 (R2, R616). -/
opaque isE2 : Bool

/-- The Vendor ID of HOST_PCI_ID, 'Factory' (R627). -/
opaque vendorId : BitVec 16

/-- The ordering code of ID_PART: 1 GW964-E1, 2 GW964-E2 (R616). -/
def partCode : Nat := if isE2 then 2 else 1

/-- ID_MAXCLK in MHz (R2, R616). -/
def maxClock : Nat := if isE2 then 1200 else 1000

/-- Reset value of HOST_ETH_MAC: ID_UID bits 47:0 with bit 41 set and bit 40 clear (R627). -/
def resetMac : Nat :=
  let m := uid.toNat % 2 ^ 48
  m % 2 ^ 40 + 2 ^ 41 + m / 2 ^ 42 * 2 ^ 42

/-- The free values: value number `n` of those a run meets, as an unbounded number that its reader cuts to width.
Nothing constrains it (log 1). -/
opaque freeValue : Nat → Nat

/-- The bytes an engine takes for an address with no target where the spec states none, by the count of free values used and the
address. Nothing constrains them (log 1). -/
opaque freeRead : Nat → Nat → Nat

end Sys2Proof.Config
end

