-- ==== Sys2Proof/Machine/Bits.lean ====
section
/-! DEFINITION. Bit fields, signed readings, sorted tables and byte strings: the plain helpers that the meanings share. -/
namespace Sys2Proof.Machine

/-- Field of `w` bits from bit `lo` (00, Numbers and units). -/
def bits (v lo w : Nat) : Nat := v / 2 ^ lo % 2 ^ w

/-- Bit `i` as a truth value. -/
def tb (v i : Nat) : Bool := v / 2 ^ i % 2 == 1

/-- `v` with the field of `w` bits from bit `lo` replaced by `x` modulo 2^w. -/
def putBits (v lo w x : Nat) : Nat := v % 2 ^ lo + (x % 2 ^ w) * 2 ^ lo + v / 2 ^ (lo + w) * 2 ^ (lo + w)

/-- Two's complement reading of a `w`-bit number. -/
def sx (w v : Nat) : Int := if v % 2 ^ w < 2 ^ (w - 1) then (v % 2 ^ w : Nat) else ((v % 2 ^ w : Nat) : Int) - 2 ^ w

/-- The low `w` bits of an integer, as two's complement. -/
def tw (w : Nat) (i : Int) : Nat := (i % (2 ^ w : Nat)).toNat

/-- A flag as a number. -/
def b2n (b : Bool) : Nat := if b then 1 else 0

/-- Clamp to a range. -/
def clampN (lo hi x : Nat) : Nat := max lo (min hi x)

def clampI (lo hi x : Int) : Int := max lo (min hi x)

/-- Bits of `v` selected by a byte-like mask, without bitwise rewriting of the rest: `v` where `m` is 0, `x` where it is 1. -/
def mergeMask (v x m : Nat) : Nat := (v &&& (v ^^^ (v &&& m))) ||| (x &&& m)

/-- Bits of `v` that `m` does not select. -/
def clearMask (v m : Nat) : Nat := v ^^^ (v &&& m)

/-- Rounding division to the nearest integer, ties away from zero. -/
def roundDiv (n : Int) (d : Nat) : Int :=
  if n < 0 then -((2 * (-n) + d) / (2 * d)) else (2 * n + d) / (2 * d)

/-- A table from keys to values in rising key order. -/
abbrev Tab (α : Type) := List (Nat × α)

/-- The entry of a key. -/
def aget {α : Type} : List (Nat × α) → Nat → Option α
  | [], _ => none
  | (j, v) :: t, k => if j = k then some v else aget t k

/-- The table without the entries of a key. -/
def aerase {α : Type} : List (Nat × α) → Nat → List (Nat × α)
  | [], _ => []
  | (j, w) :: t, k => if j = k then aerase t k else (j, w) :: aerase t k

/-- The table with the entry of a key; the order is kept. -/
def aput {α : Type} : List (Nat × α) → Nat → α → List (Nat × α)
  | [], k, v => [(k, v)]
  | (j, w) :: t, k, v =>
    if j = k then (k, v) :: t
    else if k < j then (k, v) :: (j, w) :: t
    else (j, w) :: aput t k v

/-- The table with the entry of a key set, or removed by `none`. -/
def aset {α : Type} (t : List (Nat × α)) (k : Nat) : Option α → List (Nat × α)
  | none => aerase t k
  | some v => aput t k v

/-- Read a table whose unlisted keys hold the default. -/
def tget {α : Type} [Inhabited α] (t : Tab α) (k : Nat) : α := (aget t k).getD default

/-- Write such a table; a default value is not listed. -/
def tput {α : Type} [Inhabited α] [DecidableEq α] (t : Tab α) (k : Nat) (v : α) : Tab α :=
  aset t k (if v = default then none else some v)

/-- Update one entry. -/
def tmod {α : Type} [Inhabited α] [DecidableEq α] (t : Tab α) (k : Nat) (f : α → α) : Tab α :=
  tput t k (f (tget t k))

/-- Little-endian bytes of a number. -/
def leBytes : Nat → Nat → List Nat
  | 0, _ => []
  | n + 1, v => v % 256 :: leBytes n (v / 256)

/-- Number of little-endian bytes. -/
def leNum : List Nat → Nat
  | [] => 0
  | b :: bs => b % 256 + 256 * leNum bs

/-- Field of `n` bytes from byte `i` of a byte string, little-endian; missing bytes read 0. -/
def leAt (bs : List Nat) (i n : Nat) : Nat := leNum ((bs.drop i).take n)

/-- One step of a reflected CRC. -/
def crcBit (poly c : Nat) : Nat := if c % 2 = 1 then (c / 2) ^^^ poly else c / 2

def crcByte (poly c b : Nat) : Nat :=
  let x := c ^^^ (b % 256)
  crcBit poly (crcBit poly (crcBit poly (crcBit poly (crcBit poly (crcBit poly (crcBit poly (crcBit poly x)))))))

/-- CRC-32C register after the bytes, reflected polynomial 0x82F63B78 (R19, R284). -/
def crc32cRaw (c : Nat) (bs : List Nat) : Nat := bs.foldl (crcByte 0x82F63B78) c

/-- CRC-32C of a byte string: register from all ones, result complemented (R19). -/
def crc32c (bs : List Nat) : Nat := crc32cRaw 0xFFFFFFFF bs ^^^ 0xFFFFFFFF

/-- The IEEE 802.3 frame check sequence of bytes (R219). -/
def fcs (bs : List Nat) : Nat := (bs.foldl (crcByte 0xEDB88320) 0xFFFFFFFF) ^^^ 0xFFFFFFFF

/-- Update of one element of a list. -/
def lset {α : Type} : List α → Nat → α → List α
  | [], _, _ => []
  | _ :: t, 0, x => x :: t
  | a :: t, n + 1, x => a :: lset t n x

/-- Serial-number order of R88: `a` is earlier than `b`. -/
def csnBefore (a b : Nat) : Bool :=
  let d := (b + 2 ^ 32 - a % 2 ^ 32) % 2 ^ 32
  decide (1 ≤ d) && decide (d < 2 ^ 31)

/-- Apply `f` to the numbers below `n`, in rising order. -/
def forN {α : Type} (n : Nat) (f : Nat → α → α) (a : α) : α := (List.range n).foldl (fun x i => f i x) a

end Sys2Proof.Machine
end

