-- ==== Sys2Proof/Machine/Line64.lean ====
section
/-! DEFINITION. The line code of the raster out, Trellis and Graft ports (17 R443, 20 R501, 21 R527): the 64b/66b blocks and the scrambler of IEEE
802.3 Clause 49, the dealing of blocks to four lanes and the alignment blocks. A block is a number of 66 bits in the order in which they are sent, bit 0
first: two bits of sync header, 2 for data and 1 for control, then eight octets (PRESUMED, log 104). -/
namespace Sys2Proof.Machine

def dataBlock (octets : List Nat) : Nat := 2 + leNum octets * 4

def ctrlBlock (ty : Nat) (octets : List Nat) : Nat := 1 + leNum (ty :: octets) * 4

/-- Types of the block that ends a frame with 0 to 7 octets in it. -/
def endTypes : List Nat := [0x87, 0x99, 0xAA, 0xB4, 0xCC, 0xD2, 0xE1, 0xFF]

/-- The blocks after the start block: eight octets each, and the terminate block with the rest. -/
def tailBlocks : Nat → List Nat → List Nat
  | 0, _ => []
  | n + 1, bs =>
    if bs.length < 8 then [ctrlBlock (endTypes.getD bs.length 0) bs] else dataBlock (bs.take 8) :: tailBlocks n (bs.drop 8)

/-- The blocks of a frame (R444): the start block carries its first seven octets (log 104). -/
def frameBlocks (bs : List Nat) : List Nat := ctrlBlock 0x78 (bs.take 7) :: tailBlocks (bs.length / 8 + 1) (bs.drop 7)

/-- One bit through the scrambler x^58 + x^39 + 1, whose state holds the last 58 bits sent, the last one as bit 0. -/
def scrBit (st b : Nat) : Nat := (b + st / 2 ^ 38 + st / 2 ^ 57) % 2

/-- `n` bits scrambled: the bits sent and the state after them. -/
def scramble : Nat → Nat → Nat → Nat × Nat
  | 0, st, _ => (0, st)
  | n + 1, st, v =>
    let b := scrBit st v
    let (x, st) := scramble n ((2 * st + b) % 2 ^ 58) (v / 2)
    (b + 2 * x, st)

/-- `n` received bits descrambled, with the state after them. -/
def descramble : Nat → Nat → Nat → Nat × Nat
  | 0, st, _ => (0, st)
  | n + 1, st, v =>
    let (x, st') := descramble n ((2 * st + v % 2) % 2 ^ 58) (v / 2)
    (scrBit st v + 2 * x, st')

/-- A block as one lane sends it: the sync header stays as it is. -/
def laneBlock (st blk : Nat) : Nat × Nat :=
  let (x, st) := scramble 64 st (blk / 4)
  (blk % 4 + x * 4, st)

/-- Blocks of a lane between its alignment blocks, one of them included (R443). -/
def alignPeriod : Nat := 16384

/-- What the four lanes carry for a run of blocks (R443): the block at place `n` goes to lane n mod 4; the first block of each lane in every period is
its alignment block. `st` holds the lanes' scramblers, each lane scrambling its own blocks (log 104). -/
def onLanes : Nat → Tab Nat → Nat → List Nat → List (Nat × Nat)
  | 0, _, _, _ => []
  | _, _, _, [] => []
  | fuel + 1, st, n, blk :: t =>
    let lane := n % 4
    let mark := n / 4 % alignPeriod == 0
    let (x, s) := laneBlock (tget st lane) (if mark then ctrlBlock 0x4B [lane] else blk)
    (lane, x) :: onLanes fuel (tput st lane s) (n + 1) (if mark then blk :: t else t)

/-- The octets of the blocks that follow a start block, up to the one that ends the frame; none where the coding fails. -/
def readTail : List Nat → Option (List Nat)
  | [] => none
  | blk :: t =>
    let octets := leBytes 8 (blk / 4)
    if blk % 4 = 2 then (readTail t).map fun l => octets ++ l
    else if blk % 4 ≠ 1 then none
    else match (List.range 8).find? fun k => endTypes.getD k 0 == octets.headD 0 with
      | some k => if t.isEmpty && ((octets.drop (k + 1)).all fun x => x == 0) then some ((octets.drop 1).take k) else none
      | none => none

/-- Received blocks of one lane, descrambled from the 58 bits before them. -/
def unscrambled : Nat → List Nat → List Nat
  | _, [] => []
  | st, blk :: t =>
    let (x, st) := descramble 64 st (blk / 4)
    (blk % 4 + x * 4) :: unscrambled st t

/-- The scrambler's state after a block as sent: its last 58 bits, the last one as bit 0. -/
def laneState (blk : Nat) : Nat := (List.range 58).foldl (fun a i => a + b2n (tb blk (65 - i)) * 2 ^ i) 0

/-- The octets of a received frame; none where its coding fails under Clause 49 (R444). -/
def readFrame (st : Nat) (blocks : List Nat) : Option (List Nat) :=
  match unscrambled st blocks with
  | [] => none
  | blk :: t =>
    let octets := leBytes 8 (blk / 4)
    if blk % 4 = 1 ∧ octets.headD 0 = 0x78 then (readTail t).map fun l => octets.drop 1 ++ l else none

end Sys2Proof.Machine
end

