-- ==== Sys2Proof/Machine/Parts.lean ====
section
/-! DEFINITION. The parts of the state, block by block (00 to 25). Every part is plain data whose default value is
what a reset leaves in it; registers are held in the register file of `Dev`. -/
namespace Sys2Proof.Machine

/-- Beam states of R54. -/
inductive BeamMode | off | run | hold | stale
deriving DecidableEq, Repr, Inhabited

def BeamMode.code : BeamMode → Nat
  | .off => 0 | .run => 1 | .hold => 2 | .stale => 3

/-- A broadcast record (R63). -/
structure BRec where
  pos : Nat
  frac : Nat
  lt : Nat
  vel : Int
  acc : Int
  fpf : Nat
  fpfChg : Bool
  jump : Bool
  src : Nat
  hold : Bool
  stale : Bool
  rev : Bool
  tick : Nat
  bseq : Nat
deriving DecidableEq, Repr, Inhabited

/-- A receiver's estimate of one beam (R64, R65): the last record, the difference still absorbed, the moment and
the value at which absorption began, and the steps counted. -/
structure Est where
  got : Bool
  last : BRec
  e : Int
  at0 : Nat
  base : Int
  steps : Nat
deriving DecidableEq, Repr, Inhabited

/-- One beam engine (R36 to R55). `l` is the linear count in units of 2^-32 dot; `rem` the part of a step below
that; velocities and accelerations are in units of 2^-48 / 250,000 dots/µs (per ms); `prev` is `l` at the last
determination of crossings, `jumped` the part of the last movement that was a jump (R42), and `back` the travel against REV since the last extreme
(R42); `raw` the source's value at the last step, none before it has one; `led` the movement, velocity and acceleration of the beam cycle before, which
a GEAR beam follows (R50); `corrDone` that the cam corrections of the crossings have been applied (R146). -/
structure Beam where
  l : Int
  rem : Int
  v : Int
  a : Int
  mode : BeamMode
  srcActive : Nat
  rev : Bool
  back : Int
  indexed : Bool
  fast : Bool
  raw : Option Int
  corrTot : Int
  corrK : Nat
  corrCarry : Int
  once : Bool
  lossTicks : Nat
  validTick : Bool
  led : Int × Int × Int
  jumpDie : Bool
  jumpStem : Bool
  fpfDie : Bool
  fpfStem : Bool
  bseqDie : Nat
  bseqStem : Nat
  prev : Int
  stepped : Int
  jumped : Int
  gearStale : Bool
  hist : List BRec
  crossings : List (Nat × Bool)
  corrDone : Bool
deriving DecidableEq, Repr, Inhabited

/-- Ticks and line time (R56 to R61, R653). -/
structure TickSt where
  start : Nat
  next : Nat
  realign : Option (Nat × Option Nat)
  ltFrac : Int
  ltAdj : Int
  firstLock : Bool
deriving DecidableEq, Repr, Inhabited

/-- Encoder levels as accepted, and the illegal transitions since the last tick boundary (R45). -/
structure Enc where
  a : Bool
  b : Bool
  z : Bool
  ill : Nat
deriving DecidableEq, Repr, Inhabited

/-- Commit group states (03, table before R81). -/
inductive GrpMode | empty | opened | pending | armed
deriving DecidableEq, Repr, Inhabited

def GrpMode.code : GrpMode → Nat
  | .empty => 0 | .opened => 1 | .pending => 2 | .armed => 3

/-- One commit group (R76 to R93). `why` is the poison cause, 0 for none; `order` the GO order; `applyLt` the apply
line time of IMMEDIATE, TICK and LINE commits once armed; `applyL` the boundary of FURROW and FIELD ones in dots; `seqWait` the mirror
acknowledgements that R119 waits for, `copyWait` that it waits for the copy of R121 in their place; `srcs` the sources of the staging writes that
the claims hold (R22); `doms` the domains to which an ARM was sent; `hostCsn` the CSN that this GO has in COMMIT_HOST_REC, 0 for none (R103). -/
structure Grp where
  mode : GrpMode
  csn : Nat
  why : Nat
  result : Nat
  bnd : Nat
  beam : Nat
  fabric : Bool
  order : Nat
  goSrc : Nat
  goLt : Nat
  ltTarget : Nat
  lineMoved : Bool
  armLt : Nat
  applyLt : Nat
  applyL : Int
  acks : List Nat
  retrained : Bool
  seqWait : Nat
  copyWait : Bool
  srcs : List Nat
  doms : List Nat
  hostCsn : Nat
  slipRun : Nat
  skip : Bool
  peer : Bool
  peers : List Nat
  peerTxn : Nat
  peerFrom : Nat
  ready : List Nat
  results : List Nat
  refusedBy : List Nat
  confirmed : Bool
  lost : Bool
deriving DecidableEq, Repr, Inhabited

/-- A claimed register with its staged value (R76). -/
structure Claim where
  grp : Nat
  val : Word
deriving DecidableEq, Repr, Inhabited

/-- What a remote domain holds of an armed commit (R89, R90). Domains: 1 image die, 2 management. -/
structure RArm where
  dom : Nat
  grp : Nat
  csn : Nat
  acked : Bool
  swapped : Bool
  retrained : Bool
  vals : List (Nat × Word)
  undo : List (Nat × Word)
deriving DecidableEq, Repr, Inhabited

/-- A read through the snapshot view that waits for READY (R94): its source, the register, since when, and whether it was a command of its own,
which returns by itself. -/
structure Stall where
  src : Nat
  key : Nat
  at0 : Nat
  own : Bool
deriving DecidableEq, Repr, Inhabited

/-- The commit gate (03). The keys of `grps` from 8 on are snapshot markers (R94, R95): `snapGrp` is that of the snapshot open or opening, `snapAt` when it was opened, and
a marker whose snapshot was closed stays under its own until it has applied. `stalled` are the reads that wait for the snapshot;
`recHi` is the captured high word of COMMIT_HOST_REC (R103). -/
structure CommitSt where
  grps : Tab Grp
  claims : Tab Claim
  remote : List RArm
  order : Nat
  snapOpen : Bool
  snapMarked : Bool
  snapReady : Bool
  snapOwner : Nat
  snapGrp : Nat
  snapAt : Nat
  snapCopy : Tab Word
  stalled : List Stall
  recHi : Nat
deriving DecidableEq, Repr, Inhabited

/-- A flit held for replay or for transmission (R19, R23, R24). -/
structure Flit where
  seq : Nat
  ty : Nat
  targ : Nat
  payload : List Nat
deriving DecidableEq, Repr, Inhabited

/-- An access that waits behind a Stem that carries no flits (R22, R24): its source, address and bytes (for a read as many as it takes), and the
count of GOs when it was issued. -/
structure HeldAcc where
  write : Bool
  src : Nat
  addr : Nat
  bytes : List Nat
  ord : Nat
deriving DecidableEq, Repr, Inhabited

/-- One die's end of the Stem (R19 to R29): the next SEQ, the retry buffer, the transmit queues, the next SEQ expected, the runs of NAKs sent and
received with the SEQ they name, the credits owed and returned by message type, the retrain under way (0 none, 1 fast, 2 full), the lanes that the
last full retrain locked, and the accesses that wait. -/
structure StemSt where
  txSeq : Nat
  retry : List Flit
  queue : List Flit
  rxNext : Nat
  nakSeq : Nat
  nakRun : Nat
  gotSeq : Nat
  gotRun : Nat
  owed : Tab Nat
  credits : Tab Nat
  retrain : Nat
  lanes : Nat
  held : List HeldAcc
deriving DecidableEq, Repr, Inhabited

/-- One interrupt source (R318, R319). `st`: 0 IDLE, 1 PENDING, 2 ACTIVE; `taken` marks a source that a core has
accepted and not yet claimed. -/
structure Irq where
  st : Nat
  cause : Bool
  latch : Bool
  lpay : Nat
  pay : Nat
  core : Nat
  again : Bool
  againPay : Nat
  taken : Bool
deriving DecidableEq, Repr, Inhabited

/-- One entry of a core's priority stack (R322, R342). -/
structure PriEnt where
  src : Nat
  level : Nat
  spurious : Bool
  claimed : Bool
deriving DecidableEq, Repr, Inhabited

/-- The controller (12): sources, the gap flag of each queue, the priority stacks with the top first, CORE_CLAIM's last
value, CORE_PAYLOAD and CORE_THR of each core (as 16 − threshold, so that the default is 16), and the level of each image-die source that was sent last
over the Stem (R338), and the queued records that wait to be written, in order: the queue, the address and the record, or no bytes for one that was
dropped (R337). -/
structure IntcSt where
  srcs : Tab Irq
  gap : Tab Bool
  prio : Tab (List PriEnt)
  payload : Tab Nat
  thrGap : Tab Nat
  imgSent : Tab Bool
  posts : List (Nat × Nat × List Nat)
deriving DecidableEq, Repr, Inhabited

/-- A log record (R578). -/
structure LogRec where
  lt : Nat
  seq : Nat
  node : Nat
  kind : Nat
  sev : Nat
  src : Nat
  code : Nat
  d0 : Nat
  d1 : Nat
  d2 : Nat
deriving DecidableEq, Repr, Inhabited

/-- One merge-table entry (R580) with, per path, the reports since it was last written, whether it is pending,
whether it was ever written and when (R582). -/
structure Alm where
  subject : Nat
  fclass : Nat
  mixed : Bool
  held : Bool
  count : Nat
  bitmap : Nat
  firstLt : Nat
  lastLt : Nat
  detail : Nat
  reporter : Nat
  new : Tab Nat
  pend : Tab Bool
  written : Tab Nat
deriving DecidableEq, Repr, Inhabited

/-- A trace record waiting in a path's buffer (R587). -/
structure TraceRec where
  lt : Nat
  node : Nat
  shift : Nat
  point : Nat
  count : Nat
  payload : Nat
deriving DecidableEq, Repr, Inhabited

/-- The LOG block (23). `put` holds D0 to D2 of each source (key 4 × source + i); `next` counts the records at the head of the tail that a
path has taken, `skip` those records of the tail's first GAP that it had taken before they were lost; `ms` is the present millisecond. -/
structure LogSt where
  alm : Tab Alm
  tail : List LogRec
  put : Tab Nat
  next : Tab Nat
  skip : Tab Nat
  ms : Nat
  offers : Tab Nat
  shift : Tab Nat
  buf : Tab (List TraceRec)
  offered : Tab Nat
  quiet : Tab Nat
  spentA : Tab Nat
  spentL : Tab Nat
  spentT : Tab Nat
deriving DecidableEq, Repr, Inhabited

/-- States of a core (R259). -/
inductive CoreMode | reset | run | wait | halt | faultHalt
deriving DecidableEq, Repr, Inhabited

def CoreMode.code : CoreMode → Nat
  | .reset => 0 | .run => 1 | .wait => 2 | .halt => 3 | .faultHalt => 4

/-- A store-buffer entry (R303, R304): device address, bytes, whether its instruction has retired, the count of GOs when it did (R22), and whether it
is the second half of the write that the entry before it begins. -/
structure SbEnt where
  addr : Nat
  bytes : List Nat
  released : Bool
  ord : Nat
  half : Bool
deriving DecidableEq, Repr, Inhabited

/-- Where a result goes once its operand specifier is evaluated (R246 to R249). -/
inductive Dest
  | reg (n : Nat)
  | mem (a size : Nat)
  | field (a size pos width : Nat)
deriving DecidableEq, Repr, Inhabited

/-- A pending long operation (R283): its destination, the result, its width in bytes, whether it is a MAC (R285), and the unit that holds a
bit-field destination as it was read (R248). -/
structure LongOp where
  dest : Dest
  val : Nat
  size : Nat
  mac : Bool
  unit : Nat
deriving DecidableEq, Repr, Inhabited

/-- The registers of one core (R235 to R237, R242). `gp` holds registers 0 to 6, 8 to 15 and 17 to 27 by number. -/
structure CoreRegs where
  gp : Tab Nat
  ssp : Nat
  usp : Nat
  user : Bool
  ie : Bool
  upin : Bool
  trace : Bool
  pc : Nat
deriving DecidableEq, Repr, Inhabited

/-- A control transfer waiting for its delay slot: the target if taken, the transfer's address, the registers as they stood before it, its
kind (0 CB, 1 J, 2 JSR, 3 JR, 4 RTS, 5 RTI), whether one of its accesses hit a watchpoint, and for RTI the PSW value restored and whether it
completes a source, with the entry of the priority stack that the slot no longer sees; the place to which a JSR still has to push its return
address; and the history and return stack from before the transfer (R254, R276, R277, R310). -/
structure Slot where
  target : Option Nat
  at0 : Nat
  undo : CoreRegs
  kind : Nat
  hit : Bool
  psw : Option Nat
  complete : Bool
  popped : Option PriEnt
  link : Option Nat
  hist : Nat
  ras : List Nat
deriving DecidableEq, Repr, Inhabited

/-- Where a core stands in an interrupt entry or an exit, which decides takeovers and chained entries (R331, R335): in an exit, SSP, EPC and
PSW from before the RTI. -/
inductive Phase
  | none
  | entered (src : Nat)
  | exiting (ssp epc psw : Nat)
deriving DecidableEq, Repr, Inhabited

/-- One Alolo core (09 to 11). `cmp` none is the reset value of CORE_CMP, all ones; `hit` says that CORE_CYCLE has reached it; `cycle` counts
thousandths of a cycle. `farWait` says that an instruction waits for a far read (R299); `far` holds its reads of other
nodes' export spaces: the address, and the data once they have come (no bytes: refused). `thrNew` is a threshold that CORE_THR has taken, with the core cycles until it is in force (R322). `icache` holds, by set and most recent first, line number, the device
address it was filled from, and 64 bytes (R294); `btb` tag, kind and target likewise (R308); `perf` the counters of R315 by offset. While a
CORE reset waits for released stores (R613), `draining` is the STATE shown meanwhile and `relNext` says that a RELEASE follows. -/
structure Core where
  r : CoreRegs
  mode : CoreMode
  why : Nat
  werr : Bool
  slot : Option Slot
  phase : Phase
  sb : List SbEnt
  long : List LongOp
  cycle : Nat
  cmp : Option Nat
  hit : Bool
  tctrl : Nat
  cycleHi : Nat
  ltHi : Nat
  faddr : Nat
  stepping : Bool
  halting : Bool
  draining : Option Nat
  relNext : Bool
  far : List (Nat × Option (List Nat))
  farWait : Bool
  thrNew : Option (Nat × Nat)
  slow : Nat
  icache : Tab (List (Nat × Nat × List Nat))
  hist : Nat
  pht : Tab Nat
  btb : Tab (List (Nat × Nat × Nat))
  ras : List Nat
  perf : Tab Nat
  perfCap : Tab Nat
deriving DecidableEq, Repr, Inhabited

/-- A host access not yet performed (R99, R619); `ord` is the count of GOs when it arrived (R22). -/
structure HostAcc where
  write : Bool
  eth : Bool
  addr : Nat
  bytes : List Nat
  size : Nat
  tag : Nat
  at0 : Nat
  ord : Nat
  abandoned : Bool
  sent : Bool
deriving DecidableEq, Repr, Inhabited

/-- The host interfaces (25): MSI-X table dwords, vectors pending and raised again, waiting accesses in order of arrival, the kept
responses (tag, status, data) and the last requester's address. -/
structure HostSt where
  msix : Tab Nat
  pend : Tab Bool
  again : Tab Bool
  waiting : List HostAcc
  kept : List (Nat × Nat × List Nat)
  lastEth : Nat
deriving DecidableEq, Repr, Inhabited

/-- An item record (R165 to R167). `state`: 0 FREE, 1 LIVE, 2 OUTBOUND. -/
structure Item where
  id : Nat
  cls : Nat
  lane : Nat
  beam : Nat
  state : Nat
  vpend : Nat
  measuring : Bool
  long : Bool
  printing : Bool
  origin : Nat
  quiet : Bool
  pos : Nat
  len : Nat
  sowTick : Nat
  verdict : Nat
  pjob : Nat
  gen : Nat
  users : List Nat
deriving DecidableEq, Repr, Inhabited

/-- An entry of the deadline queue (R187 to R189): a camera expectation or a print acknowledgement. -/
structure Deadline where
  slot : Nat
  key : Nat
  print : Bool
  at0 : Nat
deriving DecidableEq, Repr, Inhabited

/-- A command channel at work (R190): the beam cycles it still takes, and for FLUSH_BEAM the beam and the slots and ids yet to be harvested. -/
structure ItemCmd where
  left : Nat
  beam : Nat
  flush : List (Nat × Nat)
deriving DecidableEq, Repr, Inhabited

/-- The item engine (06): slots, the order in which freed slots wait and the first slot never used (R173), the beam
lists (R179), the item each pin measures (R177, slot and id), the deadline queue, the gap flag of the harvest ring, the
recipe generations by apply line time (R175), the slots changed since a beam's last FURROW record (R538), the command channels at work, and the
forward furrow crossings of this beam cycle by beam and dot, whose expiries end it (R172, R183). -/
structure ItemSt where
  store : Tab Item
  freed : List Nat
  fresh : Nat
  lists : Tab (List Nat)
  meas : Tab (Nat × Nat)
  dls : List Deadline
  gap : Bool
  gens : List (Nat × Nat)
  dirty : List Nat
  chans : Tab ItemCmd
  ends : List (Nat × Nat)
deriving DecidableEq, Repr, Inhabited

/-- A scheduled station action (R199, R205): the trigger position in 2^-32 dot, whether the beam's forward step has crossed it while it was live, and
once the estimate has reached it t_A and the beam cycle. -/
structure Sched where
  stn : Nat
  slot : Nat
  id : Nat
  aL : Int
  crossed : Bool
  due : Option Nat
  cyc : Nat
deriving DecidableEq, Repr, Inhabited

/-- An active station pulse (R210): its station, slot, pin and beam, its edges as linear counts, its start, its end once that is known, and the furrows
in which it contributes nothing, by their first dot (R201). -/
structure Pulse where
  stn : Nat
  slot : Nat
  pin : Nat
  beam : Nat
  aL : Int
  bL : Int
  start : Nat
  stop : Option Nat
  mute : List Nat
deriving DecidableEq, Repr, Inhabited

/-- A station output unit (R209): the input level and the polarity shown, the last edge while it may still prove too short (its line time, its level and
whether a station pulse made it), and the line time up to which ended pulses have been looked at. -/
structure StnPin where
  lvl : Bool
  pol : Bool
  edge : Option (Nat × Bool × Bool)
  upto : Nat
deriving DecidableEq, Repr, Inhabited

/-- An evaluation under way (R200): the stations to come, and for the present one the candidates to come, the qualifying ones so far and those beyond
the limit. -/
structure EvalRun where
  stns : List Nat
  cur : Option Nat
  cands : List Nat
  n : Nat
  excess : Nat
deriving DecidableEq, Repr, Inhabited

/-- A released furrow evaluation (R200): the first dot of its furrow, the frontiers and class sets at release, when the beam has
entered the furrow since, the one station it is for, if only one, and those it leaves out for evaluations of their own (R213), the qualifying
candidates counted by station, the station and slot pairs already checked (R204), its progress, and the predicted deadline. -/
structure Release where
  beam : Nat
  lo : Nat
  at0 : Nat
  fronts : Tab Int
  csets : Tab Word
  entered : Option Nat
  only : Option Nat
  except : List Nat
  noLate : Bool
  done : Bool
  run : Option EvalRun
  counts : Tab Nat
  seen : List (Nat × Nat)
  dl : Nat
deriving DecidableEq, Repr, Inhabited

/-- The station engine (07): frontiers, scheduled actions, pulses, evaluations, the output units, the estimate of each beam at its last cycle, the
stations whose evaluations of R213 wait for their beam to run, the checks made in this millisecond, and when the next ones may be made. -/
structure StnSt where
  front : Tab Int
  sched : List Sched
  pulses : List Pulse
  rel : List Release
  pins : Tab StnPin
  est : Tab Int
  owed : List Nat
  checks : Nat
  busy : Nat
deriving DecidableEq, Repr, Inhabited

/-- A reliable Trellis cell held by a port (R506). -/
structure Cell where
  seq : Nat
  cls : Nat
  sub : Nat
  dst : Nat
  src : Nat
  hops : Nat
  tree : Bool
  alt : Bool
  payload : List Nat
  at0 : Nat
deriving DecidableEq, Repr, Inhabited

/-- A ROUTE record received on a port (R510). -/
structure Route where
  hops : Nat
  cost : Nat
  path : List Nat
deriving DecidableEq, Repr, Inhabited

/-- One Trellis port (R502 to R510): `sentAt` when it last transmitted, `bytes` what it has sent in this millisecond, `rtAt` when a ROUTE record of a
destination last left, and `rtDue` the destinations whose record waits for its turn. -/
structure TrlPort where
  txSeq : Nat
  rxNext : Nat
  window : List Cell
  waiting : List Cell
  hellos : Nat
  rootSeen : Nat
  hopsSeen : Nat
  parentSeen : Nat
  routes : Tab Route
  sentAt : Nat
  bytes : Nat
  rtAt : Tab Nat
  rtDue : List Nat
deriving DecidableEq, Repr, Inhabited

/-- An alarm merge entry of a forwarding node (R522). -/
structure AlmWin where
  dst : Nat
  subject : Nat
  fclass : Nat
  count : Nat
  bitmap : Nat
  firstLt : Nat
  lastLt : Nat
  detail : Nat
  reporter : Nat
  ends : Nat
  merged : Bool
deriving DecidableEq, Repr, Inhabited

/-- An offer open at the upstream node, or a reservation at the downstream node (R517, R518). -/
structure Offer where
  txn : Nat
  node : Nat
  slot : Nat
  id : Nat
  at0 : Nat
  record : Option Item
  recovered : Bool
deriving DecidableEq, Repr, Inhabited

/-- A read of another node's export space that waits (R516): the tag of its last request, the source, the address, how many bytes it asks for, when that
request left, and the bytes that have come. -/
structure ExpRead where
  tag : Nat
  src : Nat
  addr : Nat
  len : Nat
  at0 : Nat
  got : List Nat
deriving DecidableEq, Repr, Inhabited

/-- The Trellis node (20). `prim` and `alt` hold port + 1 by destination, `adv` the path of a destination as last advertised; `uids` the root's ids
(R509); `lbeam` each line beam's exporter, its last record and when that came; `syncAt` when the next SYNC is due. -/
structure TrlSt where
  ports : Tab TrlPort
  idValid : Bool
  root : Nat
  rootHops : Nat
  parent : Option Nat
  parentUid : Nat
  prim : Tab Nat
  alt : Tab Nat
  adv : Tab Route
  held : List Cell
  uids : Tab Nat
  asked : Tab Nat
  lbeam : Tab (Nat × BRec × Nat)
  txn : Nat
  offers : List Offer
  resv : List Offer
  reads : List ExpRead
  readTag : Nat
  merge : List AlmWin
  sync : Nat
  syncAt : Nat
  lbNext : Tab Nat
  seenLc : List (Nat × Nat)
  seenTxn : List (Nat × Nat)
deriving DecidableEq, Repr, Inhabited

/-- A replicated commit on the standby (R537). -/
structure RepCommit where
  csn : Nat
  bnd : Nat
  beam : Nat
  apply : Nat
  vals : List (Nat × Word)
  undo : List (Nat × Word)
  swapped : Bool
deriving DecidableEq, Repr, Inhabited

/-- A handoff step held by the standby (R540): 1 OFFER, 2 RESERVE, 3 SETTLED. -/
structure HoStep where
  step : Nat
  slot : Nat
  txn : Nat
  peer : Nat
  record : Option Item
deriving DecidableEq, Repr, Inhabited

/-- Graft pairing (21). `sentF` holds the frames not acknowledged (GSEQ, TYPE, payload, when sent); `early` those that arrived ahead of their
turn; `part` records under way by TYPE; `await` cells that wait for the standby's acknowledgement (GSEQ, class, SUB, DST, payload);
`takeAt` and `deposeAt` the boundaries of a takeover and of becoming DEPOSED; `copied` that the join copy has been sent, `fedUid` to which member;
`txAt` and `bytes` when each port last transmitted and what it has sent in this millisecond. -/
structure GrfSt where
  gseq : Nat
  sentF : List (Nat × Nat × List Nat × Nat)
  rxNext : Nat
  early : Tab (Nat × List Nat)
  hellos : Tab Nat
  commits : List RepCommit
  caps : Tab (List (Nat × Nat × Bool))
  steps : List HoStep
  missed : Nat
  hbTick : Nat
  hbSeen : Bool
  peerRole : Nat
  peerEpoch : Nat
  peerUid : Nat
  pairEnds : Nat
  c0 : Nat
  units : List Nat
  setKeys : List Nat
  furrows : List Nat
  joinDone : Bool
  takeAt : Option Nat
  deposeAt : Option Nat
  part : Tab (List Nat)
  syncs : Nat
  copied : Bool
  fedUid : Nat
  txAt : Tab Nat
  bytes : Tab Nat
  await : List (Nat × Nat × Nat × Nat × List Nat)
  cut : Tab Nat
  highCsn : Nat
  tickLoad : Bool
deriving DecidableEq, Repr, Inhabited

/-- What the block sends out, in order (the model's own record of its outputs). -/
inductive Emit
  | flit (die : Nat) (bytes : List Nat)
  | nak (die seq : Nat)
  | cell (port : Nat) (bytes blocks : List Nat)
  | frame (port : Nat) (bytes blocks : List Nat)
  | downlink (port : Nat) (bytes groups : List Nat)
  | raster (port ty : Nat) (bytes blocks : List Nat)
  | eth (bytes : List Nat)
  | msix (vec : Nat)
  | pin (n : Nat) (level : Bool) (lt : Nat)
  | aux (port : Nat) (fields : List Nat)
  | i2c (port : Nat) (fields : List Nat)
  | mdio (fields : List Nat)
  | pmbus (rail cmd value : Nat)
  | tdm (port : Nat) (slots : List Nat) (sync data : List Bool) (rise : Bool)
  | completion (tag : Nat) (bytes : List Nat)
  | event (what : Nat) (fields : List Nat)
deriving DecidableEq, Repr, Inhabited

end Sys2Proof.Machine
end

