-- ==== Sys2Proof/Machine/PartsB.lean ====
section
/-! DEFINITION. The parts of the state of the sequencer, the cam engine, the drive ports, the timers and the field pins
(04, 05, 08, 13). Every default value is what a reset leaves. -/
namespace Sys2Proof.Machine

/-- A sequencer entry in the lookahead buffer (R106, R122): bank and index, position as a linear count in 2^-32 dot, its words. -/
structure SeqEnt where
  bank : Nat
  idx : Nat
  p : Int
  w0 : Nat
  w1 : Nat
  w2 : Nat
  w3 : Nat
deriving DecidableEq, Repr, Inhabited

/-- An entry that is fetched before those at the fetch pointer (R113, R114, R122): bank, index, the linear count of its field's start, and once its
crossing has been determined the beam cycles since. -/
structure SeqWait where
  bank : Nat
  idx : Nat
  lap : Int
  since : Option Nat
deriving DecidableEq, Repr, Inhabited

/-- One side of one beam's sequencer (R118, R122): the fetch pointer (index and the linear count of its field's start), the entries to fetch
before it, the buffer, the entries due in the next beam cycle, the last field of execution of each entry under ONCE (by 4,096 × bank + index), the
position last seen, for the image-die side the steps of its estimate and the scale of its last cycle (R65, R116), whether its mirror was not current
then (R121), and whether it stood still for want of broadcasts (R27, R120). -/
structure SeqSide where
  idx : Nat
  lap : Int
  wait : List SeqWait
  buf : List SeqEnt
  due : List SeqEnt
  once : Tab Nat
  prev : Int
  steps : Nat
  scale : Nat
  down : Bool
  still : Bool
deriving DecidableEq, Repr, Inhabited

/-- The sequencers (04): sides by 8 × die + beam, the image-die mirror of list memory by offset, and the forwarded writes not
yet acknowledged, oldest first; no bytes stands for the whole copy of R121. `lost` says that forwarded writes were lost with the mirror and that
copy has not been acknowledged since (R119). -/
structure SeqSt where
  sides : Tab SeqSide
  mirror : Tab Byte
  fwd : List (Nat × List Nat)
  lost : Bool
deriving DecidableEq, Repr, Inhabited

/-- Last output of a cam channel (R150, R161). -/
structure ChanOut where
  setp : Nat
  vff : Int
  tff : Int
  held : Bool
  ovr : Bool
deriving DecidableEq, Repr, Inhabited

/-- A CORR ramp (R148): old scroll, new scroll, and the whole dot of the apply as a linear count (R38). -/
structure Ramp where
  so : Int
  sn : Int
  at0 : Int
deriving DecidableEq, Repr, Inhabited

/-- The old bed of a beam that blends (R154 to R157), with the whole dot of its apply point and the latched scrolls and ADV by 8 × channel + i. -/
structure OldBed where
  bank : Nat
  half : Nat
  ls : Int
  n : Nat
  shape : Nat
  swAt : Nat
  latch : Tab Nat
deriving DecidableEq, Repr, Inhabited

/-- A switch channel's result for one furrow from one bed (R128, R143, R151): the level at dot 0, and the dots at which it toggles, rising. -/
structure SwSeg where
  start : Bool
  edges : List Nat
deriving DecidableEq, Repr, Inhabited

/-- The switch unit's results for one furrow of a beam (R151): the furrow, counted from linear count 0, the line time at which they are ready, and per
channel what the selected bed and, during a changeover, the old bed give. -/
structure SwRes where
  furrow : Nat
  ready : Nat
  new : Tab SwSeg
  old : Tab SwSeg
deriving DecidableEq, Repr, Inhabited

/-- The cam engine (05): corrections by channel (ACC, N, LAST), outputs, ramps, armed override occurrences by the field their window starts in, old
beds by beam, and for switch channels the level placed, the results kept by beam, and when the unit has done its work. -/
structure CamSt where
  acc : Tab (Int × Nat × Int)
  out : Tab ChanOut
  ramp : Tab Ramp
  armed : Tab (List Nat)
  old : Tab OldBed
  level : Tab Bool
  kept : Tab (List SwRes)
  busy : Nat
deriving DecidableEq, Repr, Inhabited

/-- Values of one axis as last delivered (R225, R233): with the line time of the position, whether any was delivered, and the position and line time
before it (R51). -/
structure DrvAx where
  stat : Nat
  act : Nat
  ferr : Nat
  cap0 : Nat
  cap1 : Nat
  slt : Nat
  got : Bool
  before : Option (Nat × Nat)
deriving DecidableEq, Repr, Inhabited

/-- The receiver of a drive port's line (R217, R218): its running disparity, the state of its synchronisation with the position and the good groups, and
the frame under way: when its /S/ arrived, its bytes, whether it held a code error, and whether its /T/ has come. -/
structure LineRx where
  rd : Bool
  sync : Nat
  even : Bool
  good : Nat
  frame : Option (Nat × List Nat × Bool × Bool)
deriving DecidableEq, Repr, Inhabited

/-- One drive port (08): the frame built for a tick and not yet sent (its tick, boundary line time, and the fields taken at
the boundary), when the line is free, transmit times by tick, consecutive misses, the windows in which the last two good uplinks came and the last one
found closed without (each as its tick plus 1, R225), the axes, the transmitter's running disparity, and the receiver. -/
structure DrvPort where
  frame : Option (Nat × Nat × List Nat)
  free : Nat
  sentAt : List (Nat × Nat)
  misses : Nat
  got : Nat × Nat
  closed : Nat
  axes : Tab DrvAx
  txRd : Bool
  line : LineRx
deriving DecidableEq, Repr, Inhabited

/-- One general timer (13): pending preloads, the output, and the phase of the CLK divider. -/
structure Tmr where
  pr : Option Nat
  pc0 : Option Nat
  pc1 : Option Nat
  out : Bool
  phase : Nat
  frozen : Bool
deriving DecidableEq, Repr, Inhabited

/-- A pin's running switch interval (R364): its end, and the level held meanwhile, or none for undriven. -/
structure PinSw where
  ends : Nat
  hold : Option Bool
deriving DecidableEq, Repr, Inhabited

/-- One field pin (13): the level that something outside drives, output latch, owner switch, the sleep state in force, and for filtered inputs the accepted level and the runs in progress (line time of the edge, level). -/
structure Pin where
  ext : Option Bool
  latch : Bool
  sw : Option PinSw
  sleep : Option (Option Bool)
  acc : Bool
  runs : List (Nat × Bool)
deriving DecidableEq, Repr, Inhabited

/-- The beam die's side of one camera port (R370, R373): the last trigger, the pulses and strobes not yet over as line times, and for
LINE mode the frontier, the number of triggers and the tags held, each with the linear count it waits for. -/
structure TrigPort where
  last : Option Nat
  pulses : List (Nat × Nat)
  strobes : List (Nat × Nat)
  front : Option Int
  count : Nat
  held : List (Int × List Nat)
deriving DecidableEq, Repr, Inhabited

end Sys2Proof.Machine
end

