-- ==== Sys2Proof/Machine/PartsC.lean ====
section
/-! DEFINITION. The parts of the state of the image die's blocks and of the audio, memory, power and host blocks
(14 to 19, 22 to 25). Every default value is what a reset leaves. -/
namespace Sys2Proof.Machine

/-- One camera line as received (R369, R374): its number, when it began and was complete, its bytes in memory form, and the
STATUS bits it gives its frame. -/
structure CamLine where
  n : Nat
  t0 : Nat
  t1 : Nat
  bytes : List Nat
  status : Nat
deriving DecidableEq, Repr, Inhabited

/-- A tagged frame being stored (R369, R372, R373): its tag, its slot and that slot's address, its number of lines and first line number, the lines
stored, the moments of its first and last line, and its STATUS. -/
structure CamFrame where
  tag : List Nat
  slot : Nat
  addr : Nat
  h : Nat
  first : Nat
  lines : Nat
  t0 : Nat
  t1 : Nat
  status : Nat
deriving DecidableEq, Repr, Inhabited

/-- What a port does with the lines that arrive (R372): nothing, discards a frame, holds a Frame Start (when it came, its lines so far, and whether
its Frame End has come), or stores the open frame since a Frame Start. -/
inductive CamRx
  | idle
  | discard
  | hold (at0 : Nat) (lines : List CamLine) (ended : Bool)
  | store (at0 : Nat)
deriving DecidableEq, Repr, Inhabited

/-- The image die's side of one camera port (14): queued tags, open frames, the slots in use, FSEQ, and for LINE mode the Frame
Starts seen, the lines of the present block and the last 64 lines. `sync` and `deskew` say that the lanes are in sync and calibrated, `bad` that the
configuration is invalid. -/
structure CamIn where
  sync : Bool
  deskew : Bool
  bad : Bool
  tags : List (List Nat)
  frames : List CamFrame
  used : List Nat
  fseq : Nat
  rx : CamRx
  y : Nat
  blocks : Nat
  inBlock : Nat
  recent : List CamLine
deriving DecidableEq, Repr, Inhabited

/-- A Sieve job (R377): the port and slot of its frame, the slot's address, the frame header, LT_LAST and the list. -/
structure SvJob where
  port : Nat
  slot : Nat
  addr : Nat
  head : List Nat
  last : Nat
  list : Nat
deriving DecidableEq, Repr, Inhabited

/-- A running job (R378 to R380): its list, the next index, descriptors executed, V0 to V15, BITS, the shift, the working image's
address and format (none: the stored frame), the golden entry, and the decoded data. -/
structure SvRun where
  job : SvJob
  base : Nat
  len : Nat
  idx : Nat
  steps : Nat
  v : List Nat
  bits_ : Nat
  sx_ : Int
  sy_ : Int
  work : Option Bool
  gold : List Nat
  miss : Bool
  data : List Nat
deriving DecidableEq, Repr, Inhabited

/-- One quad (R377): queued jobs in queue order, the running job with its start, and the busy spans of the last 100 ms. -/
structure Quad where
  queue : List SvJob
  run : Option (Nat × SvRun)
  spans : List (Nat × Nat)
deriving DecidableEq, Repr, Inhabited

/-- A sprite as drawn (R406 to R408). -/
structure Spr where
  x : Int
  y : Int
  addr : Nat
  w : Nat
  h : Nat
  fmt : Nat
  pal : Nat
  hf : Bool
  vf : Bool
  pri : Nat
  alpha : Nat
  mirror : Bool
deriving DecidableEq, Repr, Inhabited

/-- A swath start as a pipe takes it (R400): the item, its job, and the raster out port with its swath sequence. -/
structure SwStart where
  id : Nat
  slot : Nat
  pjob : Nat
  port : Nat
  seq : Nat
deriving DecidableEq, Repr, Inhabited

/-- A running pipe frame (R399 to R410): the latched registers, which the line list changes; its swath start; the number that selects
its writeback slot; whether its configuration is invalid and whether it shows the background alone; the golden entry; the sprite
table as read; the mirror request (0 none, 1 open, 2 taken, 3 late) and its items (u in dots, lane, definition); the
kept sprites; the line list's next entry and last LINE; the next output line; the lines of a selective update (R459). -/
structure PipeFrame where
  lat : Tab Nat
  start : Option SwStart
  k : Nat
  bad : Bool
  blank : Bool
  gold : Option (Nat × List Nat)
  table : List Nat
  mir : Nat
  items : List (Int × Nat × Nat)
  sprs : Option (List Spr)
  ll : Nat
  llLast : Nat
  line : Nat
  part : Option (Nat × Nat)
deriving DecidableEq, Repr, Inhabited

/-- One composition pipe (15): the running frame, queued swath starts, frames started, whether the configuration latched last was invalid, golden
entries waiting to be made valid, the tables by 2 × KIND + bank (no bytes: the reset content of R421), and the load in progress (kind, bank, source). -/
structure Pipe where
  frame : Option PipeFrame
  queue : List SwStart
  count : Nat
  bad : Bool
  golds : List (Nat × List Nat)
  banks : Tab (List Nat)
  load : Option (Nat × Nat × Nat)
deriving DecidableEq, Repr, Inhabited

/-- A swath on a raster out port (R447 to R454): the item, its predicted start, beam, first position, sequence, the lines each
source has delivered, the next line, the frontier, whether BEGIN was sent, the last fire time, lines sent and skipped, whether its
fault was reported, and the error rows of the planes. -/
structure Swath where
  id : Nat
  slot : Nat
  that : Nat
  beam : Nat
  aL : Int
  pjob : Nat
  seq : Nat
  got0 : List (List Nat)
  got1 : List (List Nat)
  k : Nat
  front : Option Int
  begun : Bool
  fire : Option Nat
  sent : Nat
  skipped : Nat
  faulted : Bool
  err : List (List Int)
deriving DecidableEq, Repr, Inhabited

/-- One raster out port (17): swaths in order, the sequence counter, PRINT_ENDs that wait for their fire time (slot, id, key, when),
good STATUS frames in a row and the last one's time, the line time of the last TIME frame and whether it has been answered, the FIRE_LT of the
last LINE frame, the last value of each plane, the threshold tables by 2 × plane + bank (no bytes: the reset content of R452) and the load in progress (plane, bank, source). -/
structure RasPort where
  swaths : List Swath
  seq : Nat
  ends : List (Nat × Nat × Nat × Nat)
  good : Nat
  lastGood : Nat
  timeAt : Option Nat
  answered : Bool
  lastFire : Option Nat
  last : List Nat
  banks : Tab (List Nat)
  load : Option (Nat × Nat × Nat)
deriving DecidableEq, Repr, Inhabited

/-- One display port (17): the sink's capabilities (rate, lanes, PSR, PSR2), a PSR entry (0 none, 1 waits for a frame start, 2 for that frame's
end), a selective update requested, and when training is tried again. -/
structure DispPort where
  rate : Nat
  lanes : Nat
  psr : Bool
  psr2 : Bool
  entering : Nat
  su : Option (Nat × Nat)
  retryAt : Option Nat
deriving DecidableEq, Repr, Inhabited

/-- One drawing engine (16): the clip rectangles (x0, y0, x1, y1; none: the whole plane), EXCL, and whether it stands in ERROR. -/
structure DrawEng where
  clips : List (Nat × Nat × Nat × Nat)
  excl : Nat
  halted : Bool
deriving DecidableEq, Repr, Inhabited

/-- One voice (R470 to R472): `st` 0 IDLE, 1 ATTACK, 2 DECAY, 3 SUSTAIN, 4 RELEASE; the envelope in 1/256; phase; position in
1/65,536 sample; the noise register; the last wave value. -/
structure Voice where
  st : Nat
  env : Nat
  phase : Nat
  pos : Nat
  noise : Nat
  last : Int
deriving DecidableEq, Repr, Inhabited

/-- One rate domain (R463, R467 to R469): outputs computed in its last frame, its active bank, the apply line time of a swap it has not
made, and the running crossfade (old bank, j, N). -/
structure AudDom where
  out : Tab Int
  sel : Nat
  swap : Option (Nat × Nat)
  ramp : Option (Nat × Nat × Nat)
  locked : Bool
deriving DecidableEq, Repr, Inhabited

/-- One TDM input port (R465): its elastic buffer and the samples in use. -/
structure TdmIn where
  buf : List (List Int)
  cur : List Int
deriving DecidableEq, Repr, Inhabited

/-- One order-analysis channel (R475 to R477): the segment whose samples it takes, counted since the beam's origin, those samples, whether one
was skipped, the completed segment that waits (segment, field, samples, dropped), outcomes of the last 8 fields and findings raised, by 16 × segment + band. -/
structure OaChan where
  seg : Option Nat
  cur : List Int
  bad : Bool
  done : Option (Nat × Nat × List Int × Bool)
  hist : Tab Nat
  raised : Tab Bool
deriving DecidableEq, Repr, Inhabited

/-- The audio subsystem (18): domains A, V and B, TDM inputs, voices, the B frontier and the last B sample's time, the order
analysis. -/
structure AudSt where
  doms : Tab AudDom
  tdm : Tab TdmIn
  voices : Tab Voice
  front : Option Int
  lastB : Option Nat
  oa : Tab OaChan
deriving DecidableEq, Repr, Inhabited

/-- One DMA engine (19): the channel served last plus one, channels with a tick credit, channels in ERROR, and the descriptor whose moves
are done and whose completion is due (channel, words, status, bytes, RD), with the HALT_ERR it started with. -/
structure DmaEng where
  last : Nat
  credit : List Nat
  halted : List Nat
  busy : Option (Nat × List Nat × Nat × Nat × Nat)
  halt : Bool
deriving DecidableEq, Repr, Inhabited

/-- Power, clocks and health (22). `low` is the low state wanted or held (0 none, 2 STANDBY, 3 CLOCHE); `step` how far its entry is
(0 none, 1 before the image die switches off, 2 since, 3 held); the domain being switched; when entry began; the wakes that came
during entry; the margins of each plan per margin domain (hours, margin) and the last slack of each monitor; rails without
further voltage changes; the lowered cap that waits (its deadline, and whether it must not wait); the droops of the second and when it
began; the caps that a CRIT replaced, and since when all sensors are cool; whether a trip holds the device; whether the reference is
lost; milliseconds of operation in the hour; the domains whose request to switch off was refused; whether a plan is to be made, and at how many hours
the last one was. -/
structure PwrSt where
  low : Nat
  step : Nat
  switching : Option (Nat × Bool)
  began : Nat
  woke : List Nat
  fit : Tab (List (Nat × Int))
  slack : Tab Nat
  stuck : List Nat
  capWait : Option (Nat × Bool)
  droops : Nat
  droopAt : Nat
  caps : List Nat
  coolAt : Option Nat
  trip : Bool
  refLost : Bool
  ms : Nat
  refused : List Nat
  planDue : Bool
  planAt : Nat
deriving DecidableEq, Repr, Inhabited

/-- A verified image that Flagar runs, or will run after its next reset (R600, R602). -/
structure FlagarImg where
  entry : Nat
  ssp : Nat
  load : Nat
  len : Nat
  hash : List Nat
  range : Nat
deriving DecidableEq, Repr, Inhabited

/-- Security and boot (24): the OTP store (LOCK fuses as a mask; fields not programmed are empty lists; fields whose check bits fail), the
programming in progress (field as SEC_OTP_SEL, 9 for LOCK, and its data), failures, when the next attempt
may be made, when the nonce expires (0: none), the image that a VERIFY has read, and Flagar's images. -/
structure SecSt where
  lock : Nat
  pwd : List Nat
  oem : List Nat
  pk : Tab (List Nat)
  spoiled : List Nat
  revoke : Nat
  rollback : Nat
  bootCfg : Nat
  busy : Option (Nat × List Nat)
  fails : Nat
  backAt : Nat
  nonceAt : Nat
  verify : Option (List Nat)
  flagar : Option FlagarImg
  next : Option FlagarImg
  tap : Nat
  extest : List (Nat × Bool)
deriving DecidableEq, Repr, Inhabited

end Sys2Proof.Machine
end

