-- ==== Sys2Proof/Machine/RegMap.lean ====
section
/-! DEFINITION. The register map: every register of the map tables of spec/ with its address, layout,
access codes and Reset value, and the lookup of an address in it (R7-R12, R15, R16; 19 R481). -/
namespace Sys2Proof.Machine

/-- One row of a register map table. `dims` gives, for each index of the name, how many there are and the
stride between them; the masks say which bits carry which access code of R12, and `cmt` which are staged (R15). -/
structure RegDef where
  base  : Nat
  dims  : List (Nat × Nat)
  width : Nat
  reset : Nat
  kept  : Bool
  rw    : Nat
  w1c   : Nat
  rc    : Nat
  wo    : Nat
  snap  : Nat
  cmt   : Nat
deriving DecidableEq, Repr

/-- The offset of `o` inside one register of an array with the given dimensions, if it lies in one. -/
def dimOffset : List (Nat × Nat) → Nat → Option Nat
  | [], o => some o
  | (n, s) :: ds, o => if o / s < n then dimOffset ds (o % s) else none

/-- The address of the register of row `r` that holds the byte at `a`, if there is one (R7). -/
def RegDef.keyOf (r : RegDef) (a : Nat) : Option Nat :=
  if a < r.base then none
  else match dimOffset r.dims (a - r.base) with
    | some o => if o < r.width / 8 then some (a - o) else none
    | none => none


namespace Reg

/-- R105. -/
def COMMIT_CSN : Nat := 0x30000000000
/-- R105. -/
def COMMIT_NEXT_CSN : Nat := 0x30000000004
/-- R105. -/
def COMMIT_CTRL : Nat := 0x30000000008
/-- R105. -/
def COMMIT_LINE_LEAD : Nat := 0x3000000000c
/-- R105. -/
def COMMIT_EVT : Nat := 0x30000000010
/-- R105. -/
def COMMIT_EVT_EN : Nat := 0x30000000014
/-- R105. -/
def COMMIT_SLIPS : Nat := 0x30000000018
/-- R105. -/
def COMMIT_RETIRED : Nat := 0x3000000001c
/-- R105. -/
def COMMIT_CONFLICTS : Nat := 0x30000000020
/-- R105. -/
def COMMIT_HOST_REC : Nat := 0x30000000028
/-- R105. -/
def COMMIT_SNAP_CTRL : Nat := 0x30000000030
/-- R105. -/
def COMMIT_SNAP_STATUS : Nat := 0x30000000034
/-- R105. -/
def COMMIT_SNAP_CSN : Nat := 0x30000000038
/-- R105. -/
def COMMIT_SNAP_LT : Nat := 0x30000000040
/-- R105. -/
def COMMIT_SNAP_TMO : Nat := 0x30000000048
/-- R105. -/
def COMMIT_SRC_GRP (s : Nat) : Nat := 0x30000000100 + s * 0x4
/-- R105. -/
def COMMIT_GRP_CTRL (g : Nat) : Nat := 0x30000000400 + g * 0x40
/-- R105. -/
def COMMIT_GRP_LT (g : Nat) : Nat := 0x30000000408 + g * 0x40
/-- R105. -/
def COMMIT_GRP_STATUS (g : Nat) : Nat := 0x30000000410 + g * 0x40
/-- R105. -/
def COMMIT_GRP_CSN (g : Nat) : Nat := 0x30000000414 + g * 0x40
/-- R105. -/
def COMMIT_GRP_CLAIMS (g : Nat) : Nat := 0x30000000418 + g * 0x40
/-- R105. -/
def COMMIT_GRP_SLIP (g : Nat) : Nat := 0x3000000041c + g * 0x40
/-- R105. -/
def COMMIT_GRP_APPLY_LT (g : Nat) : Nat := 0x30000000420 + g * 0x40
/-- R70. -/
def BEAM_CTRL (b : Nat) : Nat := 0x30000010000 + b * 0x1000
/-- R70. -/
def BEAM_FPF (b : Nat) : Nat := 0x30000010004 + b * 0x1000
/-- R70. -/
def BEAM_SRC_SEL (b : Nat) : Nat := 0x30000010008 + b * 0x1000
/-- R70. -/
def BEAM_RATIO (b : Nat) : Nat := 0x30000010010 + b * 0x1000
/-- R70. -/
def BEAM_OFFSET (b : Nat) : Nat := 0x30000010018 + b * 0x1000
/-- R70. -/
def BEAM_GEN_VEL (b : Nat) : Nat := 0x30000010020 + b * 0x1000
/-- R70. -/
def BEAM_GEN_ACC (b : Nat) : Nat := 0x30000010024 + b * 0x1000
/-- R70. -/
def BEAM_INDEX (b : Nat) : Nat := 0x30000010028 + b * 0x1000
/-- R70. -/
def BEAM_INDEX_TOL (b : Nat) : Nat := 0x3000001002c + b * 0x1000
/-- R70. -/
def BEAM_LOSS (b : Nat) : Nat := 0x30000010034 + b * 0x1000
/-- R70. -/
def BEAM_REV_HYST (b : Nat) : Nat := 0x30000010038 + b * 0x1000
/-- R70. -/
def BEAM_TICK_LEAD (b : Nat) : Nat := 0x3000001003c + b * 0x1000
/-- R70. -/
def BEAM_POS (b : Nat) : Nat := 0x30000010040 + b * 0x1000
/-- R70. -/
def BEAM_POS_LT (b : Nat) : Nat := 0x30000010048 + b * 0x1000
/-- R70. -/
def BEAM_VEL (b : Nat) : Nat := 0x30000010050 + b * 0x1000
/-- R70. -/
def BEAM_ACC (b : Nat) : Nat := 0x30000010054 + b * 0x1000
/-- R70. -/
def BEAM_STATUS (b : Nat) : Nat := 0x30000010058 + b * 0x1000
/-- R70. -/
def BEAM_EVT (b : Nat) : Nat := 0x3000001005c + b * 0x1000
/-- R70. -/
def BEAM_EVT_EN (b : Nat) : Nat := 0x30000010060 + b * 0x1000
/-- R70. -/
def BEAM_INDEX_ERR (b : Nat) : Nat := 0x30000010064 + b * 0x1000
/-- R70. -/
def BEAM_STALE_CNT (b : Nat) : Nat := 0x30000010068 + b * 0x1000
/-- R70. -/
def BEAM_TICK_POS (b : Nat) : Nat := 0x30000010070 + b * 0x1000
/-- R71. -/
def BEAM_LT : Nat := 0x30000018000
/-- R71. -/
def BEAM_LT_CTRL : Nat := 0x30000018008
/-- R71. -/
def BEAM_LT_STATUS : Nat := 0x3000001800c
/-- R71. -/
def BEAM_LT_SET : Nat := 0x30000018010
/-- R71. -/
def BEAM_LT_OFS : Nat := 0x30000018018
/-- R71. -/
def BEAM_TICK_PERIOD : Nat := 0x30000018020
/-- R71. -/
def BEAM_TICK_NUM : Nat := 0x30000018024
/-- R71. -/
def BEAM_TICK_ALIGN : Nat := 0x30000018028
/-- R71. -/
def BEAM_TICK_LOAD : Nat := 0x30000018030
/-- R71. -/
def BEAM_ENC_COUNT (e : Nat) : Nat := 0x30000018040 + e * 0x4
/-- R71. -/
def BEAM_ENC_CFG (e : Nat) : Nat := 0x30000018060 + e * 0x4
/-- R71. -/
def BEAM_ENC_ERR (e : Nat) : Nat := 0x30000018080 + e * 0x4
/-- R125. -/
def SEQ_CTRL (b : Nat) : Nat := 0x30000020000 + b * 0x1000
/-- R125. -/
def SEQ_LEN0 (b : Nat) : Nat := 0x30000020004 + b * 0x1000
/-- R125. -/
def SEQ_LEN1 (b : Nat) : Nat := 0x30000020008 + b * 0x1000
/-- R125. -/
def SEQ_STATUS (b : Nat) : Nat := 0x3000002000c + b * 0x1000
/-- R125. -/
def SEQ_EVT (b : Nat) : Nat := 0x30000020010 + b * 0x1000
/-- R125. -/
def SEQ_EVT_EN (b : Nat) : Nat := 0x30000020014 + b * 0x1000
/-- R125. -/
def SEQ_EXEC (b : Nat) : Nat := 0x30000020018 + b * 0x1000
/-- R125. -/
def SEQ_LATE (b : Nat) : Nat := 0x3000002001c + b * 0x1000
/-- R125. -/
def SEQ_LATE_MAX (b : Nat) : Nat := 0x30000020020 + b * 0x1000
/-- R125. -/
def SEQ_SKIP (b : Nat) : Nat := 0x30000020024 + b * 0x1000
/-- R125. -/
def SEQ_LAST (b : Nat) : Nat := 0x30000020028 + b * 0x1000
/-- R159. -/
def CAM_CHAN_CFG (c : Nat) : Nat := 0x30000030000 + c * 0x20
/-- R159. -/
def CAM_CHAN_ROUTE (c : Nat) : Nat := 0x30000030004 + c * 0x20
/-- R159. -/
def CAM_CHAN_ADV (c : Nat) : Nat := 0x30000030008 + c * 0x20
/-- R159. -/
def CAM_CHAN_TFF (c : Nat) : Nat := 0x3000003000c + c * 0x20
/-- R159. -/
def CAM_CORR_CFG (c : Nat) : Nat := 0x30000030010 + c * 0x20
/-- R159. -/
def CAM_CORR_IN (c : Nat) : Nat := 0x30000030014 + c * 0x20
/-- R159. -/
def CAM_CORR_ACC (c : Nat) : Nat := 0x30000030018 + c * 0x20
/-- R159. -/
def CAM_CHAN_OVR (c : Nat) : Nat := 0x3000003001c + c * 0x20
/-- R161. -/
def CAM_EVT : Nat := 0x3000003c000
/-- R161. -/
def CAM_EVT_EN : Nat := 0x3000003c004
/-- R161. -/
def CAM_SW_SHORT : Nat := 0x3000003c008
/-- R161. -/
def CAM_SW_LATE : Nat := 0x3000003c00c
/-- R161. -/
def CAM_OVR_MERGE : Nat := 0x3000003c010
/-- R161. -/
def CAM_OVR_REQ : Nat := 0x3000003c014
/-- R161. -/
def CAM_PROBE_SEL : Nat := 0x3000003c018
/-- R161. -/
def CAM_EVAL_MAX : Nat := 0x3000003c01c
/-- R161. -/
def CAM_PROBE : Nat := 0x3000003c020
/-- R162. -/
def CAM_BED (b : Nat) : Nat := 0x3000003c100 + b * 0x20
/-- R162. -/
def CAM_BED_STATUS (b : Nat) : Nat := 0x3000003c104 + b * 0x20
/-- R162. -/
def CAM_BLEND_START (b : Nat) : Nat := 0x3000003c108 + b * 0x20
/-- R162. -/
def CAM_BLEND_W (b : Nat) : Nat := 0x3000003c110 + b * 0x20
/-- R163. -/
def CAM_PAL_GAIN (p : Nat) : Nat := 0x3000003d000 + p * 0x8
/-- R163. -/
def CAM_PAL_OFS (p : Nat) : Nat := 0x3000003d004 + p * 0x8
/-- R160. -/
def CAM_SCROLL_BASE (c : Nat) : Nat := 0x30000038000 + c * 0x10
/-- R160. -/
def CAM_SCROLL_TRIM (c : Nat) : Nat := 0x30000038004 + c * 0x10
/-- R160. -/
def CAM_SCROLL_CORR (c : Nat) : Nat := 0x30000038008 + c * 0x10
/-- R160. -/
def CAM_SCROLL_OPER (c : Nat) : Nat := 0x3000003800c + c * 0x10
/-- R192. -/
def ITEM_CTRL : Nat := 0x30000040000
/-- R192. -/
def ITEM_STATUS : Nat := 0x30000040004
/-- R192. -/
def ITEM_EVT : Nat := 0x30000040008
/-- R192. -/
def ITEM_EVT_EN : Nat := 0x3000004000c
/-- R192. -/
def ITEM_RECIPE_GEN : Nat := 0x30000040010
/-- R192. -/
def ITEM_RESERVE : Nat := 0x30000040014
/-- R192. -/
def ITEM_VERDICT_DL : Nat := 0x30000040018
/-- R192. -/
def ITEM_VERDICT_BSTOP : Nat := 0x3000004001c
/-- R192. -/
def ITEM_SEQ_NEXT : Nat := 0x30000040020
/-- R192. -/
def ITEM_DL_USED : Nat := 0x30000040024
/-- R192. -/
def ITEM_SOW_DROP : Nat := 0x30000040028
/-- R192. -/
def ITEM_VERDICT_STALE : Nat := 0x3000004002c
/-- R192. -/
def ITEM_VERDICT_LATE : Nat := 0x30000040030
/-- R192. -/
def ITEM_TOUCH_CNT : Nat := 0x30000040034
/-- R192. -/
def ITEM_WR_DENY : Nat := 0x30000040038
/-- R192. -/
def ITEM_RESOW_SUPP : Nat := 0x3000004003c
/-- R192. -/
def ITEM_HRING_BASE : Nat := 0x30000040040
/-- R192. -/
def ITEM_HRING_CFG : Nat := 0x30000040048
/-- R192. -/
def ITEM_HRING_WR : Nat := 0x3000004004c
/-- R192. -/
def ITEM_HRING_RD : Nat := 0x30000040050
/-- R192. -/
def ITEM_HRING_DROP : Nat := 0x30000040054
/-- R192. -/
def ITEM_EXPIRE_CNT : Nat := 0x30000040058
/-- R192. -/
def ITEM_BEAM_LIVE (b : Nat) : Nat := 0x30000040100 + b * 0x10
/-- R192. -/
def ITEM_PJOB (b : Nat) : Nat := 0x30000040104 + b * 0x10
/-- R192. -/
def ITEM_PJOB_CFG (b : Nat) : Nat := 0x30000040108 + b * 0x10
/-- R193. -/
def ITEM_SOW_CFG (n : Nat) : Nat := 0x30000040400 + n * 0x8
/-- R193. -/
def ITEM_SOW_DIST (n : Nat) : Nat := 0x30000040404 + n * 0x8
/-- R194. -/
def ITEM_CLASS_LEN (k : Nat) : Nat := 0x30000041000 + k * 0x20
/-- R194. -/
def ITEM_CLASS_MAXLEN (k : Nat) : Nat := 0x30000041004 + k * 0x20
/-- R194. -/
def ITEM_CLASS_CFG (k : Nat) : Nat := 0x30000041008 + k * 0x20
/-- R194. -/
def ITEM_CLASS_REJ (k : Nat) : Nat := 0x30000041010 + k * 0x20
/-- R195. -/
def ITEM_CMD (ch : Nat) : Nat := 0x30000043000 + ch * 0x100
/-- R195. -/
def ITEM_CMD_STATUS (ch : Nat) : Nat := 0x30000043004 + ch * 0x100
/-- R195. -/
def ITEM_CMD_BUF (ch : Nat) (w : Nat) : Nat := 0x30000043040 + ch * 0x100 + w * 0x4
/-- R214. -/
def STN_CFG (s : Nat) : Nat := 0x30000044000 + s * 0x40
/-- R214. -/
def STN_DIST (s : Nat) : Nat := 0x30000044004 + s * 0x40
/-- R214. -/
def STN_WS (s : Nat) : Nat := 0x30000044008 + s * 0x40
/-- R214. -/
def STN_WE (s : Nat) : Nat := 0x3000004400c + s * 0x40
/-- R214. -/
def STN_LANES (s : Nat) : Nat := 0x30000044010 + s * 0x40
/-- R214. -/
def STN_ARG (s : Nat) : Nat := 0x30000044014 + s * 0x40
/-- R214. -/
def STN_ARG2 (s : Nat) : Nat := 0x30000044018 + s * 0x40
/-- R214. -/
def STN_LMIN (s : Nat) : Nat := 0x3000004401c + s * 0x40
/-- R214. -/
def STN_VMASK (s : Nat) : Nat := 0x30000044020 + s * 0x40
/-- R214. -/
def STN_LMAX (s : Nat) : Nat := 0x30000044028 + s * 0x40
/-- R214. -/
def STN_STATUS (s : Nat) : Nat := 0x3000004402c + s * 0x40
/-- R214. -/
def STN_FIRED (s : Nat) : Nat := 0x30000044030 + s * 0x40
/-- R214. -/
def STN_MISSED (s : Nat) : Nat := 0x30000044034 + s * 0x40
/-- R214. -/
def STN_ACT_MISS (s : Nat) : Nat := 0x30000044038 + s * 0x40
/-- R214. -/
def STN_LAST_ID (s : Nat) : Nat := 0x3000004403c + s * 0x40
/-- R215. -/
def STN_CTRL : Nat := 0x3000004c000
/-- R215. -/
def STN_EVT : Nat := 0x3000004c004
/-- R215. -/
def STN_EVT_EN : Nat := 0x3000004c008
/-- R215. -/
def STN_OVF_CNT : Nat := 0x3000004c00c
/-- R215. -/
def STN_LATE_CNT : Nat := 0x3000004c010
/-- R215. -/
def STN_LATE_MAX : Nat := 0x3000004c014
/-- R215. -/
def STN_LOAD : Nat := 0x3000004c018
/-- R215. -/
def STN_LOAD_MAX : Nat := 0x3000004c01c
/-- R215. -/
def STN_PIN_SHORT : Nat := 0x3000004c020
/-- R216. -/
def STN_PIN_CFG (p : Nat) : Nat := 0x3000004d000 + p * 0x8
/-- R216. -/
def STN_PIN_STATE (p : Nat) : Nat := 0x3000004d004 + p * 0x8
/-- R216. -/
def STN_CSET (k : Nat) (w : Nat) : Nat := 0x3000004c400 + k * 0x20 + w * 0x4
/-- R232. -/
def DRV_CFG (p : Nat) : Nat := 0x30000050000 + p * 0x200
/-- R232. -/
def DRV_STATUS (p : Nat) : Nat := 0x30000050004 + p * 0x200
/-- R232. -/
def DRV_EVT (p : Nat) : Nat := 0x30000050008 + p * 0x200
/-- R232. -/
def DRV_EVT_EN (p : Nat) : Nat := 0x3000005000c + p * 0x200
/-- R232. -/
def DRV_LINK (p : Nat) : Nat := 0x30000050010 + p * 0x200
/-- R232. -/
def DRV_OUT (p : Nat) : Nat := 0x30000050014 + p * 0x200
/-- R232. -/
def DRV_OUT_SENT (p : Nat) : Nat := 0x30000050018 + p * 0x200
/-- R232. -/
def DRV_IN (p : Nat) : Nat := 0x3000005001c + p * 0x200
/-- R232. -/
def DRV_IN_MASK (p : Nat) : Nat := 0x30000050020 + p * 0x200
/-- R232. -/
def DRV_CRC_ERR (p : Nat) : Nat := 0x30000050024 + p * 0x200
/-- R232. -/
def DRV_CODE_ERR (p : Nat) : Nat := 0x30000050028 + p * 0x200
/-- R232. -/
def DRV_MISS (p : Nat) : Nat := 0x3000005002c + p * 0x200
/-- R232. -/
def DRV_LINK_DOWN (p : Nat) : Nat := 0x30000050030 + p * 0x200
/-- R232. -/
def DRV_REMOTE_EPOCH (p : Nat) : Nat := 0x30000050034 + p * 0x200
/-- R232. -/
def DRV_REMOTE_ERR (p : Nat) : Nat := 0x30000050038 + p * 0x200
/-- R232. -/
def DRV_SLT (p : Nat) : Nat := 0x300000501c0 + p * 0x200
/-- R233. -/
def DRV_AX_CW (p : Nat) (a : Nat) : Nat := 0x30000050040 + p * 0x200 + a * 0x30
/-- R233. -/
def DRV_AX_STAT (p : Nat) (a : Nat) : Nat := 0x30000050044 + p * 0x200 + a * 0x30
/-- R233. -/
def DRV_AX_ACT (p : Nat) (a : Nat) : Nat := 0x30000050048 + p * 0x200 + a * 0x30
/-- R233. -/
def DRV_AX_FERR (p : Nat) (a : Nat) : Nat := 0x30000050050 + p * 0x200 + a * 0x30
/-- R233. -/
def DRV_AX_CAP0 (p : Nat) (a : Nat) : Nat := 0x30000050058 + p * 0x200 + a * 0x30
/-- R233. -/
def DRV_AX_CAP1 (p : Nat) (a : Nat) : Nat := 0x30000050060 + p * 0x200 + a * 0x30
/-- R233. -/
def DRV_AX_SETP (p : Nat) (a : Nat) : Nat := 0x30000050068 + p * 0x200 + a * 0x30
/-- R234. -/
def DRV_TXOFS : Nat := 0x30000058000
/-- R234. -/
def DRV_APPLY : Nat := 0x30000058004
/-- R234. -/
def DRV_PORT_EVT : Nat := 0x30000058008
/-- R234. -/
def DRV_FRAME_OVR : Nat := 0x30000058010
/-- R358. -/
def TMR_CTRL (n : Nat) : Nat := 0x30000060000 + n * 0x40
/-- R358. -/
def TMR_SRC (n : Nat) : Nat := 0x30000060004 + n * 0x40
/-- R358. -/
def TMR_PRESC (n : Nat) : Nat := 0x30000060008 + n * 0x40
/-- R358. -/
def TMR_CAP_CFG (n : Nat) : Nat := 0x3000006000c + n * 0x40
/-- R358. -/
def TMR_RELOAD (n : Nat) : Nat := 0x30000060010 + n * 0x40
/-- R358. -/
def TMR_CMP0 (n : Nat) : Nat := 0x30000060014 + n * 0x40
/-- R358. -/
def TMR_CMP1 (n : Nat) : Nat := 0x30000060018 + n * 0x40
/-- R358. -/
def TMR_COUNT (n : Nat) : Nat := 0x3000006001c + n * 0x40
/-- R358. -/
def TMR_SNAP (n : Nat) : Nat := 0x30000060020 + n * 0x40
/-- R358. -/
def TMR_CAP (n : Nat) : Nat := 0x30000060024 + n * 0x40
/-- R358. -/
def TMR_LOAD (n : Nat) : Nat := 0x30000060028 + n * 0x40
/-- R358. -/
def TMR_STATUS (n : Nat) : Nat := 0x3000006002c + n * 0x40
/-- R358. -/
def TMR_EVT (n : Nat) : Nat := 0x30000060030 + n * 0x40
/-- R358. -/
def TMR_EVT_EN (n : Nat) : Nat := 0x30000060034 + n * 0x40
/-- R366. -/
def PIN_CFG (i : Nat) : Nat := 0x30000070000 + i * 0x4
/-- R366. -/
def PIN_LEVEL (b : Nat) : Nat := 0x30000070400 + b * 0x4
/-- R366. -/
def PIN_OUT (b : Nat) : Nat := 0x30000070420 + b * 0x4
/-- R366. -/
def PIN_OE (b : Nat) : Nat := 0x30000070440 + b * 0x4
/-- R366. -/
def PIN_EVT : Nat := 0x30000070460
/-- R366. -/
def PIN_SWITCHES : Nat := 0x30000070464
/-- R343. -/
def INTC_SRC_CFG (k : Nat) : Nat := 0x30000080000 + k * 0x8
/-- R343. -/
def INTC_SRC_TGT (k : Nat) : Nat := 0x30000080004 + k * 0x8
/-- R343. -/
def INTC_SRC_STATE (k : Nat) : Nat := 0x30000081000 + k * 0x8
/-- R343. -/
def INTC_SRC_PAYLOAD (k : Nat) : Nat := 0x30000081004 + k * 0x8
/-- R343. -/
def INTC_PIN_CFG (n : Nat) : Nat := 0x30000082100 + n * 0x4
/-- R343. -/
def INTC_Q_BASE (q : Nat) : Nat := 0x30000083000 + q * 0x20
/-- R343. -/
def INTC_Q_CFG (q : Nat) : Nat := 0x30000083008 + q * 0x20
/-- R343. -/
def INTC_Q_WR (q : Nat) : Nat := 0x3000008300c + q * 0x20
/-- R343. -/
def INTC_Q_RD (q : Nat) : Nat := 0x30000083010 + q * 0x20
/-- R343. -/
def INTC_Q_DROP (q : Nat) : Nat := 0x30000083014 + q * 0x20
/-- R343. -/
def INTC_Q_SEQ (q : Nat) : Nat := 0x30000083018 + q * 0x20
/-- R343. -/
def INTC_CORE_STATE (c : Nat) : Nat := 0x30000084000 + c * 0x10
/-- R344. -/
def INTC_EVT : Nat := 0x30000085000
/-- R344. -/
def INTC_FAULT : Nat := 0x30000085004
/-- R344. -/
def INTC_MERGE : Nat := 0x30000085008
/-- R344. -/
def INTC_SPURIOUS : Nat := 0x3000008500c
/-- R344. -/
def INTC_RAISE : Nat := 0x30000085010
/-- R344. -/
def INTC_RAISE_PAYLOAD : Nat := 0x30000085014
/-- R344. -/
def INTC_PEND (w : Nat) : Nat := 0x30000085100 + w * 0x4
/-- R479. -/
def AUD_CTRL : Nat := 0x30000090000
/-- R479. -/
def AUD_BANK : Nat := 0x30000090004
/-- R479. -/
def AUD_DOM_A : Nat := 0x30000090008
/-- R479. -/
def AUD_DOM_V : Nat := 0x3000009000c
/-- R479. -/
def AUD_B_CFG : Nat := 0x30000090010
/-- R479. -/
def AUD_STATUS : Nat := 0x30000090014
/-- R479. -/
def AUD_EVT : Nat := 0x30000090018
/-- R479. -/
def AUD_EVT_EN : Nat := 0x3000009001c
/-- R479. -/
def AUD_KEY_ON : Nat := 0x30000090020
/-- R479. -/
def AUD_KEY_OFF : Nat := 0x30000090024
/-- R479. -/
def AUD_VOICE_ACT : Nat := 0x30000090028
/-- R479. -/
def AUD_CLIP : Nat := 0x3000009002c
/-- R479. -/
def AUD_SLIP : Nat := 0x30000090030
/-- R479. -/
def AUD_B_OVR : Nat := 0x30000090034
/-- R479. -/
def AUD_SEG_DROP : Nat := 0x30000090038
/-- R479. -/
def AUD_VOICE_UR : Nat := 0x3000009003c
/-- R479. -/
def AUD_FIND_CNT : Nat := 0x30000090040
/-- R479. -/
def AUD_FRAME_ERR : Nat := 0x30000090044
/-- R479. -/
def AUD_FIND : Nat := 0x30000090048
/-- R479. -/
def AUD_OA_BASE : Nat := 0x30000090050
/-- R479. -/
def AUD_OA_BAND (b : Nat) : Nat := 0x30000090060 + b * 0x4
/-- R479. -/
def AUD_OA_CFG (c : Nat) : Nat := 0x300000900a0 + c * 0x4
/-- R479. -/
def AUD_TDMI_CFG (p : Nat) : Nat := 0x30000090100 + p * 0x4
/-- R479. -/
def AUD_TDMO_CFG (p : Nat) : Nat := 0x30000090110 + p * 0x4
/-- R480. -/
def AUD_IN_SRC (k : Nat) (i : Nat) : Nat := 0x30000094000 + k * 0x4000 + i * 0x4
/-- R480. -/
def AUD_OUT_DST (k : Nat) (o : Nat) : Nat := 0x30000094200 + k * 0x4000 + o * 0x4
/-- R480. -/
def AUD_VOICE (k : Nat) (v : Nat) (w : Nat) : Nat := 0x30000094400 + k * 0x4000 + v * 0x20 + w * 0x4
/-- R480. -/
def AUD_GAIN (k : Nat) (j : Nat) : Nat := 0x30000095000 + k * 0x4000 + j * 0x4
/-- R500. -/
def DMAB_CH_CFG (c : Nat) : Nat := 0x300000a0000 + c * 0x40
/-- R500. -/
def DMAB_CH_BASE (c : Nat) : Nat := 0x300000a0008 + c * 0x40
/-- R500. -/
def DMAB_CH_WR (c : Nat) : Nat := 0x300000a0010 + c * 0x40
/-- R500. -/
def DMAB_CH_RD (c : Nat) : Nat := 0x300000a0014 + c * 0x40
/-- R500. -/
def DMAB_CH_STATUS (c : Nat) : Nat := 0x300000a0018 + c * 0x40
/-- R500. -/
def DMAB_CH_CTRL (c : Nat) : Nat := 0x300000a001c + c * 0x40
/-- R500. -/
def DMAB_CH_BYTES (c : Nat) : Nat := 0x300000a0020 + c * 0x40
/-- R500. -/
def DMAB_EVT : Nat := 0x300000a0800
/-- R500. -/
def DMAB_EVT_EN : Nat := 0x300000a0804
/-- R500. -/
def DMAB_ERRS : Nat := 0x300000a0808
/-- R500. -/
def DMAB_OVERLAP : Nat := 0x300000a080c
/-- R500. -/
def DMAB_LOAD : Nat := 0x300000a0810
/-- R524. -/
def TRL_PORT_CFG (p : Nat) : Nat := 0x300000b0000 + p * 0x1000
/-- R524. -/
def TRL_PORT_STATUS (p : Nat) : Nat := 0x300000b0004 + p * 0x1000
/-- R524. -/
def TRL_PORT_UID (p : Nat) : Nat := 0x300000b0008 + p * 0x1000
/-- R524. -/
def TRL_PORT_DELAY (p : Nat) : Nat := 0x300000b0010 + p * 0x1000
/-- R524. -/
def TRL_PORT_CRC (p : Nat) : Nat := 0x300000b0014 + p * 0x1000
/-- R524. -/
def TRL_PORT_REPLAY (p : Nat) : Nat := 0x300000b0018 + p * 0x1000
/-- R524. -/
def TRL_PORT_DOWN (p : Nat) : Nat := 0x300000b001c + p * 0x1000
/-- R524. -/
def TRL_PORT_LOAD (p : Nat) : Nat := 0x300000b0020 + p * 0x1000
/-- R525. -/
def TRL_CFG : Nat := 0x300000b8000
/-- R525. -/
def TRL_NODE : Nat := 0x300000b8004
/-- R525. -/
def TRL_STATUS : Nat := 0x300000b8008
/-- R525. -/
def TRL_UID : Nat := 0x300000b8010
/-- R525. -/
def TRL_ROOT_UID : Nat := 0x300000b8018
/-- R525. -/
def TRL_EVT : Nat := 0x300000b8020
/-- R525. -/
def TRL_EVT_EN : Nat := 0x300000b8024
/-- R525. -/
def TRL_WEIGHT : Nat := 0x300000b8028
/-- R525. -/
def TRL_HO_TMO : Nat := 0x300000b802c
/-- R525. -/
def TRL_HO_HOLD : Nat := 0x300000b8030
/-- R525. -/
def TRL_HO_AGE : Nat := 0x300000b8034
/-- R525. -/
def TRL_LB_PERIOD : Nat := 0x300000b8038
/-- R525. -/
def TRL_FAILOVERS : Nat := 0x300000b803c
/-- R525. -/
def TRL_HO_OUT : Nat := 0x300000b8040
/-- R525. -/
def TRL_HO_IN : Nat := 0x300000b8044
/-- R525. -/
def TRL_HO_REFUSED : Nat := 0x300000b8048
/-- R525. -/
def TRL_HO_LOST : Nat := 0x300000b804c
/-- R525. -/
def TRL_ALM_MERGED : Nat := 0x300000b8050
/-- R525. -/
def TRL_ALM_UNMERGED : Nat := 0x300000b8054
/-- R525. -/
def TRL_HOP_DROP : Nat := 0x300000b8058
/-- R525. -/
def TRL_EXP_DENY : Nat := 0x300000b805c
/-- R525. -/
def TRL_RT_SEL : Nat := 0x300000b8060
/-- R525. -/
def TRL_RT_DATA : Nat := 0x300000b8064
/-- R525. -/
def TRL_LB_EXP (k : Nat) : Nat := 0x300000b8080 + k * 0x4
/-- R525. -/
def TRL_HIN_CFG (ch : Nat) : Nat := 0x300000b8200 + ch * 0x10
/-- R525. -/
def TRL_HIN_DIST (ch : Nat) : Nat := 0x300000b8204 + ch * 0x10
/-- R525. -/
def TRL_HIN_SCALE (ch : Nat) : Nat := 0x300000b8208 + ch * 0x10
/-- R525. -/
def TRL_LC_CFG (g : Nat) : Nat := 0x300000b8400 + g * 0x40
/-- R525. -/
def TRL_LC_STATUS (g : Nat) : Nat := 0x300000b8404 + g * 0x40
/-- R525. -/
def TRL_LC_PEER (g : Nat) (i : Nat) : Nat := 0x300000b8410 + g * 0x40 + i * 0x4
/-- R525. -/
def TRL_EXP_BASE (w : Nat) : Nat := 0x300000b8600 + w * 0x20
/-- R525. -/
def TRL_EXP_OFS (w : Nat) : Nat := 0x300000b8608 + w * 0x20
/-- R525. -/
def TRL_EXP_CFG (w : Nat) : Nat := 0x300000b860c + w * 0x20
/-- R548. -/
def GRF_PORT_CFG (p : Nat) : Nat := 0x300000c0000 + p * 0x1000
/-- R548. -/
def GRF_PORT_STATUS (p : Nat) : Nat := 0x300000c0004 + p * 0x1000
/-- R548. -/
def GRF_PORT_CRC (p : Nat) : Nat := 0x300000c0008 + p * 0x1000
/-- R548. -/
def GRF_PORT_REPLAY (p : Nat) : Nat := 0x300000c000c + p * 0x1000
/-- R548. -/
def GRF_PORT_DOWN (p : Nat) : Nat := 0x300000c0010 + p * 0x1000
/-- R548. -/
def GRF_PORT_LOAD (p : Nat) : Nat := 0x300000c0014 + p * 0x1000
/-- R549. -/
def GRF_CFG : Nat := 0x300000c8000
/-- R549. -/
def GRF_STATUS : Nat := 0x300000c8004
/-- R549. -/
def GRF_EPOCH : Nat := 0x300000c8008
/-- R549. -/
def GRF_CTRL : Nat := 0x300000c800c
/-- R549. -/
def GRF_PEER_UID : Nat := 0x300000c8010
/-- R549. -/
def GRF_PEER_SEEN : Nat := 0x300000c8018
/-- R549. -/
def GRF_EVT : Nat := 0x300000c8020
/-- R549. -/
def GRF_EVT_EN : Nat := 0x300000c8024
/-- R549. -/
def GRF_HB_DL : Nat := 0x300000c8028
/-- R549. -/
def GRF_PAIR_TMO : Nat := 0x300000c802c
/-- R549. -/
def GRF_CSN : Nat := 0x300000c8030
/-- R549. -/
def GRF_LAG : Nat := 0x300000c8034
/-- R549. -/
def GRF_TAKEOVERS : Nat := 0x300000c8038
/-- R549. -/
def GRF_RECOVERED : Nat := 0x300000c803c
/-- R549. -/
def GRF_SYNC_LOSS : Nat := 0x300000c8040
/-- R549. -/
def GRF_JOIN_PROG : Nat := 0x300000c8044
/-- R549. -/
def GRF_TAKEOVER_LT : Nat := 0x300000c8048
/-- R549. -/
def GRF_MIRROR_BASE (i : Nat) : Nat := 0x300000c8050 + i * 0x10
/-- R549. -/
def GRF_MIRROR_SIZE (i : Nat) : Nat := 0x300000c8058 + i * 0x10
/-- R627. -/
def HOST_CTRL : Nat := 0x300000d0000
/-- R627. -/
def HOST_STATUS : Nat := 0x300000d0004
/-- R627. -/
def HOST_EVT : Nat := 0x300000d0008
/-- R627. -/
def HOST_EVT_EN : Nat := 0x300000d000c
/-- R627. -/
def HOST_PCI_ID : Nat := 0x300000d0010
/-- R627. -/
def HOST_RD_TMO : Nat := 0x300000d0014
/-- R627. -/
def HOST_NT : Nat := 0x300000d0018
/-- R627. -/
def HOST_WR_PCIE : Nat := 0x300000d001c
/-- R627. -/
def HOST_WR_ETH : Nat := 0x300000d0020
/-- R627. -/
def HOST_WIN_BASE (w : Nat) : Nat := 0x300000d0040 + w * 0x10
/-- R627. -/
def HOST_WIN_CFG (w : Nat) : Nat := 0x300000d0048 + w * 0x10
/-- R627. -/
def HOST_ETH_MAC : Nat := 0x300000d0080
/-- R627. -/
def HOST_ETH_PEER : Nat := 0x300000d0088
/-- R627. -/
def HOST_ETH_CFG : Nat := 0x300000d0090
/-- R627. -/
def HOST_MDIO : Nat := 0x300000d0094
/-- R627. -/
def HOST_VEC_SRC (v : Nat) : Nat := 0x300000d0100 + v * 0x4
/-- R627. -/
def HOST_VEC_EOI : Nat := 0x300000d0180
/-- R627. -/
def HOST_VEC_SERV : Nat := 0x300000d0184
/-- R264. -/
def CORECTL_CTRL (c : Nat) : Nat := if c < 16 then 0x300000e0000 + c * 0x1000 else 0x1000000000000 + 0x300000e0000 + c * 0x1000
/-- R264. -/
def CORECTL_STATUS (c : Nat) : Nat := if c < 16 then 0x300000e0004 + c * 0x1000 else 0x1000000000000 + 0x300000e0004 + c * 0x1000
/-- R264. -/
def CORECTL_BOOT (c : Nat) : Nat := if c < 16 then 0x300000e0008 + c * 0x1000 else 0x1000000000000 + 0x300000e0008 + c * 0x1000
/-- R264. -/
def CORECTL_BOOT_SP (c : Nat) : Nat := if c < 16 then 0x300000e000c + c * 0x1000 else 0x1000000000000 + 0x300000e000c + c * 0x1000
/-- R264. -/
def CORECTL_DPC (c : Nat) : Nat := if c < 16 then 0x300000e0010 + c * 0x1000 else 0x1000000000000 + 0x300000e0010 + c * 0x1000
/-- R264. -/
def CORECTL_DREG_SEL (c : Nat) : Nat := if c < 16 then 0x300000e0014 + c * 0x1000 else 0x1000000000000 + 0x300000e0014 + c * 0x1000
/-- R264. -/
def CORECTL_DREG_DATA (c : Nat) : Nat := if c < 16 then 0x300000e0018 + c * 0x1000 else 0x1000000000000 + 0x300000e0018 + c * 0x1000
/-- R264. -/
def CORECTL_IBP (c : Nat) (k : Nat) : Nat := if c < 16 then 0x300000e0020 + c * 0x1000 + k * 0x4 else 0x1000000000000 + 0x300000e0020 + c * 0x1000 + k * 0x4
/-- R264. -/
def CORECTL_WP (c : Nat) (k : Nat) : Nat := if c < 16 then 0x300000e0030 + c * 0x1000 + k * 0x8 else 0x1000000000000 + 0x300000e0030 + c * 0x1000 + k * 0x8
/-- R264. -/
def CORECTL_WP_CFG (c : Nat) (k : Nat) : Nat := if c < 16 then 0x300000e0034 + c * 0x1000 + k * 0x8 else 0x1000000000000 + 0x300000e0034 + c * 0x1000 + k * 0x8
/-- R264. -/
def CORECTL_FAULT (c : Nat) : Nat := if c < 16 then 0x300000e0040 + c * 0x1000 else 0x1000000000000 + 0x300000e0040 + c * 0x1000
/-- R264. -/
def CORECTL_FAULT_PC (c : Nat) : Nat := if c < 16 then 0x300000e0044 + c * 0x1000 else 0x1000000000000 + 0x300000e0044 + c * 0x1000
/-- R264. -/
def CORECTL_EXC_CNT (c : Nat) : Nat := if c < 16 then 0x300000e0048 + c * 0x1000 else 0x1000000000000 + 0x300000e0048 + c * 0x1000
/-- R264. -/
def CORECTL_ERR (c : Nat) : Nat := if c < 16 then 0x300000e004c + c * 0x1000 else 0x1000000000000 + 0x300000e004c + c * 0x1000
/-- R315. -/
def CORECTL_PERF_CTRL (c : Nat) : Nat := if c < 16 then 0x300000e0100 + c * 0x1000 else 0x1000000000000 + 0x300000e0100 + c * 0x1000
/-- R315. -/
def CORECTL_PERF_CYCLE (c : Nat) : Nat := if c < 16 then 0x300000e0108 + c * 0x1000 else 0x1000000000000 + 0x300000e0108 + c * 0x1000
/-- R315. -/
def CORECTL_PERF_RETIRED (c : Nat) : Nat := if c < 16 then 0x300000e0110 + c * 0x1000 else 0x1000000000000 + 0x300000e0110 + c * 0x1000
/-- R315. -/
def CORECTL_PERF_FETCH (c : Nat) : Nat := if c < 16 then 0x300000e0118 + c * 0x1000 else 0x1000000000000 + 0x300000e0118 + c * 0x1000
/-- R315. -/
def CORECTL_PERF_ELEM (c : Nat) : Nat := if c < 16 then 0x300000e0120 + c * 0x1000 else 0x1000000000000 + 0x300000e0120 + c * 0x1000
/-- R315. -/
def CORECTL_PERF_BRANCH (c : Nat) : Nat := if c < 16 then 0x300000e0128 + c * 0x1000 else 0x1000000000000 + 0x300000e0128 + c * 0x1000
/-- R315. -/
def CORECTL_PERF_MISPRED (c : Nat) : Nat := if c < 16 then 0x300000e012c + c * 0x1000 else 0x1000000000000 + 0x300000e012c + c * 0x1000
/-- R315. -/
def CORECTL_PERF_ICMISS (c : Nat) : Nat := if c < 16 then 0x300000e0130 + c * 0x1000 else 0x1000000000000 + 0x300000e0130 + c * 0x1000
/-- R315. -/
def CORECTL_PERF_BENCH_ST (c : Nat) : Nat := if c < 16 then 0x300000e0134 + c * 0x1000 else 0x1000000000000 + 0x300000e0134 + c * 0x1000
/-- R315. -/
def CORECTL_PERF_LMEM_ST (c : Nat) : Nat := if c < 16 then 0x300000e0138 + c * 0x1000 else 0x1000000000000 + 0x300000e0138 + c * 0x1000
/-- R315. -/
def CORECTL_PERF_FAR_ST (c : Nat) : Nat := if c < 16 then 0x300000e013c + c * 0x1000 else 0x1000000000000 + 0x300000e013c + c * 0x1000
/-- R315. -/
def CORECTL_PERF_DEP_ST (c : Nat) : Nat := if c < 16 then 0x300000e0140 + c * 0x1000 else 0x1000000000000 + 0x300000e0140 + c * 0x1000
/-- R315. -/
def CORECTL_PERF_LOP_ST (c : Nat) : Nat := if c < 16 then 0x300000e0144 + c * 0x1000 else 0x1000000000000 + 0x300000e0144 + c * 0x1000
/-- R315. -/
def CORECTL_PERF_ENTRY (c : Nat) : Nat := if c < 16 then 0x300000e0148 + c * 0x1000 else 0x1000000000000 + 0x300000e0148 + c * 0x1000
/-- R29. -/
def STEM_CTRL : Nat := 0x300000f0000
/-- R29. -/
def STEM_STATUS : Nat := 0x300000f0004
/-- R29. -/
def STEM_CRC_ERR : Nat := 0x300000f0008
/-- R29. -/
def STEM_REPLAY : Nat := 0x300000f000c
/-- R29. -/
def STEM_FAST_RT : Nat := 0x300000f0010
/-- R29. -/
def STEM_FULL_RT : Nat := 0x300000f0014
/-- R29. -/
def STEM_LAT_MAX : Nat := 0x300000f0018
/-- R394. -/
def CAMIN_CFG (p : Nat) : Nat := 0x30100000000 + p * 0x1000
/-- R394. -/
def CAMIN_SIZE (p : Nat) : Nat := 0x30100000004 + p * 0x1000
/-- R394. -/
def CAMIN_PHY (p : Nat) : Nat := 0x30100000008 + p * 0x1000
/-- R394. -/
def CAMIN_TRIG (p : Nat) : Nat := 0x3010000000c + p * 0x1000
/-- R394. -/
def CAMIN_STROBE (p : Nat) : Nat := 0x30100000010 + p * 0x1000
/-- R394. -/
def CAMIN_FS_WIN (p : Nat) : Nat := 0x30100000014 + p * 0x1000
/-- R394. -/
def CAMIN_LINE (p : Nat) : Nat := 0x30100000018 + p * 0x1000
/-- R394. -/
def CAMIN_LINE_PITCH (p : Nat) : Nat := 0x3010000001c + p * 0x1000
/-- R394. -/
def CAMIN_EXPOSURE (p : Nat) : Nat := 0x30100000020 + p * 0x1000
/-- R394. -/
def CAMIN_LINE_PHASE (p : Nat) : Nat := 0x30100000024 + p * 0x1000
/-- R394. -/
def CAMIN_LINE_FRAME (p : Nat) : Nat := 0x30100000028 + p * 0x1000
/-- R394. -/
def CAMIN_LINE_OFS (p : Nat) : Nat := 0x3010000002c + p * 0x1000
/-- R394. -/
def CAMIN_FB_BASE (p : Nat) : Nat := 0x30100000030 + p * 0x1000
/-- R394. -/
def CAMIN_FB_CFG (p : Nat) : Nat := 0x30100000038 + p * 0x1000
/-- R394. -/
def CAMIN_JOB (p : Nat) : Nat := 0x3010000003c + p * 0x1000
/-- R394. -/
def CAMIN_STATUS (p : Nat) : Nat := 0x30100000040 + p * 0x1000
/-- R394. -/
def CAMIN_EVT (p : Nat) : Nat := 0x30100000044 + p * 0x1000
/-- R394. -/
def CAMIN_EVT_EN (p : Nat) : Nat := 0x30100000048 + p * 0x1000
/-- R394. -/
def CAMIN_FRAMES (p : Nat) : Nat := 0x3010000004c + p * 0x1000
/-- R394. -/
def CAMIN_ABANDON (p : Nat) : Nat := 0x30100000050 + p * 0x1000
/-- R394. -/
def CAMIN_ECC_CORR (p : Nat) : Nat := 0x30100000054 + p * 0x1000
/-- R394. -/
def CAMIN_PKT_ERR (p : Nat) : Nat := 0x30100000058 + p * 0x1000
/-- R394. -/
def CAMIN_UNTAGGED (p : Nat) : Nat := 0x3010000005c + p * 0x1000
/-- R394. -/
def CAMIN_LAST_LT (p : Nat) : Nat := 0x30100000060 + p * 0x1000
/-- R394. -/
def CAMIN_I2C_CFG (p : Nat) : Nat := 0x30100000068 + p * 0x1000
/-- R394. -/
def CAMIN_I2C_CMD (p : Nat) : Nat := 0x3010000006c + p * 0x1000
/-- R394. -/
def CAMIN_I2C_WDATA (p : Nat) : Nat := 0x30100000070 + p * 0x1000
/-- R394. -/
def CAMIN_I2C_RDATA (p : Nat) : Nat := 0x30100000078 + p * 0x1000
/-- R394. -/
def CAMIN_I2C_STATUS (p : Nat) : Nat := 0x30100000080 + p * 0x1000
/-- R396. -/
def SIEVE_CTRL : Nat := 0x30100010000
/-- R396. -/
def SIEVE_DL : Nat := 0x30100010004
/-- R396. -/
def SIEVE_GOLD_BASE : Nat := 0x30100010008
/-- R396. -/
def SIEVE_GOLD_CFG : Nat := 0x30100010010
/-- R396. -/
def SIEVE_RR_BASE : Nat := 0x30100010018
/-- R396. -/
def SIEVE_RR_CFG : Nat := 0x30100010020
/-- R396. -/
def SIEVE_RR_WR : Nat := 0x30100010024
/-- R396. -/
def SIEVE_RR_RD : Nat := 0x30100010028
/-- R396. -/
def SIEVE_RR_DROP : Nat := 0x3010001002c
/-- R396. -/
def SIEVE_LIST_BASE (l : Nat) : Nat := 0x30100010100 + l * 0x10
/-- R396. -/
def SIEVE_LIST_LEN (l : Nat) : Nat := 0x30100010108 + l * 0x10
/-- R396. -/
def SIEVE_WBUF (q : Nat) : Nat := 0x30100010300 + q * 0x8
/-- R397. -/
def SIEVE_Q_STATUS (q : Nat) : Nat := 0x30100011000 + q * 0x1000
/-- R397. -/
def SIEVE_Q_EVT (q : Nat) : Nat := 0x30100011004 + q * 0x1000
/-- R397. -/
def SIEVE_Q_EVT_EN (q : Nat) : Nat := 0x30100011008 + q * 0x1000
/-- R397. -/
def SIEVE_Q_JOBS (q : Nat) : Nat := 0x3010001100c + q * 0x1000
/-- R397. -/
def SIEVE_Q_ABORT (q : Nat) : Nat := 0x30100011010 + q * 0x1000
/-- R397. -/
def SIEVE_Q_BAD (q : Nat) : Nat := 0x30100011014 + q * 0x1000
/-- R397. -/
def SIEVE_Q_GOLD_MISS (q : Nat) : Nat := 0x30100011018 + q * 0x1000
/-- R397. -/
def SIEVE_Q_LAT_MAX (q : Nat) : Nat := 0x3010001101c + q * 0x1000
/-- R397. -/
def SIEVE_Q_LOAD (q : Nat) : Nat := 0x30100011020 + q * 0x1000
/-- R423. -/
def COMP_CTRL (p : Nat) : Nat := 0x30100020000 + p * 0x1000
/-- R423. -/
def COMP_SIZE (p : Nat) : Nat := 0x30100020004 + p * 0x1000
/-- R423. -/
def COMP_OUT (p : Nat) : Nat := 0x30100020008 + p * 0x1000
/-- R423. -/
def COMP_BG (p : Nat) : Nat := 0x3010002000c + p * 0x1000
/-- R423. -/
def COMP_BANK (p : Nat) : Nat := 0x30100020010 + p * 0x1000
/-- R423. -/
def COMP_LLIST_CFG (p : Nat) : Nat := 0x30100020014 + p * 0x1000
/-- R423. -/
def COMP_LLIST_BASE (p : Nat) : Nat := 0x30100020018 + p * 0x1000
/-- R423. -/
def COMP_SPR_BASE (p : Nat) : Nat := 0x30100020020 + p * 0x1000
/-- R423. -/
def COMP_SPR_CFG (p : Nat) : Nat := 0x30100020028 + p * 0x1000
/-- R423. -/
def COMP_SPR_IMG (p : Nat) : Nat := 0x30100020030 + p * 0x1000
/-- R423. -/
def COMP_JOB_BASE (p : Nat) : Nat := 0x30100020038 + p * 0x1000
/-- R423. -/
def COMP_JOB_CFG (p : Nat) : Nat := 0x30100020040 + p * 0x1000
/-- R423. -/
def COMP_WB_BASE (p : Nat) : Nat := 0x30100020048 + p * 0x1000
/-- R423. -/
def COMP_WB_CFG (p : Nat) : Nat := 0x30100020050 + p * 0x1000
/-- R423. -/
def COMP_WB_STRIDE (p : Nat) : Nat := 0x30100020054 + p * 0x1000
/-- R423. -/
def COMP_WB_SLOT (p : Nat) : Nat := 0x30100020058 + p * 0x1000
/-- R423. -/
def COMP_WB_GXY (p : Nat) : Nat := 0x3010002005c + p * 0x1000
/-- R423. -/
def COMP_TLOAD (p : Nat) : Nat := 0x30100020060 + p * 0x1000
/-- R423. -/
def COMP_TLOAD_SRC (p : Nat) : Nat := 0x30100020068 + p * 0x1000
/-- R423. -/
def COMP_TLOAD_STATUS (p : Nat) : Nat := 0x30100020070 + p * 0x1000
/-- R423. -/
def COMP_TLOAD_CRC (p : Nat) : Nat := 0x30100020074 + p * 0x1000
/-- R423. -/
def COMP_STATUS (p : Nat) : Nat := 0x30100020078 + p * 0x1000
/-- R423. -/
def COMP_EVT (p : Nat) : Nat := 0x3010002007c + p * 0x1000
/-- R423. -/
def COMP_EVT_EN (p : Nat) : Nat := 0x30100020080 + p * 0x1000
/-- R423. -/
def COMP_FRAMES (p : Nat) : Nat := 0x30100020084 + p * 0x1000
/-- R423. -/
def COMP_SPR_DROP (p : Nat) : Nat := 0x30100020088 + p * 0x1000
/-- R423. -/
def COMP_LINE_DROP (p : Nat) : Nat := 0x3010002008c + p * 0x1000
/-- R423. -/
def COMP_LL_LATE (p : Nat) : Nat := 0x30100020090 + p * 0x1000
/-- R423. -/
def COMP_LL_SKIP (p : Nat) : Nat := 0x30100020094 + p * 0x1000
/-- R423. -/
def COMP_JOB_MISS (p : Nat) : Nat := 0x30100020098 + p * 0x1000
/-- R423. -/
def COMP_START_OVF (p : Nat) : Nat := 0x3010002009c + p * 0x1000
/-- R423. -/
def COMP_GO (p : Nat) : Nat := 0x301000200a0 + p * 0x1000
/-- R423. -/
def COMP_LAST_ID (p : Nat) : Nat := 0x301000200a4 + p * 0x1000
/-- R424. -/
def COMP_L_CFG (p : Nat) (l : Nat) : Nat := 0x30100020200 + p * 0x1000 + l * 0x40
/-- R424. -/
def COMP_L_DPOS (p : Nat) (l : Nat) : Nat := 0x30100020204 + p * 0x1000 + l * 0x40
/-- R424. -/
def COMP_L_DSIZE (p : Nat) (l : Nat) : Nat := 0x30100020208 + p * 0x1000 + l * 0x40
/-- R424. -/
def COMP_L_SSIZE (p : Nat) (l : Nat) : Nat := 0x3010002020c + p * 0x1000 + l * 0x40
/-- R424. -/
def COMP_L_BASE (p : Nat) (l : Nat) : Nat := 0x30100020210 + p * 0x1000 + l * 0x40
/-- R424. -/
def COMP_L_STRIDE (p : Nat) (l : Nat) : Nat := 0x30100020218 + p * 0x1000 + l * 0x40
/-- R424. -/
def COMP_L_SCROLL (p : Nat) (l : Nat) : Nat := 0x3010002021c + p * 0x1000 + l * 0x40
/-- R424. -/
def COMP_L_TBASE (p : Nat) (l : Nat) : Nat := 0x30100020220 + p * 0x1000 + l * 0x40
/-- R424. -/
def COMP_L_FILL (p : Nat) (l : Nat) : Nat := 0x30100020228 + p * 0x1000 + l * 0x40
/-- R425. -/
def COMP_M_CFG (p : Nat) : Nat := 0x30100020400 + p * 0x1000
/-- R425. -/
def COMP_M_LANES (p : Nat) : Nat := 0x30100020404 + p * 0x1000
/-- R425. -/
def COMP_M_CLS (p : Nat) (w : Nat) : Nat := 0x30100020408 + p * 0x1000 + w * 0x4
/-- R425. -/
def COMP_M_XY0 (p : Nat) : Nat := 0x30100020428 + p * 0x1000
/-- R425. -/
def COMP_M_DY (p : Nat) : Nat := 0x3010002042c + p * 0x1000
/-- R425. -/
def COMP_M_SCALE (p : Nat) : Nat := 0x30100020430 + p * 0x1000
/-- R425. -/
def COMP_M_UMIN (p : Nat) : Nat := 0x30100020434 + p * 0x1000
/-- R425. -/
def COMP_M_UMAX (p : Nat) : Nat := 0x30100020438 + p * 0x1000
/-- R425. -/
def COMP_M_SPR (p : Nat) (d : Nat) (w : Nat) : Nat := 0x30100020440 + p * 0x1000 + d * 0x10 + w * 0x4
/-- R442. -/
def DRAW_CTRL (e : Nat) : Nat := 0x30100030000 + e * 0x1000
/-- R442. -/
def DRAW_STATUS (e : Nat) : Nat := 0x30100030004 + e * 0x1000
/-- R442. -/
def DRAW_Q_BASE (e : Nat) : Nat := 0x30100030008 + e * 0x1000
/-- R442. -/
def DRAW_Q_CFG (e : Nat) : Nat := 0x30100030010 + e * 0x1000
/-- R442. -/
def DRAW_Q_WR (e : Nat) : Nat := 0x30100030014 + e * 0x1000
/-- R442. -/
def DRAW_Q_RD (e : Nat) : Nat := 0x30100030018 + e * 0x1000
/-- R442. -/
def DRAW_EVT (e : Nat) : Nat := 0x3010003001c + e * 0x1000
/-- R442. -/
def DRAW_EVT_EN (e : Nat) : Nat := 0x30100030020 + e * 0x1000
/-- R442. -/
def DRAW_CMDS (e : Nat) : Nat := 0x30100030024 + e * 0x1000
/-- R442. -/
def DRAW_ERRS (e : Nat) : Nat := 0x30100030028 + e * 0x1000
/-- R442. -/
def DRAW_OVERLAP (e : Nat) : Nat := 0x3010003002c + e * 0x1000
/-- R442. -/
def DRAW_SYM_SIZE (e : Nat) : Nat := 0x30100030030 + e * 0x1000
/-- R442. -/
def DRAW_LOAD (e : Nat) : Nat := 0x30100030034 + e * 0x1000
/-- R460. -/
def RASTER_CFG (n : Nat) : Nat := 0x30100040000 + n * 0x1000
/-- R460. -/
def RASTER_NOZZLES (n : Nat) : Nat := 0x30100040004 + n * 0x1000
/-- R460. -/
def RASTER_PITCH (n : Nat) : Nat := 0x30100040008 + n * 0x1000
/-- R460. -/
def RASTER_OFS (n : Nat) : Nat := 0x3010004000c + n * 0x1000
/-- R460. -/
def RASTER_LEAD (n : Nat) : Nat := 0x30100040010 + n * 0x1000
/-- R460. -/
def RASTER_MINPER (n : Nat) : Nat := 0x30100040014 + n * 0x1000
/-- R460. -/
def RASTER_SCREEN (n : Nat) : Nat := 0x30100040018 + n * 0x1000
/-- R460. -/
def RASTER_MSIZE (n : Nat) : Nat := 0x3010004001c + n * 0x1000
/-- R460. -/
def RASTER_BANK (n : Nat) : Nat := 0x30100040020 + n * 0x1000
/-- R460. -/
def RASTER_TLOAD (n : Nat) : Nat := 0x30100040024 + n * 0x1000
/-- R460. -/
def RASTER_TLOAD_SRC (n : Nat) : Nat := 0x30100040028 + n * 0x1000
/-- R460. -/
def RASTER_TLOAD_STATUS (n : Nat) : Nat := 0x30100040030 + n * 0x1000
/-- R460. -/
def RASTER_LOSS (n : Nat) : Nat := 0x30100040034 + n * 0x1000
/-- R460. -/
def RASTER_STATUS (n : Nat) : Nat := 0x30100040038 + n * 0x1000
/-- R460. -/
def RASTER_EVT (n : Nat) : Nat := 0x3010004003c + n * 0x1000
/-- R460. -/
def RASTER_EVT_EN (n : Nat) : Nat := 0x30100040040 + n * 0x1000
/-- R460. -/
def RASTER_SWATHS (n : Nat) : Nat := 0x30100040044 + n * 0x1000
/-- R460. -/
def RASTER_LINES (n : Nat) : Nat := 0x30100040048 + n * 0x1000
/-- R460. -/
def RASTER_UNDERRUN (n : Nat) : Nat := 0x3010004004c + n * 0x1000
/-- R460. -/
def RASTER_SKIP (n : Nat) : Nat := 0x30100040050 + n * 0x1000
/-- R460. -/
def RASTER_REFUSED (n : Nat) : Nat := 0x30100040054 + n * 0x1000
/-- R460. -/
def RASTER_HEAD_ERR (n : Nat) : Nat := 0x30100040058 + n * 0x1000
/-- R460. -/
def RASTER_LINK (n : Nat) : Nat := 0x3010004005c + n * 0x1000
/-- R460. -/
def RASTER_CRC_ERR (n : Nat) : Nat := 0x30100040060 + n * 0x1000
/-- R461. -/
def DISP_CFG (d : Nat) : Nat := 0x30100050000 + d * 0x1000
/-- R461. -/
def DISP_STATUS (d : Nat) : Nat := 0x30100050004 + d * 0x1000
/-- R461. -/
def DISP_EVT (d : Nat) : Nat := 0x30100050008 + d * 0x1000
/-- R461. -/
def DISP_EVT_EN (d : Nat) : Nat := 0x3010005000c + d * 0x1000
/-- R461. -/
def DISP_UNDERRUN (d : Nat) : Nat := 0x30100050010 + d * 0x1000
/-- R461. -/
def DISP_FRAMES (d : Nat) : Nat := 0x30100050014 + d * 0x1000
/-- R461. -/
def DISP_PSR (d : Nat) : Nat := 0x30100050018 + d * 0x1000
/-- R461. -/
def DISP_SU (d : Nat) : Nat := 0x3010005001c + d * 0x1000
/-- R461. -/
def DISP_AUX_CMD (d : Nat) : Nat := 0x30100050020 + d * 0x1000
/-- R461. -/
def DISP_AUX_STATUS (d : Nat) : Nat := 0x30100050024 + d * 0x1000
/-- R461. -/
def DISP_AUX_DATA (d : Nat) (w : Nat) : Nat := 0x30100050028 + d * 0x1000 + w * 0x4
/-- R461. -/
def DISP_TRAIN_FAIL (d : Nat) : Nat := 0x30100050038 + d * 0x1000
/-- R498. -/
def MEMC_CFG : Nat := 0x30100068000
/-- R498. -/
def MEMC_CTRL : Nat := 0x30100068004
/-- R498. -/
def MEMC_STATUS : Nat := 0x30100068008
/-- R498. -/
def MEMC_EVT : Nat := 0x3010006800c
/-- R498. -/
def MEMC_EVT_EN : Nat := 0x30100068010
/-- R498. -/
def MEMC_CE_CNT : Nat := 0x30100068014
/-- R498. -/
def MEMC_UE_CNT : Nat := 0x30100068018
/-- R498. -/
def MEMC_UE_ADDR : Nat := 0x30100068020
/-- R498. -/
def MEMC_SCRUB : Nat := 0x30100068028
/-- R498. -/
def MEMC_LOAD : Nat := 0x3010006802c
/-- R499. -/
def MEMC_CH_STATUS (c : Nat) : Nat := 0x30100060000 + c * 0x1000
/-- R499. -/
def MEMC_CH_CE (c : Nat) : Nat := 0x30100060004 + c * 0x1000
/-- R499. -/
def MEMC_CH_RETRAIN (c : Nat) : Nat := 0x30100060008 + c * 0x1000
/-- R500. -/
def DMAI_CH_CFG (e : Nat) (c : Nat) : Nat := 0x30100070000 + e * 0x1000 + c * 0x40
/-- R500. -/
def DMAI_CH_BASE (e : Nat) (c : Nat) : Nat := 0x30100070008 + e * 0x1000 + c * 0x40
/-- R500. -/
def DMAI_CH_WR (e : Nat) (c : Nat) : Nat := 0x30100070010 + e * 0x1000 + c * 0x40
/-- R500. -/
def DMAI_CH_RD (e : Nat) (c : Nat) : Nat := 0x30100070014 + e * 0x1000 + c * 0x40
/-- R500. -/
def DMAI_CH_STATUS (e : Nat) (c : Nat) : Nat := 0x30100070018 + e * 0x1000 + c * 0x40
/-- R500. -/
def DMAI_CH_CTRL (e : Nat) (c : Nat) : Nat := 0x3010007001c + e * 0x1000 + c * 0x40
/-- R500. -/
def DMAI_CH_BYTES (e : Nat) (c : Nat) : Nat := 0x30100070020 + e * 0x1000 + c * 0x40
/-- R500. -/
def DMAI_EVT (e : Nat) : Nat := 0x30100070800 + e * 0x1000
/-- R500. -/
def DMAI_EVT_EN (e : Nat) : Nat := 0x30100070804 + e * 0x1000
/-- R500. -/
def DMAI_ERRS (e : Nat) : Nat := 0x30100070808 + e * 0x1000
/-- R500. -/
def DMAI_OVERLAP (e : Nat) : Nat := 0x3010007080c + e * 0x1000
/-- R500. -/
def DMAI_LOAD (e : Nat) : Nat := 0x30100070810 + e * 0x1000
/-- R29. -/
def STEMI_CTRL : Nat := 0x301000f0000
/-- R29. -/
def STEMI_STATUS : Nat := 0x301000f0004
/-- R29. -/
def STEMI_CRC_ERR : Nat := 0x301000f0008
/-- R29. -/
def STEMI_REPLAY : Nat := 0x301000f000c
/-- R29. -/
def STEMI_FAST_RT : Nat := 0x301000f0010
/-- R29. -/
def STEMI_FULL_RT : Nat := 0x301000f0014
/-- R29. -/
def STEMI_LAT_MAX : Nat := 0x301000f0018
/-- R574. -/
def PWR_STATE : Nat := 0x3ff00010000
/-- R574. -/
def PWR_STATE_REQ : Nat := 0x3ff00010004
/-- R574. -/
def PWR_EVT : Nat := 0x3ff00010008
/-- R574. -/
def PWR_EVT_EN : Nat := 0x3ff0001000c
/-- R574. -/
def PWR_WAKE_CFG : Nat := 0x3ff00010010
/-- R574. -/
def PWR_WAKE_LT : Nat := 0x3ff00010018
/-- R574. -/
def PWR_LAST : Nat := 0x3ff00010020
/-- R574. -/
def PWR_LAST_ENTRY : Nat := 0x3ff00010024
/-- R574. -/
def PWR_DOM_REQ (w : Nat) : Nat := 0x3ff00010040 + w * 0x4
/-- R574. -/
def PWR_DOM_STAT (w : Nat) : Nat := 0x3ff00010050 + w * 0x4
/-- R574. -/
def PWR_EST : Nat := 0x3ff00010060
/-- R574. -/
def PWR_PMB_ERR : Nat := 0x3ff00010064
/-- R574. -/
def PWR_RAIL_CFG (r : Nat) : Nat := 0x3ff00010100 + r * 0x10
/-- R574. -/
def PWR_RAIL_LIM (r : Nat) : Nat := 0x3ff00010104 + r * 0x10
/-- R574. -/
def PWR_RAIL_SET (r : Nat) : Nat := 0x3ff00010108 + r * 0x10
/-- R574. -/
def PWR_RAIL_I (r : Nat) : Nat := 0x3ff0001010c + r * 0x10
/-- R575. -/
def CLK_CLUS_REQ (c : Nat) : Nat := 0x3ff00020000 + c * 0x10
/-- R575. -/
def CLK_CLUS_SEL (c : Nat) : Nat := 0x3ff00020004 + c * 0x10
/-- R575. -/
def CLK_CLUS_CAP (c : Nat) : Nat := 0x3ff00020008 + c * 0x10
/-- R575. -/
def CLK_STATUS : Nat := 0x3ff00020080
/-- R575. -/
def CLK_EVT : Nat := 0x3ff00020084
/-- R575. -/
def CLK_EVT_EN : Nat := 0x3ff00020088
/-- R575. -/
def CLK_MON_SEL : Nat := 0x3ff00020090
/-- R575. -/
def CLK_MON : Nat := 0x3ff00020094
/-- R575. -/
def CLK_OUT_CFG (o : Nat) : Nat := 0x3ff000200a0 + o * 0x4
/-- R576. -/
def HEALTH_CFG : Nat := 0x3ff00030000
/-- R576. -/
def HEALTH_PLAN : Nat := 0x3ff00030004
/-- R576. -/
def HEALTH_CTRL : Nat := 0x3ff00030008
/-- R576. -/
def HEALTH_GB : Nat := 0x3ff0003000c
/-- R576. -/
def HEALTH_EPOCH : Nat := 0x3ff00030010
/-- R576. -/
def HEALTH_HOURS : Nat := 0x3ff00030014
/-- R576. -/
def HEALTH_LIFE : Nat := 0x3ff00030018
/-- R576. -/
def HEALTH_THERM : Nat := 0x3ff0003001c
/-- R576. -/
def HEALTH_TJ : Nat := 0x3ff00030020
/-- R576. -/
def HEALTH_TJ_MAX : Nat := 0x3ff00030024
/-- R576. -/
def HEALTH_DROOP : Nat := 0x3ff00030028
/-- R576. -/
def HEALTH_TRIPS : Nat := 0x3ff0003002c
/-- R576. -/
def HEALTH_EVT : Nat := 0x3ff00030030
/-- R576. -/
def HEALTH_EVT_EN : Nat := 0x3ff00030034
/-- R576. -/
def HEALTH_FIND : Nat := 0x3ff00030038
/-- R576. -/
def HEALTH_TEMP (s : Nat) : Nat := 0x3ff00030040 + s * 0x4
/-- R576. -/
def HEALTH_MARGIN (d : Nat) : Nat := 0x3ff00030100 + d * 0x10
/-- R576. -/
def HEALTH_TTE (d : Nat) : Nat := 0x3ff00030104 + d * 0x10
/-- R576. -/
def HEALTH_DSTAT (d : Nat) : Nat := 0x3ff00030108 + d * 0x10
/-- R576. -/
def HEALTH_AGE (d : Nat) : Nat := 0x3ff0003010c + d * 0x10
/-- R590. -/
def LOG_CFG : Nat := 0x3ff00040000
/-- R590. -/
def LOG_EVT : Nat := 0x3ff00040004
/-- R590. -/
def LOG_EVT_EN : Nat := 0x3ff00040008
/-- R590. -/
def LOG_RING_BASE : Nat := 0x3ff00040010
/-- R590. -/
def LOG_RING_CFG : Nat := 0x3ff00040018
/-- R590. -/
def LOG_RING_WR : Nat := 0x3ff0004001c
/-- R590. -/
def LOG_RING_RD : Nat := 0x3ff00040020
/-- R590. -/
def LOG_SEQ : Nat := 0x3ff00040024
/-- R590. -/
def LOG_DROP : Nat := 0x3ff00040028
/-- R590. -/
def LOG_PUT_D0 : Nat := 0x3ff00040030
/-- R590. -/
def LOG_PUT_D1 : Nat := 0x3ff00040034
/-- R590. -/
def LOG_PUT_D2 : Nat := 0x3ff00040038
/-- R590. -/
def LOG_PUT : Nat := 0x3ff0004003c
/-- R590. -/
def LOG_ALM_RAISE : Nat := 0x3ff00040040
/-- R590. -/
def LOG_ALM_ACK : Nat := 0x3ff00040044
/-- R590. -/
def LOG_ALM_USED : Nat := 0x3ff00040048
/-- R590. -/
def LOG_ALM_HOLD : Nat := 0x3ff0004004c
/-- R590. -/
def LOG_ARING_BASE : Nat := 0x3ff00040050
/-- R590. -/
def LOG_ARING_CFG : Nat := 0x3ff00040058
/-- R590. -/
def LOG_ARING_WR : Nat := 0x3ff0004005c
/-- R590. -/
def LOG_ARING_RD : Nat := 0x3ff00040060
/-- R590. -/
def LOG_TRING_BASE : Nat := 0x3ff00040068
/-- R590. -/
def LOG_TRING_CFG : Nat := 0x3ff00040070
/-- R590. -/
def LOG_TRING_WR : Nat := 0x3ff00040074
/-- R590. -/
def LOG_TRING_RD : Nat := 0x3ff00040078
/-- R590. -/
def LOG_TRC_DROP : Nat := 0x3ff0004007c
/-- R590. -/
def LOG_PATH_ALM (p : Nat) : Nat := 0x3ff00040100 + p * 0x10
/-- R590. -/
def LOG_PATH_LOG (p : Nat) : Nat := 0x3ff00040104 + p * 0x10
/-- R590. -/
def LOG_PATH_TRC (p : Nat) : Nat := 0x3ff00040108 + p * 0x10
/-- R590. -/
def LOG_TRC_CFG (t : Nat) : Nat := 0x3ff00040200 + t * 0x4
/-- R590. -/
def LOG_TRC_PUT (t : Nat) : Nat := 0x3ff00040400 + t * 0x8
/-- R590. -/
def LOG_ALM_ENTRY (i : Nat) (w : Nat) : Nat := 0x3ff00048000 + i * 0x20 + w * 0x4
/-- R614. -/
def SEC_STATE : Nat := 0x3ff00050000
/-- R614. -/
def SEC_EVT : Nat := 0x3ff00050004
/-- R614. -/
def SEC_EVT_EN : Nat := 0x3ff00050008
/-- R614. -/
def SEC_CMD : Nat := 0x3ff0005000c
/-- R614. -/
def SEC_RESULT : Nat := 0x3ff00050010
/-- R614. -/
def SEC_BACKOFF : Nat := 0x3ff00050014
/-- R614. -/
def SEC_FAILS_TOTAL : Nat := 0x3ff00050018
/-- R614. -/
def SEC_CODE_DENY : Nat := 0x3ff0005001c
/-- R614. -/
def SEC_DATA (i : Nat) : Nat := 0x3ff00050020 + i * 0x4
/-- R614. -/
def SEC_NONCE (i : Nat) : Nat := 0x3ff00050040 + i * 0x4
/-- R614. -/
def SEC_IMG_ADDR : Nat := 0x3ff00050050
/-- R614. -/
def SEC_IMG_STATUS : Nat := 0x3ff00050058
/-- R614. -/
def SEC_OTP_SEL : Nat := 0x3ff00050060
/-- R614. -/
def SEC_OTP_CHK : Nat := 0x3ff00050064
/-- R614. -/
def SEC_OTP_RDATA (i : Nat) : Nat := 0x3ff00050080 + i * 0x4
/-- R614. -/
def SEC_CODE (r : Nat) : Nat := 0x3ff00050100 + r * 0x10
/-- R614. -/
def SEC_CODE_LEN (r : Nat) : Nat := 0x3ff00050108 + r * 0x10
/-- R615. -/
def RST_CTRL : Nat := 0x3ff00060000
/-- R615. -/
def RST_STATUS : Nat := 0x3ff00060004
/-- R615. -/
def RST_CAUSE : Nat := 0x3ff00060008
/-- R615. -/
def RST_EVT : Nat := 0x3ff0006000c
/-- R615. -/
def RST_EVT_EN : Nat := 0x3ff00060010
/-- R615. -/
def RST_BSTOP : Nat := 0x3ff00060014
/-- R615. -/
def RST_BOOT : Nat := 0x3ff00060018
/-- R615. -/
def RST_BOOT_TIME : Nat := 0x3ff0006001c
/-- R615. -/
def RST_COUNT : Nat := 0x3ff00060020
/-- R615. -/
def RST_HOLD_MAX : Nat := 0x3ff00060024
/-- R616. -/
def ID_PART : Nat := 0x3ff00070000
/-- R616. -/
def ID_STEP : Nat := 0x3ff00070004
/-- R616. -/
def ID_UID : Nat := 0x3ff00070008
/-- R616. -/
def ID_MAXCLK : Nat := 0x3ff00070010
/-- R616. -/
def ID_LOCK : Nat := 0x3ff00070014

end Reg

def commitRegs0 : List RegDef := [
  ⟨0x30000000000, [], 32, 0, false, 0, 0, 0, 0, 0, 0⟩,
  ⟨0x30000000004, [], 32, 0x00000001, true, 0, 0, 0, 0, 0, 0⟩,
  ⟨0x30000000008, [], 32, 0x319007d0, false, 0xffffffff, 0, 0, 0, 0, 0⟩,
  ⟨0x3000000000c, [], 32, 0x00000064, false, 0xffff, 0, 0, 0, 0, 0⟩,
  ⟨0x30000000010, [], 32, 0, false, 0, 0x1ff, 0, 0, 0, 0⟩,
  ⟨0x30000000014, [], 32, 0, false, 0x1ff, 0, 0, 0, 0, 0⟩,
  ⟨0x30000000018, [], 32, 0, false, 0, 0, 0xffffffff, 0, 0, 0⟩,
  ⟨0x3000000001c, [], 32, 0, false, 0, 0, 0xffffffff, 0, 0, 0⟩,
  ⟨0x30000000020, [], 32, 0, false, 0, 0, 0xffffffff, 0, 0, 0⟩,
  ⟨0x30000000028, [], 64, 0, false, 0, 0, 0, 0, 0xffffffffffffffff, 0⟩,
  ⟨0x30000000030, [], 32, 0, false, 0, 0, 0, 0x3, 0, 0⟩,
  ⟨0x30000000034, [], 32, 0, false, 0, 0, 0, 0, 0, 0⟩,
  ⟨0x30000000038, [], 32, 0, false, 0, 0, 0, 0, 0, 0⟩,
  ⟨0x30000000040, [], 64, 0, false, 0, 0, 0, 0, 0, 0⟩,
  ⟨0x30000000048, [], 32, 0x000003e8, false, 0xffff, 0, 0, 0, 0, 0⟩,
  ⟨0x30000000160, [], 32, 7, false, 0x7, 0, 0, 0, 0, 0⟩]

def commitRegs1 : List RegDef := [
  ⟨0x30000000100, [(32, 0x4)], 32, 0, false, 0x7, 0, 0, 0, 0, 0⟩,
  ⟨0x30000000400, [(8, 0x40)], 32, 0, false, 0x377, 0, 0, 0x70000, 0, 0⟩,
  ⟨0x30000000408, [(8, 0x40)], 64, 0, false, 0xffffffffffffffff, 0, 0, 0, 0, 0⟩,
  ⟨0x30000000410, [(8, 0x40)], 32, 0, false, 0, 0, 0, 0, 0, 0⟩,
  ⟨0x30000000414, [(8, 0x40)], 32, 0, false, 0, 0, 0, 0, 0, 0⟩,
  ⟨0x30000000418, [(8, 0x40)], 32, 0, false, 0, 0, 0, 0, 0, 0⟩,
  ⟨0x3000000041c, [(8, 0x40)], 32, 0, false, 0, 0, 0xffffffff, 0, 0, 0⟩,
  ⟨0x30000000420, [(8, 0x40)], 64, 0, false, 0, 0, 0, 0, 0, 0⟩]

/-- The registers of the block at 0x30000000000. -/
def commitRegs : List RegDef :=
  commitRegs0 ++ commitRegs1

def beamRegs0 : List RegDef := [
  ⟨0x30000010000, [(8, 0x1000)], 32, 0x00000080, false, 0xff, 0, 0, 0x100, 0, 0xff⟩,
  ⟨0x30000010004, [(8, 0x1000)], 32, 0x00000400, false, 0x1fff, 0, 0, 0, 0, 0x1fff⟩,
  ⟨0x30000010008, [(8, 0x1000)], 32, 0, false, 0x1ff, 0, 0, 0, 0, 0x1ff⟩,
  ⟨0x30000010010, [(8, 0x1000)], 64, 0x0000000100000000, false, 0xffffffffffffffff, 0, 0, 0, 0, 0xffffffffffffffff⟩,
  ⟨0x30000010018, [(8, 0x1000)], 64, 0, false, 0xffffffffffffffff, 0, 0, 0, 0, 0xffffffffffffffff⟩,
  ⟨0x30000010020, [(8, 0x1000)], 32, 0, false, 0xffffffff, 0, 0, 0, 0, 0xffffffff⟩,
  ⟨0x30000010024, [(8, 0x1000)], 32, 0, false, 0xffffffff, 0, 0, 0, 0, 0xffffffff⟩,
  ⟨0x30000010028, [(8, 0x1000)], 32, 0, false, 0x3ffffff, 0, 0, 0, 0, 0x3ffffff⟩,
  ⟨0x3000001002c, [(8, 0x1000)], 32, 0x00000010, false, 0xffff, 0, 0, 0, 0, 0xffff⟩,
  ⟨0x30000010034, [(8, 0x1000)], 32, 0x00000004, false, 0xff, 0, 0, 0, 0, 0xff⟩,
  ⟨0x30000010038, [(8, 0x1000)], 32, 0x00000100, false, 0xffff, 0, 0, 0, 0, 0xffff⟩,
  ⟨0x3000001003c, [(8, 0x1000)], 32, 0, false, 0xffffffff, 0, 0, 0, 0, 0xffffffff⟩,
  ⟨0x30000010040, [(8, 0x1000)], 64, 0, false, 0, 0, 0, 0, 0xffffffffffffffff, 0⟩,
  ⟨0x30000010048, [(8, 0x1000)], 64, 0, false, 0, 0, 0, 0, 0, 0⟩,
  ⟨0x30000010050, [(8, 0x1000)], 32, 0, false, 0, 0, 0, 0, 0, 0⟩,
  ⟨0x30000010054, [(8, 0x1000)], 32, 0, false, 0, 0, 0, 0, 0, 0⟩]

def beamRegs1 : List RegDef := [
  ⟨0x30000010058, [(8, 0x1000)], 32, 0, false, 0, 0, 0, 0, 0, 0⟩,
  ⟨0x3000001005c, [(8, 0x1000)], 32, 0, false, 0, 0xff, 0, 0, 0, 0⟩,
  ⟨0x30000010060, [(8, 0x1000)], 32, 0, false, 0xff, 0, 0, 0, 0, 0⟩,
  ⟨0x30000010064, [(8, 0x1000)], 32, 0, false, 0, 0, 0, 0, 0, 0⟩,
  ⟨0x30000010068, [(8, 0x1000)], 32, 0, false, 0, 0, 0xffffffff, 0, 0, 0⟩,
  ⟨0x30000010070, [(8, 0x1000)], 64, 0, false, 0, 0, 0, 0, 0, 0⟩,
  ⟨0x30000018000, [], 64, 0, false, 0, 0, 0, 0, 0xffffffffffffffff, 0⟩,
  ⟨0x30000018008, [], 32, 0x00000a00, false, 0xff03, 0, 0, 0, 0, 0⟩,
  ⟨0x3000001800c, [], 32, 0, false, 0, 0, 0, 0, 0, 0⟩,
  ⟨0x30000018010, [], 64, 0, false, 0, 0, 0, 0xffffffffffffffff, 0, 0⟩,
  ⟨0x30000018018, [], 32, 0, false, 0, 0, 0, 0, 0, 0⟩,
  ⟨0x30000018020, [], 32, 0x00000010, false, 0xff, 0, 0, 0, 0, 0xff⟩,
  ⟨0x30000018024, [], 32, 0, false, 0, 0, 0, 0, 0, 0⟩,
  ⟨0x30000018028, [], 64, 0, false, 0xffffffffffffffff, 0, 0, 0, 0, 0xffffffffffffffff⟩,
  ⟨0x30000018030, [], 32, 0, false, 0xffffffff, 0, 0, 0, 0, 0xffffffff⟩,
  ⟨0x30000018040, [(8, 0x4)], 32, 0, false, 0, 0, 0, 0, 0, 0⟩]

def beamRegs2 : List RegDef := [
  ⟨0x30000018060, [(8, 0x4)], 32, 0, false, 0x7f, 0, 0, 0, 0, 0x7f⟩,
  ⟨0x30000018080, [(8, 0x4)], 32, 0, false, 0, 0, 0xffffffff, 0, 0, 0⟩]

/-- The registers of the block at 0x30000010000. -/
def beamRegs : List RegDef :=
  beamRegs0 ++ beamRegs1 ++ beamRegs2

def seqRegs0 : List RegDef := [
  ⟨0x30000020000, [(8, 0x1000)], 32, 0x00000004, false, 0xf, 0, 0, 0, 0, 0xf⟩,
  ⟨0x30000020004, [(8, 0x1000)], 32, 0, false, 0x1fff, 0, 0, 0, 0, 0⟩,
  ⟨0x30000020008, [(8, 0x1000)], 32, 0, false, 0x1fff, 0, 0, 0, 0, 0⟩,
  ⟨0x3000002000c, [(8, 0x1000)], 32, 0, false, 0, 0, 0, 0, 0, 0⟩,
  ⟨0x30000020010, [(8, 0x1000)], 32, 0, false, 0, 0x7f, 0, 0, 0, 0⟩,
  ⟨0x30000020014, [(8, 0x1000)], 32, 0, false, 0x7f, 0, 0, 0, 0, 0⟩,
  ⟨0x30000020018, [(8, 0x1000)], 32, 0, false, 0, 0, 0xffffffff, 0, 0, 0⟩,
  ⟨0x3000002001c, [(8, 0x1000)], 32, 0, false, 0, 0, 0xffffffff, 0, 0, 0⟩,
  ⟨0x30000020020, [(8, 0x1000)], 32, 0, false, 0, 0, 0xffffffff, 0, 0, 0⟩,
  ⟨0x30000020024, [(8, 0x1000)], 32, 0, false, 0, 0, 0xffffffff, 0, 0, 0⟩,
  ⟨0x30000020028, [(8, 0x1000)], 32, 0, false, 0, 0, 0, 0, 0, 0⟩]

/-- The registers of the block at 0x30000020000. -/
def seqRegs : List RegDef :=
  seqRegs0

def camRegs0 : List RegDef := [
  ⟨0x30000030000, [(1024, 0x20)], 32, 0, false, 0x3f, 0, 0, 0, 0, 0x3f⟩,
  ⟨0x30000030004, [(1024, 0x20)], 32, 0, false, 0xbf1f803f, 0, 0, 0, 0, 0xbf1f803f⟩,
  ⟨0x30000030008, [(1024, 0x20)], 32, 0, false, 0xffffffff, 0, 0, 0, 0, 0xffffffff⟩,
  ⟨0x3000003000c, [(1024, 0x20)], 32, 0, false, 0xffffffff, 0, 0, 0, 0, 0xffffffff⟩,
  ⟨0x30000030010, [(1024, 0x20)], 32, 0, false, 0xffffff, 0, 0, 0, 0, 0xffffff⟩,
  ⟨0x30000030014, [(1024, 0x20)], 32, 0, false, 0, 0, 0, 0xffffffff, 0, 0⟩,
  ⟨0x30000030018, [(1024, 0x20)], 32, 0, false, 0, 0, 0, 0, 0, 0⟩,
  ⟨0x3000003001c, [(1024, 0x20)], 32, 0, false, 0x1ffffff, 0, 0, 0, 0, 0x1ffffff⟩,
  ⟨0x3000003c000, [], 32, 0, false, 0, 0x1ff, 0, 0, 0, 0⟩,
  ⟨0x3000003c004, [], 32, 0, false, 0x1ff, 0, 0, 0, 0, 0⟩,
  ⟨0x3000003c008, [], 32, 0, false, 0, 0, 0xffffffff, 0, 0, 0⟩,
  ⟨0x3000003c00c, [], 32, 0, false, 0, 0, 0xffffffff, 0, 0, 0⟩,
  ⟨0x3000003c010, [], 32, 0, false, 0, 0, 0xffffffff, 0, 0, 0⟩,
  ⟨0x3000003c014, [], 32, 0, false, 0, 0, 0, 0xffffffff, 0, 0⟩,
  ⟨0x3000003c018, [], 32, 0, false, 0x3ff, 0, 0, 0, 0, 0⟩,
  ⟨0x3000003c01c, [], 32, 0, false, 0, 0, 0xffffffff, 0, 0, 0⟩]

def camRegs1 : List RegDef := [
  ⟨0x3000003c020, [], 64, 0, false, 0, 0, 0, 0, 0xf001ffffffffffff, 0⟩,
  ⟨0x3000003c100, [(8, 0x20)], 32, 0, false, 0xfff03, 0, 0, 0, 0, 0xfff03⟩,
  ⟨0x3000003c104, [(8, 0x20)], 32, 0, false, 0, 0, 0, 0, 0, 0⟩,
  ⟨0x3000003c108, [(8, 0x20)], 64, 0, false, 0, 0, 0, 0, 0, 0⟩,
  ⟨0x3000003c110, [(8, 0x20)], 32, 0, false, 0, 0, 0, 0, 0, 0⟩,
  ⟨0x3000003d000, [(256, 0x8)], 32, 0x01000000, false, 0xffffffff, 0, 0, 0, 0, 0xffffffff⟩,
  ⟨0x3000003d004, [(256, 0x8)], 32, 0, false, 0xffffffff, 0, 0, 0, 0, 0xffffffff⟩,
  ⟨0x30000038000, [(1024, 0x10)], 32, 0, false, 0xffffff, 0, 0, 0, 0, 0xffffff⟩,
  ⟨0x30000038004, [(1024, 0x10)], 32, 0, false, 0xffffff, 0, 0, 0, 0, 0xffffff⟩,
  ⟨0x30000038008, [(1024, 0x10)], 32, 0, false, 0xffffff, 0, 0, 0, 0, 0xffffff⟩,
  ⟨0x3000003800c, [(1024, 0x10)], 32, 0, false, 0xffffff, 0, 0, 0, 0, 0xffffff⟩]

/-- The registers of the block at 0x30000030000. -/
def camRegs : List RegDef :=
  camRegs0 ++ camRegs1

def itemRegs0 : List RegDef := [
  ⟨0x30000040000, [], 32, 0, false, 0x1, 0, 0, 0x2, 0, 0x1⟩,
  ⟨0x30000040004, [], 32, 0, false, 0, 0, 0, 0, 0, 0⟩,
  ⟨0x30000040008, [], 32, 0, false, 0, 0x1fff, 0, 0, 0, 0⟩,
  ⟨0x3000004000c, [], 32, 0, false, 0x1fff, 0, 0, 0, 0, 0⟩,
  ⟨0x30000040010, [], 32, 0, false, 0xffff, 0, 0, 0, 0, 0xffff⟩,
  ⟨0x30000040014, [], 32, 0x00000100, false, 0x1ffff, 0, 0, 0, 0, 0x1ffff⟩,
  ⟨0x30000040018, [], 32, 0x000007d0, false, 0xffff, 0, 0, 0, 0, 0xffff⟩,
  ⟨0x3000004001c, [], 32, 0x00004e20, false, 0xffff, 0, 0, 0, 0, 0xffff⟩,
  ⟨0x30000040020, [], 32, 0x00000001, false, 0xfffff, 0, 0, 0, 0, 0⟩,
  ⟨0x30000040024, [], 32, 0, false, 0, 0, 0, 0, 0, 0⟩,
  ⟨0x30000040028, [], 32, 0, false, 0, 0, 0xffffffff, 0, 0, 0⟩,
  ⟨0x3000004002c, [], 32, 0, false, 0, 0, 0xffffffff, 0, 0, 0⟩,
  ⟨0x30000040030, [], 32, 0, false, 0, 0, 0xffffffff, 0, 0, 0⟩,
  ⟨0x30000040034, [], 32, 0, false, 0, 0, 0xffffffff, 0, 0, 0⟩,
  ⟨0x30000040038, [], 32, 0, false, 0, 0, 0xffffffff, 0, 0, 0⟩,
  ⟨0x3000004003c, [], 32, 0, false, 0, 0, 0xffffffff, 0, 0, 0⟩]

def itemRegs1 : List RegDef := [
  ⟨0x30000040040, [], 64, 0, false, 0xffffffffffff, 0, 0, 0, 0, 0⟩,
  ⟨0x30000040048, [], 32, 0, false, 0x1f1, 0, 0, 0, 0, 0⟩,
  ⟨0x3000004004c, [], 32, 0, false, 0, 0, 0, 0, 0, 0⟩,
  ⟨0x30000040050, [], 32, 0, false, 0x1ffff, 0, 0, 0, 0, 0⟩,
  ⟨0x30000040054, [], 32, 0, false, 0, 0, 0xffffffff, 0, 0, 0⟩,
  ⟨0x30000040058, [], 32, 0, false, 0, 0, 0xffffffff, 0, 0, 0⟩,
  ⟨0x30000040100, [(8, 0x10)], 32, 0, false, 0, 0, 0, 0, 0, 0⟩,
  ⟨0x30000040104, [(8, 0x10)], 32, 0, false, 0xffffffff, 0, 0, 0, 0, 0⟩,
  ⟨0x30000040108, [(8, 0x10)], 32, 0x00000001, false, 0xffff, 0, 0, 0, 0, 0xffff⟩,
  ⟨0x30000040400, [(64, 0x8)], 32, 0, false, 0xfff7ffff, 0, 0, 0, 0, 0xfff7ffff⟩,
  ⟨0x30000040404, [(64, 0x8)], 32, 0, false, 0xffffffff, 0, 0, 0, 0, 0xffffffff⟩,
  ⟨0x30000041000, [(256, 0x20)], 32, 0, false, 0xffffffff, 0, 0, 0, 0, 0xffffffff⟩,
  ⟨0x30000041004, [(256, 0x20)], 32, 0x00ffffff, false, 0xffffffff, 0, 0, 0, 0, 0xffffffff⟩,
  ⟨0x30000041008, [(256, 0x20)], 32, 0, false, 0xff, 0, 0, 0, 0, 0xff⟩,
  ⟨0x30000041010, [(256, 0x20)], 64, 0x000000000000007e, false, 0xffffffffffffffff, 0, 0, 0, 0, 0xffffffffffffffff⟩,
  ⟨0x30000043000, [(8, 0x100)], 32, 0, false, 0, 0, 0, 0xffff060f, 0, 0⟩]

def itemRegs2 : List RegDef := [
  ⟨0x30000043004, [(8, 0x100)], 32, 0, false, 0, 0, 0, 0, 0, 0⟩,
  ⟨0x30000043040, [(8, 0x100), (16, 0x4)], 32, 0, false, 0xffffffff, 0, 0, 0, 0, 0⟩,
  ⟨0x30000044000, [(512, 0x40)], 32, 0, false, 0xbfffff00, 0, 0, 0, 0, 0xbfffff00⟩,
  ⟨0x30000044004, [(512, 0x40)], 32, 0, false, 0xffffffff, 0, 0, 0, 0, 0xffffffff⟩,
  ⟨0x30000044008, [(512, 0x40)], 32, 0, false, 0xffffffff, 0, 0, 0, 0, 0xffffffff⟩,
  ⟨0x3000004400c, [(512, 0x40)], 32, 0x00000001, false, 0xffffffff, 0, 0, 0, 0, 0xffffffff⟩,
  ⟨0x30000044010, [(512, 0x40)], 32, 0xffffffff, false, 0xffffffff, 0, 0, 0, 0, 0xffffffff⟩,
  ⟨0x30000044014, [(512, 0x40)], 32, 0, false, 0xffffffff, 0, 0, 0, 0, 0xffffffff⟩,
  ⟨0x30000044018, [(512, 0x40)], 32, 0, false, 0xffffffff, 0, 0, 0, 0, 0xffffffff⟩,
  ⟨0x3000004401c, [(512, 0x40)], 32, 0, false, 0xffffffff, 0, 0, 0, 0, 0xffffffff⟩,
  ⟨0x30000044020, [(512, 0x40)], 64, 0x0000000000000001, false, 0xffffffffffffffff, 0, 0, 0, 0, 0xffffffffffffffff⟩,
  ⟨0x30000044028, [(512, 0x40)], 32, 0xffffffff, false, 0xffffffff, 0, 0, 0, 0, 0xffffffff⟩,
  ⟨0x3000004402c, [(512, 0x40)], 32, 0, false, 0, 0, 0, 0, 0, 0⟩,
  ⟨0x30000044030, [(512, 0x40)], 32, 0, false, 0, 0, 0xffffffff, 0, 0, 0⟩,
  ⟨0x30000044034, [(512, 0x40)], 32, 0, false, 0, 0, 0xffffffff, 0, 0, 0⟩,
  ⟨0x30000044038, [(512, 0x40)], 32, 0, false, 0, 0, 0xffffffff, 0, 0, 0⟩]

def itemRegs3 : List RegDef := [
  ⟨0x3000004403c, [(512, 0x40)], 32, 0, false, 0, 0, 0, 0, 0, 0⟩,
  ⟨0x3000004c000, [], 32, 0, false, 0x1, 0, 0, 0, 0, 0x1⟩,
  ⟨0x3000004c004, [], 32, 0, false, 0, 0x7f, 0, 0, 0, 0⟩,
  ⟨0x3000004c008, [], 32, 0, false, 0x7f, 0, 0, 0, 0, 0⟩,
  ⟨0x3000004c00c, [], 32, 0, false, 0, 0, 0xffffffff, 0, 0, 0⟩,
  ⟨0x3000004c010, [], 32, 0, false, 0, 0, 0xffffffff, 0, 0, 0⟩,
  ⟨0x3000004c014, [], 32, 0, false, 0, 0, 0xffffffff, 0, 0, 0⟩,
  ⟨0x3000004c018, [], 32, 0, false, 0, 0, 0, 0, 0, 0⟩,
  ⟨0x3000004c01c, [], 32, 0, false, 0, 0, 0xffffffff, 0, 0, 0⟩,
  ⟨0x3000004c020, [], 32, 0, false, 0, 0, 0xffffffff, 0, 0, 0⟩,
  ⟨0x3000004d000, [(64, 0x8)], 32, 0, false, 0x3, 0, 0, 0, 0, 0x3⟩,
  ⟨0x3000004d004, [(64, 0x8)], 32, 0, false, 0, 0, 0, 0, 0, 0⟩,
  ⟨0x3000004c400, [(32, 0x20), (8, 0x4)], 32, 0xffffffff, false, 0xffffffff, 0, 0, 0, 0, 0xffffffff⟩]

/-- The registers of the block at 0x30000040000. -/
def itemRegs : List RegDef :=
  itemRegs0 ++ itemRegs1 ++ itemRegs2 ++ itemRegs3

def drvRegs0 : List RegDef := [
  ⟨0x30000050000, [(64, 0x200)], 32, 0x00000300, false, 0x7f1, 0, 0, 0, 0, 0x7f1⟩,
  ⟨0x30000050004, [(64, 0x200)], 32, 0, false, 0, 0, 0, 0, 0, 0⟩,
  ⟨0x30000050008, [(64, 0x200)], 32, 0, false, 0, 0x3ff, 0, 0, 0, 0⟩,
  ⟨0x3000005000c, [(64, 0x200)], 32, 0, false, 0x3ff, 0, 0, 0, 0, 0⟩,
  ⟨0x30000050010, [(64, 0x200)], 32, 0, false, 0, 0, 0, 0, 0, 0⟩,
  ⟨0x30000050014, [(64, 0x200)], 32, 0, false, 0xffffffff, 0, 0, 0, 0, 0xffffffff⟩,
  ⟨0x30000050018, [(64, 0x200)], 32, 0, false, 0, 0, 0, 0, 0, 0⟩,
  ⟨0x3000005001c, [(64, 0x200)], 32, 0, false, 0, 0, 0, 0, 0, 0⟩,
  ⟨0x30000050020, [(64, 0x200)], 32, 0, false, 0xffffffff, 0, 0, 0, 0, 0⟩,
  ⟨0x30000050024, [(64, 0x200)], 32, 0, false, 0, 0, 0xffffffff, 0, 0, 0⟩,
  ⟨0x30000050028, [(64, 0x200)], 32, 0, false, 0, 0, 0xffffffff, 0, 0, 0⟩,
  ⟨0x3000005002c, [(64, 0x200)], 32, 0, false, 0, 0, 0xffffffff, 0, 0, 0⟩,
  ⟨0x30000050030, [(64, 0x200)], 32, 0, false, 0, 0, 0xffffffff, 0, 0, 0⟩,
  ⟨0x30000050034, [(64, 0x200)], 32, 0, false, 0, 0, 0, 0, 0, 0⟩,
  ⟨0x30000050038, [(64, 0x200)], 32, 0, false, 0, 0, 0, 0, 0, 0⟩,
  ⟨0x300000501c0, [(64, 0x200)], 64, 0, false, 0, 0, 0, 0, 0, 0⟩]

def drvRegs1 : List RegDef := [
  ⟨0x30000050040, [(64, 0x200), (8, 0x30)], 32, 0, false, 0xfffd, 0, 0, 0, 0, 0xfffd⟩,
  ⟨0x30000050044, [(64, 0x200), (8, 0x30)], 32, 0, false, 0, 0, 0, 0, 0, 0⟩,
  ⟨0x30000050048, [(64, 0x200), (8, 0x30)], 64, 0, false, 0, 0, 0, 0, 0xffffffffffffffff, 0⟩,
  ⟨0x30000050050, [(64, 0x200), (8, 0x30)], 32, 0, false, 0, 0, 0, 0, 0, 0⟩,
  ⟨0x30000050058, [(64, 0x200), (8, 0x30)], 64, 0, false, 0, 0, 0, 0, 0, 0⟩,
  ⟨0x30000050060, [(64, 0x200), (8, 0x30)], 64, 0, false, 0, 0, 0, 0, 0, 0⟩,
  ⟨0x30000050068, [(64, 0x200), (8, 0x30)], 64, 0, false, 0, 0, 0, 0, 0, 0⟩,
  ⟨0x30000058000, [], 32, 0x00000960, false, 0xffff, 0, 0, 0, 0, 0xffff⟩,
  ⟨0x30000058004, [], 32, 0x00001388, false, 0xffff, 0, 0, 0, 0, 0xffff⟩,
  ⟨0x30000058008, [], 64, 0, false, 0, 0, 0, 0, 0, 0⟩,
  ⟨0x30000058010, [], 32, 0, false, 0, 0, 0xffffffff, 0, 0, 0⟩]

/-- The registers of the block at 0x30000050000. -/
def drvRegs : List RegDef :=
  drvRegs0 ++ drvRegs1

def tmrRegs0 : List RegDef := [
  ⟨0x30000060000, [(32, 0x40)], 32, 0, false, 0xffe00000, 0, 0, 0, 0, 0xffe00000⟩,
  ⟨0x30000060004, [(32, 0x40)], 32, 0, false, 0xf7fff000, 0, 0, 0, 0, 0xf7fff000⟩,
  ⟨0x30000060008, [(32, 0x40)], 32, 0x00000004, false, 0xffff, 0, 0, 0, 0, 0xffff⟩,
  ⟨0x3000006000c, [(32, 0x40)], 32, 0, false, 0x8000037f, 0, 0, 0, 0, 0x8000037f⟩,
  ⟨0x30000060010, [(32, 0x40)], 32, 0, false, 0xffffffff, 0, 0, 0, 0, 0⟩,
  ⟨0x30000060014, [(32, 0x40)], 32, 0, false, 0xffffffff, 0, 0, 0, 0, 0⟩,
  ⟨0x30000060018, [(32, 0x40)], 32, 0, false, 0xffffffff, 0, 0, 0, 0, 0⟩,
  ⟨0x3000006001c, [(32, 0x40)], 32, 0, false, 0, 0, 0, 0, 0xffffffff, 0⟩,
  ⟨0x30000060020, [(32, 0x40)], 32, 0, false, 0, 0, 0, 0, 0, 0⟩,
  ⟨0x30000060024, [(32, 0x40)], 32, 0, false, 0, 0, 0, 0, 0, 0⟩,
  ⟨0x30000060028, [(32, 0x40)], 32, 0, false, 0, 0, 0, 0xffffffff, 0, 0⟩,
  ⟨0x3000006002c, [(32, 0x40)], 32, 0, false, 0, 0, 0, 0, 0, 0⟩,
  ⟨0x30000060030, [(32, 0x40)], 32, 0, false, 0, 0xff, 0, 0, 0, 0⟩,
  ⟨0x30000060034, [(32, 0x40)], 32, 0, false, 0xff, 0, 0, 0, 0, 0⟩]

/-- The registers of the block at 0x30000060000. -/
def tmrRegs : List RegDef :=
  tmrRegs0

def pinRegs0 : List RegDef := [
  ⟨0x30000070000, [(256, 0x4)], 32, 0x00000002, false, 0x7fff, 0, 0, 0, 0, 0x7fff⟩,
  ⟨0x30000070400, [(8, 0x4)], 32, 0, false, 0, 0, 0, 0, 0, 0⟩,
  ⟨0x30000070420, [(8, 0x4)], 32, 0, false, 0, 0, 0, 0, 0, 0⟩,
  ⟨0x30000070440, [(8, 0x4)], 32, 0, false, 0, 0, 0, 0, 0, 0⟩,
  ⟨0x30000070460, [], 32, 0, false, 0, 0x3, 0, 0, 0, 0⟩,
  ⟨0x30000070464, [], 32, 0, false, 0, 0, 0xffffffff, 0, 0, 0⟩]

/-- The registers of the block at 0x30000070000. -/
def pinRegs : List RegDef :=
  pinRegs0

def intcRegs0 : List RegDef := [
  ⟨0x30000080ff8, [], 32, 0x80000000, false, 0xff00007f, 0, 0, 0, 0, 0xff00007f⟩,
  ⟨0x30000080000, [(512, 0x8)], 32, 0, false, 0xff00007f, 0, 0, 0, 0, 0xff00007f⟩,
  ⟨0x30000080ffc, [], 32, 0xffffff, false, 0xffffff, 0, 0, 0, 0, 0xffffff⟩,
  ⟨0x30000080004, [(512, 0x8)], 32, 0, false, 0xffffff, 0, 0, 0, 0, 0xffffff⟩,
  ⟨0x30000081000, [(512, 0x8)], 32, 0, false, 0, 0, 0, 0, 0, 0⟩,
  ⟨0x30000081004, [(512, 0x8)], 32, 0, false, 0, 0, 0, 0, 0, 0⟩,
  ⟨0x30000082100, [(96, 0x4)], 32, 0, false, 0x73ff, 0, 0, 0, 0, 0x73ff⟩,
  ⟨0x30000083000, [(16, 0x20)], 64, 0, false, 0xffffffffffff, 0, 0, 0, 0, 0⟩,
  ⟨0x30000083008, [(16, 0x20)], 32, 0, false, 0x1f1, 0, 0, 0, 0, 0⟩,
  ⟨0x3000008300c, [(16, 0x20)], 32, 0, false, 0, 0, 0, 0, 0, 0⟩,
  ⟨0x30000083010, [(16, 0x20)], 32, 0, false, 0x1ffff, 0, 0, 0, 0, 0⟩,
  ⟨0x30000083014, [(16, 0x20)], 32, 0, false, 0, 0, 0xffffffff, 0, 0, 0⟩,
  ⟨0x30000083018, [(16, 0x20)], 32, 0, false, 0, 0, 0, 0, 0, 0⟩,
  ⟨0x30000084000, [(24, 0x10)], 32, 0x00000010, false, 0, 0, 0, 0, 0, 0⟩,
  ⟨0x30000085000, [], 32, 0, false, 0, 0xf, 0, 0, 0, 0⟩,
  ⟨0x30000085004, [], 32, 0, false, 0, 0, 0, 0, 0, 0⟩]

def intcRegs1 : List RegDef := [
  ⟨0x30000085008, [], 32, 0, false, 0, 0, 0xffffffff, 0, 0, 0⟩,
  ⟨0x3000008500c, [], 32, 0, false, 0, 0, 0xffffffff, 0, 0, 0⟩,
  ⟨0x30000085010, [], 32, 0, false, 0, 0, 0, 0xffffffff, 0, 0⟩,
  ⟨0x30000085014, [], 32, 0, false, 0xffffffff, 0, 0, 0, 0, 0⟩,
  ⟨0x30000085100, [(16, 0x4)], 32, 0, false, 0, 0, 0, 0, 0, 0⟩]

/-- The registers of the block at 0x30000080000. -/
def intcRegs : List RegDef :=
  intcRegs0 ++ intcRegs1

def audRegs0 : List RegDef := [
  ⟨0x30000090000, [], 32, 0, false, 0xc0000fff, 0, 0, 0, 0, 0xc0000fff⟩,
  ⟨0x30000090004, [], 32, 0, false, 0x1, 0, 0, 0, 0, 0x1⟩,
  ⟨0x30000090008, [], 32, 0, false, 0x80000003, 0, 0, 0, 0, 0x80000003⟩,
  ⟨0x3000009000c, [], 32, 0, false, 0x80000003, 0, 0, 0, 0, 0x80000003⟩,
  ⟨0x30000090010, [], 32, 0, false, 0x80003f07, 0, 0, 0, 0, 0x80003f07⟩,
  ⟨0x30000090014, [], 32, 0, false, 0, 0, 0, 0, 0, 0⟩,
  ⟨0x30000090018, [], 32, 0, false, 0, 0xfff, 0, 0, 0, 0⟩,
  ⟨0x3000009001c, [], 32, 0, false, 0xfff, 0, 0, 0, 0, 0⟩,
  ⟨0x30000090020, [], 32, 0, false, 0, 0, 0, 0xffffffff, 0, 0⟩,
  ⟨0x30000090024, [], 32, 0, false, 0, 0, 0, 0xffffffff, 0, 0⟩,
  ⟨0x30000090028, [], 32, 0, false, 0, 0, 0, 0, 0, 0⟩,
  ⟨0x3000009002c, [], 32, 0, false, 0, 0, 0xffffffff, 0, 0, 0⟩,
  ⟨0x30000090030, [], 32, 0, false, 0, 0, 0xffffffff, 0, 0, 0⟩,
  ⟨0x30000090034, [], 32, 0, false, 0, 0, 0xffffffff, 0, 0, 0⟩,
  ⟨0x30000090038, [], 32, 0, false, 0, 0, 0xffffffff, 0, 0, 0⟩,
  ⟨0x3000009003c, [], 32, 0, false, 0, 0, 0xffffffff, 0, 0, 0⟩]

def audRegs1 : List RegDef := [
  ⟨0x30000090040, [], 32, 0, false, 0, 0, 0xffffffff, 0, 0, 0⟩,
  ⟨0x30000090044, [], 32, 0, false, 0, 0, 0xffffffff, 0, 0, 0⟩,
  ⟨0x30000090048, [], 64, 0, false, 0, 0, 0, 0, 0, 0⟩,
  ⟨0x30000090050, [], 64, 0, false, 0xffffffffffff, 0, 0, 0, 0, 0xffffffffffff⟩,
  ⟨0x30000090060, [(16, 0x4)], 32, 0, false, 0x3ff03ff, 0, 0, 0, 0, 0x3ff03ff⟩,
  ⟨0x300000900a0, [(8, 0x4)], 32, 0, false, 0xffffffff, 0, 0, 0, 0, 0xffffffff⟩,
  ⟨0x30000090100, [(4, 0x4)], 32, 0, false, 0xeffe0000, 0, 0, 0, 0, 0xeffe0000⟩,
  ⟨0x30000090110, [(4, 0x4)], 32, 0, false, 0xeffe0000, 0, 0, 0, 0, 0xeffe0000⟩,
  ⟨0x30000094000, [(2, 0x4000), (96, 0x4)], 32, 0, false, 0xff, 0, 0, 0, 0, 0⟩,
  ⟨0x30000094200, [(2, 0x4000), (48, 0x4)], 32, 0, false, 0xff, 0, 0, 0, 0, 0⟩,
  ⟨0x30000094400, [(2, 0x4000), (32, 0x20), (8, 0x4)], 32, 0, false, 0xffffffff, 0, 0, 0, 0, 0⟩,
  ⟨0x30000095000, [(2, 0x4000), (2304, 0x4)], 32, 0, false, 0xffffffff, 0, 0, 0, 0, 0⟩]

/-- The registers of the block at 0x30000090000. -/
def audRegs : List RegDef :=
  audRegs0 ++ audRegs1

def dmabRegs0 : List RegDef := [
  ⟨0x300000a0000, [(16, 0x40)], 32, 0, false, 0xf81f0000, 0, 0, 0, 0, 0xf81f0000⟩,
  ⟨0x300000a0008, [(16, 0x40)], 64, 0, false, 0xffffffffffff, 0, 0, 0, 0, 0xffffffffffff⟩,
  ⟨0x300000a0010, [(16, 0x40)], 32, 0, false, 0x1ffff, 0, 0, 0, 0, 0⟩,
  ⟨0x300000a0014, [(16, 0x40)], 32, 0, false, 0, 0, 0, 0, 0, 0⟩,
  ⟨0x300000a0018, [(16, 0x40)], 32, 0, false, 0, 0, 0, 0, 0, 0⟩,
  ⟨0x300000a001c, [(16, 0x40)], 32, 0, false, 0, 0, 0, 0xffffffff, 0, 0⟩,
  ⟨0x300000a0020, [(16, 0x40)], 32, 0, false, 0, 0, 0xffffffff, 0, 0, 0⟩,
  ⟨0x300000a0800, [], 32, 0, false, 0, 0xffffffff, 0, 0, 0, 0⟩,
  ⟨0x300000a0804, [], 32, 0, false, 0xffffffff, 0, 0, 0, 0, 0⟩,
  ⟨0x300000a0808, [], 32, 0, false, 0, 0, 0xffffffff, 0, 0, 0⟩,
  ⟨0x300000a080c, [], 32, 0, false, 0, 0, 0xffffffff, 0, 0, 0⟩,
  ⟨0x300000a0810, [], 32, 0, false, 0, 0, 0, 0, 0, 0⟩]

/-- The registers of the block at 0x300000a0000. -/
def dmabRegs : List RegDef :=
  dmabRegs0

def trlRegs0 : List RegDef := [
  ⟨0x300000b0000, [(8, 0x1000)], 32, 0x00000010, false, 0xf1, 0, 0, 0, 0, 0xf1⟩,
  ⟨0x300000b0004, [(8, 0x1000)], 32, 0, false, 0, 0, 0, 0, 0, 0⟩,
  ⟨0x300000b0008, [(8, 0x1000)], 64, 0, false, 0, 0, 0, 0, 0, 0⟩,
  ⟨0x300000b0010, [(8, 0x1000)], 32, 0, false, 0, 0, 0, 0, 0, 0⟩,
  ⟨0x300000b0014, [(8, 0x1000)], 32, 0, false, 0, 0, 0xffffffff, 0, 0, 0⟩,
  ⟨0x300000b0018, [(8, 0x1000)], 32, 0, false, 0, 0, 0xffffffff, 0, 0, 0⟩,
  ⟨0x300000b001c, [(8, 0x1000)], 32, 0, false, 0, 0, 0xffffffff, 0, 0, 0⟩,
  ⟨0x300000b0020, [(8, 0x1000)], 32, 0, false, 0, 0, 0, 0, 0, 0⟩,
  ⟨0x300000b8000, [], 32, 0, false, 0x3, 0, 0, 0, 0, 0x3⟩,
  ⟨0x300000b8004, [], 32, 0, false, 0x80000fff, 0, 0, 0, 0, 0x80000fff⟩,
  ⟨0x300000b8008, [], 32, 0, false, 0, 0, 0, 0, 0, 0⟩,
  ⟨0x300000b8010, [], 64, Config.uid.toNat, false, 0, 0, 0, 0, 0, 0⟩,
  ⟨0x300000b8018, [], 64, 0, false, 0, 0, 0, 0, 0, 0⟩,
  ⟨0x300000b8020, [], 32, 0, false, 0, 0x3fff, 0, 0, 0, 0⟩,
  ⟨0x300000b8024, [], 32, 0, false, 0x3fff, 0, 0, 0, 0, 0⟩,
  ⟨0x300000b8028, [], 32, 0x06192198, false, 0x3fffffff, 0, 0, 0, 0, 0x3fffffff⟩]

def trlRegs1 : List RegDef := [
  ⟨0x300000b802c, [], 32, 0x000001f4, false, 0xffff, 0, 0, 0, 0, 0xffff⟩,
  ⟨0x300000b8030, [], 32, 0x0000000a, false, 0xffff, 0, 0, 0, 0, 0xffff⟩,
  ⟨0x300000b8034, [], 32, 0x000003e8, false, 0xffff, 0, 0, 0, 0, 0xffff⟩,
  ⟨0x300000b8038, [], 32, 0x00000fa0, false, 0xffff, 0, 0, 0, 0, 0xffff⟩,
  ⟨0x300000b803c, [], 32, 0, false, 0, 0, 0xffffffff, 0, 0, 0⟩,
  ⟨0x300000b8040, [], 32, 0, false, 0, 0, 0xffffffff, 0, 0, 0⟩,
  ⟨0x300000b8044, [], 32, 0, false, 0, 0, 0xffffffff, 0, 0, 0⟩,
  ⟨0x300000b8048, [], 32, 0, false, 0, 0, 0xffffffff, 0, 0, 0⟩,
  ⟨0x300000b804c, [], 32, 0, false, 0, 0, 0xffffffff, 0, 0, 0⟩,
  ⟨0x300000b8050, [], 32, 0, false, 0, 0, 0xffffffff, 0, 0, 0⟩,
  ⟨0x300000b8054, [], 32, 0, false, 0, 0, 0xffffffff, 0, 0, 0⟩,
  ⟨0x300000b8058, [], 32, 0, false, 0, 0, 0xffffffff, 0, 0, 0⟩,
  ⟨0x300000b805c, [], 32, 0, false, 0, 0, 0xffffffff, 0, 0, 0⟩,
  ⟨0x300000b8060, [], 32, 0, false, 0xfff, 0, 0, 0, 0, 0⟩,
  ⟨0x300000b8064, [], 32, 0, false, 0, 0, 0, 0, 0, 0⟩,
  ⟨0x300000b8080, [(64, 0x4)], 32, 0, false, 0x80000007, 0, 0, 0, 0, 0x80000007⟩]

def trlRegs2 : List RegDef := [
  ⟨0x300000b8200, [(16, 0x10)], 32, 0, false, 0xff700fff, 0, 0, 0, 0, 0xff700fff⟩,
  ⟨0x300000b8204, [(16, 0x10)], 32, 0, false, 0xffffffff, 0, 0, 0, 0, 0xffffffff⟩,
  ⟨0x300000b8208, [(16, 0x10)], 32, 0x00010000, false, 0xffffffff, 0, 0, 0, 0, 0xffffffff⟩,
  ⟨0x300000b8400, [(8, 0x40)], 32, 0x00000500, false, 0xff1f, 0, 0, 0, 0, 0⟩,
  ⟨0x300000b8404, [(8, 0x40)], 32, 0, false, 0, 0, 0, 0, 0, 0⟩,
  ⟨0x300000b8410, [(8, 0x40), (8, 0x4)], 32, 0, false, 0x7fff7fff, 0, 0, 0, 0, 0⟩,
  ⟨0x300000b8600, [(8, 0x20)], 64, 0, false, 0xffffffff0000, 0, 0, 0, 0, 0⟩,
  ⟨0x300000b8608, [(8, 0x20)], 32, 0, false, 0xffffffff, 0, 0, 0, 0, 0⟩,
  ⟨0x300000b860c, [(8, 0x20)], 32, 0, false, 0xf0000fff, 0, 0, 0, 0, 0⟩]

/-- The registers of the block at 0x300000b0000. -/
def trlRegs : List RegDef :=
  trlRegs0 ++ trlRegs1 ++ trlRegs2

def grfRegs0 : List RegDef := [
  ⟨0x300000c0000, [(2, 0x1000)], 32, 0, false, 0x1, 0, 0, 0, 0, 0⟩,
  ⟨0x300000c0004, [(2, 0x1000)], 32, 0, false, 0, 0, 0, 0, 0, 0⟩,
  ⟨0x300000c0008, [(2, 0x1000)], 32, 0, false, 0, 0, 0xffffffff, 0, 0, 0⟩,
  ⟨0x300000c000c, [(2, 0x1000)], 32, 0, false, 0, 0, 0xffffffff, 0, 0, 0⟩,
  ⟨0x300000c0010, [(2, 0x1000)], 32, 0, false, 0, 0, 0xffffffff, 0, 0, 0⟩,
  ⟨0x300000c0014, [(2, 0x1000)], 32, 0, false, 0, 0, 0, 0, 0, 0⟩,
  ⟨0x300000c8000, [], 32, 0, true, 0xf0000000, 0, 0, 0, 0, 0⟩,
  ⟨0x300000c8004, [], 32, 0, true, 0, 0, 0, 0, 0, 0⟩,
  ⟨0x300000c8008, [], 32, 0, true, 0, 0, 0, 0, 0, 0⟩,
  ⟨0x300000c800c, [], 32, 0, false, 0, 0, 0, 0xffffffff, 0, 0⟩,
  ⟨0x300000c8010, [], 64, 0, true, 0xffffffffffffffff, 0, 0, 0, 0, 0⟩,
  ⟨0x300000c8018, [], 64, 0, false, 0, 0, 0, 0, 0, 0⟩,
  ⟨0x300000c8020, [], 32, 0, false, 0, 0x1ff, 0, 0, 0, 0⟩,
  ⟨0x300000c8024, [], 32, 0, false, 0x1ff, 0, 0, 0, 0, 0⟩,
  ⟨0x300000c8028, [], 32, 0x00000004, false, 0xff, 0, 0, 0, 0, 0⟩,
  ⟨0x300000c802c, [], 32, 0x00000064, false, 0xffff, 0, 0, 0, 0, 0⟩]

def grfRegs1 : List RegDef := [
  ⟨0x300000c8030, [], 32, 0, false, 0, 0, 0, 0, 0, 0⟩,
  ⟨0x300000c8034, [], 32, 0, false, 0, 0, 0xffffffff, 0, 0, 0⟩,
  ⟨0x300000c8038, [], 32, 0, false, 0, 0, 0xffffffff, 0, 0, 0⟩,
  ⟨0x300000c803c, [], 32, 0, false, 0, 0, 0xffffffff, 0, 0, 0⟩,
  ⟨0x300000c8040, [], 32, 0, false, 0, 0, 0xffffffff, 0, 0, 0⟩,
  ⟨0x300000c8044, [], 32, 0, false, 0, 0, 0, 0, 0, 0⟩,
  ⟨0x300000c8048, [], 64, 0, false, 0, 0, 0, 0, 0, 0⟩,
  ⟨0x300000c8050, [(4, 0x10)], 64, 0, false, 0xffffffffffff, 0, 0, 0, 0, 0⟩,
  ⟨0x300000c8058, [(4, 0x10)], 32, 0, false, 0xffffffff, 0, 0, 0, 0, 0⟩]

/-- The registers of the block at 0x300000c0000. -/
def grfRegs : List RegDef :=
  grfRegs0 ++ grfRegs1

def hostRegs0 : List RegDef := [
  ⟨0x300000d0000, [], 32, 0x00000003, false, 0x3, 0, 0, 0, 0, 0⟩,
  ⟨0x300000d0004, [], 32, 0, false, 0, 0, 0, 0, 0, 0⟩,
  ⟨0x300000d0008, [], 32, 0, false, 0, 0xf, 0, 0, 0, 0⟩,
  ⟨0x300000d000c, [], 32, 0, false, 0xf, 0, 0, 0, 0, 0⟩,
  ⟨0x300000d0010, [], 32, (Config.vendorId.toNat + 0x0964 * 0x10000), false, 0, 0, 0, 0, 0, 0⟩,
  ⟨0x300000d0014, [], 32, 0x000003e8, false, 0xffff, 0, 0, 0, 0, 0⟩,
  ⟨0x300000d0018, [], 32, 0, false, 0, 0, 0xffffffff, 0, 0, 0⟩,
  ⟨0x300000d001c, [], 32, 0, false, 0, 0, 0xffffffff, 0, 0, 0⟩,
  ⟨0x300000d0020, [], 32, 0, false, 0, 0, 0xffffffff, 0, 0, 0⟩,
  ⟨0x300000d0040, [(4, 0x10)], 64, 0, false, 0xffffffffffff, 0, 0, 0, 0, 0⟩,
  ⟨0x300000d0048, [(4, 0x10)], 32, 0, false, 0x3, 0, 0, 0, 0, 0⟩,
  ⟨0x300000d0080, [], 64, Config.resetMac, true, 0xffffffffffff, 0, 0, 0, 0, 0⟩,
  ⟨0x300000d0088, [], 64, 0, true, 0xffffffffffff, 0, 0, 0, 0, 0⟩,
  ⟨0x300000d0090, [], 32, 0x00000006, false, 0x6, 0, 0, 0, 0, 0⟩,
  ⟨0x300000d0094, [], 32, 0, false, 0x7ffffff, 0, 0, 0, 0, 0⟩,
  ⟨0x300000d0100, [(32, 0x4)], 32, 0, false, 0x800001ff, 0, 0, 0, 0, 0⟩]

def hostRegs1 : List RegDef := [
  ⟨0x300000d0180, [], 32, 0, false, 0, 0, 0, 0xffffffff, 0, 0⟩,
  ⟨0x300000d0184, [], 32, 0, false, 0, 0, 0, 0, 0, 0⟩]

/-- The registers of the block at 0x300000d0000. -/
def hostRegs : List RegDef :=
  hostRegs0 ++ hostRegs1

def corectlRegs0 : List RegDef := [
  ⟨0x300000e0000, [(24, 0x1000)], 32, 0, false, 0x100, 0, 0, 0x1f, 0, 0⟩,
  ⟨0x300000e0004, [(24, 0x1000)], 32, 0x00100100, false, 0, 0, 0, 0, 0, 0⟩,
  ⟨0x300000e0008, [(24, 0x1000)], 32, 0, false, 0xfffffffe, 0, 0, 0, 0, 0⟩,
  ⟨0x300000e000c, [(24, 0x1000)], 32, 0x00040000, false, 0xffffffff, 0, 0, 0, 0, 0⟩,
  ⟨0x300000e0010, [(24, 0x1000)], 32, 0, false, 0xffffffff, 0, 0, 0, 0, 0⟩,
  ⟨0x300000e0014, [(24, 0x1000)], 32, 0, false, 0x1f, 0, 0, 0, 0, 0⟩,
  ⟨0x300000e0018, [(24, 0x1000)], 32, 0, false, 0xffffffff, 0, 0, 0, 0, 0⟩,
  ⟨0x300000e0020, [(24, 0x1000), (4, 0x4)], 32, 0, false, 0xffffffff, 0, 0, 0, 0, 0⟩,
  ⟨0x300000e0030, [(24, 0x1000), (2, 0x8)], 32, 0, false, 0xffffffff, 0, 0, 0, 0, 0⟩,
  ⟨0x300000e0034, [(24, 0x1000), (2, 0x8)], 32, 0, false, 0xffffffff, 0, 0, 0, 0, 0⟩,
  ⟨0x300000e0040, [(24, 0x1000)], 32, 0, false, 0, 0, 0, 0, 0, 0⟩,
  ⟨0x300000e0044, [(24, 0x1000)], 32, 0, false, 0, 0, 0, 0, 0, 0⟩,
  ⟨0x300000e0048, [(24, 0x1000)], 32, 0, false, 0, 0, 0xffffffff, 0, 0, 0⟩,
  ⟨0x300000e004c, [(24, 0x1000)], 32, 0, false, 0, 0, 0xffffffff, 0, 0, 0⟩,
  ⟨0x300000e0100, [(24, 0x1000)], 32, 0, false, 0xb, 0, 0, 0x4, 0, 0⟩,
  ⟨0x300000e0108, [(24, 0x1000)], 64, 0, false, 0, 0, 0, 0, 0xffffffffffffffff, 0⟩]

def corectlRegs1 : List RegDef := [
  ⟨0x300000e0110, [(24, 0x1000)], 64, 0, false, 0, 0, 0, 0, 0, 0⟩,
  ⟨0x300000e0118, [(24, 0x1000)], 64, 0, false, 0, 0, 0, 0, 0, 0⟩,
  ⟨0x300000e0120, [(24, 0x1000)], 64, 0, false, 0, 0, 0, 0, 0, 0⟩,
  ⟨0x300000e0128, [(24, 0x1000)], 32, 0, false, 0, 0, 0, 0, 0, 0⟩,
  ⟨0x300000e012c, [(24, 0x1000)], 32, 0, false, 0, 0, 0, 0, 0, 0⟩,
  ⟨0x300000e0130, [(24, 0x1000)], 32, 0, false, 0, 0, 0, 0, 0, 0⟩,
  ⟨0x300000e0134, [(24, 0x1000)], 32, 0, false, 0, 0, 0, 0, 0, 0⟩,
  ⟨0x300000e0138, [(24, 0x1000)], 32, 0, false, 0, 0, 0, 0, 0, 0⟩,
  ⟨0x300000e013c, [(24, 0x1000)], 32, 0, false, 0, 0, 0, 0, 0, 0⟩,
  ⟨0x300000e0140, [(24, 0x1000)], 32, 0, false, 0, 0, 0, 0, 0, 0⟩,
  ⟨0x300000e0144, [(24, 0x1000)], 32, 0, false, 0, 0, 0, 0, 0, 0⟩,
  ⟨0x300000e0148, [(24, 0x1000)], 32, 0, false, 0, 0, 0, 0, 0, 0⟩]

/-- The registers of the block at 0x300000e0000. -/
def corectlRegs : List RegDef :=
  corectlRegs0 ++ corectlRegs1

def stemBRegs0 : List RegDef := [
  ⟨0x300000f0000, [], 32, 0x00000002, false, 0x2, 0, 0, 0x5, 0, 0⟩,
  ⟨0x300000f0004, [], 32, 0, false, 0, 0, 0, 0, 0, 0⟩,
  ⟨0x300000f0008, [], 32, 0, false, 0, 0, 0xffffffff, 0, 0, 0⟩,
  ⟨0x300000f000c, [], 32, 0, false, 0, 0, 0xffffffff, 0, 0, 0⟩,
  ⟨0x300000f0010, [], 32, 0, false, 0, 0, 0xffffffff, 0, 0, 0⟩,
  ⟨0x300000f0014, [], 32, 0, false, 0, 0, 0xffffffff, 0, 0, 0⟩,
  ⟨0x300000f0018, [], 32, 0, false, 0, 0, 0xffffffff, 0, 0, 0⟩]

/-- The registers of the block at 0x300000f0000. -/
def stemBRegs : List RegDef :=
  stemBRegs0

def caminRegs0 : List RegDef := [
  ⟨0x30100000000, [(16, 0x1000)], 32, 0, false, 0xf8ffc000, 0, 0, 0, 0, 0xf8ffc000⟩,
  ⟨0x30100000004, [(16, 0x1000)], 32, 0, false, 0xffffffff, 0, 0, 0, 0, 0xffffffff⟩,
  ⟨0x30100000008, [(16, 0x1000)], 32, 0, false, 0xfff1fff, 0, 0, 0, 0, 0xfff1fff⟩,
  ⟨0x3010000000c, [(16, 0x1000)], 32, 0, false, 0xffffffff, 0, 0, 0, 0, 0xffffffff⟩,
  ⟨0x30100000010, [(16, 0x1000)], 32, 0, false, 0xffffffff, 0, 0, 0, 0, 0xffffffff⟩,
  ⟨0x30100000014, [(16, 0x1000)], 32, 0x006401f4, false, 0xffffffff, 0, 0, 0, 0, 0xffffffff⟩,
  ⟨0x30100000018, [(16, 0x1000)], 32, 0x00010000, false, 0xffff0007, 0, 0, 0, 0, 0xffff0007⟩,
  ⟨0x3010000001c, [(16, 0x1000)], 32, 0x00001000, false, 0xffffff, 0, 0, 0, 0, 0xffffff⟩,
  ⟨0x30100000020, [(16, 0x1000)], 32, 0x00002710, false, 0xffffffff, 0, 0, 0, 0, 0xffffffff⟩,
  ⟨0x30100000024, [(16, 0x1000)], 32, 0, false, 0xffffff, 0, 0, 0, 0, 0xffffff⟩,
  ⟨0x30100000028, [(16, 0x1000)], 32, 0x00000100, false, 0xffff, 0, 0, 0, 0, 0xffff⟩,
  ⟨0x3010000002c, [(16, 0x1000)], 32, 0, false, 0xffffffff, 0, 0, 0, 0, 0xffffffff⟩,
  ⟨0x30100000030, [(16, 0x1000)], 64, 0, false, 0xffffffffffff, 0, 0, 0, 0, 0xffffffffffff⟩,
  ⟨0x30100000038, [(16, 0x1000)], 32, 0, false, 0x7, 0, 0, 0, 0, 0x7⟩,
  ⟨0x3010000003c, [(16, 0x1000)], 32, 0x00000f00, false, 0xf0f, 0, 0, 0, 0, 0xf0f⟩,
  ⟨0x30100000040, [(16, 0x1000)], 32, 0, false, 0, 0, 0, 0, 0, 0⟩]

def caminRegs1 : List RegDef := [
  ⟨0x30100000044, [(16, 0x1000)], 32, 0, false, 0, 0x1fff, 0, 0, 0, 0⟩,
  ⟨0x30100000048, [(16, 0x1000)], 32, 0, false, 0x1fff, 0, 0, 0, 0, 0⟩,
  ⟨0x3010000004c, [(16, 0x1000)], 32, 0, false, 0, 0, 0xffffffff, 0, 0, 0⟩,
  ⟨0x30100000050, [(16, 0x1000)], 32, 0, false, 0, 0, 0xffffffff, 0, 0, 0⟩,
  ⟨0x30100000054, [(16, 0x1000)], 32, 0, false, 0, 0, 0xffffffff, 0, 0, 0⟩,
  ⟨0x30100000058, [(16, 0x1000)], 32, 0, false, 0, 0, 0xffffffff, 0, 0, 0⟩,
  ⟨0x3010000005c, [(16, 0x1000)], 32, 0, false, 0, 0, 0xffffffff, 0, 0, 0⟩,
  ⟨0x30100000060, [(16, 0x1000)], 64, 0, false, 0, 0, 0, 0, 0, 0⟩,
  ⟨0x30100000068, [(16, 0x1000)], 32, 0x00000a02, false, 0xff03, 0, 0, 0, 0, 0⟩,
  ⟨0x3010000006c, [(16, 0x1000)], 32, 0, false, 0, 0, 0, 0xffffffff, 0, 0⟩,
  ⟨0x30100000070, [(16, 0x1000)], 64, 0, false, 0xffffffffffffffff, 0, 0, 0, 0, 0⟩,
  ⟨0x30100000078, [(16, 0x1000)], 64, 0, false, 0, 0, 0, 0, 0, 0⟩,
  ⟨0x30100000080, [(16, 0x1000)], 32, 0, false, 0, 0, 0, 0, 0, 0⟩]

/-- The registers of the block at 0x30100000000. -/
def caminRegs : List RegDef :=
  caminRegs0 ++ caminRegs1

def sieveRegs0 : List RegDef := [
  ⟨0x30100010000, [], 32, 0, false, 0x1, 0, 0, 0, 0, 0x1⟩,
  ⟨0x30100010004, [], 32, 0x000007d0, false, 0xffff, 0, 0, 0, 0, 0xffff⟩,
  ⟨0x30100010008, [], 64, 0, false, 0xffffffffffff, 0, 0, 0, 0, 0xffffffffffff⟩,
  ⟨0x30100010010, [], 32, 0, false, 0x1f, 0, 0, 0, 0, 0x1f⟩,
  ⟨0x30100010018, [], 64, 0, false, 0xffffffffffff, 0, 0, 0, 0, 0⟩,
  ⟨0x30100010020, [], 32, 0, false, 0x1f1, 0, 0, 0, 0, 0⟩,
  ⟨0x30100010024, [], 32, 0, false, 0, 0, 0, 0, 0, 0⟩,
  ⟨0x30100010028, [], 32, 0, false, 0x1ffff, 0, 0, 0, 0, 0⟩,
  ⟨0x3010001002c, [], 32, 0, false, 0, 0, 0xffffffff, 0, 0, 0⟩,
  ⟨0x30100010100, [(16, 0x10)], 64, 0, false, 0xffffffffffff, 0, 0, 0, 0, 0xffffffffffff⟩,
  ⟨0x30100010108, [(16, 0x10)], 32, 0, false, 0x7ff, 0, 0, 0, 0, 0x7ff⟩,
  ⟨0x30100010300, [(4, 0x8)], 64, 0, false, 0xffffffffffff, 0, 0, 0, 0, 0xffffffffffff⟩,
  ⟨0x30100011000, [(4, 0x1000)], 32, 0, false, 0, 0, 0, 0, 0, 0⟩,
  ⟨0x30100011004, [(4, 0x1000)], 32, 0, false, 0, 0x7f, 0, 0, 0, 0⟩,
  ⟨0x30100011008, [(4, 0x1000)], 32, 0, false, 0x7f, 0, 0, 0, 0, 0⟩,
  ⟨0x3010001100c, [(4, 0x1000)], 32, 0, false, 0, 0, 0xffffffff, 0, 0, 0⟩]

def sieveRegs1 : List RegDef := [
  ⟨0x30100011010, [(4, 0x1000)], 32, 0, false, 0, 0, 0xffffffff, 0, 0, 0⟩,
  ⟨0x30100011014, [(4, 0x1000)], 32, 0, false, 0, 0, 0xffffffff, 0, 0, 0⟩,
  ⟨0x30100011018, [(4, 0x1000)], 32, 0, false, 0, 0, 0xffffffff, 0, 0, 0⟩,
  ⟨0x3010001101c, [(4, 0x1000)], 32, 0, false, 0, 0, 0xffffffff, 0, 0, 0⟩,
  ⟨0x30100011020, [(4, 0x1000)], 32, 0, false, 0, 0, 0, 0, 0, 0⟩]

/-- The registers of the block at 0x30100010000. -/
def sieveRegs : List RegDef :=
  sieveRegs0 ++ sieveRegs1

def compRegs0 : List RegDef := [
  ⟨0x30100020000, [(8, 0x1000)], 32, 0, false, 0x3f, 0, 0, 0, 0, 0x3f⟩,
  ⟨0x30100020004, [(8, 0x1000)], 32, 0, false, 0x3fff3fff, 0, 0, 0, 0, 0x3fff3fff⟩,
  ⟨0x30100020008, [(8, 0x1000)], 32, 0, false, 0x7f, 0, 0, 0, 0, 0x7f⟩,
  ⟨0x3010002000c, [(8, 0x1000)], 32, 0, false, 0xffffff, 0, 0, 0, 0, 0xffffff⟩,
  ⟨0x30100020010, [(8, 0x1000)], 32, 0, false, 0xf, 0, 0, 0, 0, 0xf⟩,
  ⟨0x30100020014, [(8, 0x1000)], 32, 0, false, 0x800007ff, 0, 0, 0, 0, 0x800007ff⟩,
  ⟨0x30100020018, [(8, 0x1000)], 64, 0, false, 0xffffffffffff, 0, 0, 0, 0, 0xffffffffffff⟩,
  ⟨0x30100020020, [(8, 0x1000)], 64, 0, false, 0xffffffffffff, 0, 0, 0, 0, 0xffffffffffff⟩,
  ⟨0x30100020028, [(8, 0x1000)], 32, 0, false, 0x1ff, 0, 0, 0, 0, 0x1ff⟩,
  ⟨0x30100020030, [(8, 0x1000)], 64, 0, false, 0xffffffffffff, 0, 0, 0, 0, 0xffffffffffff⟩,
  ⟨0x30100020038, [(8, 0x1000)], 64, 0, false, 0xffffffffffff, 0, 0, 0, 0, 0xffffffffffff⟩,
  ⟨0x30100020040, [(8, 0x1000)], 32, 0, false, 0x1f, 0, 0, 0, 0, 0x1f⟩,
  ⟨0x30100020048, [(8, 0x1000)], 64, 0, false, 0xffffffffffff, 0, 0, 0, 0, 0xffffffffffff⟩,
  ⟨0x30100020050, [(8, 0x1000)], 32, 0, false, 0x1fff, 0, 0, 0, 0, 0x1fff⟩,
  ⟨0x30100020054, [(8, 0x1000)], 32, 0, false, 0x3ffff, 0, 0, 0, 0, 0x3ffff⟩,
  ⟨0x30100020058, [(8, 0x1000)], 32, 0, false, 0xffffffff, 0, 0, 0, 0, 0xffffffff⟩]

def compRegs1 : List RegDef := [
  ⟨0x3010002005c, [(8, 0x1000)], 32, 0, false, 0xffffffff, 0, 0, 0, 0, 0xffffffff⟩,
  ⟨0x30100020060, [(8, 0x1000)], 32, 0, false, 0, 0, 0, 0xffffffff, 0, 0⟩,
  ⟨0x30100020068, [(8, 0x1000)], 64, 0, false, 0xffffffffffff, 0, 0, 0, 0, 0⟩,
  ⟨0x30100020070, [(8, 0x1000)], 32, 0, false, 0, 0, 0, 0, 0, 0⟩,
  ⟨0x30100020074, [(8, 0x1000)], 32, 0, false, 0, 0, 0, 0, 0, 0⟩,
  ⟨0x30100020078, [(8, 0x1000)], 32, 0, false, 0, 0, 0, 0, 0, 0⟩,
  ⟨0x3010002007c, [(8, 0x1000)], 32, 0, false, 0, 0x3fff, 0, 0, 0, 0⟩,
  ⟨0x30100020080, [(8, 0x1000)], 32, 0, false, 0x3fff, 0, 0, 0, 0, 0⟩,
  ⟨0x30100020084, [(8, 0x1000)], 32, 0, false, 0, 0, 0xffffffff, 0, 0, 0⟩,
  ⟨0x30100020088, [(8, 0x1000)], 32, 0, false, 0, 0, 0xffffffff, 0, 0, 0⟩,
  ⟨0x3010002008c, [(8, 0x1000)], 32, 0, false, 0, 0, 0xffffffff, 0, 0, 0⟩,
  ⟨0x30100020090, [(8, 0x1000)], 32, 0, false, 0, 0, 0xffffffff, 0, 0, 0⟩,
  ⟨0x30100020094, [(8, 0x1000)], 32, 0, false, 0, 0, 0xffffffff, 0, 0, 0⟩,
  ⟨0x30100020098, [(8, 0x1000)], 32, 0, false, 0, 0, 0xffffffff, 0, 0, 0⟩,
  ⟨0x3010002009c, [(8, 0x1000)], 32, 0, false, 0, 0, 0xffffffff, 0, 0, 0⟩,
  ⟨0x301000200a0, [(8, 0x1000)], 32, 0, false, 0, 0, 0, 0xffffffff, 0, 0⟩]

def compRegs2 : List RegDef := [
  ⟨0x301000200a4, [(8, 0x1000)], 32, 0, false, 0, 0, 0, 0, 0, 0⟩,
  ⟨0x30100020200, [(8, 0x1000), (8, 0x40)], 32, 0, false, 0x1fffff7, 0, 0, 0, 0, 0x1fffff7⟩,
  ⟨0x30100020204, [(8, 0x1000), (8, 0x40)], 32, 0, false, 0xffffffff, 0, 0, 0, 0, 0xffffffff⟩,
  ⟨0x30100020208, [(8, 0x1000), (8, 0x40)], 32, 0, false, 0x3fff3fff, 0, 0, 0, 0, 0x3fff3fff⟩,
  ⟨0x3010002020c, [(8, 0x1000), (8, 0x40)], 32, 0, false, 0x3fff3fff, 0, 0, 0, 0, 0x3fff3fff⟩,
  ⟨0x30100020210, [(8, 0x1000), (8, 0x40)], 64, 0, false, 0xffffffffffff, 0, 0, 0, 0, 0xffffffffffff⟩,
  ⟨0x30100020218, [(8, 0x1000), (8, 0x40)], 32, 0, false, 0x3ffff, 0, 0, 0, 0, 0x3ffff⟩,
  ⟨0x3010002021c, [(8, 0x1000), (8, 0x40)], 32, 0, false, 0xffffffff, 0, 0, 0, 0, 0xffffffff⟩,
  ⟨0x30100020220, [(8, 0x1000), (8, 0x40)], 64, 0, false, 0xffffffffffff, 0, 0, 0, 0, 0xffffffffffff⟩,
  ⟨0x30100020228, [(8, 0x1000), (8, 0x40)], 32, 0, false, 0xffffffff, 0, 0, 0, 0, 0xffffffff⟩,
  ⟨0x30100020400, [(8, 0x1000)], 32, 0, false, 0x7, 0, 0, 0, 0, 0x7⟩,
  ⟨0x30100020404, [(8, 0x1000)], 32, 0, false, 0xffffffff, 0, 0, 0, 0, 0xffffffff⟩,
  ⟨0x30100020408, [(8, 0x1000), (8, 0x4)], 32, 0, false, 0xffffffff, 0, 0, 0, 0, 0xffffffff⟩,
  ⟨0x30100020428, [(8, 0x1000)], 32, 0, false, 0xffffffff, 0, 0, 0, 0, 0xffffffff⟩,
  ⟨0x3010002042c, [(8, 0x1000)], 32, 0, false, 0xffff, 0, 0, 0, 0, 0xffff⟩,
  ⟨0x30100020430, [(8, 0x1000)], 32, 0, false, 0xffffffff, 0, 0, 0, 0, 0xffffffff⟩]

def compRegs3 : List RegDef := [
  ⟨0x30100020434, [(8, 0x1000)], 32, 0, false, 0xffffffff, 0, 0, 0, 0, 0xffffffff⟩,
  ⟨0x30100020438, [(8, 0x1000)], 32, 0, false, 0xffffffff, 0, 0, 0, 0, 0xffffffff⟩,
  ⟨0x30100020440, [(8, 0x1000), (3, 0x10), (4, 0x4)], 32, 0, false, 0xffffffff, 0, 0, 0, 0, 0xffffffff⟩]

/-- The registers of the block at 0x30100020000. -/
def compRegs : List RegDef :=
  compRegs0 ++ compRegs1 ++ compRegs2 ++ compRegs3

def drawRegs0 : List RegDef := [
  ⟨0x30100030000, [(2, 0x1000)], 32, 0, false, 0x3, 0, 0, 0x4, 0, 0⟩,
  ⟨0x30100030004, [(2, 0x1000)], 32, 0, false, 0, 0, 0, 0, 0, 0⟩,
  ⟨0x30100030008, [(2, 0x1000)], 64, 0, false, 0xffffffffffff, 0, 0, 0, 0, 0⟩,
  ⟨0x30100030010, [(2, 0x1000)], 32, 0x00000004, false, 0x1f, 0, 0, 0, 0, 0⟩,
  ⟨0x30100030014, [(2, 0x1000)], 32, 0, false, 0x1ffff, 0, 0, 0, 0, 0⟩,
  ⟨0x30100030018, [(2, 0x1000)], 32, 0, false, 0, 0, 0, 0, 0, 0⟩,
  ⟨0x3010003001c, [(2, 0x1000)], 32, 0, false, 0, 0xf, 0, 0, 0, 0⟩,
  ⟨0x30100030020, [(2, 0x1000)], 32, 0, false, 0xf, 0, 0, 0, 0, 0⟩,
  ⟨0x30100030024, [(2, 0x1000)], 32, 0, false, 0, 0, 0xffffffff, 0, 0, 0⟩,
  ⟨0x30100030028, [(2, 0x1000)], 32, 0, false, 0, 0, 0xffffffff, 0, 0, 0⟩,
  ⟨0x3010003002c, [(2, 0x1000)], 32, 0, false, 0, 0, 0xffffffff, 0, 0, 0⟩,
  ⟨0x30100030030, [(2, 0x1000)], 32, 0, false, 0, 0, 0, 0, 0, 0⟩,
  ⟨0x30100030034, [(2, 0x1000)], 32, 0, false, 0, 0, 0, 0, 0, 0⟩]

/-- The registers of the block at 0x30100030000. -/
def drawRegs : List RegDef :=
  drawRegs0

def rasterRegs0 : List RegDef := [
  ⟨0x30100040000, [(8, 0x1000)], 32, 0, false, 0x8001fff0, 0, 0, 0, 0, 0x8001fff0⟩,
  ⟨0x30100040004, [(8, 0x1000)], 32, 0, false, 0x7fff, 0, 0, 0, 0, 0x7fff⟩,
  ⟨0x30100040008, [(8, 0x1000)], 32, 0x00010000, false, 0xffffffff, 0, 0, 0, 0, 0xffffffff⟩,
  ⟨0x3010004000c, [(8, 0x1000)], 32, 0, false, 0xffffffff, 0, 0, 0, 0, 0xffffffff⟩,
  ⟨0x30100040010, [(8, 0x1000)], 32, 0x000007d0, false, 0xffff, 0, 0, 0, 0, 0xffff⟩,
  ⟨0x30100040014, [(8, 0x1000)], 32, 0x00001a0b, false, 0xffff, 0, 0, 0, 0, 0xffff⟩,
  ⟨0x30100040018, [(8, 0x1000)], 32, 0, false, 0xffffffff, 0, 0, 0, 0, 0xffffffff⟩,
  ⟨0x3010004001c, [(8, 0x1000)], 32, 0x00000033, false, 0x77, 0, 0, 0, 0, 0x77⟩,
  ⟨0x30100040020, [(8, 0x1000)], 32, 0, false, 0x1, 0, 0, 0, 0, 0x1⟩,
  ⟨0x30100040024, [(8, 0x1000)], 32, 0, false, 0, 0, 0, 0xffffffff, 0, 0⟩,
  ⟨0x30100040028, [(8, 0x1000)], 64, 0, false, 0xffffffffffff, 0, 0, 0, 0, 0⟩,
  ⟨0x30100040030, [(8, 0x1000)], 32, 0, false, 0, 0, 0, 0, 0, 0⟩,
  ⟨0x30100040034, [(8, 0x1000)], 32, 0x000000c8, false, 0xffff, 0, 0, 0, 0, 0xffff⟩,
  ⟨0x30100040038, [(8, 0x1000)], 32, 0, false, 0, 0, 0, 0, 0, 0⟩,
  ⟨0x3010004003c, [(8, 0x1000)], 32, 0, false, 0, 0xff, 0, 0, 0, 0⟩,
  ⟨0x30100040040, [(8, 0x1000)], 32, 0, false, 0xff, 0, 0, 0, 0, 0⟩]

def rasterRegs1 : List RegDef := [
  ⟨0x30100040044, [(8, 0x1000)], 32, 0, false, 0, 0, 0xffffffff, 0, 0, 0⟩,
  ⟨0x30100040048, [(8, 0x1000)], 32, 0, false, 0, 0, 0xffffffff, 0, 0, 0⟩,
  ⟨0x3010004004c, [(8, 0x1000)], 32, 0, false, 0, 0, 0xffffffff, 0, 0, 0⟩,
  ⟨0x30100040050, [(8, 0x1000)], 32, 0, false, 0, 0, 0xffffffff, 0, 0, 0⟩,
  ⟨0x30100040054, [(8, 0x1000)], 32, 0, false, 0, 0, 0xffffffff, 0, 0, 0⟩,
  ⟨0x30100040058, [(8, 0x1000)], 32, 0, false, 0, 0, 0, 0, 0, 0⟩,
  ⟨0x3010004005c, [(8, 0x1000)], 32, 0, false, 0, 0, 0, 0, 0, 0⟩,
  ⟨0x30100040060, [(8, 0x1000)], 32, 0, false, 0, 0, 0xffffffff, 0, 0, 0⟩]

/-- The registers of the block at 0x30100040000. -/
def rasterRegs : List RegDef :=
  rasterRegs0 ++ rasterRegs1

def dispRegs0 : List RegDef := [
  ⟨0x30100050000, [(3, 0x1000)], 32, 0, false, 0x80003f8f, 0, 0, 0, 0, 0x80003f8f⟩,
  ⟨0x30100050004, [(3, 0x1000)], 32, 0, false, 0, 0, 0, 0, 0, 0⟩,
  ⟨0x30100050008, [(3, 0x1000)], 32, 0, false, 0, 0x7f, 0, 0, 0, 0⟩,
  ⟨0x3010005000c, [(3, 0x1000)], 32, 0, false, 0x7f, 0, 0, 0, 0, 0⟩,
  ⟨0x30100050010, [(3, 0x1000)], 32, 0, false, 0, 0, 0xffffffff, 0, 0, 0⟩,
  ⟨0x30100050014, [(3, 0x1000)], 32, 0, false, 0, 0, 0xffffffff, 0, 0, 0⟩,
  ⟨0x30100050018, [(3, 0x1000)], 32, 0, false, 0x7, 0, 0, 0x30, 0, 0⟩,
  ⟨0x3010005001c, [(3, 0x1000)], 32, 0, false, 0x1fff1fff, 0, 0, 0, 0, 0⟩,
  ⟨0x30100050020, [(3, 0x1000)], 32, 0, false, 0, 0, 0, 0xffffffff, 0, 0⟩,
  ⟨0x30100050024, [(3, 0x1000)], 32, 0, false, 0, 0, 0, 0, 0, 0⟩,
  ⟨0x30100050028, [(3, 0x1000), (4, 0x4)], 32, 0, false, 0xffffffff, 0, 0, 0, 0, 0⟩,
  ⟨0x30100050038, [(3, 0x1000)], 32, 0, false, 0, 0, 0xffffffff, 0, 0, 0⟩]

/-- The registers of the block at 0x30100050000. -/
def dispRegs : List RegDef :=
  dispRegs0

def memcRegs0 : List RegDef := [
  ⟨0x30100068000, [], 32, 0x00010021, false, 0x10133, 0, 0, 0, 0, 0⟩,
  ⟨0x30100068004, [], 32, 0, false, 0, 0, 0, 0xffffffff, 0, 0⟩,
  ⟨0x30100068008, [], 32, 0, false, 0, 0, 0, 0, 0, 0⟩,
  ⟨0x3010006800c, [], 32, 0, false, 0, 0xf, 0, 0, 0, 0⟩,
  ⟨0x30100068010, [], 32, 0, false, 0xf, 0, 0, 0, 0, 0⟩,
  ⟨0x30100068014, [], 32, 0, false, 0, 0, 0xffffffff, 0, 0, 0⟩,
  ⟨0x30100068018, [], 32, 0, false, 0, 0, 0xffffffff, 0, 0, 0⟩,
  ⟨0x30100068020, [], 64, 0, false, 0, 0, 0, 0, 0, 0⟩,
  ⟨0x30100068028, [], 32, 0x00000018, false, 0xffff, 0, 0, 0, 0, 0⟩,
  ⟨0x3010006802c, [], 32, 0, false, 0, 0, 0, 0, 0, 0⟩,
  ⟨0x30100060000, [(8, 0x1000)], 32, 0, false, 0, 0, 0, 0, 0, 0⟩,
  ⟨0x30100060004, [(8, 0x1000)], 32, 0, false, 0, 0, 0xffffffff, 0, 0, 0⟩,
  ⟨0x30100060008, [(8, 0x1000)], 32, 0, false, 0, 0, 0xffffffff, 0, 0, 0⟩]

/-- The registers of the block at 0x30100060000. -/
def memcRegs : List RegDef :=
  memcRegs0

def dmaiRegs0 : List RegDef := [
  ⟨0x30100070000, [(2, 0x1000), (16, 0x40)], 32, 0, false, 0xf81f0000, 0, 0, 0, 0, 0xf81f0000⟩,
  ⟨0x30100070008, [(2, 0x1000), (16, 0x40)], 64, 0, false, 0xffffffffffff, 0, 0, 0, 0, 0xffffffffffff⟩,
  ⟨0x30100070010, [(2, 0x1000), (16, 0x40)], 32, 0, false, 0x1ffff, 0, 0, 0, 0, 0⟩,
  ⟨0x30100070014, [(2, 0x1000), (16, 0x40)], 32, 0, false, 0, 0, 0, 0, 0, 0⟩,
  ⟨0x30100070018, [(2, 0x1000), (16, 0x40)], 32, 0, false, 0, 0, 0, 0, 0, 0⟩,
  ⟨0x3010007001c, [(2, 0x1000), (16, 0x40)], 32, 0, false, 0, 0, 0, 0xffffffff, 0, 0⟩,
  ⟨0x30100070020, [(2, 0x1000), (16, 0x40)], 32, 0, false, 0, 0, 0xffffffff, 0, 0, 0⟩,
  ⟨0x30100070800, [(2, 0x1000)], 32, 0, false, 0, 0xffffffff, 0, 0, 0, 0⟩,
  ⟨0x30100070804, [(2, 0x1000)], 32, 0, false, 0xffffffff, 0, 0, 0, 0, 0⟩,
  ⟨0x30100070808, [(2, 0x1000)], 32, 0, false, 0, 0, 0xffffffff, 0, 0, 0⟩,
  ⟨0x3010007080c, [(2, 0x1000)], 32, 0, false, 0, 0, 0xffffffff, 0, 0, 0⟩,
  ⟨0x30100070810, [(2, 0x1000)], 32, 0, false, 0, 0, 0, 0, 0, 0⟩]

/-- The registers of the block at 0x30100070000. -/
def dmaiRegs : List RegDef :=
  dmaiRegs0

def stemIRegs0 : List RegDef := [
  ⟨0x301000f0000, [], 32, 0x00000002, false, 0x2, 0, 0, 0x5, 0, 0⟩,
  ⟨0x301000f0004, [], 32, 0, false, 0, 0, 0, 0, 0, 0⟩,
  ⟨0x301000f0008, [], 32, 0, false, 0, 0, 0xffffffff, 0, 0, 0⟩,
  ⟨0x301000f000c, [], 32, 0, false, 0, 0, 0xffffffff, 0, 0, 0⟩,
  ⟨0x301000f0010, [], 32, 0, false, 0, 0, 0xffffffff, 0, 0, 0⟩,
  ⟨0x301000f0014, [], 32, 0, false, 0, 0, 0xffffffff, 0, 0, 0⟩,
  ⟨0x301000f0018, [], 32, 0, false, 0, 0, 0xffffffff, 0, 0, 0⟩]

/-- The registers of the block at 0x301000f0000. -/
def stemIRegs : List RegDef :=
  stemIRegs0

def pwrRegs0 : List RegDef := [
  ⟨0x3ff00010000, [], 32, 0, false, 0, 0, 0, 0, 0, 0⟩,
  ⟨0x3ff00010004, [], 32, 0, false, 0, 0, 0, 0xffffffff, 0, 0⟩,
  ⟨0x3ff00010008, [], 32, 0, false, 0, 0x3f, 0, 0, 0, 0⟩,
  ⟨0x3ff0001000c, [], 32, 0, false, 0x3f, 0, 0, 0, 0, 0⟩,
  ⟨0x3ff00010010, [], 32, 0x00000001, true, 0x1f, 0, 0, 0, 0, 0⟩,
  ⟨0x3ff00010018, [], 64, 0, true, 0xffffffffffffffff, 0, 0, 0, 0, 0⟩,
  ⟨0x3ff00010020, [], 32, 0, true, 0, 0, 0, 0, 0, 0⟩,
  ⟨0x3ff00010024, [], 32, 0, true, 0, 0, 0, 0, 0, 0⟩,
  ⟨0x3ff00010048, [], 32, 0xf, false, 0xffffffff, 0, 0, 0, 0, 0⟩,
  ⟨0x3ff00010040, [(3, 0x4)], 32, 0xffffffff, false, 0xffffffff, 0, 0, 0, 0, 0⟩,
  ⟨0x3ff00010058, [], 32, 0xf, false, 0, 0, 0, 0, 0, 0⟩,
  ⟨0x3ff00010050, [(3, 0x4)], 32, 0xffffffff, false, 0, 0, 0, 0, 0, 0⟩,
  ⟨0x3ff00010060, [], 32, 0, false, 0, 0, 0, 0, 0, 0⟩,
  ⟨0x3ff00010064, [], 32, 0, false, 0, 0, 0xffffffff, 0, 0, 0⟩,
  ⟨0x3ff00010100, [(8, 0x10)], 32, 0, true, 0x80001f7f, 0, 0, 0, 0, 0⟩,
  ⟨0x3ff00010104, [(8, 0x10)], 32, 0, true, 0xffffffff, 0, 0, 0, 0, 0⟩]

def pwrRegs1 : List RegDef := [
  ⟨0x3ff00010108, [(8, 0x10)], 32, 0, true, 0, 0, 0, 0, 0, 0⟩,
  ⟨0x3ff0001010c, [(8, 0x10)], 32, 0, false, 0, 0, 0, 0, 0, 0⟩]

/-- The registers of the block at 0x3ff00010000. -/
def pwrRegs : List RegDef :=
  pwrRegs0 ++ pwrRegs1

def clkRegs0 : List RegDef := [
  ⟨0x3ff00020000, [(6, 0x10)], 32, 0x00000258, false, 0x7ff, 0, 0, 0, 0, 0⟩,
  ⟨0x3ff00020004, [(6, 0x10)], 32, 0x00000258, false, 0x7ff, 0, 0, 0, 0, 0x7ff⟩,
  ⟨0x3ff00020008, [(6, 0x10)], 32, 0x000004b0, true, 0, 0, 0, 0, 0, 0⟩,
  ⟨0x3ff00020080, [], 32, 0, false, 0, 0, 0, 0, 0, 0⟩,
  ⟨0x3ff00020084, [], 32, 0, false, 0, 0x7, 0, 0, 0, 0⟩,
  ⟨0x3ff00020088, [], 32, 0, false, 0x7, 0, 0, 0, 0, 0⟩,
  ⟨0x3ff00020090, [], 32, 0, false, 0x7f, 0, 0, 0, 0, 0⟩,
  ⟨0x3ff00020094, [], 32, 0, false, 0, 0, 0, 0, 0, 0⟩,
  ⟨0x3ff000200a0, [(4, 0x4)], 32, 0, false, 0xd000ffff, 0, 0, 0, 0, 0xd000ffff⟩]

/-- The registers of the block at 0x3ff00020000. -/
def clkRegs : List RegDef :=
  clkRegs0

def healthRegs0 : List RegDef := [
  ⟨0x3ff00030000, [], 32, 0x000a0f23, true, 0x7ffffff, 0, 0, 0, 0, 0⟩,
  ⟨0x3ff00030004, [], 32, 0x00010a18, true, 0x1ffff, 0, 0, 0, 0, 0⟩,
  ⟨0x3ff00030008, [], 32, 0, false, 0, 0, 0, 0xffffffff, 0, 0⟩,
  ⟨0x3ff0003000c, [], 32, 0x0000000c, true, 0xff, 0, 0, 0, 0, 0⟩,
  ⟨0x3ff00030010, [], 32, 0, true, 0, 0, 0, 0, 0, 0⟩,
  ⟨0x3ff00030014, [], 32, 0, true, 0, 0, 0, 0, 0, 0⟩,
  ⟨0x3ff00030018, [], 32, 0xffffffff, true, 0, 0, 0, 0, 0, 0⟩,
  ⟨0x3ff0003001c, [], 32, 0x00006c64, false, 0xffff, 0, 0, 0, 0, 0⟩,
  ⟨0x3ff00030020, [], 32, 0, false, 0, 0, 0, 0, 0, 0⟩,
  ⟨0x3ff00030024, [], 32, 0, false, 0, 0, 0xffffffff, 0, 0, 0⟩,
  ⟨0x3ff00030028, [], 32, 0, false, 0, 0, 0xffffffff, 0, 0, 0⟩,
  ⟨0x3ff0003002c, [], 32, 0, true, 0, 0, 0, 0, 0, 0⟩,
  ⟨0x3ff00030030, [], 32, 0, false, 0, 0x7f, 0, 0, 0, 0⟩,
  ⟨0x3ff00030034, [], 32, 0, false, 0x7f, 0, 0, 0, 0, 0⟩,
  ⟨0x3ff00030038, [], 64, 0, false, 0, 0, 0, 0, 0, 0⟩,
  ⟨0x3ff00030040, [(24, 0x4)], 32, 0, false, 0, 0, 0, 0, 0, 0⟩]

def healthRegs1 : List RegDef := [
  ⟨0x3ff00030100, [(16, 0x10)], 32, 0, false, 0, 0, 0, 0, 0, 0⟩,
  ⟨0x3ff00030104, [(16, 0x10)], 32, 0xffffffff, true, 0, 0, 0, 0, 0, 0⟩,
  ⟨0x3ff00030108, [(16, 0x10)], 32, 0, true, 0, 0, 0, 0, 0, 0⟩,
  ⟨0x3ff0003010c, [(16, 0x10)], 32, 0, true, 0, 0, 0, 0, 0, 0⟩]

/-- The registers of the block at 0x3ff00030000. -/
def healthRegs : List RegDef :=
  healthRegs0 ++ healthRegs1

def logRegs0 : List RegDef := [
  ⟨0x3ff00040000, [], 32, 0x00000011, true, 0xfff007f, 0, 0, 0, 0, 0⟩,
  ⟨0x3ff00040004, [], 32, 0, false, 0, 0x3f, 0, 0, 0, 0⟩,
  ⟨0x3ff00040008, [], 32, 0, false, 0x3f, 0, 0, 0, 0, 0⟩,
  ⟨0x3ff00040010, [], 64, 0, true, 0xffffffffffff, 0, 0, 0, 0, 0⟩,
  ⟨0x3ff00040018, [], 32, 0x0000001a, true, 0x1f, 0, 0, 0, 0, 0⟩,
  ⟨0x3ff0004001c, [], 32, 0, true, 0, 0, 0, 0, 0, 0⟩,
  ⟨0x3ff00040020, [], 32, 0, true, 0xffffffff, 0, 0, 0, 0, 0⟩,
  ⟨0x3ff00040024, [], 32, 0, true, 0, 0, 0, 0, 0, 0⟩,
  ⟨0x3ff00040028, [], 32, 0, true, 0, 0, 0xffffffff, 0, 0, 0⟩,
  ⟨0x3ff00040030, [], 32, 0, false, 0xffffffff, 0, 0, 0, 0, 0⟩,
  ⟨0x3ff00040034, [], 32, 0, false, 0xffffffff, 0, 0, 0, 0, 0⟩,
  ⟨0x3ff00040038, [], 32, 0, false, 0xffffffff, 0, 0, 0, 0, 0⟩,
  ⟨0x3ff0004003c, [], 32, 0, false, 0, 0, 0, 0xffffffff, 0, 0⟩,
  ⟨0x3ff00040040, [], 32, 0, false, 0, 0, 0, 0xffffffff, 0, 0⟩,
  ⟨0x3ff00040044, [], 32, 0, false, 0, 0, 0, 0xffffffff, 0, 0⟩,
  ⟨0x3ff00040048, [], 32, 0, true, 0, 0, 0, 0, 0, 0⟩]

def logRegs1 : List RegDef := [
  ⟨0x3ff0004004c, [], 32, 0x000003e8, true, 0xffff, 0, 0, 0, 0, 0⟩,
  ⟨0x3ff00040050, [], 64, 0, true, 0xffffffffffff, 0, 0, 0, 0, 0⟩,
  ⟨0x3ff00040058, [], 32, 0x00000008, true, 0x1f, 0, 0, 0, 0, 0⟩,
  ⟨0x3ff0004005c, [], 32, 0, true, 0, 0, 0, 0, 0, 0⟩,
  ⟨0x3ff00040060, [], 32, 0, true, 0x1ffff, 0, 0, 0, 0, 0⟩,
  ⟨0x3ff00040068, [], 64, 0, false, 0xffffffffffff, 0, 0, 0, 0, 0⟩,
  ⟨0x3ff00040070, [], 32, 0x00000010, false, 0x1f, 0, 0, 0, 0, 0⟩,
  ⟨0x3ff00040074, [], 32, 0, false, 0, 0, 0, 0, 0, 0⟩,
  ⟨0x3ff00040078, [], 32, 0, false, 0x1fffff, 0, 0, 0, 0, 0⟩,
  ⟨0x3ff0004007c, [], 32, 0, false, 0, 0, 0xffffffff, 0, 0, 0⟩,
  ⟨0x3ff00040100, [(3, 0x10)], 32, 0x00000010, true, 0xffff, 0, 0, 0, 0, 0⟩,
  ⟨0x3ff00040104, [(3, 0x10)], 32, 0x00000040, true, 0xffff, 0, 0, 0, 0, 0⟩,
  ⟨0x3ff00040108, [(3, 0x10)], 32, 0x00000040, true, 0xffff, 0, 0, 0, 0, 0⟩,
  ⟨0x3ff00040200, [(64, 0x4)], 32, 0, false, 0xf07, 0, 0, 0, 0, 0⟩,
  ⟨0x3ff00040400, [(64, 0x8)], 64, 0, false, 0, 0, 0, 0xffffffffffffffff, 0, 0⟩,
  ⟨0x3ff00048000, [(1024, 0x20), (8, 0x4)], 32, 0, true, 0, 0, 0, 0, 0, 0⟩]

/-- The registers of the block at 0x3ff00040000. -/
def logRegs : List RegDef :=
  logRegs0 ++ logRegs1

def secRegs0 : List RegDef := [
  ⟨0x3ff00050000, [], 32, 0, false, 0, 0, 0, 0, 0, 0⟩,
  ⟨0x3ff00050004, [], 32, 0, false, 0, 0x7f, 0, 0, 0, 0⟩,
  ⟨0x3ff00050008, [], 32, 0, false, 0x7f, 0, 0, 0, 0, 0⟩,
  ⟨0x3ff0005000c, [], 32, 0, false, 0, 0, 0, 0xffffffff, 0, 0⟩,
  ⟨0x3ff00050010, [], 32, 0, false, 0, 0, 0, 0, 0, 0⟩,
  ⟨0x3ff00050014, [], 32, 0, false, 0, 0, 0, 0, 0, 0⟩,
  ⟨0x3ff00050018, [], 32, 0, true, 0, 0, 0, 0, 0, 0⟩,
  ⟨0x3ff0005001c, [], 32, 0, false, 0, 0, 0xffffffff, 0, 0, 0⟩,
  ⟨0x3ff00050020, [(8, 0x4)], 32, 0, false, 0, 0, 0, 0xffffffff, 0, 0⟩,
  ⟨0x3ff00050040, [(4, 0x4)], 32, 0, false, 0, 0, 0, 0, 0, 0⟩,
  ⟨0x3ff00050050, [], 64, 0, false, 0xffffffffffff, 0, 0, 0, 0, 0⟩,
  ⟨0x3ff00050058, [], 32, 0, false, 0, 0, 0, 0, 0, 0⟩,
  ⟨0x3ff00050060, [], 32, 0, false, 0xf, 0, 0, 0, 0, 0⟩,
  ⟨0x3ff00050064, [], 32, 0, false, 0, 0, 0, 0, 0, 0⟩,
  ⟨0x3ff00050080, [(8, 0x4)], 32, 0, false, 0, 0, 0, 0, 0, 0⟩,
  ⟨0x3ff00050100, [(32, 0x10)], 64, 0, false, 0, 0, 0, 0, 0, 0⟩]

def secRegs1 : List RegDef := [
  ⟨0x3ff00050108, [(32, 0x10)], 32, 0, false, 0, 0, 0, 0, 0, 0⟩]

/-- The registers of the block at 0x3ff00050000. -/
def secRegs : List RegDef :=
  secRegs0 ++ secRegs1

def rstRegs0 : List RegDef := [
  ⟨0x3ff00060000, [], 32, 0, false, 0, 0, 0, 0xffffffff, 0, 0⟩,
  ⟨0x3ff00060004, [], 32, 0, false, 0, 0, 0, 0, 0, 0⟩,
  ⟨0x3ff00060008, [], 32, 0, true, 0, 0xff, 0, 0, 0, 0⟩,
  ⟨0x3ff0006000c, [], 32, 0, false, 0, 0x7, 0, 0, 0, 0⟩,
  ⟨0x3ff00060010, [], 32, 0, false, 0x7, 0, 0, 0, 0, 0⟩,
  ⟨0x3ff00060014, [], 32, 0, false, 0x1ff, 0, 0, 0, 0, 0⟩,
  ⟨0x3ff00060018, [], 32, 0, false, 0, 0, 0, 0, 0, 0⟩,
  ⟨0x3ff0006001c, [], 32, 0, false, 0, 0, 0, 0, 0, 0⟩,
  ⟨0x3ff00060020, [], 32, 0, true, 0, 0, 0, 0, 0, 0⟩,
  ⟨0x3ff00060024, [], 32, 0, false, 0, 0, 0xffffffff, 0, 0, 0⟩]

/-- The registers of the block at 0x3ff00060000. -/
def rstRegs : List RegDef :=
  rstRegs0

def idBlockRegs0 : List RegDef := [
  ⟨0x3ff00070000, [], 32, (0x0964 + Config.partCode * 0x10000), false, 0, 0, 0, 0, 0, 0⟩,
  ⟨0x3ff00070004, [], 32, 0x00004201, false, 0, 0, 0, 0, 0, 0⟩,
  ⟨0x3ff00070008, [], 64, Config.uid.toNat, false, 0, 0, 0, 0, 0, 0⟩,
  ⟨0x3ff00070010, [], 32, Config.maxClock, false, 0, 0, 0, 0, 0, 0⟩,
  ⟨0x3ff00070014, [], 32, 0, false, 0, 0, 0, 0, 0, 0⟩]

/-- The registers of the block at 0x3ff00070000. -/
def idBlockRegs : List RegDef :=
  idBlockRegs0

def regBlocks0 : List (Nat × List RegDef) := [(0x3000000, commitRegs), (0x3000001, beamRegs), (0x3000002, seqRegs), (0x3000003, camRegs), (0x3000004, itemRegs), (0x3000005, drvRegs), (0x3000006, tmrRegs), (0x3000007, pinRegs), (0x3000008, intcRegs), (0x3000009, audRegs), (0x300000a, dmabRegs)]

def regBlocks1 : List (Nat × List RegDef) := [(0x300000b, trlRegs), (0x300000c, grfRegs), (0x300000d, hostRegs), (0x300000e, corectlRegs), (0x300000f, stemBRegs), (0x3010000, caminRegs), (0x3010001, sieveRegs), (0x3010002, compRegs), (0x3010003, drawRegs), (0x3010004, rasterRegs), (0x3010005, dispRegs)]

def regBlocks2 : List (Nat × List RegDef) := [(0x3010006, memcRegs), (0x3010007, dmaiRegs), (0x301000f, stemIRegs), (0x3ff0001, pwrRegs), (0x3ff0002, clkRegs), (0x3ff0003, healthRegs), (0x3ff0004, logRegs), (0x3ff0005, secRegs), (0x3ff0006, rstRegs), (0x3ff0007, idBlockRegs)]

/-- Every block with its address divided by 0x1_0000 (19 R481). -/
def regBlocks : List (Nat × List RegDef) := regBlocks0 ++ regBlocks1 ++ regBlocks2

/-- First row of a list that holds address `a`, with the register's address. -/
def regFindIn : List RegDef → Nat → Option (RegDef × Nat)
  | [], _ => none
  | r :: rs, a => match r.keyOf a with
    | some k => some (r, k)
    | none => regFindIn rs a

/-- The rows of block `n`. -/
def blockRegs : List (Nat × List RegDef) → Nat → List RegDef
  | [], _ => []
  | (b, rs) :: bs, n => if b = n then rs else blockRegs bs n

/-- The keys of the CORECTL instances of cores 16 to 23 stand this far above their addresses: 24 instances of
0x1000 bytes from 0x0300_000E_0000 (R264) run into the STEM block at 0x0300_000F_0000 (R29). DESIGN CHOICE, log 3:
an address of both is the STEM register's. -/
def corectlHigh : Nat := 0x1000000000000

/-- The register that holds byte `a` of the device address space, with its row and its key (R7, R10). -/
def regFind (a : Nat) : Option (RegDef × Nat) :=
  match regFindIn (blockRegs regBlocks (a / 0x10000)) a with
  | some x => some x
  | none =>
    if a / 0x10000 = 0x300000f then
      (regFindIn (blockRegs regBlocks 0x300000e) a).map fun x => (x.1, x.2 + corectlHigh)
    else none

/-- The row of the register with key `k`. -/
def regRow (k : Nat) : Option RegDef :=
  if corectlHigh ≤ k then (regFindIn (blockRegs regBlocks 0x300000e) (k - corectlHigh)).map (·.1)
  else (regFind k).map (·.1)

/-- The Reset value of the register with key `k` (R16). -/
def resetOf (k : Nat) : Nat :=
  match regRow k with
  | some r => r.reset % 2 ^ r.width
  | none => 0

end Sys2Proof.Machine
end

