-- ==== Sys2Proof/Machine/Dev.lean ====
section
/-! DEFINITION. The whole device but its queue of waiting commands (01, R18, R30), as plain data. -/
namespace Sys2Proof.Machine

/-- The device. `lt` is line time (R56); `regs` holds, for every register whose active value is not its Reset value,
that value; `mem` every byte of memory that is not 0; `free` counts the free values used (log 1); `sent` is the
model's own record of what has left the block. -/
structure Dev where
  lt : Nat
  regs : Tab Word
  mem : Tab Byte
  free : Nat
  sent : List Emit
  beams : Tab Beam
  encs : Tab Enc
  est : Tab Est
  tick : TickSt
  commit : CommitSt
  stem : Tab StemSt
  intc : IntcSt
  log : LogSt
  cores : Tab Core
  host : HostSt
  nodeId : Nat
  items : ItemSt
  stn : StnSt
  seq : SeqSt
  cam : CamSt
  drv : Tab DrvPort
  tmr : Tab Tmr
  pins : Tab Pin
  trig : Tab TrigPort
  camin : Tab CamIn
  quads : Tab Quad
  pipes : Tab Pipe
  ras : Tab RasPort
  disp : Tab DispPort
  draw : Tab DrawEng
  aud : AudSt
  dma : Tab DmaEng
  pwr : PwrSt
  sec : SecSt
  cloche : Bool
  trl : TrlSt
  grf : GrfSt
  bstopLow : Bool
  dataStop : Bool
  memcCfg : Nat
deriving DecidableEq, Repr, Inhabited

end Sys2Proof.Machine
end

