-- ==== Sys2Proof/Machine/Ops.lean ====
section
/-! DEFINITION. The named operations over registers, memory, outputs and free values (R8 to R15, R481, R482). -/
namespace Sys2Proof.Machine

/-- Active value of the register with key `k` (R12, R72). -/
def Dev.rd (d : Dev) (k : Nat) : Nat :=
  match aget d.regs k with
  | some w => w.toNat
  | none => resetOf k

/-- Set the active value of a register, cut to its width; no register, no effect (R8, R10). -/
def Dev.wr (d : Dev) (k v : Nat) : Dev :=
  match regRow k with
  | none => d
  | some r =>
    let w := BitVec.ofNat 64 (v % 2 ^ r.width)
    { d with regs := aset d.regs k (if w = BitVec.ofNat 64 (r.reset % 2 ^ r.width) then none else some w) }

/-- A field of a register. -/
def Dev.fld (d : Dev) (k lo w : Nat) : Nat := bits (d.rd k) lo w

/-- A bit of a register. -/
def Dev.bit (d : Dev) (k i : Nat) : Bool := tb (d.rd k) i

/-- Set a field of a register. -/
def Dev.setF (d : Dev) (k lo w x : Nat) : Dev := d.wr k (putBits (d.rd k) lo w x)

/-- Set bits of a register by a mask. -/
def Dev.orBits (d : Dev) (k m : Nat) : Dev := d.wr k (d.rd k ||| m)

/-- Add to a 32-bit counter that saturates. -/
def Dev.addSat (d : Dev) (k n : Nat) : Dev := d.wr k (min (d.rd k + n) 0xFFFFFFFF)

/-- Count one in a 32-bit counter that saturates. -/
def Dev.inc (d : Dev) (k : Nat) : Dev := d.addSat k 1

/-- Record an output. -/
def Dev.emit (d : Dev) (e : Emit) : Dev := { d with sent := d.sent ++ [e] }

/-- Take the next free value, cut to `w` bits (log 1). -/
def Dev.fresh (d : Dev) (w : Nat) : Nat × Dev :=
  (Config.freeValue d.free % 2 ^ w, { d with free := d.free + 1 })

/-- Power domain `k` is on (R551). -/
def Dev.domOn (d : Dev) (k : Nat) : Bool := d.bit (Reg.PWR_DOM_STAT (k / 32)) (k % 32)

/-- DRAM bytes that have a target when DRAM is trained (R487), from the latched MEMC_CFG. -/
def Dev.dramSize (d : Dev) : Nat :=
  let inst := 2 ^ 35 * 2 ^ bits d.memcCfg 0 2
  if tb d.memcCfg 8 then inst / 16 * 15 else inst

/-- The data plane is held in reset or its die is off (R32, R554). -/
def Dev.dataOff (d : Dev) : Bool := d.dataStop || !d.domOn 66

/-- Kinds of place in the device address space (R481). -/
inductive Region | dram | isram | coreMem (c : Nat) | ssram | items | tiles | maps | lists | regBeam | regImage
  | msram | regMgmt | window (n : Nat) | none
deriving DecidableEq, Repr

/-- The region that holds a device address (R481). -/
def regionOf (a : Nat) : Region :=
  if a < 0x2000000000 then .dram
  else if 0x10000000000 ≤ a ∧ a < 0x10002000000 then .isram
  else if 0x20000000000 ≤ a ∧ a < 0x20000600000 then .coreMem ((a - 0x20000000000) / 0x40000)
  else if 0x20001000000 ≤ a ∧ a < 0x20001200000 then .ssram
  else if 0x20002000000 ≤ a ∧ a < 0x20002400000 then .items
  else if 0x20003000000 ≤ a ∧ a < 0x20003400000 then .tiles
  else if 0x20003400000 ≤ a ∧ a < 0x20003500000 then .maps
  else if 0x20003500000 ≤ a ∧ a < 0x20003600000 then .lists
  else if 0x30000000000 ≤ a ∧ a < 0x30040000000 then .regBeam
  else if 0x30100000000 ≤ a ∧ a < 0x30140000000 then .regImage
  else if 0x3FE00000000 ≤ a ∧ a < 0x3FE00100000 then .msram
  else if 0x3FF00000000 ≤ a ∧ a < 0x3FF40000000 then .regMgmt
  else if 0x100000000000 ≤ a ∧ a < 0x200000000000 then .window ((a - 0x100000000000) / 0x100000000)
  else .none

def isRegSpace (a : Nat) : Bool :=
  match regionOf a with
  | .regBeam | .regImage | .regMgmt => true
  | _ => false

/-- The local address of `n` bytes at offset `o` of the export space for node `peer`, if an enabled window admits the access
(R515, R516). -/
def Dev.winAddr (d : Dev) (peer o n : Nat) (write : Bool) : Option Nat :=
  let lo := fun (w : Nat) => d.fld (Reg.TRL_EXP_OFS w) 0 16 * 65536
  let hi := fun (w : Nat) => min (2 ^ 32) ((d.fld (Reg.TRL_EXP_OFS w) 0 16 + d.fld (Reg.TRL_EXP_OFS w) 16 16) * 65536)
  match (List.range 8).find? fun w => d.bit (Reg.TRL_EXP_CFG w) 31 && decide (lo w ≤ o) && decide (o < hi w) with
  | none => none
  | some w =>
    let c := d.rd (Reg.TRL_EXP_CFG w)
    if o + n ≤ hi w && tb c (if write then 29 else 30) && (tb c 28 || bits c 0 12 == peer) then
      some (d.fld (Reg.TRL_EXP_BASE w) 16 32 * 65536 + (o - lo w))
    else none

/-- Export window `m` is this node's own (R515, R516). -/
def Dev.ownWindow (d : Dev) (m : Nat) : Bool := d.trl.idValid && m == d.nodeId

/-- The address of an access after this node's own export space (R516), which leads to no further window. -/
def Dev.throughWindow (d : Dev) (a n : Nat) (write : Bool) : Option Nat :=
  match regionOf a with
  | .window m =>
    if d.ownWindow m then
      match d.winAddr d.nodeId (a % 2 ^ 32) n write with
      | some x => (match regionOf x with | .window _ => none | _ => some x)
      | none => none
    else some a
  | _ => some a

/-- An address outside the windows has a target now (R482, R553, R554). -/
def Dev.localTarget (d : Dev) (a : Nat) : Bool :=
  match regionOf a with
  | .dram => a < d.dramSize && d.fld Reg.MEMC_STATUS 0 2 == 2 && !d.dataOff
  | .isram => d.domOn (if a < 0x10001000000 then 64 else 65) && d.fld Reg.MEMC_STATUS 0 2 != 1 && !d.dataOff
  | .coreMem c => d.domOn (7 + c / 4)
  | .ssram => d.domOn 16
  | .items => d.domOn 14
  | .tiles | .maps | .lists => d.domOn 15
  | .regBeam | .regImage | .regMgmt | .msram => true
  | .window _ => true
  | .none => false

/-- The address has a target now; a read of this node's own export space has one where a window maps it (R516). -/
def Dev.hasTarget (d : Dev) (a : Nat) : Bool :=
  match d.throughWindow a 1 false with
  | some x => d.localTarget x
  | none => false

/-- A range of `n` bytes has a target throughout. -/
def Dev.hasRange (d : Dev) (a n : Nat) : Bool := d.hasTarget a && d.hasTarget (a + (n - 1))

/-- One byte of memory; a byte that nothing has written reads 0 (log 2). -/
def Dev.byte (d : Dev) (a : Nat) : Byte := (aget d.mem a).getD 0

/-- Store one byte. -/
def Dev.setByte (d : Dev) (a : Nat) (v : Byte) : Dev :=
  { d with mem := aset d.mem a (if v = 0 then none else some v) }

/-- `n` bytes from `a`, lowest address first. -/
def Dev.load (d : Dev) (a : Nat) : Nat → List Nat
  | 0 => []
  | n + 1 => (d.byte a).toNat :: d.load (a + 1) n

/-- Little-endian number of `n` bytes from `a`. -/
def Dev.num (d : Dev) (a n : Nat) : Nat := leNum (d.load a n)

/-- Store bytes from `a` upward. -/
def Dev.store (d : Dev) (a : Nat) : List Nat → Dev
  | [] => d
  | b :: bs => (d.setByte a (BitVec.ofNat 8 b)).store (a + 1) bs

/-- One step of the memory's canonical form: above `lo`, rising, and no byte listed as 0. -/
def memFrom : Nat → List Host.Cell → Bool
  | _, [] => true
  | lo, (a, b) :: t => decide (lo ≤ a) && b != 0 && memFrom (a + 1) t

/-- The canonical form of memory. -/
def memWf (m : List Host.Cell) : Bool := memFrom 0 m

/-- The canonical form of the register file: rising keys, and no register listed at its Reset value. -/
def regsFrom : Nat → Tab Word → Bool
  | _, [] => true
  | lo, (k, w) :: t => decide (lo ≤ k) && (w != BitVec.ofNat 64 (resetOf k)) && regsFrom (k + 1) t

def regsWf (r : Tab Word) : Bool := regsFrom 0 r

end Sys2Proof.Machine
end

