-- ==== Sys2Proof/Machine/StemSend.lean ====
section
/-! DEFINITION. Sending over the Stem (R18 to R20, R23, R24). Die 0 is the beam die, die 1 the image die. -/
namespace Sys2Proof.Machine

/-- Address of a register of a die's STEM block by its beam-die address (R29). -/
def stemReg (die k : Nat) : Nat := if die = 0 then k else k + 0x100000000

def Dev.stemEnd (d : Dev) (die : Nat) : StemSt := tget d.stem die

def Dev.setStem (d : Dev) (die : Nat) (s : StemSt) : Dev := { d with stem := tput d.stem die s }

/-- The link carries flits: state UP and no retrain (R24, R29). -/
def Dev.stemUp (d : Dev) : Bool := d.fld Reg.STEM_STATUS 0 2 == 2 && (d.stemEnd 0).retrain == 0

/-- The 80 bytes of a flit (R19): `ack` is the highest SEQ received in order, `cr` the message type whose receive credits are returned, and
how many. -/
def flitBytes (f : Flit) (ack : Nat) (nak : Bool) (cr : Nat × Nat) : List Nat :=
  let w := f.ty * 2 ^ 60 + f.seq * 2 ^ 48 + (f.payload.length - 1) % 64 * 2 ^ 42 + f.targ
  let tail := ack * 2 ^ 20 + b2n nak * 2 ^ 19 + cr.1 * 2 ^ 16 + cr.2 * 2 ^ 8
  let body := leBytes 8 w ++ f.payload ++ List.replicate (64 - f.payload.length) 0 ++ leBytes 4 tail
  body ++ leBytes 4 (crc32c body)

/-- The credits that the next flit returns: those of the lowest message type that has any owed, at most 255 (R19, log 73). -/
def StemSt.credit (s : StemSt) : Nat × Nat :=
  match s.owed with
  | [] => (0, 0)
  | (t, n) :: _ => (t, min n 255)

/-- A flit leaves a die, with ACK_SEQ and the credits it owes as they stand (R19). -/
def Dev.flitOut (d : Dev) (die : Nat) (f : Flit) : Dev :=
  let s := d.stemEnd die
  let cr := s.credit
  (d.setStem die { s with owed := tput s.owed cr.1 (tget s.owed cr.1 - cr.2) }).emit
    (.flit die (flitBytes f ((s.rxNext + 4095) % 4096) false cr))

/-- Put a message on the wire: it takes the next SEQ and stays in the 64-flit retry buffer (R19, R23). -/
def Dev.stemTx (d : Dev) (die ty targ : Nat) (payload : List Nat) : Dev :=
  let s := d.stemEnd die
  let f : Flit := ⟨s.txSeq, ty, targ, payload⟩
  (d.setStem die { s with txSeq := (s.txSeq + 1) % 4096, retry := s.retry ++ [f] }).flitOut die f

/-- Send a message, or hold it in its type's transmit queue while the link is down or retraining, the retry buffer is full or earlier messages
of its type wait (R22 to R24). The queues of all types stand in one list, in order of arrival. -/
def Dev.stemSend (d : Dev) (die ty targ : Nat) (payload : List Nat) : Dev :=
  let s := d.stemEnd die
  if d.stemUp && s.retry.length < 64 && !(s.queue.any fun f => f.ty == ty) then d.stemTx die ty targ payload
  else d.setStem die { s with queue := s.queue ++ [⟨0, ty, targ, payload⟩] }

/-- The waiting messages in the order in which they are sent: types 0 to 3 by priority (R21), then types 4, 5 and 6, each in its own order.
How the weights of R21 interleave the last three is the model's choice (log 73). -/
def StemSt.inTurn (s : StemSt) : List Flit := (List.range 16).flatMap fun t => s.queue.filter fun f => f.ty == t

/-- Send what is held, as far as the retry buffer has room (R24). -/
def Dev.stemPump (d : Dev) (die : Nat) : Dev :=
  if !d.stemUp then d
  else
    let s := d.stemEnd die
    let n := 64 - s.retry.length
    (s.inTurn.take n).foldl (fun d f => d.stemTx die f.ty f.targ f.payload) (d.setStem die { s with queue := s.inTurn.drop n })

/-- The link carries flits again: what was sent and not acknowledged is sent once more, since the retrain may have cut it, and the receiver
discards what it has (R23, R24, log 73); then what was held follows. -/
def Dev.stemResume (d : Dev) (die : Nat) : Dev :=
  ((d.stemEnd die).retry.foldl (fun d f => d.flitOut die f) d).stemPump die

/-- The access of a source crosses the Stem: everything but the DMAI engines reaches the image die over it, and those reach the beam
die over it (R19, R489). -/
def crosses (src a : Nat) : Bool :=
  let image := match regionOf a with
    | .regImage | .dram | .isram => true
    | _ => false
  if src = 27 ∨ src = 28 then !image else image

/-- The access of a source is a register access on the other die (R22). -/
def crossesReg (src a : Nat) : Bool :=
  crosses src a && (match regionOf a with
    | .regImage | .regBeam | .regMgmt => true
    | _ => false)

/-- First byte of list memory (R107). -/
def listBase : Nat := 0x20003500000

/-- A write to list memory: performed on the beam die and forwarded to the mirror as type 6 flits (R118, R119). -/
def Dev.listWrite (d : Dev) (a : Nat) (bs : List Nat) : Dev :=
  let d := d.store a bs
  ({ d with seq := { d.seq with fwd := d.seq.fwd ++ [(a - listBase, bs)] } }).stemSend 0 6 (a / 64 % 2 ^ 42) bs

/-- A block's own write of a record at a place that lies in one region (R118, R337). -/
def Dev.blockStore (d : Dev) (a : Nat) (bs : List Nat) : Dev :=
  if regionOf a = .lists then d.listWrite a bs else d.store a bs

end Sys2Proof.Machine
end

