-- ==== Sys2Proof/Machine/BeamPos.lean ====
section
/-! DEFINITION. Positions of a beam: linear counts, the signed distance, extrapolation and the record history
(R36 to R38, R64, R65, R68). Linear counts are integers in units of 2^-32 dot. -/
namespace Sys2Proof.Machine

/-- Furrows per field in force: BEAM_FPF clamped to 16 to 4,096 (R70). -/
def Dev.fpf (d : Dev) (b : Nat) : Nat := clampN 16 4096 (d.fld (Reg.BEAM_FPF b) 0 13)

/-- One dot. -/
def dotUnit : Int := 2 ^ 32

/-- The modulus M of R37 in units of 2^-32 dot. -/
def modL (fpf : Nat) : Int := (2 ^ 24 * fpf * 4096 : Nat) * 2 ^ 32

/-- Dots of a 48-bit position (R37). -/
def linDots (fpf pos : Nat) : Nat := (bits pos 24 24 * fpf + bits pos 12 12) * 4096 + bits pos 0 12

/-- Linear count of a position with its fraction (R37). -/
def linOf (fpf pos frac : Nat) : Int := (linDots fpf pos : Int) * 2 ^ 32 + (frac : Int) * 2 ^ 16

/-- The 48-bit position of a linear count (R37). -/
def posOf (fpf : Nat) (l : Int) : Nat :=
  let dots := (l % modL fpf / 2 ^ 32).toNat
  dots / (fpf * 4096) % 2 ^ 24 * 2 ^ 24 + dots / 4096 % fpf * 2 ^ 12 + dots % 4096

/-- The 16-bit fraction of a dot (R36). -/
def fracOf (l : Int) : Nat := (l / 2 ^ 16 % 2 ^ 16).toNat

/-- The signed distance d(a, b) of R38. -/
def distL (fpf : Nat) (a b : Int) : Int := (b - a + modL fpf / 2) % modL fpf - modL fpf / 2

/-- Movement of a record over `dt` ns (R64), in 2^-32 dot. -/
def extrap (vel acc : Int) (dt : Int) : Int :=
  vel * 2 ^ 16 * dt / 1000 + acc * 2 ^ 16 * (dt * dt) / 2000000000

/-- Position of a record extrapolated to line time `t` (R64). -/
def BRec.at (r : BRec) (t : Nat) : Int :=
  let l0 := linOf r.fpf r.pos r.frac
  if r.hold || r.stale then l0 else (l0 + extrap r.vel r.acc ((t : Int) - r.lt)) % modL r.fpf

/-- The newest record of a history at or before `t`, or else its oldest one (R68). -/
def recAt : List BRec → Nat → Option BRec
  | [], _ => none
  | [r], _ => some r
  | r :: rs, t => if r.lt ≤ t then some r else recAt rs t

/-- The beam's position at line time `t` from its history, with REV and STALE as they were (R68). With no record yet,
the engine's present position. -/
def Dev.posAt (d : Dev) (b t : Nat) : Int × Bool × Bool :=
  match recAt (tget d.beams b).hist t with
  | some r => (r.at t, r.rev, r.stale)
  | none => let s := tget d.beams b; (s.l, s.rev, s.mode == .stale)

/-- The 48-bit position of beam `b` at line time `t`, from its history (R68, R336). -/
def Dev.stampPos (d : Dev) (b t : Nat) : Nat :=
  match recAt (tget d.beams b).hist t with
  | some r => posOf r.fpf (r.at t)
  | none => posOf (d.fpf b) (tget d.beams b).l

/-- Record period of a receiver: 64 ns on the beam die, 512 ns or 1,024 ns on the image die (R62). -/
def Dev.recPeriod (d : Dev) (die : Nat) : Nat :=
  if die = 0 then 64 else if d.bit Reg.STEM_STATUS 2 then 1024 else 512

/-- A receiver's estimate at line time `t`: the record's extrapolation less the part of the difference not yet
absorbed, never against the beam's motion (R64, R65). -/
def Est.at (e : Est) (period t : Nat) : Int :=
  let x := e.last.at t
  let dt := min (t - e.at0) period
  let left := e.e - e.e * (dt : Int) / (period : Int)
  let fpf := e.last.fpf
  let y := (x - left) % modL fpf
  let mv := distL fpf e.base y
  if e.e = 0 then x
  else if 0 < e.last.vel ∧ mv < 0 then e.base
  else if e.last.vel < 0 ∧ 0 < mv then e.base
  else y

/-- Estimate of beam `b` in the domains of a die (0 beam die, 1 image die) at line time `t`. -/
def Dev.estAt (d : Dev) (die b t : Nat) : Int :=
  let e := tget d.est (8 * die + b)
  if e.got then e.at (d.recPeriod die) t else (tget d.beams b).l

/-- Tick period in ns (R59). -/
def Dev.tickNs (d : Dev) : Nat := clampN 4 250 (d.fld Reg.BEAM_TICK_PERIOD 0 8) * 1000

/-- BEAM_TICK_NUM of the tick that contains line time `t`, for `t` at most some ticks back (R59). -/
def Dev.tickOf (d : Dev) (t : Nat) : Nat :=
  let n := d.rd Reg.BEAM_TICK_NUM
  if d.tick.start ≤ t then n
  else
    let back := (d.tick.start - t + d.tickNs - 1) / d.tickNs
    (n + 2 ^ 32 - back % 2 ^ 32) % 2 ^ 32

end Sys2Proof.Machine
end

