-- ==== Sys2Proof/Machine/Irq.lean ====
section
/-! DEFINITION. The interrupt controller's sources, queues, vectors and completion (R317 to R339, R620). -/
namespace Sys2Proof.Machine

/-- A block's event register and enable register, by level source (R317 and the blocks' chapters). -/
def evtOf (k : Nat) : Option (Nat × Nat) :=
  if 80 ≤ k ∧ k < 88 then some (Reg.BEAM_EVT (k - 80), Reg.BEAM_EVT_EN (k - 80))
  else if 88 ≤ k ∧ k < 96 then some (Reg.SEQ_EVT (k - 88), Reg.SEQ_EVT_EN (k - 88))
  else if k = 96 then some (Reg.COMMIT_EVT, Reg.COMMIT_EVT_EN)
  else if k = 97 then some (Reg.CAM_EVT, Reg.CAM_EVT_EN)
  else if k = 98 then some (Reg.ITEM_EVT, Reg.ITEM_EVT_EN)
  else if k = 102 then some (Reg.STN_EVT, Reg.STN_EVT_EN)
  else if 112 ≤ k ∧ k < 176 then some (Reg.DRV_EVT (k - 112), Reg.DRV_EVT_EN (k - 112))
  else if k = 304 then some (Reg.AUD_EVT, Reg.AUD_EVT_EN)
  else if k = 305 then some (Reg.DMAB_EVT, Reg.DMAB_EVT_EN)
  else if k = 306 then some (Reg.TRL_EVT, Reg.TRL_EVT_EN)
  else if k = 307 then some (Reg.GRF_EVT, Reg.GRF_EVT_EN)
  else if k = 308 then some (Reg.HOST_EVT, Reg.HOST_EVT_EN)
  else if 384 ≤ k ∧ k < 400 then some (Reg.CAMIN_EVT (k - 384), Reg.CAMIN_EVT_EN (k - 384))
  else if 400 ≤ k ∧ k < 404 then some (Reg.SIEVE_Q_EVT (k - 400), Reg.SIEVE_Q_EVT_EN (k - 400))
  else if 404 ≤ k ∧ k < 412 then some (Reg.COMP_EVT (k - 404), Reg.COMP_EVT_EN (k - 404))
  else if 412 ≤ k ∧ k < 414 then some (Reg.DRAW_EVT (k - 412), Reg.DRAW_EVT_EN (k - 412))
  else if 414 ≤ k ∧ k < 422 then some (Reg.RASTER_EVT (k - 414), Reg.RASTER_EVT_EN (k - 414))
  else if 422 ≤ k ∧ k < 425 then some (Reg.DISP_EVT (k - 422), Reg.DISP_EVT_EN (k - 422))
  else if k = 425 then some (Reg.MEMC_EVT, Reg.MEMC_EVT_EN)
  else if 426 ≤ k ∧ k < 428 then some (Reg.DMAI_EVT (k - 426), Reg.DMAI_EVT_EN (k - 426))
  else if k = 449 then some (Reg.PWR_EVT, Reg.PWR_EVT_EN)
  else if k = 450 then some (Reg.CLK_EVT, Reg.CLK_EVT_EN)
  else if k = 451 then some (Reg.HEALTH_EVT, Reg.HEALTH_EVT_EN)
  else if k = 452 then some (Reg.LOG_EVT, Reg.LOG_EVT_EN)
  else if k = 453 then some (Reg.SEC_EVT, Reg.SEC_EVT_EN)
  else if k = 454 then some (Reg.RST_EVT, Reg.RST_EVT_EN)
  else none

/-- The reserved source numbers (R317). -/
def srcReserved (k : Nat) : Bool :=
  (105 ≤ k && k ≤ 111) || (310 ≤ k && k ≤ 319) || (429 ≤ k && k ≤ 447) || (455 ≤ k && k ≤ 479) ||
  (496 ≤ k && k ≤ 510) || (512 ≤ k)

/-- A register of INTC_SRC_CFG, TGT, STATE or PAYLOAD of a reserved source, which reads 0 and ignores writes (R317). -/
def srcRegReserved (k : Nat) : Bool :=
  Reg.INTC_SRC_CFG 0 ≤ k && k < Reg.INTC_SRC_CFG 0 + 0x2000 && srcReserved (k % 0x1000 / 8)

/-- Pin number of a pin source: SNS 0 to 63, AUX 64 to 95 (R317, R343). -/
def srcPin (k : Nat) : Option Nat :=
  if 208 ≤ k ∧ k < 272 then some (k - 208) else if 272 ≤ k ∧ k < 304 then some (k - 272 + 64) else none

/-- The source is a level source under its present configuration (R317, R321). -/
def Dev.isLevel (d : Dev) (k : Nat) : Bool :=
  match srcPin k with
  | some n => let m := d.fld (Reg.INTC_PIN_CFG n) 12 3; m == 4 || m == 5
  | none => k < 24 || (evtOf k).isSome || k == 309 || k == 428 || k == 448 ||
      (480 ≤ k && k < 496)

/-- The level at which the own cause of a level source holds (R317). STEM and MGMT name no cause (log 6). Pin sources keep
the level that the filter last set. -/
def Dev.causeOf (d : Dev) (k : Nat) : Bool :=
  if k < 24 then (let c := tget d.cores k; c.werr || c.mode == .faultHalt)
  else if 480 ≤ k ∧ k < 496 then d.rd (Reg.INTC_Q_WR (k - 480)) != d.rd (Reg.INTC_Q_RD (k - 480))
  else match evtOf k with
    | some (e, en) => (d.rd e &&& d.rd en) != 0
    | none => (tget d.intc.srcs k).cause

def Dev.irq (d : Dev) (k : Nat) : Irq := tget d.intc.srcs k

def Dev.setIrq (d : Dev) (k : Nat) (q : Irq) : Dev :=
  { d with intc := { d.intc with srcs := tput d.intc.srcs k q } }

/-- Source `k` is enabled (R318); 511 always is (R343). -/
def Dev.srcEn (d : Dev) (k : Nat) : Bool := k == 511 || d.bit (Reg.INTC_SRC_CFG k) 31

/-- Source `k` has queued delivery; never 480 to 495 and 511 (R336, R339, R343). -/
def Dev.srcQueued (d : Dev) (k : Nat) : Bool := d.bit (Reg.INTC_SRC_CFG k) 30 && k < 480

def Dev.srcLevel (d : Dev) (k : Nat) : Nat := if k = 511 then 0 else d.fld (Reg.INTC_SRC_CFG k) 0 4

/-- MSI-X vector `v` is masked in the MSI-X table of BAR0 (R618): dword 3 of its entry, bit 0,
which is held inverted because it is set after reset (log 7). -/
def Dev.vecMasked (d : Dev) (v : Nat) : Bool := tget d.host.msix (4 * v + 3) % 2 == 0

/-- Send the message of a pending unmasked vector that is not in service (R620). -/
def Dev.vecSend (d : Dev) (v : Nat) : Dev :=
  if tget d.host.pend v && !d.vecMasked v && !d.bit Reg.HOST_VEC_SERV v then
    let d := { d with host := { d.host with pend := tput d.host.pend v false, again := tput d.host.again v false } }
    (d.orBits Reg.HOST_VEC_SERV (2 ^ v)).emit (.msix v)
  else d

/-- A raise or rising assertion of source `k` reaches the vectors that follow it (R620). -/
def Dev.vecRaise (d : Dev) (k : Nat) : Dev :=
  forN 32 (fun v d =>
    if d.bit (Reg.HOST_VEC_SRC v) 31 && d.fld (Reg.HOST_VEC_SRC v) 0 9 == k then
      if d.bit Reg.HOST_VEC_SERV v then { d with host := { d.host with again := tput d.host.again v true } }
      else ({ d with host := { d.host with pend := tput d.host.pend v true } }).vecSend v
    else d) d

/-- Make an enabled direct pulse source PENDING, or merge (R318). -/
def Dev.pulseDirect (d : Dev) (k pay : Nat) : Dev :=
  let q := d.irq k
  if q.st = 1 then d.inc Reg.INTC_MERGE
  else if q.st = 2 then
    if q.again then d.inc Reg.INTC_MERGE else d.setIrq k { q with again := true, againPay := pay }
  else d.setIrq k { q with st := 1, pay := pay }

/-- Source 511 with its cause and fields, recorded in INTC_FAULT (R329). Causes: 1 ORDER, 2 RING. -/
def Dev.ctlFault (d : Dev) (cause low named : Nat) : Dev :=
  let d := (d.wr Reg.INTC_FAULT (low + cause * 2 ^ 5 + named * 2 ^ 16)).orBits Reg.INTC_EVT (if cause = 1 then 1 else 2)
  (d.vecRaise 511).pulseDirect 511 (low + named * 2 ^ 16)

/-- Ring size exponent of queue `q` (R343). -/
def Dev.qK (d : Dev) (q : Nat) : Nat := clampN 4 16 (d.fld (Reg.INTC_Q_CFG q) 4 5)

/-- Refresh the not-empty source of a queue after its counts changed (R339). -/
def Dev.queueLevel (d : Dev) (q : Nat) : Dev :=
  let k := 480 + q
  let s := d.irq k
  let now := d.causeOf k || s.latch
  let was := s.cause
  let s := { s with cause := now }
  let s := if d.srcEn k then
      (if now ∧ s.st = 0 then { s with st := 1 } else if !now ∧ s.st = 1 then { s with st := 0 } else s)
    else s
  let d := d.setIrq k s
  if now && !was then d.vecRaise k else d

/-- A range of bytes is replicated to the standby (R536, R539). -/
def Dev.mirrored (d : Dev) (a : Nat) : Bool :=
  match regionOf a with
  | .tiles | .maps | .lists => true
  | _ => (List.range 4).any fun r =>
      let l := d.rd (Reg.GRF_MIRROR_SIZE r) / 4096 * 4096
      let s := d.fld (Reg.GRF_MIRROR_BASE r) 12 36 * 4096
      l != 0 && decide (s ≤ a) && decide (a < s + l)

/-- The device is LOCKED (R591). -/
def Dev.locked (d : Dev) : Bool := d.fld Reg.SEC_STATE 0 2 == 1

/-- The drop of a queued record (R337): the next record written carries GAP. -/
def Dev.queueDrop (d : Dev) (q : Nat) : Dev :=
  let d := (d.inc (Reg.INTC_Q_DROP q)).orBits Reg.INTC_EVT 4
  if d.intc.posts.any fun p => p.1 == q then { d with intc := { d.intc with posts := d.intc.posts ++ [(q, 0, [])] } }
  else { d with intc := { d.intc with gap := tput d.intc.gap q true } }

/-- A record of queue `q` is written at once: memory of this node that takes plain bytes, and no record waits before it. Any other record waits for
the next beam cycle, and behind a Stem that carries no flits for the link (R24, R337, log 99). -/
def Dev.postsNow (d : Dev) (q a : Nat) : Bool :=
  let plain := match regionOf a with
    | .dram | .isram => d.stemUp || d.dataOff
    | .coreMem _ | .ssram | .tiles | .maps | .lists => true
    | _ => false
  plain && !d.locked && !d.mirrored a && !(d.intc.posts.any fun p => p.1 == q)

/-- The record `bs` of queue `q` has been written at its place `a` (R337). -/
def Dev.queueWritten (d : Dev) (q : Nat) : Dev :=
  let d := { d with intc := { d.intc with gap := tput d.intc.gap q false } }
  (d.wr (Reg.INTC_Q_WR q) ((d.rd (Reg.INTC_Q_WR q) + 1) % 2 ^ 17)).queueLevel q

/-- Offer one record of source `k` to its queue (R336, R337): position of beam `b` and tick at line time `t`. -/
def Dev.queueRecord (d : Dev) (k pay b t : Nat) (pos : Nat) : Dev :=
  let q := d.fld (Reg.INTC_SRC_CFG k) 24 4
  let seq := d.rd (Reg.INTC_Q_SEQ q) % 65536
  let d := d.wr (Reg.INTC_Q_SEQ q) ((seq + 1) % 65536)
  if !d.bit (Reg.INTC_Q_CFG q) 0 then d.queueDrop q
  else
    let kk := d.qK q
    let wrc := d.rd (Reg.INTC_Q_WR q) % 2 ^ 17 + (d.intc.posts.filter fun (p : Nat × Nat × List Nat) => p.1 == q && !p.2.2.isEmpty).length
    let rdc := d.rd (Reg.INTC_Q_RD q) % 2 ^ 17
    if (wrc + 2 ^ 17 - rdc) % 2 ^ 17 ≥ 2 ^ kk then d.queueDrop q
    else
      let base := d.fld (Reg.INTC_Q_BASE q) 0 48 / 2 ^ (4 + kk) * 2 ^ (4 + kk)
      let a := base + 16 * (wrc % 2 ^ kk)
      let w0 := fun (gap : Bool) => seq * 2 ^ 16 + b2n gap * 2 ^ 12 + b * 2 ^ 9 + k
      let rest := leBytes 4 (d.tickOf t) ++ leBytes 4 (bits pos 24 8 * 2 ^ 24 + bits pos 0 24) ++ leBytes 4 pay
      if !d.postsNow q a then { d with intc := { d.intc with posts := d.intc.posts ++ [(q, a, leBytes 4 (w0 false) ++ rest)] } }
      else if d.hasRange a 16 then (d.blockStore a (leBytes 4 (w0 (tget d.intc.gap q)) ++ rest)).queueWritten q
      else (d.queueDrop q).ctlFault 2 0 q

/-- Raise pulse source `k` at line time `t`, stamped with a position of beam `b` (R318, R336). -/
def Dev.raiseAt (d : Dev) (k pay b t pos : Nat) : Dev :=
  if srcReserved k then d
  else
    let d := d.vecRaise k
    if !d.srcEn k then d
    else if d.srcQueued k then d.queueRecord k pay b t pos
    else d.pulseDirect k pay

/-- Raise pulse source `k` in this beam cycle, on INTC_SRC_CFG.BEAM (R336). -/
def Dev.raise (d : Dev) (k pay : Nat) : Dev :=
  let b := d.fld (Reg.INTC_SRC_CFG k) 4 3
  d.raiseAt k pay b d.lt (d.stampPos b d.lt)

/-- Set the assertion of level source `k` from its cause and latch, at line time `t` (R318, R319, R336). -/
def Dev.levelAt (d : Dev) (k : Nat) (cause : Bool) (pay b t pos : Nat) : Dev :=
  let s := d.irq k
  let was := s.cause || s.latch
  let now := cause || s.latch
  let s := { s with cause := cause }
  if now && !was then
    let d := (d.setIrq k s).vecRaise k
    if !d.srcEn k then d
    else if d.srcQueued k then d.queueRecord k pay b t pos
    else if s.st = 0 then d.setIrq k { s with st := 1, pay := pay } else d
  else if !now && s.st = 1 then d.setIrq k { s with st := 0, pay := 0 }
  else d.setIrq k s

/-- A source of the image die (R317). -/
def imageSrc (k : Nat) : Bool := 384 ≤ k && k < 429

/-- The level of an image-die source goes to the controller as a type 3 flit when it differs from the one sent last (R18, R338). -/
def Dev.eventSend (d : Dev) (k : Nat) : Dev :=
  let now := d.causeOf k
  if now = tget d.intc.imgSent k then d
  else
    ({ d with intc := { d.intc with imgSent := tput d.intc.imgSent k now } }).stemSend 1 3 (k * 2 ^ 33)
      (leBytes 4 0 ++ [b2n now, 0, 0, 0] ++ leBytes 8 d.lt)

/-- Re-evaluate level source `k` from its cause (R317). -/
def Dev.refresh (d : Dev) (k : Nat) : Dev :=
  let b := d.fld (Reg.INTC_SRC_CFG k) 4 3
  if imageSrc k then d.eventSend k
  else if 480 ≤ k then d.queueLevel (k - 480)
  else d.levelAt k (d.causeOf k) 0 b d.lt (d.stampPos b d.lt)

/-- Set event bits of the block whose level source is `k`, and re-evaluate it. -/
def Dev.evt (d : Dev) (k m : Nat) : Dev :=
  match evtOf k with
  | some (e, _) => (d.orBits e m).refresh k
  | none => d

/-- The write of INTC_RAISE for source `k` (R319). -/
def Dev.intcRaise (d : Dev) (k : Nat) : Dev :=
  let pay := d.rd Reg.INTC_RAISE_PAYLOAD
  if srcReserved k || 480 ≤ k then d
  else if !d.isLevel k then d.raise k pay
  else
    let s := d.irq k
    let b := d.fld (Reg.INTC_SRC_CFG k) 4 3
    let pos := d.stampPos b d.lt
    if s.latch then d.inc Reg.INTC_MERGE
    else if d.srcQueued k then
      if s.cause then d.inc Reg.INTC_MERGE
      else
        let d := d.vecRaise k
        if d.srcEn k then d.queueRecord k pay b d.lt pos else d
    else
      let d := if s.cause then d else d.vecRaise k
      let s := d.irq k
      let s := { s with latch := true, lpay := pay }
      d.setIrq k (if d.srcEn k && s.st == 0 then { s with st := 1, pay := pay }
        else if s.st = 1 then { s with pay := pay } else s)

/-- Completion of source `k` on the core where it is ACTIVE: its new state (R318, R319). -/
def Dev.irqComplete (d : Dev) (k : Nat) : Dev :=
  let s := d.irq k
  let s := { s with latch := false, lpay := 0, taken := false }
  if d.isLevel k || 480 ≤ k && k < 496 then
    let on := s.cause
    d.setIrq k { s with st := if d.srcEn k && on then 1 else 0, pay := 0, core := 0, again := false }
  else
    if s.again && d.srcEn k then d.setIrq k { s with st := 1, pay := s.againPay, again := false, againPay := 0, core := 0 }
    else d.setIrq k { s with st := 0, pay := 0, again := false, againPay := 0, core := 0 }

/-- A commit or an entry changed INTC_SRC_CFG of source `k` (R318, disabled sources). -/
def Dev.srcCfgChanged (d : Dev) (k : Nat) : Dev :=
  let s := d.irq k
  if !d.srcEn k then
    if s.st = 1 then d.setIrq k { s with st := 0, pay := 0, taken := false }
    else if s.st = 2 then d.setIrq k { s with again := false, againPay := 0 } else d
  else if d.srcQueued k then (if s.st = 1 then d.setIrq k { s with st := 0, pay := 0 } else d)
  else if (d.isLevel k || 480 ≤ k && k < 496) && (s.cause || s.latch) && s.st == 0 then
    d.setIrq k { s with st := 1, pay := if s.latch then s.lpay else 0 }
  else d

def Dev.priStack (d : Dev) (c : Nat) : List PriEnt := tget d.intc.prio c

def Dev.setStack (d : Dev) (c : Nat) (l : List PriEnt) : Dev :=
  { d with intc := { d.intc with prio := tput d.intc.prio c l } }

/-- PSW.PRI of core `c`: the LEVEL at the stack top, or 16 (R322). -/
def Dev.pri (d : Dev) (c : Nat) : Nat :=
  match d.priStack c with | [] => 16 | e :: _ => e.level

/-- CORE_THR in force (R342). -/
def Dev.thr (d : Dev) (c : Nat) : Nat := 16 - min 16 (tget d.intc.thrGap c)

/-- The claim that core `c` makes for its stack top (R324, R325): the number returned. -/
def Dev.claim (d : Dev) (c : Nat) : Nat × Dev :=
  match d.priStack c with
  | [] => (0x3FF, d)
  | e :: t =>
    if e.claimed then (if e.spurious then 0x3FF else e.src, d)
    else
      let s := d.irq e.src
      let first := d.bit (Reg.INTC_SRC_CFG e.src) 29
      if first && s.st != 1 then
        (0x3FF, (((d.setStack c ({ e with claimed := true, spurious := true } :: t)).inc Reg.INTC_SPURIOUS).orBits
          Reg.INTC_EVT 8))
      else
        let d := d.setIrq e.src { s with st := 2, core := c, taken := false }
        let d := d.setStack c ({ e with claimed := true } :: t)
        (e.src, { d with intc := { d.intc with payload := tput d.intc.payload c s.pay } })

/-- Completion on core `c` naming source `k` (R328, R329). -/
def Dev.complete (d : Dev) (c k : Nat) : Dev :=
  match d.priStack c with
  | [] => d.ctlFault 1 c k
  | e :: _ =>
    if e.src ≠ k then d.ctlFault 1 c k
    else
      let d := (d.claim c).2
      match d.priStack c with
      | [] => d
      | e :: t =>
        let d := d.setStack c t
        if e.spurious then d
        else
          let d := d.irqComplete k
          if d.isLevel k && !(480 ≤ k) then d.refresh k else d

/-- Source `k` leaves ACTIVE without a completion: IDLE, or PENDING if it was raised again or is still asserted, by its latch too (R319, R341). -/
def Dev.irqRelease (d : Dev) (k : Nat) : Dev :=
  let s := d.irq k
  if d.isLevel k && s.latch then
    d.setIrq k { s with st := if d.srcEn k then 1 else 0, pay := if d.srcEn k then s.lpay else 0, core := 0, again := false, taken := false }
  else d.irqComplete k

/-- The controller's part of a CORE reset (R341). -/
def Dev.intcCoreReset (d : Dev) (c : Nat) : Dev :=
  let act := (d.priStack c).filter fun e => (d.irq e.src).st == 2 && (d.irq e.src).core == c
  let back := (d.priStack c).filter fun e => (d.irq e.src).taken && !e.claimed
  let d := back.foldl (fun d e => d.setIrq e.src { d.irq e.src with taken := false }) d
  let d := act.foldl (fun d e => d.irqRelease e.src) d
  { d with intc := { d.intc with prio := tput d.intc.prio c [], thrGap := tput d.intc.thrGap c 0 } }

/-- INTC_SRC_STATE[k] (R343). -/
def Dev.srcState (d : Dev) (k : Nat) : Nat :=
  let s := d.irq k
  s.st + b2n (d.isLevel k && (s.cause || s.latch)) * 4 + (if s.st = 2 then s.core else 0) * 2 ^ 8

/-- INTC_PEND[w] (R344). -/
def Dev.pendWord (d : Dev) (w : Nat) : Nat :=
  (List.range 32).foldl (fun a j => a + (if (d.irq (32 * w + j)).st = 1 then 2 ^ j else 0)) 0

/-- INTC_CORE_STATE[c] (R343): E of R322, depth and top source. -/
def Dev.coreIntState (d : Dev) (c : Nat) : Nat :=
  let st := d.priStack c
  min (d.pri c) (d.thr c) + st.length * 2 ^ 8 + (match st with | [] => 0 | e :: _ => e.src) * 2 ^ 16

end Sys2Proof.Machine
end

