-- ==== Sys2Proof/Machine/LogOps.lean ====
section
/-! DEFINITION. Log records, the merge table and traces: the operations every block reports through (23). -/
namespace Sys2Proof.Machine

/-- Log paths enabled by LOG_CFG.PATH (R577). -/
def Dev.logPath (d : Dev) (p : Nat) : Bool := p < 3 && d.bit Reg.LOG_CFG (4 + p)

/-- The GAP record that replaces the two oldest records (R585). The header fields the rule leaves out are those of the
second record (log 8). -/
def gapOf (r0 r1 : LogRec) : LogRec :=
  if r0.kind = 1 then { r1 with kind := 1, sev := 0, src := 32, code := 0, d0 := min (r0.d0 + 1) 0xFFFFFFFF, d1 := r0.d1, d2 := 0 }
  else { r1 with kind := 1, sev := 0, src := 32, code := 0, d0 := 2, d1 := r0.seq, d2 := 0 }

/-- Count lost log records (R585). -/
def Dev.logLost (d : Dev) (n : Nat) : Dev := (d.addSat Reg.LOG_DROP n).evt 452 8

/-- The two oldest records of the tail become one GAP (R585): each path keeps what it has taken of them. -/
def LogSt.gap (lg : LogSt) (r0 r1 : LogRec) (t : List LogRec) : LogSt :=
  let w := if r0.kind = 1 then r0.d0 else 1
  let cut := fun (lg : LogSt) (p : Nat) =>
    let n := tget lg.next p
    { lg with next := tput lg.next p (n - 1), skip := if n = 1 then tput lg.skip p w else if 2 ≤ n then tput lg.skip p 0 else lg.skip }
  [0, 1, 2].foldl cut { lg with tail := gapOf r0 r1 :: t }

/-- Put a record into the log tail (R584, R585). -/
def Dev.logPush (d : Dev) (r : LogRec) : Dev :=
  let lg := d.log
  if lg.tail.length < 512 then { d with log := { lg with tail := lg.tail ++ [r] } }
  else match lg.tail with
    | r0 :: r1 :: t =>
      ({ d with log := lg.gap r0 r1 (t ++ [r]) }).logLost (if r0.kind = 1 then 1 else 2)
    | _ => d

/-- Accept a log record with the next LOG_SEQ (R584), while LOG_CFG.EN is 1 (R590). -/
def Dev.logPut (d : Dev) (kind sev src code d0 d1 d2 : Nat) : Dev :=
  if !d.bit Reg.LOG_CFG 0 then d
  else
    let seq := d.rd Reg.LOG_SEQ
    (d.wr Reg.LOG_SEQ ((seq + 1) % 2 ^ 32)).logPush ⟨d.lt, seq, d.nodeId, kind, sev, src, code, d0, d1, d2⟩

/-- Lowest free entry among 0 to 959 of the merge table. -/
def freeAlm (t : Tab Alm) : Nat → Nat → Nat
  | 0, i => i
  | n + 1, i => if (aget t i).isNone then i else freeAlm t n (i + 1)

/-- The entry, if one is open, of a key among 0 to 959 (R581). -/
def findAlm (t : Tab Alm) (subject fclass : Nat) : Option Nat :=
  (t.find? fun p => p.1 < 960 && p.2.subject == subject && p.2.fclass == fclass).map (·.1)

/-- Merge-table entries in use, as LOG_ALM_USED gives them (R590). -/
def almUsed (t : Tab Alm) : Nat :=
  (t.filter fun p => p.1 < 960).length % 2 ^ 10 + (t.filter fun p => 960 ≤ p.1).length * 2 ^ 16

/-- Mark an entry pending on every enabled path (R581). A held cell stays pending on path 2 (R581). -/
def Dev.almMark (d : Dev) (a : Alm) (n : Nat) : Alm :=
  forN 3 (fun p a =>
    let a := { a with new := tput a.new p (min (tget a.new p + n) 65535) }
    if d.logPath p || (a.held && p == 2) then { a with pend := tput a.pend p true } else a) a

/-- One report reaches the merge table (R580, R581): `n` reports by node `reporter`. -/
def Dev.almReport (d : Dev) (subject fclass n bitmap firstLt detail reporter : Nat) (held : Bool) : Dev :=
  let t := d.log.alm
  let merge := fun (a : Alm) =>
    { a with count := min (a.count + n) 0xFFFFFFFF, bitmap := a.bitmap ||| bitmap, held := a.held || held, lastLt := d.lt }
  let opened : Alm := ⟨subject, fclass, false, held, n, bitmap, firstLt, d.lt, detail, reporter, [], [], []⟩
  let (i, a, catchall) :=
    match findAlm t subject fclass with
    | some i => (i, merge ((aget t i).getD opened), false)
    | none =>
      let i := freeAlm t 960 0
      if i < 960 then (i, opened, false)
      else
        let i := 960 + fclass % 64
        match aget t i with
        | none => (i, opened, true)
        | some a =>
          (i, { merge a with mixed := a.mixed || a.subject != subject || a.fclass != fclass }, true)
  let a := d.almMark a n
  let t := aset t i (some a)
  let d := { d with log := { d.log with alm := t } }
  let d := (d.wr Reg.LOG_ALM_USED (almUsed t)).evt 452 (if catchall then 5 else 1)
  if d.bit Reg.LOG_CFG 2 then
    d.logPut 3 0 32 a.fclass a.count (a.subject + b2n a.mixed * 2 ^ 12 + b2n a.held * 2 ^ 13 + 2 ^ 15) a.detail
  else d

/-- A hardware alarm of this node (R579): the subject is the node itself. -/
def Dev.alarm (d : Dev) (fclass detail : Nat) : Dev :=
  d.almReport d.nodeId fclass 1 (2 ^ (d.nodeId % 64)) d.lt (detail % 2 ^ 32) d.nodeId false

/-- Bytes of a log record (R578). -/
def LogRec.bytes (r : LogRec) : List Nat :=
  leBytes 8 r.lt ++ leBytes 4 r.seq ++ leBytes 2 (r.node % 2 ^ 12 + r.kind * 2 ^ 12) ++ [r.sev, r.src, r.code % 256, r.code / 256 % 256, 0, 0]
    ++ leBytes 4 r.d0 ++ leBytes 4 r.d1 ++ leBytes 4 r.d2

/-- Bytes of an alarm record as path `p` sees it (R580). -/
def Alm.bytes (a : Alm) (p : Nat) : List Nat :=
  leBytes 2 (a.subject % 2 ^ 12 + b2n a.mixed * 2 ^ 12 + b2n a.held * 2 ^ 13 + 2 ^ 15) ++ leBytes 2 a.fclass ++ leBytes 4 a.count
    ++ leBytes 8 a.bitmap ++ leBytes 8 a.firstLt ++ leBytes 4 a.detail ++ leBytes 2 a.reporter ++ leBytes 2 (tget a.new p)

/-- Word `w` of LOG_ALM_ENTRY[i] (R590): NEW shows path 0. -/
def Dev.almWord (d : Dev) (i w : Nat) : Nat :=
  match aget d.log.alm i with
  | none => 0
  | some a => leAt (a.bytes 0) (4 * w) 4

/-- Bytes of a trace record (R578). -/
def TraceRec.bytes (r : TraceRec) : List Nat :=
  leBytes 4 r.lt ++ leBytes 2 (r.node % 2 ^ 12 + r.shift * 2 ^ 12) ++ [r.point, r.count % 256] ++ leBytes 8 r.payload

end Sys2Proof.Machine
end

