-- ==== Sys2Proof/Machine/StemOps.lean ====
section
/-! DEFINITION. The Stem's flits, retry buffers and retrains (R18 to R29). Die 0 is the beam die, die 1 the image die. -/
namespace Sys2Proof.Machine

/-- Release retry-buffer flits up to ACK_SEQ (R19): an acknowledged flit ends a run of NAKs. -/
def Dev.stemAck (d : Dev) (die ack : Nat) : Dev :=
  let s := d.stemEnd die
  let keep := s.retry.filter fun f => !((ack + 4096 - f.seq) % 4096 < 2048)
  let run := if keep.length = s.retry.length then s.gotRun else 0
  (d.setStem die { s with retry := keep, gotRun := run }).stemPump die

/-- Every armed commit that sent an ARM to another domain, and every remote ARM, sees that a retrain began (R90). A commit of the beam die alone
sent none, so it has no ARM since which a retrain could begin, and applies (DEDUCED, log 108). -/
def Dev.markRetrain (d : Dev) : Dev :=
  let c := d.commit
  let grps := c.grps.map fun (g, s) => (g, if s.mode = .armed ∧ !s.doms.isEmpty then { s with retrained := true } else s)
  let remote := c.remote.map fun r => { r with retrained := true }
  { d with commit := { c with grps := grps, remote := remote } }

/-- Start a retrain of a kind (1 fast, 2 full) at both ends (R24, R25): `lostB` and `lostI` are the lanes that are not locked meanwhile (R29). -/
def Dev.startRetrain (d : Dev) (kind lostB lostI : Nat) : Dev :=
  let st := fun (d : Dev) (die lost : Nat) =>
    let k := stemReg die Reg.STEM_STATUS
    let was := d.fld k 0 2
    let d := d.setF k 0 2 (if was = 2 ∨ was = 3 then 3 else 1)
    (d.setF k 3 8 (d.fld k 3 8 &&& (255 - lost % 256))).setStem die { d.stemEnd die with retrain := kind }
  (st (st d 0 lostB) 1 lostI).markRetrain

/-- Start a fast retrain, unless a retrain of either kind is running or the link is down (R24, R28, R29). -/
def Dev.fastRetrain (d : Dev) (lostB lostI : Nat) : Dev :=
  if (d.stemEnd 0).retrain = 0 ∧ d.fld Reg.STEM_STATUS 0 2 ≠ 0 then d.startRetrain 1 lostB lostI else d

/-- FAST_RETRAIN: which lanes have lost lock is a free value (log 1). -/
def Dev.fastRetrainRow (d : Dev) : Dev :=
  let (x, d) := d.fresh 16
  d.fastRetrain (x % 256) (x / 256)

/-- Start a full retrain, or turn a fast one into a full one; ignored during a full one (R25, R29). No lane is locked while all are equalised
anew (log 73). -/
def Dev.fullRetrain (d : Dev) : Dev :=
  if (d.stemEnd 0).retrain = 2 then d else d.startRetrain 2 255 255

/-- A NAK received at `die`: every flit after ACK_SEQ is sent again, in order (R23); the third in a row for one SEQ starts a fast retrain
(R24). -/
def Dev.stemReplay (d : Dev) (die ack : Nat) : Dev :=
  let d := d.stemAck die ack
  let s := d.stemEnd die
  let seq := (ack + 1) % 4096
  let run := if s.gotRun ≠ 0 ∧ s.gotSeq = seq then s.gotRun + 1 else 1
  let d := d.setStem die { s with gotSeq := seq, gotRun := run }
  let d := if d.stemUp then (d.stemEnd die).retry.foldl (fun d f => d.flitOut die f) d else d
  if 3 ≤ run then d.fastRetrain 0 0 else d

/-- A flit that the receiver must not take: bad CRC, reserved TYPE, or CSN copies that differ (R19, R20). -/
def flitBad (bs : List Nat) : Bool :=
  let w := leAt bs 0 8
  let ty := bits w 60 4
  bs.length != 80 || crc32c (bs.take 76) != leAt bs 76 4 || 7 ≤ ty || (ty == 1 && leAt bs 8 4 != bits w 4 32)

/-- A flit that is taken gives its receive credit back with a later flit (R19). -/
def StemSt.owe (s : StemSt) (ty : Nat) : StemSt := { s with owed := tput s.owed ty (tget s.owed ty + 1) }

/-- A flit arrives at a die (R19, R23, R24): refused with NAK, discarded as out of order, or taken and given to the caller. `lat` is its one-way
latency in ns, which a broadcast flit records (R29). CR_COUNT credits of CR_TYPE come back with it. -/
def Dev.flitTake (d : Dev) (die : Nat) (bs : List Nat) (lat : Nat) : Option Flit × Dev :=
  let s := d.stemEnd die
  if flitBad bs then
    let run := if s.nakRun ≠ 0 ∧ s.nakSeq = s.rxNext then s.nakRun + 1 else 1
    let d := d.setStem die { s with nakSeq := s.rxNext, nakRun := run }
    let d := ((d.inc (stemReg die Reg.STEM_CRC_ERR)).inc (stemReg die Reg.STEM_REPLAY)).emit (.nak die ((s.rxNext + 4095) % 4096))
    (none, if 3 ≤ run then d.fastRetrain 0 0 else d)
  else
    let w := leAt bs 0 8
    let tail := leAt bs 72 4
    let ack := bits tail 20 12
    let d := d.setStem die { s with credits := tput s.credits (bits tail 16 3) (tget s.credits (bits tail 16 3) + bits tail 8 8) }
    let d := if tb tail 19 then d.stemReplay die ack else d.stemAck die ack
    if bits w 48 12 ≠ s.rxNext then (none, d)
    else
      let f : Flit := ⟨bits w 48 12, bits w 60 4, bits w 0 42, (bs.drop 8).take (bits w 42 6 + 1)⟩
      let s := d.stemEnd die
      let d := d.setStem die { s.owe f.ty with rxNext := (s.rxNext + 1) % 4096, nakRun := 0 }
      (some f, if f.ty = 0 then d.wr (stemReg die Reg.STEM_LAT_MAX) (max lat (d.rd (stemReg die Reg.STEM_LAT_MAX))) else d)

end Sys2Proof.Machine
end

