-- ==== Sys2Proof/Machine/LinkOps.lean ====
section
/-! DEFINITION. Sending over Trellis and Graft: cells to a port, to a destination and over the tree, and replicated
frames (R503 to R511, R528, R529, R536). -/
namespace Sys2Proof.Machine

def Dev.trlPort (d : Dev) (p : Nat) : TrlPort := tget d.trl.ports p

def Dev.setTrlPort (d : Dev) (p : Nat) (q : TrlPort) : Dev := { d with trl := { d.trl with ports := tput d.trl.ports p q } }

/-- Port `p` is UP (R502). -/
def Dev.trlUp (d : Dev) (p : Nat) : Bool := d.fld (Reg.TRL_PORT_STATUS p) 0 2 == 3

/-- Class 1 to 3 cells are reliable (R504, R506). -/
def relClass (c : Nat) : Bool := 1 ≤ c && c ≤ 3

/-- A cell on the wire with the ACK it carries: three header words, the payload and the check sequence (R503). -/
def Cell.octets (c : Cell) (ack : Nat) : List Nat :=
  let body := leBytes 4 (c.dst * 2 ^ 20 + c.src * 2 ^ 8 + c.cls * 2 ^ 5 + c.sub) ++
    leBytes 4 (c.hops * 2 ^ 26 + b2n c.tree * 2 ^ 25 + b2n c.alt * 2 ^ 24 + c.payload.length) ++ leBytes 4 (c.seq * 2 ^ 16 + ack) ++ c.payload
  body ++ leBytes 4 (fcs body)

/-- What port `p` puts on its lanes for a cell: the ACK is the last SEQ that it has taken in order (R501, R503, R506). -/
def Dev.cellEmit (d : Dev) (p : Nat) (c : Cell) : Emit :=
  let bs := c.octets (((d.trlPort p).rxNext + 65535) % 65536)
  .cell p bs (frameBlocks bs)

/-- Port `p` sends a cell now. -/
def Dev.portSend (d : Dev) (p : Nat) (c : Cell) : Dev :=
  let q := d.trlPort p
  (d.setTrlPort p { q with sentAt := d.lt, bytes := q.bytes + 16 + c.payload.length }).emit (d.cellEmit p c)

/-- Transmit a cell on port `p`, in HELLO or UP: a reliable one takes the next SEQ and stays in the window of 64, or waits (R502, R506). -/
def Dev.cellTx (d : Dev) (p : Nat) (c : Cell) : Dev :=
  let q := d.trlPort p
  if d.fld (Reg.TRL_PORT_STATUS p) 0 2 < 2 then d
  else if !relClass c.cls then d.portSend p { c with seq := 0 }
  else if 64 ≤ q.window.length then d.setTrlPort p { q with waiting := q.waiting ++ [c] }
  else
    let c := { c with seq := q.txSeq, at0 := d.lt }
    (d.setTrlPort p { q with txSeq := (q.txSeq + 1) % 65536, window := q.window ++ [c] }).portSend p c

/-- Send waiting cells while the window of port `p` has room, those of the higher class first (R504, R506). -/
def Dev.cellPump (d : Dev) (p : Nat) : Dev :=
  let q := d.trlPort p
  let n := 64 - q.window.length
  let l := [1, 2, 3].flatMap fun (k : Nat) => q.waiting.filter fun (c : Cell) => c.cls == k
  (l.take n).foldl (fun d c => d.cellTx p c) (d.setTrlPort p { q with waiting := l.drop n })

/-- Route a cell to its destination: the primary next hop, else the alternate, else held or discarded (R510, R511). -/
def Dev.cellRoute (d : Dev) (c : Cell) : Dev :=
  match tget d.trl.prim c.dst, tget d.trl.alt c.dst with
  | 0, 0 => if relClass c.cls then { d with trl := { d.trl with held := d.trl.held ++ [{ c with at0 := d.lt }] } } else d
  | 0, a => d.cellTx (a - 1) { c with alt := true }
  | p, _ => d.cellTx (p - 1) c

/-- Send a cell of this node to a destination. A node without an id sends only classes 0, 1 and 4 (R509). -/
def Dev.cellSend (d : Dev) (cls sub dst : Nat) (payload : List Nat) : Dev :=
  if d.trl.idValid || cls ≤ 1 || cls = 4 then
    d.cellRoute ⟨0, cls, sub, dst, d.nodeId, 0, false, false, payload, d.lt⟩
  else d

/-- Port `p` is a tree port (R508). -/
def Dev.trlTree (d : Dev) (p : Nat) : Bool := d.bit (Reg.TRL_PORT_STATUS p) 2 && d.trlUp p

/-- Flood a cell over every tree port but one (R507). -/
def Dev.cellFlood (d : Dev) (c : Cell) (but : Option Nat) : Dev :=
  forN 8 (fun p d => if d.trlTree p && but != some p then d.cellTx p { c with tree := true } else d) d

/-- GRF_STATUS.ROLE (R532): 0 OFF, 1 SEEKING, 2 ACTIVE, 3 JOINING, 4 STANDBY, 5 DEPOSED. -/
def Dev.role (d : Dev) : Nat := d.fld Reg.GRF_STATUS 0 3

/-- The member runs the machine (R532). -/
def Dev.runs (d : Dev) : Bool := d.role == 0 || d.role == 2

/-- A JOINING or STANDBY member (R540). -/
def Dev.follows (d : Dev) : Bool := d.role == 3 || d.role == 4

/-- An ACTIVE member with a member in JOINING, from JOIN_ACK on, or STANDBY (R536, R547). -/
def Dev.feeds (d : Dev) : Bool := d.role == 2 && (d.grf.peerRole == 4 || (d.grf.peerRole == 3 && d.grf.c0 != 0))

/-- The ACTIVE member of a synchronised pair (R92). -/
def Dev.paired (d : Dev) : Bool := d.role == 2 && d.bit Reg.GRF_STATUS 3

/-- An ACTIVE member has seen a later epoch: it is DEPOSED at its next tick boundary (R535). -/
def Dev.deposeSoon (d : Dev) : Dev :=
  if d.grf.deposeAt.isSome then d else { d with grf := { d.grf with deposeAt := some d.tick.next } }

/-- GRF_PORT_STATUS[p].STATE: 0 DOWN, 1 TRAIN, 2 HELLO, 3 UP (R502, R527). -/
def Dev.grfState (d : Dev) (p : Nat) : Nat := d.fld (Reg.GRF_PORT_STATUS p) 0 2

/-- A Graft frame on the wire: four header words, the payload and the check sequence (R528). `ty` holds the TYPE, with MORE in bit 8. -/
def frameOctets (ty gseq ack epoch : Nat) (payload : List Nat) : List Nat :=
  let body := leBytes 4 (ty % 256 * 2 ^ 24 + ty / 256 * 2 ^ 16 + payload.length) ++ leBytes 4 gseq ++ leBytes 4 ack ++ leBytes 4 epoch ++ payload
  body ++ leBytes 4 (fcs body)

/-- What a port puts on its lanes for a frame: ACK is the last frame taken in order (R527, R528). -/
def Dev.frameEmit (d : Dev) (p ty gseq : Nat) (payload : List Nat) : Emit :=
  let bs := frameOctets ty gseq ((d.grf.rxNext + 2 ^ 32 - 1) % 2 ^ 32) (d.rd Reg.GRF_EPOCH) payload
  .frame p bs (frameBlocks bs)

/-- A frame of a TYPE leaves now: over every UP port, and a HEARTBEAT over a port in HELLO too (R527). -/
def Dev.grfOut (d : Dev) (ty gseq : Nat) (payload : List Nat) : Dev :=
  let least := if ty = 1 then 2 else 3
  forN 2 (fun p d =>
    if least ≤ d.grfState p then
      let g := d.grf
      ({ d with grf := { g with txAt := tput g.txAt p d.lt, bytes := tput g.bytes p (tget g.bytes p + 20 + payload.length) } }).emit
        (d.frameEmit p ty gseq payload)
    else d) d

/-- Send one Graft frame; the last 4,096 frames not acknowledged are kept (R528, R529). The TYPE is recorded with MORE in bit 8. -/
def Dev.graftOne (d : Dev) (ty : Nat) (payload : List Nat) : Dev :=
  let g := d.grf
  let l := g.sentF ++ [(g.gseq, ty, payload, d.lt)]
  let l := l.drop (l.length - 4096)
  ({ d with grf := { g with gseq := (g.gseq + 1) % 2 ^ 32, sentF := l } }).grfOut ty g.gseq payload

/-- Send a Graft record, in frames of at most 1,024 bytes (R528). -/
def Dev.graftTx (d : Dev) (ty : Nat) (payload : List Nat) : Dev :=
  let n := (payload.length + 1023) / 1024
  if n ≤ 1 then d.graftOne ty payload
  else forN n (fun i d => d.graftOne (if i + 1 < n then ty + 256 else ty) ((payload.drop (1024 * i)).take 1024)) d

/-- Replicate to the other member, if there is one to feed (R536). -/
def Dev.replicate (d : Dev) (ty : Nat) (payload : List Nat) : Dev := if d.feeds then d.graftTx ty payload else d

/-- Memory from `a` on has been written: each aligned 256-byte unit of it that is replicated goes to the standby in whole words (R530, R536, R547). -/
def Dev.mirrorSend (d : Dev) (a n : Nat) : Dev :=
  if !d.feeds ∨ n = 0 then d
  else
    let u := a / 256
    forN ((a + n - 1) / 256 + 1 - u) (fun i d =>
      let lo := max a ((u + i) * 256) / 4 * 4
      let hi := (min (a + n) ((u + i + 1) * 256) + 3) / 4 * 4
      if d.mirrored lo then d.graftTx 5 (leBytes 8 lo ++ d.load lo (hi - lo)) else d) d

end Sys2Proof.Machine
end

