-- ==== Sys2Proof/Machine/Commit.lean ====
section
/-! DEFINITION. Staging and the commit gate up to the apply (R72 to R95, R104). -/
namespace Sys2Proof.Machine

def Dev.grp (d : Dev) (g : Nat) : Grp := tget d.commit.grps g

def Dev.setGrp (d : Dev) (g : Nat) (q : Grp) : Dev := { d with commit := { d.commit with grps := tput d.commit.grps g q } }

/-- A number of `grps` that stands for a snapshot marker (R94). -/
def isMarker (g : Nat) : Bool := 8 ≤ g

/-- The groups and the markers that exist, by number. -/
def Dev.grpKeys (d : Dev) : List Nat := List.range 8 ++ (d.commit.grps.map (·.1)).filter isMarker

/-- Commit domain of a register: 0 beam die, 1 image die, 2 management (R82, R105). -/
def domOf (k : Nat) : Nat := if k / 2 ^ 32 = 0x301 then 1 else if k / 2 ^ 32 = 0x3FF then 2 else 0

/-- The group a source stages into (R76, R78). -/
def Dev.srcGrp (d : Dev) (src : Nat) : Nat := if src = 24 then 7 else d.fld (Reg.COMMIT_SRC_GRP src) 0 3

/-- Shadow copy of a register (R72, R75). -/
def Dev.shadow (d : Dev) (k : Nat) : Nat :=
  match aget d.commit.claims k with
  | some c => c.val.toNat
  | none => d.rd k

/-- Registers claimed by a group, with their staged values, in address order. -/
def Dev.claimsOf (d : Dev) (g : Nat) : List (Nat × Word) :=
  (d.commit.claims.filter fun p => p.2.grp == g).map fun p => (p.1, p.2.val)

/-- The register is a SEQ_CTRL, whose commit claims both dies (R119). -/
def isSeqCtrl (k : Nat) : Bool := k % 0x1000 == 0 && Reg.SEQ_CTRL 0 ≤ k && k ≤ Reg.SEQ_CTRL 7

/-- A CAMIN register of which the beam die holds a copy (R370, R393): the trigger's shape, the strobe, the exposure and the LINE registers. -/
def camCopied (k : Nat) : Bool :=
  Reg.CAMIN_CFG 0 ≤ k && k < Reg.CAMIN_CFG 16 && [0xC, 0x10, 0x18, 0x1C, 0x20, 0x24, 0x28, 0x2C].contains (k % 0x1000)

/-- A register whose commit claims domain `m`: 0 the beam die, 1 the image die, 2 management (R105, R119, R393). -/
def claimsDom (m k : Nat) : Bool := domOf k == m || (m == 1 && isSeqCtrl k) || (m == 0 && camCopied k)

/-- Remote domains that a group touches (R82); a marker touches every one (R94). -/
def Dev.remoteDoms (d : Dev) (g : Nat) : List Nat :=
  if isMarker g then [1, 2]
  else [1, 2].filter fun m => (d.claimsOf g).any fun p => claimsDom m p.1

/-- Poison a group after a discarded staging write; the first cause is kept (R76). Causes: 1 CONFLICT, 2 SEALED. -/
def Dev.poison (d : Dev) (g why : Nat) : Dev :=
  let q := d.grp g
  ((d.setGrp g (if q.why = 0 then { q with why := why } else q)).inc Reg.COMMIT_CONFLICTS).evt 96 8

/-- Release every claim of a group (R80, R89). -/
def Dev.release (d : Dev) (g : Nat) : Dev :=
  { d with commit := { d.commit with claims := d.commit.claims.filter fun p => p.2.grp != g } }

/-- A staging write of `src` is claimed by group `g`, which is OPEN from the first one on (R76, R22). -/
def Dev.opened (d : Dev) (g src : Nat) : Dev :=
  let q := d.grp g
  let q := if q.mode = .empty then { q with mode := .opened } else q
  d.setGrp g (if q.srcs.contains src then q else { q with srcs := q.srcs ++ [src] })

/-- A staging write of `v` under the bit mask `m` of CMT bits (R76): whether it was taken, and the device after it. -/
def Dev.stage (d : Dev) (src k v m : Nat) : Bool × Dev :=
  let g := d.srcGrp src
  let q := d.grp g
  if q.mode = .pending ∨ q.mode = .armed then (false, d.poison g 2)
  else
    let other := match aget d.commit.claims k with | some c => c.grp != g | none => false
    if other then (false, d.poison g 1)
    else
      let val := BitVec.ofNat 64 (mergeMask (d.shadow k) v m)
      let d := { d with commit := { d.commit with claims := aset d.commit.claims k (some ⟨g, val⟩) } }
      (true, d.opened g src)

/-- UNPOISON (R79). -/
def Dev.unpoison (d : Dev) (g : Nat) : Dev := d.setGrp g { d.grp g with why := 0 }

/-- DISCARD (R80). -/
def Dev.discard (d : Dev) (g : Nat) : Dev :=
  let q := d.grp g
  match q.mode with
  | .armed => d.evt 96 16
  | .empty => d.setGrp g { q with why := 0 }
  | _ => (d.release g).setGrp g { q with mode := .empty, why := 0, result := 2, slipRun := 0, lineMoved := false, srcs := [] }

/-- GO refused: RESULT reads REFUSED for a poisoned group (R79), and the event is set (R105). -/
def Dev.goRefuse (d : Dev) (g : Nat) : Dev :=
  let q := d.grp g
  (d.setGrp g (if q.why ≠ 0 then { q with result := 3 } else q)).evt 96 16

/-- What every accepted GO by source `src` sets in its group (R82, R119, R521). -/
def Dev.goGrp (d : Dev) (q : Grp) (src : Nat) : Grp :=
  let q := { q with mode := .pending, order := d.commit.order, goSrc := src, goLt := d.lt, slipRun := 0, acks := [], retrained := false }
  let q := { q with seqWait := d.seq.fwd.length, copyWait := d.seq.lost, doms := [], hostCsn := 0 }
  { q with ready := [], results := [], refusedBy := [], confirmed := false }

/-- GO of group `g` by source `src`, with the fields of COMMIT_GRP_CTRL as they stand (R79 to R83, R92). A LINE commit whose
line time has passed goes to the next tick boundary with LINE_LATE. -/
def Dev.go (d : Dev) (g src : Nat) : Dev :=
  let q := d.grp g
  let c := d.rd (Reg.COMMIT_GRP_CTRL g)
  let bnd := bits c 0 3
  if d.follows ∨ q.why ≠ 0 ∨ 5 ≤ bnd ∨ q.mode = .pending ∨ q.mode = .armed then d.goRefuse g
  else
    let late := bnd == 4 && d.rd (Reg.COMMIT_GRP_LT g) ≤ d.lt
    let q := { d.goGrp q src with bnd := bnd, beam := bits c 4 3, fabric := bnd == 4 && tb c 9, ltTarget := d.rd (Reg.COMMIT_GRP_LT g) }
    let q := { q with lineMoved := late, peer := false }
    let d := ({ d with commit := { d.commit with order := d.commit.order + 1 } }).setGrp g q
    if late then d.evt 96 256 else d

/-- COMMIT_CTRL.IMM_LEAD, at least 300 ns (R105). -/
def Dev.immLead (d : Dev) : Nat := max 300 (d.fld Reg.COMMIT_CTRL 16 12)

/-- COMMIT_CTRL.ARM_LEAD, at least 500 ns (R105). -/
def Dev.armLead (d : Dev) : Nat := max 500 (d.fld Reg.COMMIT_CTRL 0 16)

/-- COMMIT_LINE_LEAD in ns, at least 10 µs (R105). -/
def Dev.lineLead (d : Dev) : Nat := max 10 (d.fld Reg.COMMIT_LINE_LEAD 0 16) * 1000

/-- Peers of a line commit (R520): node and group of each entry. -/
def Dev.lcPeers (d : Dev) (g : Nat) : List (Nat × Nat) :=
  (List.range (min 16 (d.fld (Reg.TRL_LC_CFG g) 0 5))).map fun i =>
    let w := d.rd (Reg.TRL_LC_PEER g (i / 2)) / 2 ^ (16 * (i % 2))
    (bits w 0 12, bits w 12 3)

/-- The group touches a remote domain: another die or domain, the standby twin, or a fabric peer (R82, R537). -/
def Dev.touchesRemote (d : Dev) (g : Nat) : Bool :=
  !(d.remoteDoms g).isEmpty || d.paired || ((d.grp g).fabric && !(d.lcPeers g).isEmpty)

/-- Least time ahead, in ns, at which a boundary may still be armed (R84). -/
def Dev.leastAhead (d : Dev) (g : Nat) : Nat := if d.touchesRemote g then 300 else 4

/-- A distance in 2^-32 dot times this is a velocity of `Beam.v` times ns (R84). -/
def velNs : Int := 2 ^ 16 * 250000 * 1000

/-- The next forward boundary of dot 0 of a furrow, or of furrow 0, ahead of the beam, at least `least` ns away, with its
distance (R82 to R84). -/
def Dev.nextCrossing (d : Dev) (b : Nat) (field : Bool) (least : Nat) : Int × Int :=
  let s := tget d.beams b
  let u : Int := (if field then d.fpf b * 4096 else 4096 : Nat) * 2 ^ 32
  let d0 := (s.l / u + 1) * u - s.l
  let short := s.v * least - d0 * velNs
  let n := if 0 < short then (short + u * velNs - 1) / (u * velNs) else 0
  let dist := d0 + n * u
  ((s.l + dist) % modL (d.fpf b), dist)

/-- A register write to the other die by source `src`, issued before the GO with count `n`, has not been performed (R22): it waits behind the
Stem, in the core's store buffer or among the host's accesses. The host's writes are performed in order (R99), so all that wait count. -/
def Dev.writesOut (d : Dev) (n src : Nat) : Bool :=
  [0, 1].any (fun die => (d.stemEnd die).held.any fun h => h.write && h.src == src && decide (h.ord ≤ n) && crossesReg src h.addr) ||
  (tget d.cores src).sb.any (fun e => e.released && decide (e.ord ≤ n) && crossesReg src e.addr) ||
  (src == 25 && d.host.waiting.any fun h => h.write && !h.abandoned && decide (h.ord ≤ n))

/-- An ARM of group `g` may not be sent yet: a write of the GO's source, or of a source whose staging writes it carries, is still under way
(R22); its list writes are not at the mirror (R119); or it touches the data plane, which is stopped (R32). -/
def Dev.armHeld (d : Dev) (g : Nat) : Bool :=
  let q := d.grp g
  (!(d.remoteDoms g).isEmpty && (q.goSrc :: q.srcs).any (d.writesOut q.order)) ||
  ((q.seqWait != 0 || q.copyWait) && (d.claimsOf g).any fun p => isSeqCtrl p.1) ||
  (d.dataOff && (d.remoteDoms g).contains 1)

/-- The apply point for which group `g` may be armed now, if its arm point has come (R82 to R84, R32): a line time, or
for FURROW and FIELD a linear count. -/
def Dev.armPoint (d : Dev) (g : Nat) : Option (Nat × Int) :=
  let q := d.grp g
  let least := d.leastAhead g
  if q.mode ≠ .pending ∨ d.armHeld g then none
  else
    let tick : Option (Nat × Int) :=
      let t := if d.tick.next < d.lt + least then d.tick.next + d.tickNs else d.tick.next
      if t ≤ d.lt + d.armLead then some (t, 0) else none
    let cross (field : Bool) : Option (Nat × Int) :=
      let s := tget d.beams q.beam
      if s.mode = .run ∧ 0 < s.v then
        let (p, dist) := d.nextCrossing q.beam field least
        if dist * velNs ≤ s.v * d.armLead then some (0, p) else none
      else none
    if q.lineMoved then tick
    else match q.bnd with
      | 0 => some (if d.touchesRemote g then d.lt + d.immLead else d.lt + 8, 0)
      | 1 => tick
      | 2 => cross false
      | 3 => cross true
      | _ => if q.ltTarget ≤ d.lt + d.lineLead then some (q.ltTarget, 0) else none

/-- Commit flit of a phase (R20): 0 ARM, 1 ACK, 2 SWAP, 3 ABORT. The management domain is reached on the beam die. The spec gives a snapshot marker
no group number: its flits carry 0 in TARG 41:39, and a receiver tells it by its CSN (DESIGN CHOICE, log 74). -/
def Dev.commitMsg (d : Dev) (dom fromDie phase g csn : Nat) (rest : List Nat) : Dev :=
  if dom = 1 then d.stemSend fromDie 1 ((if isMarker g then 0 else g) * 2 ^ 39 + phase * 2 ^ 36 + csn * 2 ^ 4) (leBytes 4 csn ++ rest)
  else d.emit (.event 1 [dom, phase, g, csn])

/-- The CSN after `n` (R85). -/
def csnNext (n : Nat) : Nat := if n = 0xFFFFFFFF then 1 else n + 1

/-- Entries of a replicated commit: offset and space, then value; two entries for a 64-bit register (R530). -/
def repEntries (l : List (Nat × Word)) : List Nat :=
  l.foldl (fun a p =>
    let off := p.1 % 2 ^ 30 + domOf p.1 * 2 ^ 30
    let w := match regRow p.1 with | some r => r.width | none => 32
    a ++ leBytes 4 off ++ leBytes 4 p.2.toNat ++ (if w = 64 then leBytes 4 (off + 4) ++ leBytes 4 (p.2.toNat / 2 ^ 32) else [])) []

/-- A LINE commit whose arm allows no LINE apply is moved to the next tick boundary (R83). -/
def Dev.lineLate (d : Dev) (g : Nat) : Dev := (d.setGrp g { d.grp g with lineMoved := true }).evt 96 256

/-- Record the CSN of a commit issued from the HOST source (R103). A commit that is armed once more stands there once: its new CSN takes the place
of `old`, the one it had before (DESIGN CHOICE, log 75). -/
def Dev.hostRec (d : Dev) (old csn : Nat) : Dev :=
  let last := bits (d.rd Reg.COMMIT_HOST_REC) 0 32
  let prev := bits (d.rd Reg.COMMIT_HOST_REC) 32 32
  d.wr Reg.COMMIT_HOST_REC (if old ≠ 0 ∧ old = last then csn + prev * 2 ^ 32
    else if old ≠ 0 ∧ old = prev then last + csn * 2 ^ 32
    else csn + last * 2 ^ 32)

/-- Arm group `g` for an apply point: the CSN, ARM to every remote domain, COMMIT to the standby, PREPARE to the fabric peers
(R85, R89, R92, R520, R536). -/
def Dev.armNow (d : Dev) (g : Nat) (p : Nat × Int) : Dev :=
  let q := d.grp g
  let csn := d.rd Reg.COMMIT_NEXT_CSN
  let peers : List (Nat × Nat) := if q.fabric then d.lcPeers g else []
  let q := { q with mode := .armed, csn := csn, armLt := d.lt, applyLt := p.1, applyL := p.2, acks := [], retrained := false }
  let host := q.goSrc == 25 && !isMarker g
  let old := q.hostCsn
  let q := { q with peers := peers.map Prod.fst, ready := [], results := [], refusedBy := [], confirmed := q.peer && q.confirmed }
  let q := { q with doms := d.remoteDoms g, hostCsn := if host then csn else 0 }
  let d := (d.wr Reg.COMMIT_NEXT_CSN (csnNext csn)).setGrp g q
  let d := if d.commit.snapOpen ∧ isMarker g ∧ g = d.commit.snapGrp then d.wr Reg.COMMIT_SNAP_CSN csn else d
  let d := if host then d.hostRec old csn else d
  let where8 := leBytes 8 (if q.bnd = 2 ∨ q.bnd = 3 then (p.2 / 2 ^ 32).toNat else p.1)
  let d := (d.remoteDoms g).foldl (fun d m => d.commitMsg m 0 0 g csn ([q.bnd, q.beam, 0, 0] ++ where8)) d
  let cl := d.claimsOf g
  let n := (cl.map fun p => match regRow p.1 with | some r => r.width / 32 | none => 1).sum
  let d := d.replicate 2 (leBytes 4 csn ++ [q.bnd, q.beam] ++ leBytes 2 n ++ where8 ++ repEntries cl)
  let d := if d.feeds then d.wr Reg.GRF_CSN csn else d
  if peers.isEmpty then d
  else
    let d := d.wr (Reg.TRL_LC_STATUS g) (1 * 2 ^ 16)
    peers.foldl (fun d e => d.cellSend 2 0 e.1 (leBytes 4 csn ++ [e.2, 0, 0, 0] ++ leBytes 8 p.1)) d

/-- The PENDING groups that could be armed now for the same apply point as `g`, in the order of their GOs (R86). -/
def Dev.armSet (d : Dev) (g : Nat) : List Nat :=
  let l := d.grpKeys.filter fun h => (d.grp h).mode == .pending && d.armPoint h == d.armPoint g
  l.foldl (fun acc h =>
    let before := acc.takeWhile fun x => (d.grp x).order < (d.grp h).order
    before ++ [h] ++ acc.drop before.length) []

/-- Arm one group for an apply point. A LINE commit too near its line time is handled as one whose line time has passed (R83). -/
def Dev.armOne (d : Dev) (g : Nat) (p : Nat × Int) : Dev :=
  let q := d.grp g
  if q.bnd = 4 ∧ !q.lineMoved ∧ p.1 < d.lt + d.leastAhead g then d.lineLate g else d.armNow g p

/-- COMMIT_ARM: the arm point of a PENDING group has come; all that can be armed for its apply point are armed with it, in GO order, so that their
CSNs are consecutive (R85, R86). A commit whose GO comes after that takes the CSN that is then next (log 76). -/
def Dev.arm (d : Dev) (g : Nat) : Dev :=
  match d.armPoint g with
  | none => d
  | some p => (d.armSet g).foldl (fun d h => d.armOne h p) d

/-- The CSN of an ARMED group. -/
def Dev.armedCsn (d : Dev) (g : Nat) : Nat := (d.grp g).csn

/-- COMMIT_GRP_CSN[g] (R105): the CSN of the ARMED commit, or else of the last one applied. -/
def Dev.grpCsn (d : Dev) (g : Nat) : Nat := if (d.grp g).mode = .armed then d.armedCsn g else d.rd (Reg.COMMIT_GRP_CSN g)

/-- Send ABORT of an armed group to its remote domains and, as CRESULT, to the standby (R89, R537). -/
def Dev.abortMsgs (d : Dev) (g : Nat) : Dev :=
  let csn := d.armedCsn g
  let d := (d.remoteDoms g).foldl (fun d m => d.commitMsg m 0 3 g csn []) d
  d.replicate 3 (leBytes 4 csn ++ [2, 0, 0, 0])

/-- Value seen through the snapshot view (R74, R96). -/
def Dev.snapVal (d : Dev) (k : Nat) : Nat :=
  if d.commit.snapOpen then (match aget d.commit.snapCopy k with | some w => w.toNat | none => d.rd k) else d.rd k

/-- The first change of a register after the marker keeps its value for the snapshot (R96). -/
def Dev.snapKeep (d : Dev) (k : Nat) : Dev :=
  if d.commit.snapOpen && d.commit.snapMarked && (aget d.commit.snapCopy k).isNone then
    { d with commit := { d.commit with snapCopy := aset d.commit.snapCopy k (some (BitVec.ofNat 64 (d.rd k))) } }
  else d

/-- Change the active copy of a register as a swap or a sequencer-class change does (R89, R96). -/
def Dev.swapIn (d : Dev) (k v : Nat) : Dev := (d.snapKeep k).wr k v

/-- The bound of a stalled read (R94). -/
def Dev.stallBound (d : Dev) : Nat := d.immLead + 200

/-- Let stalled snapshot reads return: all of them, or those past the bound of R94. Reads that cores and the host try again are only forgotten. -/
def Dev.unstall (d : Dev) (all : Bool) : Dev :=
  let bound := d.stallBound
  let out := d.commit.stalled.filter fun r => r.own && (all || r.at0 + bound ≤ d.lt)
  let keep := d.commit.stalled.filter fun r => !(all || r.own && r.at0 + bound ≤ d.lt)
  let d := { d with commit := { d.commit with stalled := keep } }
  out.foldl (fun d r => d.emit (.event 2 [r.src, r.key, if all then d.snapVal r.key else d.rd r.key])) d

/-- Close the snapshot (R95). -/
def Dev.snapClose (d : Dev) : Dev :=
  let d := { d with commit := { d.commit with snapOpen := false, snapReady := false, snapMarked := false, snapCopy := [] } }
  d.unstall true

/-- A commit fails: back to OPEN with its claims, RESULT FAILED (R91); a null commit has none and is EMPTY. A failed
marker closes its snapshot and is gone (R94). -/
def Dev.failGrp (d : Dev) (g : Nat) : Dev :=
  let q := d.grp g
  if isMarker g then
    let d := (d.setGrp g default).evt 96 4
    if d.commit.snapOpen ∧ g = d.commit.snapGrp then d.snapClose else d
  else
    let m := if (d.claimsOf g).isEmpty then GrpMode.empty else GrpMode.opened
    (d.setGrp g { q with mode := m, result := 4, slipRun := 0, lineMoved := false, peer := false }).evt 96 4

/-- What a slip and a withdrawal share: ABORT, the CSN retired, the slip counted, PENDING again or failed (R88, R90, R91). -/
def Dev.unarm (d : Dev) (g bit : Nat) : Dev :=
  let d := d.abortMsgs g
  let q := d.grp g
  let d := ((d.inc Reg.COMMIT_RETIRED).inc Reg.COMMIT_SLIPS)
  let d := if g < 8 then d.inc (Reg.COMMIT_GRP_SLIP g) else d
  let d := (d.setGrp g { q with mode := .pending, slipRun := q.slipRun + 1, acks := [], retrained := false }).evt 96 bit
  let lim := d.fld Reg.COMMIT_CTRL 28 4
  if lim ≠ 0 ∧ lim ≤ q.slipRun + 1 then d.failGrp g else d

/-- A slip at the apply point (R90). A LINE commit goes to the next tick; a line commit fails at once with LC_FAIL. -/
def Dev.slip (d : Dev) (g : Nat) : Dev :=
  let q := d.grp g
  if q.fabric ∧ !q.peers.isEmpty then (((d.abortMsgs g).inc Reg.COMMIT_RETIRED).failGrp g).evt 306 256
  else
    let d := d.unarm g 2
    if (d.grp g).mode = .pending ∧ q.bnd = 4 ∧ !q.lineMoved then d.lineLate g else d

/-- A withdrawal (R88). -/
def Dev.withdraw (d : Dev) (g : Nat) : Dev := d.unarm g 128

/-- WITHDRAW row: an ARMED FURROW or FIELD commit not applied within 4 × ARM_LEAD of being armed (R88). -/
def Dev.withdrawDue (d : Dev) (g : Nat) : Bool :=
  let q := d.grp g
  q.mode == .armed && (q.bnd == 2 || q.bnd == 3) && q.armLt + 4 * d.armLead ≤ d.lt

/-- The apply point of an ARMED group has come (R82, R83): its line time, or a forward crossing of its own boundary in the
last beam cycle. -/
def Dev.applyDue (d : Dev) (g : Nat) : Bool :=
  let q := d.grp g
  q.mode == .armed &&
    (if (q.bnd == 2 || q.bnd == 3) && !q.lineMoved then
      (tget d.beams q.beam).crossings.contains ((q.applyL / 2 ^ 32).toNat, true)
    else q.applyLt ≤ d.lt)

/-- The three conditions of R90 at the apply point. -/
def Dev.applyOk (d : Dev) (g : Nat) : Bool :=
  let q := d.grp g
  (d.remoteDoms g).all (fun m => q.acks.contains m) && !q.retrained

/-- ARMED groups of lower CSN than `g` (R88). -/
def Dev.lowerArmed (d : Dev) (g : Nat) : List Nat :=
  d.grpKeys.filter fun h => h != g && (d.grp h).mode == .armed && csnBefore (d.armedCsn h) (d.armedCsn g)

/-- ACK of a remote domain for an ARMED commit (R90). -/
def Dev.ackReceive (d : Dev) (g dom csn : Nat) : Dev :=
  let q := d.grp g
  if q.mode = .armed ∧ d.armedCsn g = csn ∧ !q.acks.contains dom then d.setGrp g { q with acks := q.acks ++ [dom] } else d

/-- Predicted ns from now to an armed group's apply point in a remote domain's view (R89, R90); none while a beam does not move toward it. The image
die (domain 1) has its own estimate of each beam, the management domain that of the beam die's receivers (R63). -/
def Dev.aheadNs (d : Dev) (g dom : Nat) : Option Int :=
  let q := d.grp g
  if (q.bnd = 2 ∨ q.bnd = 3) ∧ !q.lineMoved then
    let s := tget d.beams q.beam
    let dist := distL (d.fpf q.beam) (d.estAt (if dom = 1 then 1 else 0) q.beam d.lt) q.applyL
    if 0 < s.v then some (dist * velNs / s.v) else none
  else some ((q.applyLt : Int) - d.lt)

/-- ARM reaches a remote domain (R90): it keeps the staged values and answers ACK if its apply point lies at least 150 ns
ahead. -/
def Dev.armReceive (d : Dev) (dom g csn : Nat) : Dev :=
  let q := d.grp g
  if q.mode = .armed ∧ d.armedCsn g = csn then
    let ok := match d.aheadNs g dom with | some n => decide (150 ≤ n) | none => false
    let vals := (d.claimsOf g).filter fun p => domOf p.1 == dom
    let keep := d.commit.remote.filter fun r => !(r.dom == dom && r.grp == g)
    let d := { d with commit := { d.commit with remote := keep ++ [⟨dom, g, csn, ok, false, false, vals, []⟩] } }
    if ok then d.commitMsg dom 1 1 g csn [] else d
  else d

/-- SWAP reaches a remote domain: it releases its undo copy (R89). -/
def Dev.swapReceive (d : Dev) (dom g csn : Nat) : Dev :=
  { d with commit := { d.commit with
      remote := d.commit.remote.map fun r => if r.dom == dom && r.grp == g && r.csn == csn then { r with undo := [] } else r } }

/-- COMMIT_GRP_STATUS[g] (R105). -/
def Dev.grpStatus (d : Dev) (g : Nat) : Nat :=
  let q := d.grp g
  let cl := d.claimsOf g
  let dom (m : Nat) : Nat := b2n (cl.any fun p => claimsDom m p.1)
  q.mode.code + b2n (q.why != 0) * 4 + dom 0 * 16 + dom 1 * 32 + dom 2 * 64 + q.result * 256 + q.why * 4096

/-- COMMIT_SNAP_STATUS (R105). -/
def Dev.snapStatus (d : Dev) : Nat :=
  b2n d.commit.snapOpen + b2n d.commit.snapReady * 2 + d.commit.snapOwner * 256

/-- The lowest number that no marker under way has. -/
def Dev.freeMarker (d : Dev) : Option Nat := ((List.range 248).map (· + 8)).find? fun g => (d.grp g).mode == .empty

/-- OPEN of a snapshot by source `src` (R94, R95): the marker is an IMMEDIATE null commit touching every domain. An OPEN that is
ignored sets SNAP_BUSY, and REFUSED, which the event table sets when an OPEN was refused (log 71). -/
def Dev.snapOpenBy (d : Dev) (src : Nat) : Dev :=
  match d.freeMarker with
  | none => d.evt 96 48
  | some g =>
    if d.commit.snapOpen then d.evt 96 48
    else
      let q := d.goGrp (default : Grp) src
      let c := { d.commit with snapOpen := true, snapReady := false, snapMarked := false, snapCopy := [], order := d.commit.order + 1 }
      (({ d with commit := { c with snapOwner := src, snapAt := d.lt, snapGrp := g } }).setGrp g q).arm g

end Sys2Proof.Machine
end

