-- ==== Sys2Proof/Machine/Beam.lean ====
section
/-! DEFINITION. The beam engines, encoders, ticks and the broadcast (R39 to R71, R609, R653), but for the order of one beam cycle,
which Cycle.lean gives. -/
namespace Sys2Proof.Machine

def Dev.beam (d : Dev) (b : Nat) : Beam := tget d.beams b

def Dev.setBeam (d : Dev) (b : Nat) (s : Beam) : Dev := { d with beams := tput d.beams b s }

/-- The configured source has a valid unit (R43, R54). -/
def Dev.unitOk (d : Dev) (b : Nat) : Bool :=
  let src := d.fld (Reg.BEAM_CTRL b) 1 3
  let unit := d.fld (Reg.BEAM_SRC_SEL b) 0 6
  match src with
  | 0 | 3 => unit < 8
  | 1 | 2 | 4 => true
  | _ => false

/-- The beam is stopped by RST_BSTOP or BSTOP_N (R609). -/
def Dev.stopped (d : Dev) (b : Nat) : Bool := d.bit Reg.RST_BSTOP b || (d.bit Reg.RST_BSTOP 8 && d.bstopLow)

/-- BEAM_RATIO, signed 32.32. -/
def Dev.ratio (d : Dev) (b : Nat) : Int := sx 64 (d.rd (Reg.BEAM_RATIO b))

/-- Position of an axis at line time `t` in 2^-16 count, extrapolated with its last two samples (R51); none before its first. -/
def DrvAx.at (x : DrvAx) (t : Nat) : Option Int :=
  if !x.got then none
  else match x.before with
    | some (a0, t0) => if t0 = x.slt then some (sx 64 x.act)
        else some (sx 64 x.act + (sx 64 x.act - sx 64 a0) * ((t : Int) - x.slt) / ((x.slt : Int) - t0))
    | none => some (sx 64 x.act)

/-- The axis that an AXIS beam follows (R43). -/
def Dev.beamAxis (d : Dev) (b : Nat) : DrvAx :=
  tget (tget d.drv (d.fld (Reg.BEAM_SRC_SEL b) 0 6)).axes (d.fld (Reg.BEAM_SRC_SEL b) 6 3)

/-- The source's present raw value (R52): encoder counts, linear counts in 2^-32 dot, or axis counts in 2^-16; none while the line beam or the axis
has not been received. -/
def Dev.srcRaw (d : Dev) (b : Nat) : Option Int :=
  let unit := d.fld (Reg.BEAM_SRC_SEL b) 0 6
  match d.fld (Reg.BEAM_CTRL b) 1 3 with
  | 0 => some (sx 32 (d.rd (Reg.BEAM_ENC_COUNT (unit % 8))))
  | 2 => let e := tget d.est (16 + unit)
         if e.got then some (e.at (max 1000 (d.fld Reg.TRL_LB_PERIOD 0 16)) d.lt) else none
  | 3 => some (d.beam (unit % 8)).l
  | 4 => (d.beamAxis b).at d.lt
  | _ => some 0

/-- Change of a raw value since the last step: none where either is not known (R43). -/
def rawMove (f : Int → Int → Int) (old new : Option Int) : Int :=
  match old, new with
  | some a, some c => f a c
  | _, _ => 0

/-- Units of a raw value in one count or dot (R44). -/
def rawDen (src : Nat) : Int := if src = 0 then 1 else if src = 4 then 2 ^ 16 else 2 ^ 32

/-- A set of L that is a jump (R42, R46, R52). -/
def Dev.jumpTo (d : Dev) (b : Nat) (l : Int) : Dev :=
  let s := d.beam b
  (d.setBeam b { s with l := l % modL (d.fpf b), back := 0, jumpDie := true, jumpStem := true }).evt (80 + b) 8

/-- A source switch or a resumption under BEAM_CTRL.SWITCH (R52). A line beam or axis never received counts 0, as its registers read (log 80). The ticks
without a record or an uplink are counted from here (R49, R51). -/
def Dev.switchSource (d : Dev) (b : Nat) : Dev :=
  let src := d.fld (Reg.BEAM_CTRL b) 1 3
  let raw := d.srcRaw b
  let s := d.beam b
  let d := d.setBeam b { s with srcActive := src, raw := raw, rem := 0, lossTicks := 0 }
  if d.bit (Reg.BEAM_CTRL b) 4 then
    let ofs := sx 64 (d.rd (Reg.BEAM_OFFSET b)) * 2 ^ 16
    let prod := d.ratio b * raw.getD 0 / rawDen src
    let prod := if d.bit (Reg.BEAM_CTRL b) 6 then -prod else prod
    d.jumpTo b (if src = 1 then ofs else prod + ofs)
  else d

/-- Enter STALE (R54). -/
def Dev.goStale (d : Dev) (b : Nat) : Dev :=
  let s := d.beam b
  if s.mode = .stale ∨ s.mode = .off then d
  else
    let d := d.setBeam b { s with mode := .stale, v := 0, a := 0, validTick := false, fast := false }
    ((d.inc (Reg.BEAM_STALE_CNT b)).evt (80 + b) 4).alarm 0x03 0

/-- Leave OFF, HOLD or STALE: to HOLD while it is held or has no unit, and to RUN otherwise, under R52 (R54). -/
def Dev.resume (d : Dev) (b : Nat) : Dev :=
  if d.bit (Reg.BEAM_CTRL b) 5 || !d.unitOk b || d.stopped b then
    d.setBeam b { d.beam b with mode := .hold, v := 0, a := 0, gearStale := false }
  else
    (d.setBeam b { d.beam b with mode := .run, gearStale := false, lossTicks := 0 }).switchSource b

/-- Bring the state of a beam in line with ENABLE, HOLD, its source and the beam stops (R54, R609). -/
def Dev.beamReeval (d : Dev) (b : Nat) : Dev :=
  let s := d.beam b
  let held := d.bit (Reg.BEAM_CTRL b) 5 || !d.unitOk b || d.stopped b
  if !d.bit (Reg.BEAM_CTRL b) 0 then
    d.setBeam b { s with mode := .off, v := 0, a := 0, fast := false, gearStale := false }
  else match s.mode with
    | .off => (d.setBeam b { s with indexed := false }).resume b
    | .hold => if held then d else d.resume b
    | .run => if held then d.setBeam b { s with mode := .hold, v := 0, a := 0, fast := false } else d
    | .stale => d

/-- The beam that a GEAR beam follows. -/
def Dev.gearRef (d : Dev) (b : Nat) : Option Nat :=
  if d.fld (Reg.BEAM_CTRL b) 1 3 == 3 && d.unitOk b && d.bit (Reg.BEAM_CTRL b) 0 then some (d.fld (Reg.BEAM_SRC_SEL b) 0 6)
  else none

/-- The beam reached by following `n` gear references. -/
def Dev.gearWalk (d : Dev) (b : Nat) : Nat → Option Nat
  | 0 => some b
  | n + 1 => (d.gearWalk b n).bind d.gearRef

/-- The beam depends on itself through a chain of gears (R50). -/
def Dev.gearLoop (d : Dev) (b : Nat) : Bool := (List.range 8).any fun n => d.gearWalk b (n + 1) == some b

/-- Every beam of a loop that a commit has made becomes STALE with GEAR_LOOP (R50); `old` is the device before. -/
def Dev.gearCheck (d old : Dev) : Dev :=
  forN 8 (fun b d => if d.gearLoop b && !old.gearLoop b then (d.goStale b).evt (80 + b) 64 else d) d

/-- Rescale of L when FPF changes from `old` (R39). While the beam is OFF, L is only reduced (log 10). -/
def Dev.fpfRescale (d : Dev) (b old : Nat) : Dev :=
  let new := d.fpf b
  if old = new then d
  else
    let s := d.beam b
    if s.mode = .off then d.setBeam b { s with l := s.l % modL new, prev := s.l % modL new }
    else
      let f : Int := (old * 4096 : Nat) * 2 ^ 32
      let l := s.l / f * ((new * 4096 : Nat) * 2 ^ 32) + s.l % f * new / old
      d.setBeam b { s with l := l % modL new, prev := l % modL new, fpfDie := true, fpfStem := true, crossings := [] }

/-- BEAM_INDEX with MODE = CORRECT_ONCE was committed or written by a sequencer entry: the first qualified edge after it sets L (R46). -/
def Dev.indexArm (d : Dev) (b : Nat) : Dev :=
  if d.fld (Reg.BEAM_INDEX b) 24 2 = 3 then d.setBeam b { d.beam b with once := true } else d

/-- What a commit or a sequencer entry that changed a register of beam `b` does (R39, R50, R52, R54): `octl`, `osel`, `orat`
and `ofpf` are the values before. -/
def Dev.beamCfg (d : Dev) (b octl osel orat ofpf : Nat) : Dev :=
  let d := d.fpfRescale b (clampN 16 4096 ofpf)
  let was := (d.beam b).mode
  let d := d.beamReeval b
  let changed := bits octl 1 3 ≠ d.fld (Reg.BEAM_CTRL b) 1 3 ∨ osel ≠ d.rd (Reg.BEAM_SRC_SEL b) ∨ orat ≠ d.rd (Reg.BEAM_RATIO b)
  if changed ∧ was = .run ∧ (d.beam b).mode = .run then d.switchSource b else d

/-- Movement of the source in this beam cycle as a numerator over `stepDen` (R43, R48), with the beam's new velocity and
acceleration. ENC gives no rule for the velocity: it is a free value (log 11). -/
def Dev.srcStep (d : Dev) (b : Nat) : Int × Int × Dev :=
  let s := d.beam b
  let inv := d.bit (Reg.BEAM_CTRL b) 6
  let sgn : Int := if inv then -1 else 1
  let ratio := d.ratio b
  let raw := d.srcRaw b
  match s.srcActive with
  | 0 =>
    let n := rawMove (fun a c => sx 32 (tw 32 (c - a))) s.raw raw
    let (fv, d) := d.fresh 96
    let (fa, d) := d.fresh 96
    (sgn * ratio * n, 1, d.setBeam b { s with raw := raw, v := sx 96 fv, a := sx 96 fa })
  | 1 =>
    let target := sx 32 (d.rd (Reg.BEAM_GEN_VEL b)) * 2 ^ 32 * 250000
    let acc : Int := (d.rd (Reg.BEAM_GEN_ACC b) : Int) * 2 ^ 32
    let g := sgn * s.v
    let g' := if acc = 0 then target else if g < target then min target (g + acc) else max target (g - acc)
    let a := if g' = g then 0 else if acc = 0 then 0 else if g < g' then acc * 250000 else -(acc * 250000)
    (sgn * g', 2 ^ 16 * 62500000, d.setBeam b { s with v := sgn * g', a := sgn * a })
  | 2 =>
    let e := tget d.est (16 + d.fld (Reg.BEAM_SRC_SEL b) 0 6)
    let n := rawMove (distL e.last.fpf) s.raw raw
    let dt : Int := (d.lt : Int) - e.last.lt
    let v := e.last.vel + e.last.acc * dt / 1000000
    (sgn * ratio * n, 2 ^ 32,
      d.setBeam b { s with raw := raw, v := sgn * v * 250000 * ratio, a := sgn * e.last.acc * 250000 * ratio })
  | 3 =>
    let (mv, v, a) := (d.beam (d.fld (Reg.BEAM_SRC_SEL b) 0 6 % 8)).led
    (sgn * ratio * mv, 2 ^ 32, d.setBeam b { s with raw := raw, v := sgn * ratio * v / 2 ^ 32, a := sgn * ratio * a / 2 ^ 32 })
  | 4 =>
    let x := d.beamAxis b
    let v := match x.before with
      | some (a0, t0) => if t0 = x.slt then 0 else (sx 64 x.act - sx 64 a0) * 1000 * ratio * 250000 / ((x.slt : Int) - t0)
      | none => 0
    (sgn * ratio * rawMove (fun a c => c - a) s.raw raw, 2 ^ 16, d.setBeam b { s with raw := raw, v := sgn * v, a := 0 })
  | _ => (0, 1, d)

/-- The part of an index correction that this cycle's step carries (R46, R47). -/
def Beam.corrStep (s : Beam) (step : Int) : Int × Beam :=
  if s.corrK = 0 ∧ s.corrCarry = 0 then (0, s)
  else
    let k := 256 - s.corrK
    let part := if s.corrK = 0 then 0 else s.corrTot * (k + 1) / 256 - s.corrTot * k / 256
    let carry := s.corrCarry + part
    let add := if step = 0 then 0 else if 0 < step then max carry (-step) else min carry (-step)
    (add, { s with corrK := s.corrK - 1, corrCarry := carry - add })

/-- The reported direction after a movement (R42). -/
def Beam.revStep (s : Beam) (hyst : Int) (mv : Int) : Beam :=
  let back := max 0 (if s.rev then s.back + mv else s.back - mv)
  if hyst ≤ back ∧ 0 < back then { s with rev := !s.rev, back := 0 } else { s with back := back }

/-- Furrow boundaries crossed between two linear counts, in order, in dots, with their direction (R41). -/
def crossingsOf (fpf : Nat) (from_ step : Int) : List (Nat × Bool) :=
  let u : Int := 4096 * 2 ^ 32
  let hi := (from_ + step) / u
  let lo := from_ / u
  let at_ (i : Int) : Nat := (i * 4096 % ((2 ^ 24 * fpf * 4096 : Nat) : Int)).toNat
  if 0 < step then (List.range (hi - lo).toNat).map fun (i : Nat) => (at_ (lo + 1 + (i : Int)), true)
  else (List.range (lo - hi).toNat).map fun (i : Nat) => (at_ (lo - (i : Int)), false)

/-- The 100 fields/s limit of R55 in the units of `Beam.v`. -/
def speedLimit (fpf : Nat) : Int := (fpf * 4096 * 25 : Nat) * 2 ^ 48

/-- Steps 2 to 4 of R40 for one beam: source, index correction, crossings, direction and the speed check (R55). -/
def Dev.beamAdvance (d : Dev) (b : Nat) : Dev :=
  let fpf := d.fpf b
  let s := d.beam b
  if s.mode ≠ .run then
    d.setBeam b { s with prev := s.l, stepped := 0, jumped := distL fpf s.prev s.l, crossings := [], corrDone := false }
  else
    let jumped := distL fpf s.prev s.l
    let (num, den, d) := d.srcStep b
    let s := d.beam b
    let tot := s.rem + num
    let step := tot / den
    let (corr, s) := s.corrStep step
    let l := (s.l + step + corr) % modL fpf
    let s := s.revStep ((d.fld (Reg.BEAM_REV_HYST b) 0 16 : Int) * 2 ^ 32) (step + corr)
    let mv := distL fpf s.prev l
    let cr := crossingsOf fpf s.prev mv
    let lim := speedLimit fpf
    let fast := lim < s.v ∨ lim < -s.v
    let wrap := cr.contains (0, true)
    let rose := fast && !s.fast
    let s := { s with l := l, rem := tot % den, prev := l, stepped := mv, jumped := jumped }
    let d := d.setBeam b { s with crossings := cr, corrDone := false, fast := fast }
    let d := if wrap then d.evt (80 + b) 32 else d
    let d := if rose then d.evt (80 + b) 16 else d
    if 2 * lim < s.v ∨ 2 * lim < -s.v then d.goStale b else d

/-- What the GEAR beams follow in this beam cycle: every beam's movement of the one before (R50). -/
def Dev.gearLatch (d : Dev) : Dev :=
  { d with beams := d.beams.map fun p => (p.1, { p.2 with led := (p.2.stepped, p.2.v, p.2.a) }) }

/-- A GEAR beam becomes STALE with its reference, and resumes with it (R50). -/
def Dev.gearFollow (d : Dev) (b : Nat) : Dev :=
  match d.gearRef b with
  | none => d
  | some r =>
    let s := d.beam b
    let ref := (d.beam r).mode
    if (s.mode = .run ∨ s.mode = .hold) ∧ ref = .stale then
      let d := d.goStale b
      d.setBeam b { d.beam b with gearStale := true }
    else if s.mode = .stale ∧ s.gearStale ∧ (ref = .run ∨ ref = .hold) ∧ !d.gearLoop b then d.resume b else d

/-- The source of a STALE beam is valid now (R45, R49 to R51, R54). -/
def Dev.srcValid (d : Dev) (b : Nat) : Bool :=
  let s := d.beam b
  let unit := d.fld (Reg.BEAM_SRC_SEL b) 0 6
  let tmo := max 1 (d.fld (Reg.BEAM_LOSS b) 0 8)
  d.unitOk b && match d.fld (Reg.BEAM_CTRL b) 1 3 with
    | 0 => (tget d.encs unit).ill < 16
    | 1 => true
    | 2 => s.lossTicks < tmo && (tget d.est (16 + unit)).got
    | 3 => (d.beam (unit % 8)).mode == .run && !d.gearLoop b
    | _ => s.lossTicks < tmo && d.fld (Reg.DRV_STATUS unit) 0 3 == 3

/-- The source of a beam is lost: it becomes STALE, and a STALE one has no valid tick (R45, R49, R51, R54). -/
def Dev.srcLost (d : Dev) (b : Nat) : Dev :=
  if (d.beam b).mode = .stale then d.setBeam b { d.beam b with validTick := false } else d.goStale b

/-- An accepted transition of encoder `e` to levels `a`, `b` (R45). FILT has acted before: it decides which level changes are accepted (log 81). A
beam that is OFF does not use the encoder, whatever its SRC and UNIT name (DESIGN CHOICE, log 82). -/
def Dev.encTransition (d : Dev) (e : Nat) (a b : Bool) : Dev :=
  let s := tget d.encs e
  let cfg := d.rd (Reg.BEAM_ENC_CFG e)
  let (oa, ob) := if tb cfg 5 then (s.b, s.a) else (s.a, s.b)
  let (na, nb) := if tb cfg 5 then (b, a) else (a, b)
  let users := (List.range 8).filter fun x =>
    d.fld (Reg.BEAM_CTRL x) 1 3 == 0 && d.rd (Reg.BEAM_SRC_SEL x) % 64 == e && (d.beam x).mode != .off
  if oa ≠ na ∧ ob ≠ nb then
    let ill := s.ill + 1
    let d := ({ d with encs := tput d.encs e { s with a := a, b := b, ill := ill } }).inc (Reg.BEAM_ENC_ERR e)
    let d := users.foldl (fun d x => d.evt (80 + x) 2) d
    if 16 ≤ ill then users.foldl (fun d x => d.srcLost x) d else d
  else
    let fwd : Bool := (oa, ob, na, nb) = (false, false, true, false) ∨ (oa, ob, na, nb) = (true, false, true, true) ∨
      (oa, ob, na, nb) = (true, true, false, true) ∨ (oa, ob, na, nb) = (false, true, false, false)
    let moved := oa != na || ob != nb
    let n : Int := match bits cfg 3 2 with
      | 1 => if oa != na then (if na != nb then 1 else -1) else 0
      | 2 => if ob || nb || oa == na then 0 else if na then 1 else -1
      | _ => if !moved then 0 else if fwd then 1 else -1
    let d := { d with encs := tput d.encs e { s with a := a, b := b } }
    d.wr (Reg.BEAM_ENC_COUNT e) (tw 32 (d.rd (Reg.BEAM_ENC_COUNT e) + n))

/-- Index error of beam `b`: the signed distance within the field from the index position to L (R46). -/
def Dev.indexErr (d : Dev) (b : Nat) : Int :=
  let f : Int := (d.fpf b * 4096 : Nat) * 2 ^ 32
  let p := d.rd (Reg.BEAM_INDEX b)
  let idx : Int := (bits p 12 12 * 4096 + bits p 0 12 : Nat) * 2 ^ 32
  ((d.beam b).l % f - idx + f / 2) % f - f / 2

/-- A qualified Z edge for a RUN beam whose source is the encoder (R46). Under CORRECT it ends an earlier correction even where it is itself out of
tolerance and makes none. -/
def Dev.indexEdge (d : Dev) (b : Nat) : Dev :=
  let mode := d.fld (Reg.BEAM_INDEX b) 24 2
  if mode = 0 then d
  else
    let e := d.indexErr b
    let tol : Int := (d.fld (Reg.BEAM_INDEX_TOL b) 0 16 : Int) * 2 ^ 32
    let out := tol < e ∨ tol < -e
    let s := d.beam b
    let d := d.wr (Reg.BEAM_INDEX_ERR b) (tw 32 (e / 2 ^ 32))
    if mode = 3 ∧ s.once then
      (d.setBeam b { s with once := false, indexed := true, corrK := 0, corrCarry := 0 }).jumpTo b (s.l - e)
    else if out then (if mode = 1 then d else d.setBeam b { s with corrK := 0, corrCarry := 0 }).evt (80 + b) 1
    else if mode = 1 then d
    else d.setBeam b { s with corrTot := -e, corrK := 256, corrCarry := 0, indexed := true }

/-- Z of encoder `e` changes to a level; the transition into the active level is the qualified edge (R46, log 12). -/
def Dev.zEdge (d : Dev) (e : Nat) (level : Bool) : Dev :=
  let s := tget d.encs e
  let active := level != d.bit (Reg.BEAM_ENC_CFG e) 6
  let d' := { d with encs := tput d.encs e { s with z := level } }
  if s.z != level && active then
    forN 8 (fun b d => if d.fld (Reg.BEAM_CTRL b) 1 3 == 0 && d.rd (Reg.BEAM_SRC_SEL b) % 64 == e && (d.beam b).mode == .run
      then d.indexEdge b else d) d'
  else d'

/-- Velocity or acceleration in Q16.16, rounded to nearest with ties away from zero (R63). -/
def q16 (v : Int) : Int := roundDiv v (2 ^ 32 * 250000)

/-- The broadcast record of beam `b` (R63) on a path: 0 on the die, 1 over the Stem. The spec gives one BSEQ per beam; the two paths send at different
times, so each counts its own records, and a line-beam record carries the number of the die's path (DESIGN CHOICE, log 83). -/
def Dev.record (d : Dev) (b path : Nat) : BRec :=
  let s := d.beam b
  let still := s.mode ≠ .run
  { pos := posOf (d.fpf b) s.l, frac := fracOf s.l, lt := d.lt, vel := if still then 0 else q16 s.v,
    acc := if still then 0 else q16 s.a, fpf := d.fpf b, fpfChg := if path = 0 then s.fpfDie else s.fpfStem,
    jump := if path = 0 then s.jumpDie else s.jumpStem, src := s.srcActive, hold := s.mode == .hold || s.mode == .off,
    stale := s.mode == .stale, rev := s.rev, tick := d.rd Reg.BEAM_TICK_NUM,
    bseq := if path = 0 then s.bseqDie else s.bseqStem }

/-- The 36 bytes of a record (R63). -/
def BRec.bytes (r : BRec) : List Nat :=
  leBytes 8 (r.pos * 2 ^ 16 + r.frac) ++ leBytes 8 r.lt ++ leBytes 4 (tw 32 r.vel) ++ leBytes 4 (tw 32 r.acc) ++ leBytes 2 r.fpf ++
    [b2n r.fpfChg * 128 + b2n r.jump * 64 + r.src % 8 * 8 + b2n r.hold * 4 + b2n r.stale * 2 + b2n r.rev, 0] ++
    leBytes 4 r.tick ++ leBytes 4 r.bseq

/-- The record that 36 bytes spell (R63). -/
def recOfBytes (bs : List Nat) : BRec :=
  let f := leAt bs 26 1
  { pos := leAt bs 2 6, frac := leAt bs 0 2, lt := leAt bs 8 8, vel := sx 32 (leAt bs 16 4), acc := sx 32 (leAt bs 20 4),
    fpf := leAt bs 24 2 % 2 ^ 13, fpfChg := tb f 7, jump := tb f 6, src := bits f 3 3, hold := tb f 2, stale := tb f 1,
    rev := tb f 0, tick := leAt bs 28 4, bseq := leAt bs 32 4 }

/-- A receiver takes a record (R65): key 0 to 7 beam-die domains, 8 to 15 image-die domains, 16 on line beams. A record with FPF_CHG, or in another scale
than the last, is taken without absorption and is not counted as a step (DESIGN CHOICE, log 84). -/
def Dev.takeRecord (d : Dev) (key period : Nat) (r : BRec) : Dev :=
  let e := tget d.est key
  let x := r.at d.lt
  let new : Est :=
    if !e.got then ⟨true, r, 0, d.lt, x, e.steps⟩
    else
      let old := e.at period d.lt
      let diff := distL r.fpf old x
      if !r.jump && -(64 * dotUnit) ≤ diff && diff ≤ 64 * dotUnit && e.last.fpf == r.fpf && !r.fpfChg then
        ⟨true, r, diff, d.lt, old, e.steps⟩
      else ⟨true, r, 0, d.lt, x, if r.fpfChg then e.steps else e.steps + 1⟩
  { d with est := tput d.est key new }

/-- BEAM_BROADCAST on the die: the record enters the history and the beam-die receivers (R62, R68). -/
def Dev.broadcastDie (d : Dev) (b : Nat) : Dev :=
  let r := d.record b 0
  let s := d.beam b
  let d := d.setBeam b { s with hist := (r :: s.hist).take 256, jumpDie := false, fpfDie := false, bseqDie := (s.bseqDie + 1) % 2 ^ 32 }
  d.takeRecord b 64 r

/-- BEAM_BROADCAST over the Stem: a type 0 flit (R62, R63). -/
def Dev.broadcastStem (d : Dev) (b : Nat) : Dev :=
  let r := d.record b 1
  let s := d.beam b
  (d.setBeam b { s with jumpStem := false, fpfStem := false, bseqStem := (s.bseqStem + 1) % 2 ^ 32 }).stemSend 0 0
    (b * 2 ^ 39) r.bytes

/-- The tick sample of a beam at a boundary with line time `tn` (R61). -/
def Dev.tickSample (d : Dev) (b tn : Nat) : Dev :=
  let s := d.beam b
  let dt : Int := (tn : Int) + sx 32 (d.rd (Reg.BEAM_TICK_LEAD b)) - d.lt
  let k : Int := 2 ^ 16 * 250000
  let l := if s.mode = .run then
      (s.l + s.v * dt / (1000 * k) + s.a * (dt * dt) / (2000000000 * k)) % modL (d.fpf b) else s.l
  d.wr (Reg.BEAM_TICK_POS b) (posOf (d.fpf b) l * 2 ^ 16 + fracOf l)

/-- The first boundary of a realignment (R60, R653): at least 2 µs after `t0` and congruent to the alignment. -/
def realignAt (t0 align p : Nat) : Nat :=
  let t := t0 + 2000
  t + (align % p + p - t % p) % p

/-- A commit or sequencer entry applying at `t0` wrote BEAM_TICK_PERIOD or BEAM_TICK_ALIGN; `load` if it wrote
BEAM_TICK_LOAD as well (R60). A boundary whose line time has come and that TICK_BOUNDARY has not yet made still falls where it was. -/
def Dev.tickRealign (d : Dev) (t0 : Nat) (load : Bool) : Dev :=
  let at_ := realignAt t0 (d.rd Reg.BEAM_TICK_ALIGN) d.tickNs
  let next := if d.tick.next ≤ d.lt then d.tick.next else at_
  { d with tick := { d.tick with next := next, realign := some (at_, if load then some (d.rd Reg.BEAM_TICK_LOAD) else none) } }

/-- AUTO_RESUME of one beam at a tick boundary, after a whole tick with a valid source (R54). -/
def Dev.tickBeam (d : Dev) (b : Nat) : Dev :=
  let s := d.beam b
  if s.mode = .stale ∧ d.bit (Reg.BEAM_CTRL b) 7 ∧ s.validTick ∧ d.srcValid b ∧ !s.gearStale then d.resume b else d

/-- The tick boundary itself (R45, R54, R59 to R61): AUTO_RESUME, the loss counts, the tick number, the samples. -/
def Dev.tickCore (d : Dev) : Dev :=
  let tn := d.tick.next
  let d := forN 8 (fun b d => d.tickBeam b) d
  let d := (d.encs.map (·.1)).foldl (fun d e => { d with encs := tput d.encs e { tget d.encs e with ill := 0 } }) d
  let d := forN 8 (fun b d => d.setBeam b { d.beam b with validTick := d.srcValid b, lossTicks := (d.beam b).lossTicks + 1 }) d
  let up := (d.rd Reg.BEAM_TICK_NUM + 1) % 2 ^ 32
  let (num, next, left) := match d.tick.realign with
    | some (t, n) => if t = tn then (n.getD up, tn + d.tickNs, none) else (up, t, some (t, n))
    | none => (up, tn + d.tickNs, none)
  let d := d.wr Reg.BEAM_TICK_NUM num
  let d := { d with tick := { d.tick with start := tn, next := next, realign := left } }
  forN 8 (fun b d => d.tickSample b tn) d

/-- Line time moves on by one beam cycle, its rate corrected by at most SLEW_MAX (R40, R57). Corrections are held in 10^-5 ns. -/
def Dev.ltAdvance (d : Dev) : Dev :=
  let slew : Int := (max 1 (d.fld Reg.BEAM_LT_CTRL 8 8) : Nat)
  let lim := 4 * slew
  let c := clampI (-lim) lim d.tick.ltAdj
  let tot := d.tick.ltFrac + 400000 + c
  let n := (tot / 100000).toNat
  { d with lt := (d.lt + n) % 2 ^ 64, tick := { d.tick with ltFrac := tot % 100000, ltAdj := d.tick.ltAdj - c } }

/-- BEAM_LT_CTRL was written, with MODE as it `was` (R57, R71): the first lock after MODE changes to FABRIC may step; in LOCAL there is no master to correct toward, no lock and no
hop. A member that follows its peer keeps its correction (R541). -/
def Dev.ltCtrl (d : Dev) (was : Bool) : Dev :=
  let now := d.bit Reg.BEAM_LT_CTRL 0
  if was = now then d
  else if now then { d with tick := { d.tick with firstLock := false } }
  else if d.follows then d
  else (({ d with tick := { d.tick with ltAdj := 0 } }).setF Reg.BEAM_LT_STATUS 0 1 0).setF Reg.BEAM_LT_STATUS 2 6 0

/-- BEAM_LT_SET (R58). The next tick boundary stays at the line time it had (DESIGN CHOICE, log 85). -/
def Dev.ltSet (d : Dev) (v : Nat) : Dev :=
  let allOff := (List.range 8).all fun b => (d.beam b).mode == .off
  if !d.bit Reg.BEAM_LT_CTRL 0 && allOff then
    ({ d with lt := v % 2 ^ 64, tick := { d.tick with ltFrac := 0 } }).setF Reg.BEAM_LT_STATUS 1 1 0
  else d.setF Reg.BEAM_LT_STATUS 1 1 1

/-- BEAM_STATUS (R70). -/
def Dev.beamStatus (d : Dev) (b : Nat) : Nat :=
  let s := d.beam b
  s.mode.code + b2n s.rev * 8 + s.srcActive * 16 + b2n s.fast * 128 + b2n s.indexed * 256

/-- The capture of BEAM_POS: its value, with BEAM_POS_LT, BEAM_VEL and BEAM_ACC captured (R70). -/
def Dev.posSnapshot (d : Dev) (b : Nat) : Dev :=
  let s := d.beam b
  let d := d.wr (Reg.BEAM_POS b) (posOf (d.fpf b) s.l * 2 ^ 16 + fracOf s.l)
  let d := d.wr (Reg.BEAM_POS_LT b) d.lt
  (d.wr (Reg.BEAM_VEL b) (tw 32 (q16 s.v))).wr (Reg.BEAM_ACC b) (tw 32 (q16 s.a))

end Sys2Proof.Machine
end

