-- ==== Sys2Proof/Machine/Seq.lean ====
section
/-! DEFINITION. The furrow sequencers: list memory and its mirror, the fetch, and which entries a movement of the beam makes due
(R106 to R124). What a due entry writes is in Apply.lean. -/
namespace Sys2Proof.Machine

/-- Address of entry `i` of bank `k` of beam `b`, as an offset in list memory (R107). -/
def seqOff (b k i : Nat) : Nat := b * 0x20000 + k * 0x10000 + 16 * i

/-- One byte of a die's copy of list memory (R107, R118). -/
def Dev.listByte (d : Dev) (die off : Nat) : Nat :=
  if die = 0 then (d.byte (listBase + off)).toNat else ((aget d.seq.mirror off).getD 0).toNat

/-- A word of a die's copy of list memory. -/
def Dev.listWord (d : Dev) (die off : Nat) : Nat :=
  leNum [d.listByte die off, d.listByte die (off + 1), d.listByte die (off + 2), d.listByte die (off + 3)]

/-- Write bytes into the mirror. -/
def Dev.mirrorPut (d : Dev) (off : Nat) : List Nat → Dev
  | [] => d
  | b :: bs =>
    let v := BitVec.ofNat 8 b
    ({ d with seq := { d.seq with mirror := aset d.seq.mirror off (if v = 0 then none else some v) } }).mirrorPut (off + 1) bs

/-- The bytes of list memory as they stand, by offset. -/
def Dev.listCopy (d : Dev) : Tab Byte :=
  (d.mem.filter fun c => listBase ≤ c.1 && c.1 < listBase + 0x100000).map fun c => (c.1 - listBase, c.2)

/-- Change every listed group. -/
def Dev.grpsMap (d : Dev) (f : Grp → Grp) : Dev :=
  { d with commit := { d.commit with grps := d.commit.grps.map fun p => (p.1, f p.2) } }

/-- MIRROR_ACK (R119, R121): the oldest forwarded write is performed at the mirror and acknowledged; the whole copy makes the
mirror current. -/
def Dev.mirrorAck (d : Dev) : Dev :=
  match d.seq.fwd with
  | [] => d
  | (off, bs) :: t =>
    let d := { d with seq := { d.seq with fwd := t } }
    let d := d.grpsMap fun q => { q with seqWait := q.seqWait - 1 }
    if bs.isEmpty then
      let d := ({ d with seq := { d.seq with mirror := d.listCopy, lost := false } }).grpsMap fun q => { q with copyWait := false }
      forN 8 (fun b d => d.setF (Reg.SEQ_STATUS b) 25 1 1) d
    else d.mirrorPut off bs

/-- The flits of the whole copy: 64 bytes of list memory each (R20, R121). -/
def Dev.copyFlits (d : Dev) : List Flit :=
  (List.range 0x4000).map fun i => ⟨0, 6, (listBase / 64 + i) % 2 ^ 42, d.load (listBase + 64 * i) 64⟩

/-- MIRROR_COPY (R121): the beam die sends every bank to the mirror, whose copy is not current. -/
def Dev.mirrorCopy (d : Dev) : Dev :=
  if d.stemUp && !d.dataOff && !d.bit (Reg.SEQ_STATUS 0) 25 && !(d.seq.fwd.any fun p => p.2.isEmpty) then
    let s := d.stemEnd 0
    (({ d with seq := { d.seq with fwd := d.seq.fwd ++ [(0, [])] } }).setStem 0 { s with queue := s.queue ++ d.copyFlits }).stemPump 0
  else d

/-- A type 6 flit with list memory's address arrives at the image die (R118 to R121): a forwarded write is performed as it was sent; of the whole copy
each flit brings its 64 bytes, and the last one completes it. -/
def Dev.mirrorFlit (d : Dev) (a : Nat) (bs : List Nat) : Dev :=
  match d.seq.fwd with
  | (_, []) :: _ =>
    let d := d.mirrorPut (a - listBase) bs
    if a - listBase = 0xFFFC0 then d.mirrorAck else d
  | _ => d.mirrorAck

/-- A data-plane reset clears the mirror (R121). A commit that waits for forwarded writes waits for the copy in their place (R119). -/
def Dev.mirrorLost (d : Dev) : Dev :=
  let d := { d with seq := { d.seq with mirror := [], fwd := [], lost := d.seq.lost || !d.seq.fwd.isEmpty } }
  let d := d.grpsMap fun q => { q with seqWait := 0, copyWait := q.copyWait || q.seqWait != 0 }
  forN 8 (fun b d => (d.setF (Reg.SEQ_STATUS b) 25 1 0).evt (88 + b) 32) d

def Dev.side (d : Dev) (die b : Nat) : SeqSide := tget d.seq.sides (8 * die + b)

def Dev.setSide (d : Dev) (die b : Nat) (s : SeqSide) : Dev :=
  { d with seq := { d.seq with sides := tput d.seq.sides (8 * die + b) s } }

def Dev.seqBank (d : Dev) (b : Nat) : Nat := d.fld (Reg.SEQ_CTRL b) 1 1

/-- Entries of a bank (R108). -/
def Dev.bankLen (d : Dev) (b bank : Nat) : Nat := min 4096 (d.fld (if bank = 0 then Reg.SEQ_LEN0 b else Reg.SEQ_LEN1 b) 0 13)

/-- Entries of the active bank (R108). -/
def Dev.seqLen (d : Dev) (b : Nat) : Nat := d.bankLen b (d.seqBank b)

/-- Word 0 of an entry. -/
def Dev.entWord (d : Dev) (die b bank i : Nat) : Nat := d.listWord die (seqOff b bank i)

/-- In-field position of an entry, in dots. -/
def dotPos (w0 : Nat) : Nat := bits w0 12 12 * 4096 + bits w0 0 12

/-- Length of a field as a linear count. -/
def Dev.fieldLen (d : Dev) (b : Nat) : Int := (d.fpf b * 4096 : Nat) * 2 ^ 32

/-- Furrows per field as a side sees them: the image die by its last broadcast record (R39, R63, R116). -/
def Dev.sideFpf (d : Dev) (die b : Nat) : Nat :=
  let e := tget d.est (8 + b)
  if die = 1 ∧ e.got then e.last.fpf else d.fpf b

/-- Length of a field for a side, as a linear count. -/
def Dev.sideField (d : Dev) (die b : Nat) : Int := (d.sideFpf die b * 4096 : Nat) * 2 ^ 32

/-- Linear count of a position of the field that begins at `lap`. -/
def Dev.entAt (d : Dev) (die b : Nat) (lap : Int) (pos : Nat) : Int := (lap + (pos : Int) * 2 ^ 32) % modL (d.sideFpf die b)

/-- The reference of the order check after an entry (R109): disabled entries, those past the field (R116) and those out of order are none. -/
def orderNext (fpf : Nat) (r : Option Nat) (w0 : Nat) : Option Nat :=
  if !tb w0 31 || decide (fpf ≤ bits w0 12 12) || decide (dotPos w0 < r.getD 0) then r else some (dotPos w0)

/-- The reference of the order check for entry `i` of a bank: the last enabled entry before it that was not skipped (R109). The words before it count as they stand
at its fetch (DESIGN CHOICE, log 77). -/
def Dev.orderRef (d : Dev) (die b bank i : Nat) : Option Nat :=
  (List.range i).foldl (fun r j => orderNext (d.sideFpf die b) r (d.entWord die b bank j)) none

/-- Index and field of the first entry strictly ahead of a linear count (R115 to R117). -/
def Dev.firstAhead (d : Dev) (die b : Nat) (l : Int) : Nat × Int :=
  let f := d.sideField die b
  let x := l % f
  match (List.range (d.seqLen b)).find? fun i => x < (dotPos (d.entWord die b (d.seqBank b) i) : Int) * 2 ^ 32 with
  | some i => (i, l - x)
  | none => (0, (l - x + f) % modL (d.sideFpf die b))

/-- Reposition one side: the buffer empties and fetching restarts at the first entry ahead (R115 to R117, R122). Entries already crossed and not yet fetched
stay: late entries are never dropped (R122). -/
def Dev.seqReposition (d : Dev) (die b : Nat) (l : Int) : Dev :=
  let (i, lap) := d.firstAhead die b l
  let s := d.side die b
  let late := s.wait.filter fun w => w.since.isSome
  d.setSide die b { s with idx := i, lap := lap, buf := [], wait := late, prev := l, scale := d.sideFpf die b }

/-- Count entries skipped, with their events (R109, R110, R116). -/
def Dev.seqSkip (d : Dev) (b m : Nat) : Dev := (d.inc (Reg.SEQ_SKIP b)).evt (88 + b) m

/-- Count a late entry (R122). -/
def Dev.seqLate (d : Dev) (b n : Nat) : Dev :=
  ((d.inc (Reg.SEQ_LATE b)).wr (Reg.SEQ_LATE_MAX b) (max n (d.rd (Reg.SEQ_LATE_MAX b)))).evt (88 + b) 1

/-- A side executes the entry with word W1 `w1`, and does not pass over it (R118). An entry with DIE 2 or 3, which names no die, belongs to the
beam-die side, which skips and counts it (DESIGN CHOICE, log 13). -/
def seqOwn (die w1 : Nat) : Bool := bits w1 24 2 == die || (die == 0 && 2 ≤ bits w1 24 2)

/-- Put an entry into the buffer, behind those at or before its position. -/
def bufInsert (fpf : Nat) (l : List SeqEnt) (e : SeqEnt) : List SeqEnt :=
  let before := l.takeWhile fun x => 0 ≤ distL fpf x.p e.p
  before ++ [e] ++ l.drop before.length

/-- The next entry to fetch, with the side once it is taken: one that waits, or the one at the fetch pointer. The pointer runs into the next field at most,
and not past an entry that is still buffered (log 13). -/
def Dev.seqNext (d : Dev) (die b : Nat) (s : SeqSide) : Option (SeqWait × SeqSide) :=
  match s.wait with
  | w :: t => some (w, { s with wait := t })
  | [] =>
    let len := d.seqLen b
    let fpf := d.sideFpf die b
    let (i, lap) := if s.idx < len then (s.idx, s.lap) else (0, (s.lap + d.sideField die b) % modL fpf)
    if len = 0 ∨ d.sideField die b < distL fpf s.prev lap ∨ s.buf.any fun e => e.idx == i then none
    else some (⟨d.seqBank b, i, lap, none⟩, { s with idx := i + 1, lap := lap })

/-- The entry `w` is fetched by a side `s` (R108, R109, R116, R122). The side that executes an entry counts it (R118, log 13). An entry that lies behind
without having been crossed is passed over. -/
def Dev.seqTake (d : Dev) (die b : Nat) (w : SeqWait) (s : SeqSide) : Dev :=
  let fpf := d.sideFpf die b
  let o := seqOff b w.bank w.idx
  let w0 := d.listWord die o
  let e : SeqEnt := ⟨w.bank, w.idx, d.entAt die b w.lap (dotPos w0), w0, d.listWord die (o + 4), d.listWord die (o + 8), d.listWord die (o + 12)⟩
  let en := tb w0 31
  let own := en && seqOwn die e.w1
  let d' := d.setSide die b s
  if d.bankLen b w.bank ≤ w.idx then d'
  else if fpf ≤ bits w0 12 12 then (if own then d'.seqSkip b 16 else d')
  else if en && decide (dotPos w0 < (d.orderRef die b w.bank w.idx).getD 0) then (if own then d'.seqSkip b 2 else d')
  else match w.since with
    | some n => if own then (d.setSide die b { s with due := s.due ++ [e] }).seqLate b n else d'
    | none => if 0 ≤ distL fpf e.p s.prev then d' else d.setSide die b { s with buf := bufInsert fpf s.buf e }

/-- Fetch at most one entry into the buffer of a side, unless it is full (R122). -/
def Dev.seqFetch (d : Dev) (die b : Nat) : Dev :=
  let s := d.side die b
  let s := { s with wait := s.wait.map fun w => { w with since := w.since.map (· + 1) } }
  let next := if 64 ≤ s.buf.length then none else d.seqNext die b s
  match next with
  | none => d.setSide die b s
  | some (w, s) => d.seqTake die b w s

/-- A position lies in a forward movement `mv` from `prev`. -/
def crossed (fpf : Nat) (prev mv p : Int) : Bool := decide (0 < distL fpf prev p) && decide (distL fpf prev p ≤ mv)

/-- The entries from the fetch pointer of `s` on that a forward movement `mv` crosses unfetched, up to the last one crossed, and the pointer past them. One
round of the list at most. -/
def Dev.seqMissed (d : Dev) (die b : Nat) (s : SeqSide) (mv : Int) : List SeqWait × Nat × Int :=
  let fpf := d.sideFpf die b
  let len := d.seqLen b
  let next := (s.lap + d.sideField die b) % modL fpf
  let at_ := fun (i : Nat) (lap : Int) =>
    let x := crossed fpf s.prev mv (d.entAt die b lap (dotPos (d.entWord die b (d.seqBank b) i)))
    (⟨d.seqBank b, i, lap, if x then some 0 else none⟩ : SeqWait)
  let l := ((List.range len).drop s.idx).map (fun i => at_ i s.lap) ++ ((List.range len).take s.idx).map fun i => at_ i next
  let l := (l.reverse.dropWhile fun w => w.since.isNone).reverse
  match l.getLast? with
  | none => ([], s.idx, s.lap)
  | some w => (l, w.idx + 1, w.lap)

/-- A forward movement of a side from its last position to `l`: the entries it crosses become due in the next beam cycle, or late if they are not
yet fetched (R113, R122). A step of a field or more crosses every entry once, in list order from its start (R114): those buffered are on time, the others
are fetched one by one, with the order check of R109 (DESIGN CHOICE, log 78); then fetching goes on at the first entry ahead. -/
def Dev.seqForward (d : Dev) (die b : Nat) (l mv : Int) : Dev :=
  let s := d.side die b
  let fpf := d.sideFpf die b
  let own := fun (e : SeqEnt) => tb e.w0 31 && seqOwn die e.w1
  let hit := fun (e : SeqEnt) => crossed fpf s.prev mv e.p
  let pass := fun (w : SeqWait) =>
    let p := d.entAt die b w.lap (dotPos (d.entWord die b w.bank w.idx))
    if w.since.isNone && crossed fpf s.prev mv p then { w with since := some 0 } else w
  let full := decide (d.sideField die b ≤ mv)
  let (missed, i, lap) := d.seqMissed die b s mv
  let again := fun (i : Nat) => s.buf.any (fun e => hit e && e.idx == i) || s.wait.any fun w => w.since.isNone && w.idx == i
  let missed := if full then missed.filter fun w => !again w.idx else missed
  let (i, lap) := if full then d.firstAhead die b l else (i, lap)
  let s := { s with due := s.due ++ (s.buf.filter fun e => hit e && own e), buf := s.buf.filter fun e => !hit e,
                    wait := s.wait.map pass ++ missed, idx := i, lap := lap, prev := l }
  if full then (d.setSide die b s).evt (88 + b) 8 else d.setSide die b s

/-- A backward movement: nothing executes, and the entries crossed backward lie ahead again: they are fetched once more, before those that wait ahead of
them (R113, log 13). One of a field or more repositions. -/
def Dev.seqBackward (d : Dev) (die b : Nat) (l mv : Int) : Dev :=
  let s := d.side die b
  let fpf := d.sideFpf die b
  let f := d.sideField die b
  if f ≤ -mv then d.seqReposition die b l
  else
    let x := l % f
    let at_ := fun (i : Nat) =>
      let pos := dotPos (d.entWord die b (d.seqBank b) i)
      let lap := if x < (pos : Int) * 2 ^ 32 then l - x else (l - x + f) % modL fpf
      ((⟨d.seqBank b, i, lap, none⟩ : SeqWait), crossed fpf l (-mv) (d.entAt die b lap pos))
    let back := (((List.range (d.seqLen b)).map at_).filter (·.2)).map (·.1)
    let back := (back.filter fun w => w.lap == l - x) ++ back.filter fun w => w.lap != l - x
    d.setSide die b { s with wait := (s.wait.filter fun w => w.since.isSome) ++ back ++ s.wait.filter fun w => w.since.isNone, prev := l }

/-- One movement of a side, of which `jump` was a jump or a step (R113 to R115). -/
def Dev.seqMove (d : Dev) (die b : Nat) (jump : Bool) (l : Int) : Dev :=
  let mv := distL (d.sideFpf die b) (d.side die b).prev l
  if mv = 0 then d
  else if jump && !d.bit (Reg.SEQ_CTRL b) 2 then d.seqReposition die b l
  else if 0 < mv then d.seqForward die b l mv
  else d.seqBackward die b l mv

/-- One beam cycle of the image-die side: it moves with its estimate (R118). It stands while its mirror is not current, and starts anew with it (R121); it
follows a changed scale by repositioning (R116); and it stops while the beam's last broadcast is older than 2 µs, the span then being handled as a jump
(R27, R115, R120). -/
def Dev.seqImage (d : Dev) (b : Nat) : Dev :=
  let est := tget d.est (8 + b)
  let l := d.estAt 1 b d.lt
  let s := d.side 1 b
  if !d.bit (Reg.SEQ_STATUS b) 25 || d.dataOff then d.setSide 1 b { s with buf := [], wait := [], due := [], prev := l, down := true }
  else if s.down || s.scale != d.sideFpf 1 b then
    (d.setSide 1 b { s with down := false, steps := est.steps, still := false }).seqReposition 1 b l
  else if est.got && decide (est.last.lt + 2000 < d.lt) then (d.setSide 1 b { s with still := true }).seqFetch 1 b
  else
    let jump := s.steps != est.steps || s.still
    let d := (d.setSide 1 b { s with steps := est.steps, still := false }).seqFetch 1 b
    if est.got && (est.last.hold || est.last.stale) then d else d.seqMove 1 b jump l

/-- One beam cycle of one side: fetch, then the crossings of the movement (R122). -/
def Dev.seqCycle (d : Dev) (die b : Nat) : Dev :=
  let bm := d.beam b
  if !d.bit (Reg.SEQ_CTRL b) 0 then d
  else if die = 1 then d.seqImage b
  else
    let d := d.seqFetch 0 b
    if bm.mode ≠ .run then d
    else
      let d := if bm.jumped = 0 then d else d.seqMove 0 b true ((bm.prev - (bm.stepped - bm.jumped)) % modL (d.fpf b))
      d.seqMove 0 b false bm.l

/-- Whether the target of an entry is valid (R106, R110): its address. -/
def seqTarget (w1 : Nat) : Option Nat :=
  let die := bits w1 24 2
  let base := if die = 0 then 0x30000000000 else 0x30100000000
  let a := base + bits w1 2 22 * 4
  let blk := bits a 16 8
  let barred := if die = 0 then [0, 2, 0xB, 0xC, 0xD, 0xF].contains blk else blk == 0xF
  if 2 ≤ die ∨ bits w1 0 2 ≠ 0 ∨ barred then none
  else match regFind a with
    | some (r, _) => if r.cmt = 0 then none else some a
    | none => none

/-- The field of an entry's crossing, plus one. -/
def Dev.entField (d : Dev) (die b : Nat) (e : SeqEnt) : Nat := (e.p / d.sideField die b).toNat % 2 ^ 24 + 1

/-- ONCE and DIE allow the entry to execute on a side (R113, R118). -/
def Dev.seqMay (d : Dev) (die b : Nat) (e : SeqEnt) : Bool :=
  seqOwn die e.w1 && !(d.bit (Reg.SEQ_CTRL b) 3 && tget (d.side die b).once (4096 * e.bank + e.idx) == d.entField die b e)

/-- Record the execution of an entry (R113, R125). -/
def Dev.seqRan (d : Dev) (die b : Nat) (e : SeqEnt) : Dev :=
  let s := d.side die b
  let d := (d.setSide die b { s with once := tput s.once (4096 * e.bank + e.idx) (d.entField die b e) }).inc (Reg.SEQ_EXEC b)
  d.setF (Reg.SEQ_LAST b) (16 * die) 12 e.idx

/-- Index of the next entry ahead of the beam on the beam-die side: one to be fetched again, or buffered, or at the fetch pointer (R125). -/
def Dev.seqPtr (d : Dev) (b : Nat) : Nat :=
  let s := d.side 0 b
  let far := fun (p : Int) => distL (d.fpf b) s.prev p
  match s.wait.find? (fun w => w.since.isNone), s.buf.head? with
  | some w, some e => if far (d.entAt 0 b w.lap (dotPos (d.entWord 0 b w.bank w.idx))) ≤ far e.p then w.idx else e.idx
  | some w, none => w.idx
  | none, some e => e.idx
  | none, none => s.idx

/-- SEQ_STATUS[b] (R125): the pointer, the entries fetched and not yet crossed and executed, and the bank of the beam-die side, and the mirror state. -/
def Dev.seqStatus (d : Dev) (b : Nat) : Nat :=
  let s := d.side 0 b
  d.seqPtr b % 2 ^ 13 + min 64 (s.buf.length + s.due.length) * 2 ^ 16 + d.seqBank b * 2 ^ 24 + b2n (d.bit (Reg.SEQ_STATUS b) 25) * 2 ^ 25

end Sys2Proof.Machine
end

