-- ==== Sys2Proof/Machine/Cam.lean ====
section
/-! DEFINITION. The cam engine: samples, splines, layers, corrections, switch channels, overrides and blends (R126 to R163). -/
namespace Sys2Proof.Machine

/-- Lists of enabled channels from `lo` up to, not including, `hi`. -/
def Dev.chansOn (d : Dev) (lo hi : Nat) : List Nat :=
  d.regs.filterMap fun p =>
    let o := p.1 - Reg.CAM_CHAN_CFG 0
    if Reg.CAM_CHAN_CFG lo ≤ p.1 ∧ p.1 < Reg.CAM_CHAN_CFG hi ∧ o % 0x20 = 0 ∧ tb p.2.toNat 0 then some (o / 0x20) else none

/-- Beam of a channel (R159). -/
def Dev.chanBeam (d : Dev) (c : Nat) : Nat := d.fld (Reg.CAM_CHAN_CFG c) 1 3

/-- First byte of map bank `k` (R130). -/
def mapBase (k : Nat) : Nat := 0x20003400000 + k * 0x80000

/-- First byte of tile half `h` (R126). -/
def tileBase (h : Nat) : Nat := 0x20003000000 + h * 0x200000

/-- Columns of a row (R132). -/
def colsOf (fpf : Nat) : Nat := (fpf + 63) / 64

/-- Row descriptor word of layer `l` of channel `c` in a bank (R131). -/
def Dev.rowDesc (d : Dev) (bank c l : Nat) : Nat := d.num (mapBase bank + 32 * c + 4 * l) 4

/-- The row runs past the entry area (R132). -/
def Dev.rowOut (d : Dev) (fpf bank c l : Nat) : Bool :=
  let r := d.rowDesc bank c l
  tb r 31 && decide (122880 < bits r 0 17 + colsOf fpf)

/-- The row exists for the engine (R131, R132). -/
def Dev.rowOn (d : Dev) (fpf bank c l : Nat) : Bool := tb (d.rowDesc bank c l) 31 && !d.rowOut fpf bank c l

/-- The map entry and tile word of a layer at furrow `k` of a field (R133, R135): none for a zero sample. -/
def Dev.tileWord (d : Dev) (fpf bank half c l k : Nat) : Option (Nat × Nat) :=
  if !d.rowOn fpf bank c l then none
  else
    let i := k / 64
    let ent := d.num (mapBase bank + 0x8000 + 4 * (bits (d.rowDesc bank c l) 0 17 + i)) 4
    if tb ent 15 then none
    else
      let span := if i + 1 = colsOf fpf then fpf - 64 * i else 64
      let j := if tb ent 13 then span - 1 - k % 64 else k % 64
      some (ent, d.num (tileBase half + 256 * bits ent 0 13 + 4 * j) 4)

/-- Sample of a motion layer at furrow index `n`, in 2^-16 count (R127, R135). -/
def Dev.motionSample (d : Dev) (fpf bank half c l : Nat) (n : Int) : Int :=
  match d.tileWord fpf bank half c l (n % fpf).toNat with
  | none => 0
  | some (ent, w) =>
    let s := sx 32 w
    let s := if tb ent 14 then min (-s) (2 ^ 31 - 1) else s
    let pal := bits ent 16 8
    s * sx 32 (d.rd (Reg.CAM_PAL_GAIN pal)) / 2 ^ 16 + sx 32 (d.rd (Reg.CAM_PAL_OFS pal)) * 2 ^ 16

/-- A bed as an evaluation reads it: bank, half, and for an old bed the scrolls and ADV latched (R155). -/
abbrev BedView := Nat × Nat × Option (Tab Nat)

def scrollReg (c l : Nat) : Nat := Reg.CAM_SCROLL_BASE c + 4 * l

/-- Scroll of a scroll word, in dots (R137, R160). -/
def scrollDots (w : Nat) : Int := sx 12 (bits w 12 12) * 4096 + bits w 0 12

/-- Encoding of a scroll (R146). -/
def scrollWord (s : Int) : Nat := tw 12 (s / 4096) * 4096 + (s % 4096).toNat

/-- Effective CORR scroll of a channel at a linear count (R148). -/
def Dev.corrScroll (d : Dev) (c : Nat) (l : Int) : Int :=
  let sn := scrollDots (d.rd (scrollReg c 2))
  match aget d.cam.ramp c with
  | none => sn
  | some r =>
    let fpf := d.fpf (d.chanBeam c)
    let dd : Int := (fpf * 4096 : Nat)
    let u := clampI 0 dd (distL fpf r.at0 l / 2 ^ 32)
    r.so + (r.sn - r.so) * u / dd

/-- Scroll of a layer in a bed (R137, R148, R155). -/
def Dev.layerScroll (d : Dev) (v : BedView) (c l : Nat) (x : Int) : Int :=
  match v.2.2 with
  | some t => scrollDots (tget t (8 * c + l))
  | none => if l = 2 then d.corrScroll c x else scrollDots (d.rd (scrollReg c l))

/-- ADV of a channel in a bed (R138, R155). -/
def Dev.bedAdv (d : Dev) (v : BedView) (c : Nat) : Int :=
  sx 32 (match v.2.2 with | some t => tget t (8 * c + 4) | none => d.rd (Reg.CAM_CHAN_ADV c))

/-- Extended profile of a motion layer (R138); layer 4 is the OVR row (R153). -/
def Dev.profile (d : Dev) (v : BedView) (fpf c l : Nat) (n : Int) : Int :=
  d.motionSample fpf v.1 v.2.1 c l n + (if l = 0 ∨ l = 4 then d.bedAdv v c * 2 ^ 16 * (n / fpf) else 0)

/-- Value, and the numerators of D1 over 2·4096²·2^16 and of D2 over 4096·2^16, of one motion layer at linear count `x` in dots
(R140, R141). -/
def Dev.spline (d : Dev) (v : BedView) (fpf c l : Nat) (x : Int) : Int × Int × Int :=
  let n := x / 4096
  let t := x % 4096
  let p0 := d.profile v fpf c l (n - 1)
  let p1 := d.profile v fpf c l n
  let p2 := d.profile v fpf c l (n + 1)
  let p3 := d.profile v fpf c l (n + 2)
  let q2 := 2 * p0 - 5 * p1 + 4 * p2 - p3
  let q3 := -p0 + 3 * p1 - 3 * p2 + p3
  let a := 2 * 4096 ^ 3 * p1
  let b := 4096 ^ 2 * t * (p2 - p0)
  let y := (a + b + 4096 * t ^ 2 * q2 + t ^ 3 * q3 + 4096 ^ 3) / (2 * 4096 ^ 3)
  (y, (p2 - p0) * 4096 ^ 2 + 2 * t * 4096 * q2 + 3 * t ^ 2 * q3, q2 * 4096 + 3 * t * q3)

/-- M in dots. -/
def modDots (fpf : Nat) : Int := (2 ^ 24 * fpf * 4096 : Nat)

/-- vff and tff of summed derivatives (R141); `v` and `a` are in the units of `Beam.v`. -/
def feedForward (n1 n2 v a : Int) (tffGain : Nat) : Int × Int :=
  let vu : Nat := 2 ^ 48 * 250000
  let d1 : Nat := 2 * 4096 ^ 2 * 2 ^ 16
  let d2 : Nat := 4096 * 2 ^ 16
  let vff := roundDiv (n1 * v * 256) (d1 * vu * 4096)
  let num := (n2 * v * v * 1000 * d1 * vu * 4096 + n1 * a * (d2 * vu * vu * 4096 ^ 2)) * tffGain
  let tff := roundDiv num (d2 * vu * vu * 4096 ^ 2 * (d1 * vu * 4096) * 2 ^ 16)
  (clampI (-(2 ^ 31)) (2 ^ 31 - 1) vff, clampI (-(2 ^ 15)) (2 ^ 15 - 1) tff)

/-- Output of a motion channel from one bed at linear count `x` in dots (R142, R153): setpoint modulo 2^48, vff, tff. -/
def Dev.bedMotion (d : Dev) (v : BedView) (c : Nat) (ovr : Bool) (x vel acc : Int) : Int × Int × Int :=
  let fpf := d.fpf (d.chanBeam c)
  let layers := if ovr && d.rowOn fpf v.1 c 4 then [4] else (List.range 4).filter fun l => d.rowOn fpf v.1 c l
  let (y, n1, n2) := layers.foldl (fun (a : Int × Int × Int) l =>
    let s := if l = 4 then 0 else d.layerScroll v c l (x * 2 ^ 32)
    let (y, n1, n2) := d.spline v fpf c l ((x - s) % modDots fpf)
    (a.1 + y, a.2.1 + n1, a.2.2 + n2)) (0, 0, 0)
  (y % 2 ^ 48, feedForward n1 n2 vel acc (d.rd (Reg.CAM_CHAN_TFF c)))

/-- The bed that CAM_BED[b] selects. -/
def Dev.newBed (d : Dev) (b : Nat) : BedView := (d.fld (Reg.CAM_BED b) 0 1, d.fld (Reg.CAM_BED b) 1 1, none)

def OldBed.view (o : OldBed) : BedView := (o.bank, o.half, some o.latch)

/-- Distance travelled in a blend, in dots, unclamped (R155, R156). -/
def Dev.blendDist (d : Dev) (b : Nat) (o : OldBed) (l : Int) : Int := distL (d.fpf b) o.ls l / 2 ^ 32

/-- D_b of R155. -/
def Dev.blendLen (d : Dev) (b : Nat) (o : OldBed) : Int := (o.n * d.fpf b * 4096 : Nat)

/-- Blend weight of beam `b` at a linear count (R155): 65,536 with no blend. -/
def Dev.blendW (d : Dev) (b : Nat) (l : Int) : Int :=
  match aget d.cam.old b with
  | none => 65536
  | some o =>
    let db := d.blendLen b o
    let w := clampI 0 db (d.blendDist b o l) * 65536 / (max 1 db)
    if o.shape = 1 then (3 * w ^ 2 * 65536 - 2 * w ^ 3) / 65536 ^ 2 else w

/-- Override window of a channel, in dots: first dot in the field and length (R153). -/
def Dev.ovrWindow (d : Dev) (c : Nat) : Int × Int :=
  let r := d.rd (Reg.CAM_CHAN_OVR c)
  (((bits r 0 12 * 4096 : Nat) : Int) * 2 ^ 32, (((bits r 12 12 + 1) * 4096 : Nat) : Int) * 2 ^ 32)

/-- Where the occurrence of a channel's window that belongs to a field starts: none when START lies at or above FPF (R153, R159). An armed occurrence
is known by its field, so that its start and end follow BEAM_FPF and CAM_CHAN_OVR (DESIGN CHOICE for the latter, log 91). -/
def Dev.ovrStart (d : Dev) (c field : Nat) : Option Int :=
  let fpf := d.fpf (d.chanBeam c)
  if fpf ≤ d.fld (Reg.CAM_CHAN_OVR c) 0 12 then none else some ((field * fpf * 4096 : Nat) * 2 ^ 32 + (d.ovrWindow c).1)

/-- The beam stands inside an armed occurrence at a linear count (R153). -/
def Dev.ovrInside (d : Dev) (c : Nat) (l : Int) : Bool :=
  let fpf := d.fpf (d.chanBeam c)
  (tget d.cam.armed c).any fun f => match d.ovrStart c f with
    | none => false
    | some s => let u := distL fpf s l; decide (0 ≤ u) && decide (u < (d.ovrWindow c).2)

/-- The beds that channel `c` reads now. -/
def Dev.bedsOf (d : Dev) (c : Nat) : List BedView :=
  let b := d.chanBeam c
  d.newBed b :: (match aget d.cam.old b with | some o => [o.view] | none => [])

/-- round_half_up of n / 65,536. -/
def halfUp (n : Int) : Int := (2 * n + 65536) / 131072

/-- Signed reading of a difference modulo 2^48. -/
def sgn48 (x : Int) : Int := (x + 2 ^ 47) % 2 ^ 48 - 2 ^ 47

/-- Output of motion channel `c` at the tick sample of its beam (R142, R150, R153, R155). -/
def Dev.motionOut (d : Dev) (c : Nat) : ChanOut :=
  let b := d.chanBeam c
  let bm := d.beam b
  let fpf := d.fpf b
  let x : Int := linDots fpf (d.rd (Reg.BEAM_TICK_POS b) / 2 ^ 16)
  let run := bm.mode == .run
  let ovr := d.ovrInside c (x * 2 ^ 32) && (d.bedsOf c).any fun v => d.rowOn fpf v.1 c 4
  let vel := if run then bm.v else 0
  let acc := if run then bm.a else 0
  let new := d.bedMotion (d.newBed b) c ovr x vel acc
  let (y, vff, tff) := match aget d.cam.old b with
    | none => new
    | some o =>
      let old := d.bedMotion o.view c ovr x vel acc
      let w := d.blendW b (x * 2 ^ 32)
      ((old.1 + halfUp (sgn48 (new.1 - old.1) * w)) % 2 ^ 48, old.2.1 + halfUp ((new.2.1 - old.2.1) * w),
        old.2.2 + halfUp ((new.2.2 - old.2.2) * w))
  ⟨y.toNat % 2 ^ 48, if run then vff else 0, if run then tff else 0, !run, ovr⟩

/-- Layer evaluations of channel `c` in one bed (R149). -/
def Dev.evalCount (d : Dev) (v : BedView) (c : Nat) (ovr : Bool) : Nat :=
  let fpf := d.fpf (d.chanBeam c)
  if ovr && d.rowOn fpf v.1 c 4 then 1 else ((List.range 4).filter fun l => d.rowOn fpf v.1 c l).length

/-- The rows of a channel that an evaluation reads in a bed: inside an occurrence the OVR row, and the four layers where they give the output (R131,
R153). -/
def Dev.rowsRead (d : Dev) (v : BedView) (c : Nat) (ovr : Bool) : List Nat :=
  let fpf := d.fpf (d.chanBeam c)
  (if ovr then [4] else []) ++ (if ovr && d.rowOn fpf v.1 c 4 then [] else [0, 1, 2, 3])

/-- A row that channel `c` reads runs past the entry area (R132). -/
def Dev.chanOut (d : Dev) (c : Nat) (ovr : Bool) : Bool :=
  let fpf := d.fpf (d.chanBeam c)
  (d.bedsOf c).any fun v => (d.rowsRead v c ovr).any fun l => d.rowOut fpf v.1 c l

/-- A motion channel's beam stands inside an armed occurrence at its tick sample. -/
def Dev.tickOvr (d : Dev) (c : Nat) : Bool :=
  let b := d.chanBeam c
  d.ovrInside c ((linDots (d.fpf b) (d.rd (Reg.BEAM_TICK_POS b) / 2 ^ 16) : Int) * 2 ^ 32)

/-- Port and axis of a motion channel's route, as one number (R150). -/
def Dev.axisOf (d : Dev) (c : Nat) : Option Nat :=
  let r := d.rd (Reg.CAM_CHAN_ROUTE c)
  if tb r 31 then some (8 * bits r 24 6 + bits r 16 3) else none

/-- The motion evaluation of a tick (R149, R150): every enabled motion channel, the time it took, duplicate routes. -/
def Dev.camTick (d : Dev) : Dev :=
  let cs := d.chansOn 0 512
  let e := (cs.map fun c => ((d.bedsOf c).map fun v => d.evalCount v c (d.tickOvr c)).sum).sum
  let ns := 4 * (16 + (e + 7) / 8)
  let outs := cs.map fun c => (c, d.motionOut c)
  let axes := cs.filterMap fun c => d.axisOf c
  let d := if cs.isEmpty then d else d.wr Reg.CAM_EVAL_MAX (max ns (d.rd Reg.CAM_EVAL_MAX))
  let d := if cs.any fun c => d.chanOut c (d.tickOvr c) then d.evt 97 8 else d
  let d := if axes.eraseDups.length ≠ axes.length then d.evt 97 32 else d
  outs.foldl (fun d p => { d with cam := { d.cam with out := tput d.cam.out p.1 p.2 } }) d

/-- The edges that act in a switch word, and whether one was invalid (R128). -/
def swEdges (w : Nat) : List Nat × Bool :=
  let n := min 2 (bits w 29 2)
  let e1 := bits w 12 12
  let e2 := bits w 0 12
  let two := n = 2 ∧ e1 < e2
  let l := (if 1 ≤ n then [e1] else []) ++ (if two then [e2] else [])
  (l.filter (· ≠ 0), decide ((1 ≤ n ∧ e1 = 0) ∨ (n = 2 ∧ (e2 = 0 ∨ e2 ≤ e1))))

/-- Start level and edges of a switch word under MIRROR and FLIP (R136). -/
def switchWord (ent w : Nat) : Bool × List Nat :=
  let es := (swEdges w).1
  let start := tb w 31
  let (start, es) := if tb ent 13 then (start != (es.length % 2 == 1), (es.map fun e => 4096 - e).reverse) else (start, es)
  (start != tb ent 14, es)

/-- Level of one switch layer at a linear count in dots (R128, R136, R137). -/
def Dev.layerLevel (d : Dev) (v : BedView) (fpf c l : Nat) (x : Int) : Bool :=
  match d.tileWord fpf v.1 v.2.1 c l (x / 4096 % fpf).toNat with
  | none => false
  | some (ent, w) =>
    let (start, es) := switchWord ent w
    start != ((es.filter fun (e : Nat) => decide ((e : Int) ≤ x % 4096)).length % 2 == 1)

/-- Level of a switch channel from one bed (R143, R153). -/
def Dev.bedLevel (d : Dev) (v : BedView) (c : Nat) (ovr : Bool) (x : Int) : Bool :=
  let fpf := d.fpf (d.chanBeam c)
  if ovr && d.rowOn fpf v.1 c 4 then d.layerLevel v fpf c 4 x
  else
    let ls := ((List.range 4).filter fun l => d.rowOn fpf v.1 c l).map fun l =>
      d.layerLevel v fpf c l ((x - d.layerScroll v c l (x * 2 ^ 32)) % modDots fpf)
    if ls.isEmpty then false
    else match d.fld (Reg.CAM_CHAN_CFG c) 4 2 with
      | 1 => ls.all id
      | 2 => ls.foldl (· != ·) false
      | _ => ls.any id

/-- The changeover position of a blend for switch channels, in dots of travel (R156). -/
def Dev.switchAt (d : Dev) (b : Nat) (o : OldBed) : Int :=
  match o.swAt with | 0 => 0 | 1 => d.blendLen b o / 2 | _ => d.blendLen b o

/-- Switch channels of beam `b` read the old bed at a linear count (R156). -/
def Dev.onOld (d : Dev) (b : Nat) (l : Int) : Bool :=
  match aget d.cam.old b with
  | none => false
  | some o => decide (d.blendDist b o l < d.switchAt b o)

/-- The level of a result at a dot of its furrow. -/
def SwSeg.at (g : SwSeg) (dot : Nat) : Bool := g.start != ((g.edges.filter (· ≤ dot)).length % 2 == 1)

/-- Put a number into a rising list without repeats. -/
def putNat (l : List Nat) (n : Nat) : List Nat :=
  if l.contains n then l else l.filter (· < n) ++ [n] ++ l.filter (n < ·)

/-- Dots of a furrow that starts at dot `x0` at which a layer read `s` dots later may change its level (R137). -/
def Dev.layerDots (d : Dev) (v : BedView) (fpf c l : Nat) (x0 s : Int) : List Nat :=
  let y := (x0 - s) % modDots fpf
  let m := y / 4096
  let o := y % 4096
  let edges := fun (k : Int) => match d.tileWord fpf v.1 v.2.1 c l (k % fpf).toNat with
    | none => []
    | some (ent, w) => (switchWord ent w).2.map fun (e : Nat) => (e : Int)
  (([4096 - o] ++ (edges m).map (· - o) ++ (edges (m + 1)).map (· + 4096 - o)).filter fun x => decide (0 < x) && decide (x < 4096)).map Int.toNat

/-- The words that a layer reads for that furrow hold an invalid edge (R128). -/
def Dev.layerBad (d : Dev) (v : BedView) (fpf c l : Nat) (x0 s : Int) : Bool :=
  let y := (x0 - s) % modDots fpf
  let m := y / 4096
  (if y % 4096 = 0 then [m] else [m, m + 1]).any fun k => match d.tileWord fpf v.1 v.2.1 c l (k % fpf).toNat with
    | none => false
    | some (_, w) => (swEdges w).2

/-- The layers that give a switch channel's output in a bed, each with its scroll at a linear count. -/
def Dev.swLayers (d : Dev) (v : BedView) (c : Nat) (ovr : Bool) (l : Int) : List (Nat × Int) :=
  let fpf := d.fpf (d.chanBeam c)
  if ovr && d.rowOn fpf v.1 c 4 then [(4, 0)]
  else ((List.range 4).filter fun k => d.rowOn fpf v.1 c k).map fun k => (k, d.layerScroll v c k l)

/-- The result of a switch channel for furrow `f` in one bed (R143, R151). Under a CORR ramp the scroll moves within the furrow, so every dot is
looked at (R148). -/
def Dev.swSeg (d : Dev) (v : BedView) (c f : Nat) : SwSeg :=
  let fpf := d.fpf (d.chanBeam c)
  let x0 : Int := (f * 4096 : Nat)
  let ovr := d.ovrInside c (x0 * 2 ^ 32)
  let ramps := (aget d.cam.ramp c).isSome && v.2.2.isNone
  let dots := if ramps then (List.range 4096).drop 1
    else ((d.swLayers v c ovr (x0 * 2 ^ 32)).map fun p => d.layerDots v fpf c p.1 x0 p.2).flatten.foldl putNat []
  let at_ := fun (t : Nat) => d.bedLevel v c ovr (x0 + t)
  let start := at_ 0
  ⟨start, (dots.foldl (fun (x : Bool × List Nat) t => let y := at_ t; if y = x.1 then x else (y, x.2 ++ [t])) (start, [])).2⟩

/-- Enabled switch channels of a beam. -/
def Dev.swChans (d : Dev) (b : Nat) : List Nat := (d.chansOn 512 1024).filter fun c => d.chanBeam c == b

/-- The switch unit's work for furrow `f` of beam `b`, ready at a line time: the results of its channels, MAP_RANGE and TILE_FMT (R128, R132, R151). -/
def Dev.swWork (d : Dev) (b f ready : Nat) : Dev :=
  let fpf := d.fpf b
  let cs := d.swChans b
  let x0 : Int := (f * 4096 : Nat)
  let ovr := fun (c : Nat) => d.ovrInside c (x0 * 2 ^ 32)
  let bad := cs.any fun c => (d.bedsOf c).any fun v => (d.swLayers v c (ovr c) (x0 * 2 ^ 32)).any fun p => d.layerBad v fpf c p.1 x0 p.2
  let out := cs.any fun c => d.chanOut c (ovr c)
  let tab := fun (v : BedView) => cs.foldl (fun (t : Tab SwSeg) c => tput t c (d.swSeg v c f)) []
  let res : SwRes := ⟨f, ready, tab (d.newBed b), match aget d.cam.old b with | some o => tab o.view | none => []⟩
  let kept := (tget d.cam.kept b).filter fun r => r.furrow != f
  let d := { d with cam := { d.cam with kept := tput d.cam.kept b (kept ++ [res]) } }
  let d := if out then d.evt 97 8 else d
  if bad then d.evt 97 16 else d

/-- When the switch unit has done a furrow's layer evaluations that it begins now (R151): eight per beam cycle, one furrow after the other. -/
def Dev.swDone (d : Dev) (b f : Nat) : Nat :=
  let e := ((d.swChans b).map fun c => ((d.bedsOf c).map fun v => d.evalCount v c (d.ovrInside c ((f * 4096 : Nat) * 2 ^ 32))).sum).sum
  max d.lt d.cam.busy + 4 * ((e + 7) / 8)

/-- The switch unit prepares furrow `f` (R151). -/
def Dev.swPrepare (d : Dev) (b f : Nat) : Dev :=
  let done := d.swDone b f
  ({ d with cam := { d.cam with busy := done } }).swWork b f done

/-- Number of furrows of the linear count. -/
def furrowsOf (fpf : Nat) : Nat := 2 ^ 24 * fpf

/-- Only the results of furrows n − 1, n and n + 1 are kept (R151). -/
def Dev.swKeep (d : Dev) (b n : Nat) : Dev :=
  let m := furrowsOf (d.fpf b)
  let near := [(n + m - 1) % m, n % m, (n + 1) % m]
  { d with cam := { d.cam with kept := tput d.cam.kept b ((tget d.cam.kept b).filter fun r => near.contains r.furrow) } }

/-- The switch unit at a crossing of beam `b` into furrow `n`: it prepares the next one in the direction of travel. A furrow entered before its results
were ready is late (R151). -/
def Dev.switchCross (d : Dev) (b n : Nat) (fwd : Bool) : Dev :=
  if (d.swChans b).isEmpty then d
  else
    let m := furrowsOf (d.fpf b)
    let late := !((tget d.cam.kept b).any fun r => r.furrow == n && decide (r.ready ≤ d.lt))
    let d := (d.swPrepare b ((n + (if fwd then 1 else m - 1)) % m)).swKeep b n
    if late then (d.inc Reg.CAM_SW_LATE).evt 97 128 else d

/-- A beam that stands in a furrow without results (a channel was enabled, or the position stepped) has it and its neighbours prepared (DESIGN CHOICE,
log 90). -/
def Dev.switchHere (d : Dev) (b : Nat) : Dev :=
  let m := furrowsOf (d.fpf b)
  let n := ((d.beam b).l / 2 ^ 32 / 4096).toNat % m
  if (d.swChans b).isEmpty || (tget d.cam.kept b).any fun r => r.furrow == n then d
  else [n, (n + 1) % m, (n + m - 1) % m].foldl (fun d f =>
    if (tget d.cam.kept b).any fun r => r.furrow == f then d else d.swPrepare b f) (d.swKeep b n)

/-- What the results of beam `b` rest on has changed at an apply point or with an override: those kept are evaluated anew, ready when they were
(DESIGN CHOICE, log 90). -/
def Dev.switchAnew (d : Dev) (b : Nat) : Dev := (tget d.cam.kept b).foldl (fun d r => d.swWork b r.furrow r.ready) d

/-- The level of switch channel `c` at a linear count, at a line time by which its furrow's results must be ready (R143, R151, R153, R156). -/
def Dev.swLevel (d : Dev) (c t : Nat) (l : Int) : Option Bool :=
  let b := d.chanBeam c
  let x := (l / 2 ^ 32).toNat
  match (tget d.cam.kept b).find? fun r => r.furrow == x / 4096 && decide (r.ready ≤ t) with
  | none => none
  | some r => some ((if d.onOld b l then tget r.old c else tget r.new c).at (x % 4096))

/-- A switch channel that station pins get. -/
def Dev.swPlaced (d : Dev) (c : Nat) : Bool :=
  decide (512 ≤ c) && d.bit (Reg.CAM_CHAN_CFG c) 0 && d.bit (Reg.CAM_CHAN_ROUTE c) 15

/-- SWITCH_EDGE: the on-die estimate reaches an edge of a switch channel at line time `t`, to 1 ns; a pulse that would last less than 4 ns is
suppressed (R151, R152). -/
def Dev.switchEdge (d : Dev) (c t : Nat) : Dev :=
  let placed := tget d.cam.level c
  let soon := fun (t : Nat) => (d.swLevel c t (d.estAt 0 (d.chanBeam c) t)).getD placed
  let new := d.swPlaced c && soon t
  if new = placed then d
  else if d.swPlaced c && [1, 2, 3].any fun k => soon (t + k) == placed then
    if soon (t - 1) = placed then (d.inc Reg.CAM_SW_SHORT).evt 97 64 else d
  else { d with cam := { d.cam with level := tput d.cam.level c new } }

/-- A switch channel routed to station pin `p` is active (R152). -/
def Dev.switchIn (d : Dev) (p : Nat) : Bool :=
  d.cam.level.any fun q => q.2 && d.swPlaced q.1 && bits (d.rd (Reg.CAM_CHAN_ROUTE q.1)) 0 6 == p

/-- The level of a switch channel at the tick sample; while its furrow's results are not ready, the one it had (R152). -/
def Dev.tickLevel (d : Dev) (c : Nat) : Bool :=
  let b := d.chanBeam c
  let x : Int := linDots (d.fpf b) (d.rd (Reg.BEAM_TICK_POS b) / 2 ^ 16)
  (d.swLevel c d.lt (x * 2 ^ 32)).getD (tget d.cam.level c)

/-- At a tick the level of the switch channels that no station pin gets is that at the tick sample (R152). -/
def Dev.switchTick (d : Dev) : Dev :=
  ((d.chansOn 512 1024).filter fun c => !d.swPlaced c).foldl
    (fun d c => { d with cam := { d.cam with level := tput d.cam.level c (d.tickLevel c) } }) d

/-- Output bits that switch channels give drive port `p` at the tick sample (R152, R224). -/
def Dev.switchBits (d : Dev) (p : Nat) : Nat :=
  (d.chansOn 512 1024).foldl (fun a c =>
    let r := d.rd (Reg.CAM_CHAN_ROUTE c)
    if tb r 31 && bits r 24 6 == p && d.tickLevel c then a ||| 2 ^ bits r 16 5 else a) 0

/-- CAM_CORR_IN (R145). -/
def Dev.corrIn (d : Dev) (c v : Nat) : Dev :=
  let (a, n, _) := tget d.cam.acc c
  let x := sx 32 v
  { d with cam := { d.cam with acc := tput d.cam.acc c (clampI (-8388607) 8388607 (a + x), min (n + 1) 255, x) } }

/-- A change of the CORR scroll starts a ramp, with RAMP = 1, from the effective scroll `so` before it. So does the change of a commit or a sequencer
entry while no ramp is in progress (DESIGN CHOICE, log 92). -/
def Dev.corrRamp (d : Dev) (c : Nat) (so : Int) : Dev :=
  let sn := scrollDots (d.rd (scrollReg c 2))
  let l := (d.beam (d.chanBeam c)).l
  let r := if d.bit (Reg.CAM_CORR_CFG c) 23 then some ⟨so, sn, l / 2 ^ 32 * 2 ^ 32⟩ else none
  { d with cam := { d.cam with ramp := aset d.cam.ramp c r } }

/-- The word that the correction apply of one channel gives its CORR scroll, and whether it reached LIM (R146). -/
def Dev.corrWord (d : Dev) (c : Nat) : Nat × Bool :=
  let (a, n, last) := tget d.cam.acc c
  let cfg := d.rd (Reg.CAM_CORR_CFG c)
  let cv : Int := match bits cfg 21 2 with | 0 => a | 1 => a.tdiv n | _ => last
  let delta : Int := (cv * ((min (bits cfg 16 5) 16 : Nat) : Int)).tdiv 16
  let lim : Int := bits cfg 0 16
  let s := scrollDots (d.rd (scrollReg c 2)) + delta
  if bits cfg 16 5 = 0 then (d.rd (scrollReg c 2), false) else (scrollWord (clampI (-lim) lim s), decide (lim < s ∨ s < -lim))

/-- The correction apply of one channel (R146 to R148). -/
def Dev.corrApply (d : Dev) (c : Nat) : Dev :=
  let (_, n, last) := tget d.cam.acc c
  if n = 0 then d
  else
    let (w, clamp) := d.corrWord c
    let was := d.rd (scrollReg c 2)
    let so := d.corrScroll c (d.beam (d.chanBeam c)).l
    let d := { d with cam := { d.cam with acc := tput d.cam.acc c (0, 0, last) } }
    let d := if clamp then d.evt 97 4 else d
    if w = was then d else ((d.swapIn (scrollReg c 2) w).corrRamp c so).switchAnew (d.chanBeam c)

/-- Channels of beam `b` with corrections gathered. -/
def Dev.corrDue (d : Dev) (b : Nat) : List Nat :=
  (d.cam.acc.filter fun p => p.2.2.1 ≠ 0 && d.chanBeam p.1 == b).map (·.1)

/-- The occurrences of channel `c` that are armed. -/
def Dev.setArmed (d : Dev) (c : Nat) (fields : List Nat) : Dev :=
  ({ d with cam := { d.cam with armed := tput d.cam.armed c fields } }).switchAnew (d.chanBeam c)

/-- A request for an override of channel `c` (R153). -/
def Dev.camOverride (d : Dev) (c : Nat) : Dev :=
  let b := d.chanBeam c
  let fpf := d.fpf b
  if !d.bit (Reg.CAM_CHAN_CFG c) 0 || !d.bit (Reg.CAM_CHAN_OVR c) 24 then d
  else if (d.bedsOf c).all fun v => !d.rowOn fpf v.1 c 4 then d.evt 97 256
  else if fpf ≤ d.fld (Reg.CAM_CHAN_OVR c) 0 12 then d
  else
    let f := d.fieldLen b
    let l := (d.beam b).l
    let field := ((l / f).toNat + (if l % f < (d.ovrWindow c).1 then 0 else 1)) % 2 ^ 24
    let armed := tget d.cam.armed c
    if armed.contains field then d.inc Reg.CAM_OVR_MERGE else d.setArmed c (armed ++ [field])

/-- Occurrences whose end a forward movement of beam `b` from `l0` has crossed are consumed (R153). -/
def Dev.ovrConsume (d : Dev) (b : Nat) (l0 mv : Int) : Dev :=
  d.cam.armed.foldl (fun d p =>
    if d.chanBeam p.1 ≠ b then d
    else
      let keep := p.2.filter fun f => match d.ovrStart p.1 f with
        | none => true
        | some s => let u := distL (d.fpf b) l0 (s + (d.ovrWindow p.1).2); !(decide (0 < u) && decide (u ≤ mv))
      if keep = p.2 then d else d.setArmed p.1 keep) d

/-- The latched scrolls and ADV of every channel, by 8 × channel + i (R155). For the CORR layer that is the register's word, also when a ramp runs at the
apply point: the old bed then steps to it (DESIGN CHOICE, log 92). -/
def Dev.latchNow (d : Dev) : Tab Nat :=
  d.regs.foldl (fun t p =>
    if Reg.CAM_SCROLL_BASE 0 ≤ p.1 ∧ p.1 < Reg.CAM_SCROLL_BASE 1024 then
      let o := p.1 - Reg.CAM_SCROLL_BASE 0
      tput t (8 * (o / 16) + o % 16 / 4) p.2.toNat
    else if Reg.CAM_CHAN_CFG 0 ≤ p.1 ∧ p.1 < Reg.CAM_CHAN_CFG 1024 ∧ (p.1 - Reg.CAM_CHAN_CFG 0) % 32 = 8 then
      tput t (8 * ((p.1 - Reg.CAM_CHAN_CFG 0) / 32) + 4) p.2.toNat
    else t) []

/-- A blend in progress is completed at once (R158). -/
def Dev.blendCut (d : Dev) (b : Nat) : Dev :=
  if (aget d.cam.old b).isNone then d
  else ({ d with cam := { d.cam with old := aset d.cam.old b none } }).evt 97 2

/-- A change of CAM_BED[b]; `was` is the device before, with the scrolls and ADV that the old bed keeps (R154, R155, R158). -/
def Dev.bedChanged (d was : Dev) (b : Nat) : Dev :=
  let old := was.rd (Reg.CAM_BED b)
  let new := d.rd (Reg.CAM_BED b)
  if bits old 0 2 = bits new 0 2 then d
  else
    let d := d.blendCut b
    let l := (d.beam b).l
    let d := (d.wr (Reg.CAM_BLEND_START b) (l / 2 ^ 32).toNat).wr (Reg.CAM_BLEND_W b) 65536
    let n := bits new 8 8
    if n = 0 then d
    else
      let o : OldBed := ⟨bits old 0 1, bits old 1 1, l / 2 ^ 32 * 2 ^ 32, n, bits new 16 2, bits new 18 2, was.latchNow⟩
      { d with cam := { d.cam with old := aset d.cam.old b (some o) } }

/-- What a change of BEAM_FPF does to the beam's blends, ramps and switch results (R148, R158). -/
def Dev.camFpf (d : Dev) (b : Nat) : Dev :=
  let d := d.blendCut b
  { d with cam := { d.cam with ramp := d.cam.ramp.filter fun p => d.chanBeam p.1 != b, kept := tput d.cam.kept b [] } }

/-- Blends and ramps that the beam has travelled through end (R148, R157). -/
def Dev.camCycle (d : Dev) (b : Nat) : Dev :=
  let l := (d.beam b).l
  let dd : Int := (d.fpf b * 4096 : Nat)
  let keep := d.cam.ramp.filter fun p => d.chanBeam p.1 != b || decide (distL (d.fpf b) p.2.at0 l / 2 ^ 32 < dd)
  let d := { d with cam := { d.cam with ramp := keep } }
  match aget d.cam.old b with
  | none => d
  | some o =>
    if d.blendLen b o ≤ d.blendDist b o l then
      ({ d with cam := { d.cam with old := aset d.cam.old b none } }).evt 97 1
    else d

/-- CAM_CORR_ACC[c] (R159). -/
def Dev.corrAcc (d : Dev) (c : Nat) : Nat :=
  let (a, n, _) := tget d.cam.acc c
  tw 24 a + n * 2 ^ 24

/-- CAM_BED_STATUS[b] (R162). -/
def Dev.bedStatus (d : Dev) (b : Nat) : Nat :=
  bits (d.rd (Reg.CAM_BED b)) 0 2 +
    (match aget d.cam.old b with | some o => 4 + o.bank * 8 + o.half * 16 | none => 0)

/-- CAM_PROBE of the selected channel (R161). -/
def Dev.camProbe (d : Dev) : Nat :=
  let c := d.fld Reg.CAM_PROBE_SEL 0 10
  let o := tget d.cam.out c
  let b := d.chanBeam c
  let held := (d.beam b).mode != .run || !d.bit (Reg.CAM_CHAN_CFG c) 0
  let l := (d.beam b).l
  let bed := match aget d.cam.old b with | some w => if d.onOld b l then w.view else d.newBed b | none => d.newBed b
  let act := if c < 512 then o.ovr else d.ovrInside c l && d.rowOn (d.fpf b) bed.1 c 4
  let level := if d.swPlaced c then tget d.cam.level c else d.bit (Reg.CAM_CHAN_CFG c) 0 && (d.swLevel c d.lt (d.estAt 0 b d.lt)).getD (tget d.cam.level c)
  (if c < 512 then o.setp else 0) + b2n (decide (512 ≤ c) && level) * 2 ^ 48 + b2n held * 2 ^ 60
    + b2n (aget d.cam.old b).isSome * 2 ^ 61 + b2n (!(tget d.cam.armed c).isEmpty) * 2 ^ 62 + b2n act * 2 ^ 63

end Sys2Proof.Machine
end

