-- ==== Sys2Proof/Machine/Item.lean ====
section
/-! DEFINITION. The item engine: records, sows, beam lists, harvests, the verdict port and the command channels (R164 to R195),
and the memory writes that pass through the device address space (R97, R118, R171, R536, R603). -/
namespace Sys2Proof.Machine

/-- Words of a record's user part; all zero is held as no list. -/
def Item.user (i : Item) (k : Nat) : Nat := i.users.getD k 0

def normUsers (l : List Nat) : List Nat := if l.all (· == 0) then [] else (l ++ List.replicate 6 0).take 6

/-- DESC of a record (R165, R167). -/
def Item.desc (i : Item) : Nat :=
  i.cls % 256 + i.lane % 32 * 2 ^ 8 + i.beam % 8 * 2 ^ 13 + i.state % 256 * 2 ^ 16 + b2n i.quiet * 2 ^ 24 + i.origin % 4 * 2 ^ 25
    + b2n i.printing * 2 ^ 27 + b2n i.long * 2 ^ 28 + b2n i.measuring * 2 ^ 29 + i.vpend % 4 * 2 ^ 30

/-- The 64 bytes of a record (R165). -/
def Item.bytes (i : Item) : List Nat :=
  leBytes 4 i.id ++ leBytes 4 i.desc ++ leBytes 8 (i.pos % 2 ^ 48) ++ leBytes 4 i.len ++ leBytes 4 i.sowTick ++ leBytes 8 i.verdict ++
    leBytes 4 i.pjob ++ leBytes 4 (i.gen % 2 ^ 16) ++ ((List.range 6).map fun k => leBytes 4 (i.user k)).flatten

/-- Verdict bits that a writer may set (R169). -/
def verdictBits (m : Nat) : Nat := clearMask (m % 2 ^ 64) 0xFE00

/-- The record that 64 bytes spell (R165). -/
def itemOfBytes (bs : List Nat) : Item :=
  let e := leAt bs 4 4
  { id := leAt bs 0 4, cls := bits e 0 8, lane := bits e 8 5, beam := bits e 13 3, state := bits e 16 8, vpend := bits e 30 2,
    measuring := tb e 29, long := tb e 28, printing := tb e 27, origin := bits e 25 2, quiet := tb e 24,
    pos := leAt bs 8 6, len := leAt bs 16 4, sowTick := leAt bs 20 4, verdict := verdictBits (leAt bs 24 8),
    pjob := leAt bs 32 4, gen := leAt bs 36 2, users := normUsers ((List.range 6).map fun k => leAt bs (40 + 4 * k) 4) }

def Dev.item (d : Dev) (s : Nat) : Item := tget d.items.store s

/-- Set a record; a member that feeds a standby notes the slot, with 65,536 times its beam, for that beam's next FURROW record (R538). -/
def Dev.setItem (d : Dev) (s : Nat) (i : Item) : Dev :=
  let key := s + 65536 * (if i.state = 0 then (d.item s).beam else i.beam)
  let dirty := if d.feeds && !d.items.dirty.contains key then d.items.dirty ++ [key] else d.items.dirty
  { d with items := { d.items with store := tput d.items.store s i, dirty := dirty } }

/-- First byte of the item store (R164). -/
def itemBase : Nat := 0x20002000000

/-- A direct write to the item store: user words only (R171). -/
def Dev.itemDirect (d : Dev) (a : Nat) (bs : List Nat) : Dev :=
  let o := a - itemBase
  let n := bs.length
  let low := (List.range n).any fun k => (o + k) % 64 < 40
  if low then (d.inc Reg.ITEM_WR_DENY).evt 98 512
  else
    let s := o / 64
    let it := d.item s
    let old := it.bytes
    let new := old.take (o % 64) ++ bs ++ old.drop (o % 64 + n)
    d.setItem s { it with users := normUsers ((List.range 6).map fun k => leAt new (40 + 4 * k) 4) }

/-- A range of bytes touches a code range (R603). -/
def Dev.codeHit (d : Dev) (a n : Nat) : Bool :=
  (List.range 32).any fun r =>
    let s := d.fld (Reg.SEC_CODE r) 0 48
    let l := d.rd (Reg.SEC_CODE_LEN r)
    l != 0 && decide (a < s + l) && decide (s < a + n)

/-- A write that finds no target is counted for the core that made it (R245). -/
def Dev.writeLost (d : Dev) (src : Nat) : Dev :=
  if src < 24 then
    let c := tget d.cores src
    let d := d.inc (Reg.CORECTL_ERR src)
    ({ d with cores := tput d.cores src { c with werr := true } }).refresh src
  else d

/-- Perform a memory write of a source (24 Flagar, 25 HOST) outside the windows: a code range refuses it while the device is LOCKED
(R603), management SRAM takes Flagar's and an admitted HOST's (R482), the item store takes user words only (R171), list memory is
forwarded (R118), and a fed standby gets it (R536). -/
def Dev.localWrite (d : Dev) (src a : Nat) (bs : List Nat) : Dev :=
  if d.locked && src != 24 && d.codeHit a bs.length then (d.inc Reg.SEC_CODE_DENY).evt 453 32
  else match regionOf a with
    | .items => d.itemDirect a bs
    | .msram => if src = 24 ∨ (src = 25 ∧ !d.locked) then d.store a bs else d.writeLost src
    | .lists => (d.listWrite a bs).mirrorSend a bs.length
    | .regBeam | .regImage | .regMgmt | .window _ | .none => d
    | _ => (d.store a bs).mirrorSend a bs.length

/-- A refused access through an open window is counted (R516). -/
def Dev.winDeny (d : Dev) : Dev := (d.inc Reg.TRL_EXP_DENY).evt 306 2048

/-- The WRITE cells of a write to another node's export space, one for each aligned 64-byte unit (R516). -/
def Dev.windowSend (d : Dev) (m a : Nat) (bs : List Nat) : Dev :=
  let u0 := a / 64
  forN ((a + bs.length - 1) / 64 + 1 - u0) (fun i d =>
    let base := (u0 + i) * 64
    let inside := fun (j : Nat) => decide (a ≤ base + j) && decide (base + j < a + bs.length)
    let en := (List.range 64).foldl (fun v j => if inside j then v + 2 ^ j else v) 0
    let data := (List.range 64).map fun j => if inside j then bs.getD (base + j - a) 0 else 0
    d.cellSend 3 8 m (leBytes 4 (base % 2 ^ 32) ++ leBytes 4 0 ++ leBytes 8 en ++ data)) d

/-- Perform a memory write of a source: to another node's export space as cells, to this node's own through its windows (R516), else
here. -/
def Dev.memWrite (d : Dev) (src a : Nat) (bs : List Nat) : Dev :=
  if bs.isEmpty then d
  else match regionOf a with
    | .window m =>
      if !d.ownWindow m then d.windowSend m a bs
      else match d.throughWindow a bs.length true with
        | some x => if d.localTarget x && d.localTarget (x + (bs.length - 1)) then d.localWrite src x bs else d.writeLost src
        | none => d.winDeny
    | _ => d.localWrite src a bs

/-- Read memory outside the windows: item slots from the records, everything else from the bytes. -/
def Dev.localRead (d : Dev) (a n : Nat) : List Nat :=
  match regionOf a with
  | .items => (List.range n).map fun k => (d.item ((a + k - itemBase) / 64)).bytes.getD ((a + k - itemBase) % 64) 0
  | _ => d.load a n

/-- Read memory; an engine's read of another node's export space, or of register space, takes free values (log 60, log 103). -/
def Dev.memRead (d : Dev) (a n : Nat) : List Nat :=
  match regionOf a with
  | .window m =>
    if d.ownWindow m then d.localRead ((d.throughWindow a n false).getD 0) n
    else (List.range n).map fun k => Config.freeRead d.free (a + k) % 256
  | .regBeam | .regImage | .regMgmt => (List.range n).map fun k => Config.freeRead d.free (a + k) % 256
  | _ => d.localRead a n

/-- A write to this address by an engine goes somewhere: memory with a target, or an export space (R482, R516). -/
def Dev.writeTarget (d : Dev) (a n : Nat) : Bool :=
  match regionOf a with
  | .window _ => true
  | _ => d.localTarget a && d.localTarget (a + (n - 1))

/-- A write by an engine of the device: performed if the range has a target, else discarded (R10). -/
def Dev.engineWrite (d : Dev) (a : Nat) (bs : List Nat) : Dev :=
  if d.writeTarget a (max 1 bs.length) then d.memWrite 26 a bs else d

/-- The queued records that wait are written, in order (R337): one whose place lies behind a Stem without flits waits on with those behind it, one that
finds no target is dropped with a fault, and one to the management SRAM finds none (R482). -/
def Dev.ringPosts (d : Dev) : Dev :=
  let l := d.intc.posts
  l.foldl (fun d p =>
    let (q, a, bs) := p
    if crosses 26 ((d.throughWindow a 16 true).getD a) && !d.stemUp && !d.dataOff || (d.intc.posts.any fun e => e.1 == q) then
      { d with intc := { d.intc with posts := d.intc.posts ++ [p] } }
    else if bs.isEmpty then { d with intc := { d.intc with gap := tput d.intc.gap q true } }
    else
      let bs := leBytes 4 (leNum (bs.take 4) + b2n (tget d.intc.gap q) * 2 ^ 12) ++ bs.drop 4
      if isRegSpace a || regionOf a == .msram || !d.writeTarget a 16 then (d.queueDrop q).ctlFault 2 0 q
      else (d.memWrite 26 a bs).queueWritten q)
    { d with intc := { d.intc with posts := [] } }

/-- Items in the store (R192). -/
def Dev.itemCount (d : Dev) : Nat := (d.items.store.filter fun p => p.2.state != 0).length

/-- Linear count of a record's POS. -/
def Dev.itemL (d : Dev) (i : Item) : Int := linOf (d.fpf i.beam) i.pos 0

def Dev.beamList (d : Dev) (b : Nat) : List Nat := tget d.items.lists b

def Dev.setList (d : Dev) (b : Nat) (l : List Nat) : Dev :=
  { d with items := { d.items with lists := tput d.items.lists b l } }

/-- Insert a slot into a list in POS order, after items of equal POS (R179). -/
def Dev.listIn (d : Dev) (b s : Nat) : Dev :=
  let fpf := d.fpf b
  let l := d.itemL (d.item s)
  let lst := d.beamList b
  let before := lst.takeWhile fun x => decide (0 ≤ distL fpf (d.itemL (d.item x)) l)
  d.setList b (before ++ [s] ++ lst.drop before.length)

/-- Remove a slot from its list. -/
def Dev.listOut (d : Dev) (b s : Nat) : Dev := d.setList b ((d.beamList b).filter (· != s))

/-- Set verdict bits of a record, with REJECT when the class asks for it (R169, R170). -/
def Dev.setVerdict (d : Dev) (s m : Nat) : Dev :=
  let i := d.item s
  let m := verdictBits m
  let rej := if (m &&& d.rd (Reg.ITEM_CLASS_REJ i.cls)) / 2 ≠ 0 then 1 else 0
  d.setItem s { i with verdict := i.verdict ||| m ||| rej }

/-- The summary rule applied to the whole record (R170). -/
def Dev.verdictSummary (d : Dev) (s : Nat) : Dev := d.setVerdict s ((d.item s).verdict / 2 * 2)

/-- Two records touch (R180). -/
def Dev.touches (d : Dev) (a b : Item) : Bool :=
  let fpf := d.fpf a.beam
  let ea := d.itemL a + (a.len : Int) * 2 ^ 32
  let eb := d.itemL b + (b.len : Int) * 2 ^ 32
  a.len != 0 && b.len != 0 && decide (0 < distL fpf (d.itemL a) eb) && decide (0 < distL fpf (d.itemL b) ea)

/-- Set TOUCH on a pair, of which `later` lies later in the list (R180). -/
def Dev.touchPair (d : Dev) (a b later : Nat) : Dev :=
  let d := ((d.setVerdict a 4).setVerdict b 4).inc Reg.ITEM_TOUCH_CNT
  (d.evt 98 1).raise 99 (d.item later).id

/-- TOUCH detection of a slot against the nearest 16 items of its lane on each side (R180). -/
def Dev.touchCheck (d : Dev) (s : Nat) : Dev :=
  let i := d.item s
  let lst := d.beamList i.beam
  let pre := ((lst.takeWhile (· != s)).reverse.filter fun x => (d.item x).lane == i.lane).take 16
  let post := (((lst.dropWhile (· != s)).drop 1).filter fun x => (d.item x).lane == i.lane).take 16
  let d1 := pre.foldl (fun d x => if d.touches i (d.item x) then d.touchPair x s s else d) d
  post.foldl (fun d x => if d.touches i (d.item x) then d.touchPair s x x else d) d1

/-- Take a slot for a sow (R173, R174): slots never used first, lowest first, then freed ones, the longest free first (log 14).
`hold` keeps ITEM_RESERVE back. -/
def Dev.takeSlot (d : Dev) (hold : Bool) : Option Nat × Dev :=
  let keep := if hold then min 65536 (d.fld Reg.ITEM_RESERVE 0 17) else 0
  if 65536 ≤ d.itemCount + d.trl.resv.length + keep then (none, ((d.inc Reg.ITEM_SOW_DROP).evt 98 2).alarm 0x04 0)
  else if d.items.fresh < 65536 then (some d.items.fresh, { d with items := { d.items with fresh := d.items.fresh + 1 } })
  else match d.items.freed with
    | s :: t => (some s, { d with items := { d.items with freed := t } })
    | [] => (none, d)

/-- Sow a record: slot, list and TOUCH (R173, R178 to R180). -/
def Dev.sow (d : Dev) (i : Item) (hold : Bool) : Option Nat × Dev :=
  match d.takeSlot hold with
  | (none, d) => (none, d)
  | (some s, d) =>
    let d := (d.setItem s i).verdictSummary s
    (some s, (d.listIn i.beam s).touchCheck s)

/-- The id of a local sow (R168). -/
def Dev.nextId (d : Dev) : Nat × Dev :=
  let n := max 1 (d.fld Reg.ITEM_SEQ_NEXT 0 20)
  (d.nodeId * 2 ^ 20 + n, d.wr Reg.ITEM_SEQ_NEXT (if n + 1 = 2 ^ 20 then 1 else n + 1))

/-- ITEM_RECIPE_GEN as it stood at line time `t` (R175). -/
def Dev.genAt (d : Dev) (t : Nat) : Nat :=
  match d.items.gens.find? fun p => p.1 ≤ t with
  | some p => p.2
  | none => d.fld Reg.ITEM_RECIPE_GEN 0 16

/-- Keep the generation that a commit at line time `t` put in force, newest first, with the one before (R175). -/
def Dev.genChanged (d : Dev) (old t : Nat) : Dev :=
  let g := if d.items.gens.isEmpty then [(0, old % 2 ^ 16)] else d.items.gens
  { d with items := { d.items with gens := ((t, d.fld Reg.ITEM_RECIPE_GEN 0 16) :: g).take 64 } }

/-- PJOB of a sow on beam `b`, which then steps (R175). -/
def Dev.nextPjob (d : Dev) (b : Nat) : Nat × Dev :=
  let p := d.rd (Reg.ITEM_PJOB b)
  (p, d.wr (Reg.ITEM_PJOB b) ((p + d.fld (Reg.ITEM_PJOB_CFG b) 0 16) % 2 ^ 32))

/-- The record of a sensor or station sow (R175, R178). -/
def Dev.newItem (d : Dev) (b lane cls : Nat) (l : Int) (tick gen origin : Nat) (measuring : Bool) : Item × Dev :=
  let (id, d) := d.nextId
  let (pj, d) := d.nextPjob b
  let i := { (default : Item) with id := id, cls := cls, lane := lane, beam := b, state := 1, measuring := measuring }
  let i := { i with origin := origin, pos := posOf (d.fpf b) l, len := d.rd (Reg.ITEM_CLASS_LEN cls), sowTick := tick }
  ({ i with pjob := pj, gen := gen }, d)

/-- The item that pin `n` measures, if it is still in its slot (R177). -/
def Dev.measured (d : Dev) (n : Nat) : Option Nat :=
  let (s, id) := tget d.items.meas n
  if id ≠ 0 ∧ (d.item s).state ≠ 0 ∧ (d.item s).id = id then some s else none

def Dev.setMeas (d : Dev) (n : Nat) (v : Nat × Nat) : Dev :=
  { d with items := { d.items with meas := tput d.items.meas n v } }

/-- Set a record's LEN at the end of its measurement, and check it for TOUCH (R177). -/
def Dev.measureEnd (d : Dev) (n s len : Nat) (long : Bool) : Dev :=
  let i := d.item s
  let d := (d.setItem s { i with len := len % 2 ^ 32, measuring := false, long := i.long || long }).setMeas n (0, 0)
  (if long then d.evt 98 4096 else d).touchCheck s

/-- The item that a pin measures gets its class's maximum length (R177). -/
def Dev.measureLong (d : Dev) (n : Nat) : Dev :=
  match d.measured n with
  | some s => d.measureEnd n s (d.rd (Reg.ITEM_CLASS_MAXLEN (d.item s).cls)) true
  | none => d.setMeas n (0, 0)

/-- Measured items that the beam has carried past their class's maximum length (R177). -/
def Dev.measureCycle (d : Dev) : Dev :=
  d.items.meas.foldl (fun d p =>
    match d.measured p.1 with
    | none => d.setMeas p.1 (0, 0)
    | some s =>
      let i := d.item s
      let far := d.itemL i + (d.rd (Reg.ITEM_CLASS_MAXLEN i.cls) : Int) * 2 ^ 32
      if 0 ≤ distL (d.fpf i.beam) far (d.beam i.beam).l then d.measureLong p.1 else d) d

/-- A LIVE or OUTBOUND item of the same beam, lane and class lies within the DUP window of the POS of a linear count (R176). -/
def Dev.dupNear (d : Dev) (b lane cls dup : Nat) (l : Int) : Bool :=
  let l := l / 2 ^ 32 * 2 ^ 32
  dup != 0 && (d.beamList b).any fun s =>
    let i := d.item s
    let x := distL (d.fpf b) (d.itemL i) l
    i.lane == lane && i.cls == cls && decide (-((dup * 4096 : Nat) : Int) * 2 ^ 32 ≤ x) && decide (x ≤ ((dup * 4096 : Nat) : Int) * 2 ^ 32)

/-- A trailing edge with REV clear ends the measurement of the item that the pin measures (R177). -/
def Dev.sowTrail (d : Dev) (n te : Nat) : Dev :=
  match d.measured n with
  | none => d
  | some s =>
    let b := (d.item s).beam
    let (lc, rev, _) := d.posAt b te
    let l := (lc - sx 32 (d.rd (Reg.ITEM_SOW_DIST n)) * 2 ^ 32) % modL (d.fpf b)
    if rev then d else d.measureEnd n s (distL (d.fpf b) (d.itemL (d.item s)) l / 2 ^ 32).toNat false

/-- A leading edge of a pin that sows (R175, R176): the slot it sowed, if it did. -/
def Dev.sowLead (d : Dev) (n te : Nat) : Option Nat × Dev :=
  let cfg := d.rd (Reg.ITEM_SOW_CFG n)
  let b := bits cfg 13 3
  let (lc, rev, stale) := d.posAt b te
  let l := (lc - sx 32 (d.rd (Reg.ITEM_SOW_DIST n)) * 2 ^ 32) % modL (d.fpf b)
  let measure := tb cfg 17
  if stale then (none, (d.inc Reg.ITEM_SOW_DROP).evt 98 4)
  else if rev then (none, d)
  else if !d.bit Reg.ITEM_CTRL 0 then (none, d.inc Reg.ITEM_SOW_DROP)
  else if d.dupNear b (bits cfg 8 5) (bits cfg 0 8) (bits cfg 20 12) l then (none, d.inc Reg.ITEM_RESOW_SUPP)
  else match d.takeSlot true with
    | (none, d) => (none, d)
    | (some s, d) =>
      let (i, d) := d.newItem b (bits cfg 8 5) (bits cfg 0 8) l (d.tickOf te) (d.genAt te) 0 measure
      let d := ((d.setItem s i).listIn b s).touchCheck s
      (some s, if measure then d.setMeas n (s, i.id) else d)

/-- A capture of SNS[n] at line time `te`, rising or falling, reaches the item engine (R175 to R177): the slot it sowed, if it did. A leading edge ends
a measurement under way whether or not it sows. -/
def Dev.sowCapture (d : Dev) (n te : Nat) (rising : Bool) : Option Nat × Dev :=
  let cfg := d.rd (Reg.ITEM_SOW_CFG n)
  if !d.runs then (none, d)
  else if rising == tb cfg 18 then (none, d.sowTrail n te)
  else
    let d := if (d.measured n).isSome then d.measureLong n else d
    if tb cfg 16 then d.sowLead n te else (none, d)

/-- Ring exponent of the harvest ring (R192). -/
def Dev.hringK (d : Dev) : Nat := clampN 4 16 (d.fld Reg.ITEM_HRING_CFG 4 5)

/-- Write the harvest copy of a record (R184, R185). -/
def Dev.harvestCopy (d : Dev) (i : Item) (reason : Nat) : Dev :=
  if !d.bit Reg.ITEM_HRING_CFG 0 then d
  else
    let k := d.hringK
    let w := d.rd Reg.ITEM_HRING_WR % 2 ^ 17
    let r := d.rd Reg.ITEM_HRING_RD % 2 ^ 17
    if 2 ^ k ≤ (w + 2 ^ 17 - r) % 2 ^ 17 then
      let d := (d.inc Reg.ITEM_HRING_DROP).evt 98 256
      { d with items := { d.items with gap := true } }
    else
      let base := d.fld Reg.ITEM_HRING_BASE 0 48 / 2 ^ (6 + k) * 2 ^ (6 + k)
      let code := 0x80 + reason + (if d.items.gap then 0x40 else 0)
      let d := d.engineWrite (base + 64 * (w % 2 ^ k)) ({ i with state := code }).bytes
      ({ d with items := { d.items with gap := false } }.wr Reg.ITEM_HRING_WR ((w + 1) % 2 ^ 17)).evt 98 128

/-- Harvest the item of a slot (R184): the copy, its deadlines, its list and the slot. -/
def Dev.harvest (d : Dev) (s reason : Nat) (copy : Bool) : Dev :=
  let i := d.item s
  let d := if copy then d.harvestCopy i reason else d
  let d := (d.listOut i.beam s).setItem s default
  { d with items := { d.items with
      dls := d.items.dls.filter fun e => e.slot != s,
      freed := d.items.freed ++ [s] } }

/-- Harvest every item of a beam's list (R182, R191). -/
def Dev.flushBeam (d : Dev) (b reason : Nat) : Dev := (d.beamList b).foldl (fun d s => d.harvest s reason true) d

/-- ITEM_CTRL.FLUSH (R192). -/
def Dev.flushAll (d : Dev) : Dev := forN 8 (fun b d => d.flushBeam b 1) d

/-- A change of BEAM_FPF flushes the beam (R182). -/
def Dev.itemFpf (d : Dev) (b : Nat) : Dev :=
  if (d.beamList b).isEmpty then d else (d.flushBeam b 5).evt 98 1024

/-- Class expiry at a forward furrow crossing, at most 64 items (R183). -/
def Dev.expire (d : Dev) (b : Nat) : Dev :=
  if !d.runs then d
  else
    let fpf := d.fpf b
    let l := (d.beam b).l
    let old := (d.beamList b).filter fun s =>
      let i := d.item s
      let age := d.fld (Reg.ITEM_CLASS_CFG i.cls) 0 8
      age != 0 && decide (((age * fpf * 4096 : Nat) : Int) * 2 ^ 32 < distL fpf (d.itemL i) l)
    (old.take 64).foldl (fun d s =>
      let id := (d.item s).id
      (((d.harvest s 3 true).evt 98 8).inc Reg.ITEM_EXPIRE_CNT).raise 100 id) d

/-- ITEM_HRING_RD (R185). -/
def Dev.hringRd (d : Dev) (v : Nat) : Dev :=
  let w := d.rd Reg.ITEM_HRING_WR % 2 ^ 17
  if 2 ^ d.hringK < (w + 2 ^ 17 - v % 2 ^ 17) % 2 ^ 17 then d else d.wr Reg.ITEM_HRING_RD (v % 2 ^ 17)

/-- Transfer an item to another beam at line time `t` (R181). -/
def Dev.transfer (d : Dev) (s tb_ : Nat) (lane : Option Nat) (dt : Int) (scale t : Nat) : Dev :=
  let i := d.item s
  let (lt, _, _) := d.posAt tb_ t
  let l := (lt - dt * 2 ^ 32) % modL (d.fpf tb_)
  let d := d.listOut i.beam s
  let d := d.setItem s { i with beam := tb_, lane := lane.getD i.lane, pos := posOf (d.fpf tb_) l, len := i.len * scale / 65536 % 2 ^ 32 }
  (d.listIn tb_ s).touchCheck s

/-- The deadline queue is full (R189). -/
def Dev.dlFull (d : Dev) : Bool := 4096 ≤ d.items.dls.length

def Dev.addDl (d : Dev) (e : Deadline) : Dev := { d with items := { d.items with dls := d.items.dls ++ [e] } }

/-- Take one entry equal to `e` out of the deadline queue. -/
def Dev.dropDl (d : Dev) (e : Deadline) : Dev := { d with items := { d.items with dls := d.items.dls.erase e } }

/-- The camera arm of an item at trigger line time `t` (R187, R189). -/
def Dev.armCamera (d : Dev) (s t : Nat) : Dev :=
  let i := d.item s
  if 3 ≤ i.vpend then d.setVerdict s 32
  else if d.dlFull then (d.setVerdict s 32).evt 98 64
  else (d.setItem s { i with vpend := i.vpend + 1 }).addDl ⟨s, t, false, t + 1000 * max 1000 (d.fld Reg.ITEM_VERDICT_BSTOP 0 16)⟩

/-- The print arm of an item for swath line time `t` (R188, R189). -/
def Dev.armPrint (d : Dev) (s t : Nat) : Dev :=
  let i := d.item s
  if d.dlFull then ((d.setItem s { i with printing := false }).setVerdict s 8).evt 98 64
  else (d.setItem s { i with printing := true }).addDl ⟨s, t, true, t⟩

/-- The open expectation or acknowledgement of a key (R187, R188). -/
def Dev.openDl (d : Dev) (s key : Nat) (print : Bool) : Option Deadline :=
  d.items.dls.find? fun e => e.slot == s && e.key == key && e.print == print

/-- A deadline's consequence (R187, R188). -/
def Dev.dlExpire (d : Dev) (e : Deadline) : Dev :=
  let d := d.dropDl e
  let i := d.item e.slot
  if e.print then (d.setItem e.slot { i with printing := false }).setVerdict e.slot 8
  else (d.setItem e.slot { i with vpend := i.vpend - 1 }).setVerdict e.slot 32

/-- The earliest deadline of a kind that has passed. -/
def Dev.dlDue (d : Dev) (print : Bool) : Option Deadline :=
  (d.items.dls.filter fun e => e.print == print && decide (e.at0 ≤ d.lt)).foldl
    (fun m e => match m with | none => some e | some x => if e.at0 < x.at0 then some e else m) none

/-- VERDICT_DEADLINE and PRINT_ACK_DEADLINE: the earliest passed deadline takes its consequence. -/
def Dev.deadline (d : Dev) (print : Bool) : Dev :=
  match d.dlDue print with
  | some e => d.dlExpire e
  | none => d

/-- The deadlines that have passed expire at the end of the beam cycle, after its messages and commands (R172, R187). -/
def Dev.deadlinesEnd (d : Dev) : Dev :=
  if d.follows then d else (d.items.dls.filter fun e => decide (e.at0 ≤ d.lt)).foldl (fun d e => d.dlExpire e) d

/-- A verdict message that names a free or other slot, or a reserved kind (R187). -/
def Dev.verdictStale (d : Dev) : Dev := (d.inc Reg.ITEM_VERDICT_STALE).evt 98 16

/-- A verdict message too late for its expectation (R187). -/
def Dev.verdictLate (d : Dev) : Dev := (d.inc Reg.ITEM_VERDICT_LATE).evt 98 32

/-- The checks of the verdict port before `f` acts (R187, R540). -/
def Dev.verdictMsg (d : Dev) (s id : Nat) (f : Dev → Dev) : Dev :=
  let i := d.item s
  if d.follows then d
  else if i.state = 0 ∨ i.id ≠ id then d.verdictStale
  else f d

def Dev.verdictOr (d : Dev) (s id m : Nat) : Dev := d.verdictMsg s id fun d => d.setVerdict s m

def Dev.verdictExpect (d : Dev) (s id key last : Nat) : Dev :=
  d.verdictMsg s id fun d =>
    match d.openDl s key false with
    | none => d.verdictLate
    | some e =>
      let e' := { e with at0 := last + 1000 * clampN 50 2000 (d.fld Reg.ITEM_VERDICT_DL 0 16) }
      (d.dropDl e).addDl e'

def Dev.verdictDone (d : Dev) (s id m key : Nat) : Dev :=
  d.verdictMsg s id fun d =>
    match d.openDl s key false with
    | none => d.verdictLate
    | some e =>
      let d := (d.setVerdict s m).dropDl e
      let i := d.item s
      d.setItem s { i with vpend := i.vpend - 1 }

def Dev.printAck (d : Dev) (s id key : Nat) : Dev :=
  d.verdictMsg s id fun d => match d.openDl s key true with | some e => d.dropDl e | none => d

def Dev.printEnd (d : Dev) (s id : Nat) : Dev :=
  d.verdictMsg s id fun d => d.setItem s { d.item s with printing := false }

/-- A verdict message as its 32 bytes spell it (R186, R187). -/
def Dev.verdictFlit (d : Dev) (s : Nat) (bs : List Nat) : Dev :=
  let id := leAt bs 0 4
  match leAt bs 4 1 % 16 with
  | 0 => d.verdictOr s id (leAt bs 8 8)
  | 1 => d.verdictExpect s id (leAt bs 16 8) (leAt bs 24 8)
  | 2 => d.verdictDone s id (leAt bs 8 8) (leAt bs 16 8)
  | 3 => d.printAck s id (leAt bs 16 8)
  | 4 => d.printEnd s id
  | _ => d.verdictStale

/-- Give a command of a channel its RESULT and its slot; OVERRUN is cleared (R195). -/
def Dev.cmdResult (d : Dev) (ch slot result : Nat) : Dev :=
  d.wr (Reg.ITEM_CMD_STATUS ch) (result * 2 ^ 4 + slot % 65536 * 2 ^ 16)

def Dev.setChan (d : Dev) (ch : Nat) (c : Option ItemCmd) : Dev := { d with items := { d.items with chans := aset d.items.chans ch c } }

/-- A channel stays BUSY for as many beam cycles as are left, if any (R190). -/
def Dev.cmdBusy (d : Dev) (ch : Nat) (c : ItemCmd) : Dev :=
  if c.left = 0 ∧ c.flush = [] then d else (d.setF (Reg.ITEM_CMD_STATUS ch) 0 1 1).setChan ch (some c)

/-- One beam cycle of a channel at work: FLUSH_BEAM harvests an item in each of its cycles (R190, R191). -/
def Dev.cmdCycle (d : Dev) (ch : Nat) : Dev :=
  match aget d.items.chans ch with
  | none => d
  | some c =>
    match c.flush with
    | (s, id) :: rest =>
      let i := d.item s
      let d := d.setChan ch (some { c with flush := rest })
      if i.state ≠ 0 ∧ i.id = id ∧ i.beam = c.beam then d.harvest s 4 true else d
    | [] =>
      if 1 < c.left then d.setChan ch (some { c with left := c.left - 1 })
      else (d.setChan ch none).setF (Reg.ITEM_CMD_STATUS ch) 0 1 0

/-- Buffer word of a channel. -/
def Dev.cmdBuf (d : Dev) (ch w : Nat) : Nat := d.rd (Reg.ITEM_CMD_BUF ch w)

/-- A command on the record of a slot, whose id must stand in buffer word 0 (R190). -/
def Dev.onSlot (d : Dev) (ch s : Nat) (f : Dev → Dev) : Dev :=
  let i := d.item s
  if i.state = 0 then d.cmdResult ch s 4
  else if i.id ≠ d.cmdBuf ch 0 then d.cmdResult ch s 1
  else (f d).cmdResult ch s 0

/-- The record image in a channel's buffer. -/
def Dev.cmdImage (d : Dev) (ch : Nat) : List Nat := ((List.range 16).map fun w => leBytes 4 (d.cmdBuf ch w)).flatten

def Dev.cmdSow (d : Dev) (ch : Nat) (autoId : Bool) : Dev :=
  let im := itemOfBytes (d.cmdImage ch)
  let bad := (d.beam im.beam).mode == .off || decide (d.fpf im.beam ≤ bits im.pos 12 12)
  if bad then d.cmdResult ch 0 3
  else if !d.bit Reg.ITEM_CTRL 0 || !d.runs then (d.inc Reg.ITEM_SOW_DROP).cmdResult ch 0 2
  else
    let i : Item := { im with state := 1, origin := 2, vpend := 0, measuring := false, long := false, printing := false }
    match d.takeSlot false with
    | (none, d) => d.cmdResult ch 0 2
    | (some s, d) =>
      let (id, d) := if autoId then d.nextId else (i.id, d)
      let d := (d.setItem s { i with id := id }).verdictSummary s
      ((d.listIn i.beam s).touchCheck s).cmdResult ch s 0

/-- NOP: nothing is done beyond the check of the id (R190, R191). -/
def Dev.cmdNop (d : Dev) (ch s : Nat) : Dev := d.onSlot ch s fun d => d

def Dev.cmdRead (d : Dev) (ch s : Nat) : Dev :=
  d.onSlot ch s fun d =>
    let bs := (d.item s).bytes
    forN 16 (fun w d => d.wr (Reg.ITEM_CMD_BUF ch w) (leAt bs (4 * w) 4)) d

def Dev.cmdWrite (d : Dev) (ch s : Nat) : Dev :=
  d.onSlot ch s fun d =>
    let arg := d.cmdBuf ch 15
    let w1 := d.cmdBuf ch 1
    let i := d.item s
    let j := if tb arg 0 then { i with cls := bits w1 0 8, lane := bits w1 8 5, quiet := tb w1 24 } else i
    let j := if tb arg 1 then { j with pjob := d.cmdBuf ch 8 } else j
    let j := if tb arg 2 then { j with gen := d.cmdBuf ch 9 % 65536 } else j
    let j := { j with users := normUsers ((List.range 6).map fun k => if tb arg (3 + k) then d.cmdBuf ch (10 + k) else i.user k) }
    let d := d.setItem s j
    let d := if j.cls = i.cls then d else d.verdictSummary s
    if j.lane = i.lane then d else d.touchCheck s

def Dev.cmdVerdict (d : Dev) (ch : Nat) : Nat := d.cmdBuf ch 6 + d.cmdBuf ch 7 * 2 ^ 32

def Dev.cmdSetv (d : Dev) (ch s : Nat) : Dev := d.onSlot ch s fun d => d.setVerdict s (d.cmdVerdict ch)

def Dev.cmdClrv (d : Dev) (ch s : Nat) : Dev :=
  d.onSlot ch s fun d =>
    let i := d.item s
    (d.setItem s { i with verdict := clearMask i.verdict (d.cmdVerdict ch) }).verdictSummary s

def Dev.cmdHarvest (d : Dev) (ch s : Nat) (nohr : Bool) : Dev := d.onSlot ch s fun d => d.harvest s 1 (!nohr)

/-- MOVE: the record takes its place in the list anew (R179, R191). -/
def Dev.cmdMove (d : Dev) (ch s : Nat) : Dev :=
  d.onSlot ch s fun d =>
    let i := d.item s
    let d := d.listOut i.beam s
    let d := d.setItem s { i with pos := (d.cmdBuf ch 2 + d.cmdBuf ch 3 * 2 ^ 32) % 2 ^ 48, len := d.cmdBuf ch 4 }
    (d.listIn i.beam s).touchCheck s

/-- FLUSH_BEAM: the items of the beam at the write are harvested, one in each beam cycle, and 32 cycles follow (R190, R191). -/
def Dev.cmdFlush (d : Dev) (ch s : Nat) : Dev :=
  let b := d.cmdBuf ch 15 % 8
  (d.cmdResult ch s 0).cmdBusy ch ⟨32, b, (d.beamList b).map fun x => (x, (d.item x).id)⟩

/-- Views of R192. -/
def Dev.beamLive (d : Dev) (b : Nat) : Nat := (d.beamList b).length

end Sys2Proof.Machine
end

