-- ==== Sys2Proof/Machine/Station.lean ====
section
/-! DEFINITION. Stations: candidates, decisions, furrow evaluations, actions and station pins (R196 to R216), and the camera triggers
of the beam die (R370, R371, R373). -/
namespace Sys2Proof.Machine

/-- STN_CFG of station `s`. -/
def Dev.stnCfg (d : Dev) (s : Nat) : Nat := d.rd (Reg.STN_CFG s)

def Dev.stnBeam (d : Dev) (s : Nat) : Nat := bits (d.stnCfg s) 12 3

def Dev.stnAction (d : Dev) (s : Nat) : Nat := bits (d.stnCfg s) 8 4

/-- W of a station, in dots (R196). -/
def Dev.stnW (d : Dev) (s : Nat) : Int := sx 32 (d.rd (Reg.STN_WE s)) - sx 32 (d.rd (Reg.STN_WS s))

/-- The configuration of a station is valid (R197). -/
def Dev.stnValid (d : Dev) (s : Nat) : Bool :=
  let c := d.stnCfg s
  let w := d.stnW s
  decide (1 ≤ w) && decide (w ≤ 2 ^ 28) && decide (d.stnAction s ≤ 9) &&
    !(tb c 28 && decide (9 ≤ bits c 22 6) && decide (bits c 22 6 ≤ 15))

/-- Enabled valid stations of beam `b`, in order. -/
def Dev.stnsOf (d : Dev) (b : Nat) : List Nat :=
  d.regs.filterMap fun p =>
    let o := p.1 - Reg.STN_CFG 0
    if Reg.STN_CFG 0 ≤ p.1 ∧ p.1 < Reg.STN_CFG 512 ∧ o % 0x40 = 0 ∧ tb p.2.toNat 31 ∧ bits p.2.toNat 12 3 = b ∧ d.stnValid (o / 0x40)
    then some (o / 0x40) else none

/-- Trigger position A_i of an item at a station (R196). -/
def Dev.trigL (d : Dev) (s : Nat) (i : Item) : Int :=
  let b := d.stnBeam s
  (d.itemL i + ((d.rd (Reg.STN_DIST s) : Int) + sx 32 (d.rd (Reg.STN_WS s))) * 2 ^ 32) % modL (d.fpf b)

/-- Length W as a linear count. -/
def Dev.stnWL (d : Dev) (s : Nat) : Int := d.stnW s * 2 ^ 32

/-- One furrow as a linear count. -/
def furrowLen : Int := 4096 * 2 ^ 32

/-- The item's window overlaps the furrow that starts at `lo` (R198). -/
def Dev.candidate (d : Dev) (s : Nat) (i : Item) (lo : Int) : Bool :=
  let x := distL (d.fpf (d.stnBeam s)) lo (d.trigL s i)
  decide (x < furrowLen) && decide (0 < x + d.stnWL s)

/-- The class-set registers as they stand; those not listed hold their reset value (R216). -/
def Dev.csetsNow (d : Dev) : Tab Word := d.regs.filter fun p => decide (Reg.STN_CSET 0 0 ≤ p.1) && decide (p.1 < Reg.STN_CSET 32 0)

/-- The item qualifies at the station, with the class sets as they stood at release (R198, R213). -/
def Dev.qualifies (d : Dev) (csets : Tab Word) (s : Nat) (i : Item) : Bool :=
  let set := match aget csets (Reg.STN_CSET (bits (d.stnCfg s) 15 5) (i.cls / 32)) with
    | some w => w.toNat
    | none => 0xFFFFFFFF
  i.state == 1 && !i.quiet && d.bit (Reg.STN_LANES s) i.lane && tb set (i.cls % 32)

/-- Count an action not carried out (R203, R206). -/
def Dev.actMiss (d : Dev) (s : Nat) : Dev := (d.inc (Reg.STN_ACT_MISS s)).evt 102 4

/-- Predicted line time at which beam `b` reaches a linear count, from its velocity alone (R200). -/
def Dev.predictV (d : Dev) (b : Nat) (a : Int) : Nat :=
  let dist := distL (d.fpf b) (d.estAt 0 b d.lt) a
  let v := (tget d.est b).last.vel * 2 ^ 16
  if 0 < v ∧ 0 ≤ dist then d.lt + ((dist * 1000 + v - 1) / v).toNat else d.lt

/-- The least number from `lo` to `hi` at which a condition that holds at `hi` begins to hold, by halving. -/
def leastFrom (p : Nat → Bool) : Nat → Nat → Nat → Nat
  | 0, _, hi => hi
  | n + 1, lo, hi => if hi ≤ lo then hi else let m := (lo + hi) / 2; if p m then leastFrom p n lo m else leastFrom p n (m + 1) hi

/-- Predicted line time at which the on-die estimate of beam `b`, with its velocity and acceleration, reaches a linear count (R64, R207). The time at
the velocity alone bounds the search: twice that, and for a beam that slows down the moment at which it would turn. A beam whose estimate does not
reach it gives the present line time (log 16). -/
def Dev.predict (d : Dev) (b : Nat) (a : Int) : Nat :=
  let e := (tget d.est b).last
  let there := fun (dt : Nat) => decide (0 ≤ distL (d.fpf b) a (d.estAt 0 b (d.lt + dt)))
  let far := 2 * (d.predictV b a - d.lt) + 4096
  let turn := ((e.lt : Int) - d.lt + e.vel * 1000000 / (-e.acc)).toNat
  let hi := if e.acc < 0 then min far turn else far
  if 0 < e.vel ∧ there hi then d.lt + leastFrom there 64 0 hi else d.lt

/-- POSA of a station message: A_i and the beam (R369, R447). -/
def Dev.posa (d : Dev) (b : Nat) (a : Int) : List Nat := leBytes 8 (posOf (d.fpf b) a + b * 2 ^ 48)

/-- A PRINT action is sent at its decision (R207). -/
def Dev.sendPrint (d : Dev) (s slot : Nat) (a : Int) : Dev :=
  let i := d.item slot
  let b := d.stnBeam s
  let t := d.predict b a
  let port := d.fld (Reg.STN_ARG s) 0 3
  let d := d.stemSend 0 3 (1 * 2 ^ 33) (leBytes 4 i.id ++ leBytes 2 slot ++ [port, 0] ++ leBytes 8 t ++ d.posa b a ++ leBytes 4 i.pjob ++ [0, 0, 0, 0])
  let d := (d.inc (Reg.STN_FIRED s)).wr (Reg.STN_LAST_ID s) i.id
  d.armPrint slot t

/-- The verdict that a station's condition tests (R199). -/
def Dev.testVerdict (d : Dev) (s : Nat) (i : Item) : Nat :=
  let pend := tb (d.stnCfg s) 29
  let v := i.verdict ||| (if pend && i.vpend != 0 then 32 else 0) ||| (if pend && i.printing then 8 else 0)
  v ||| (if (v &&& d.rd (Reg.ITEM_CLASS_REJ i.cls)) / 2 ≠ 0 then 1 else 0)

/-- The condition of a station (R199). -/
def Dev.stnGo (d : Dev) (s : Nat) (i : Item) : Bool :=
  let vm := d.rd (Reg.STN_VMASK s)
  let m := d.testVerdict s i &&& vm
  match bits (d.stnCfg s) 20 2 with
  | 0 => true
  | 1 => m != 0
  | 2 => m == 0
  | _ => m == vm

/-- The scheduled decisions. -/
def Dev.setSched (d : Dev) (l : List Sched) : Dev := { d with stn := { d.stn with sched := l } }

/-- decide(s, i) of R199; `late` when the beam has already entered the furrow. A PRINT is sent at its decision, but kept while the beam does not run
(R212). An action whose time, by the estimate, has passed is not carried out (R203). -/
def Dev.decideStn (d : Dev) (s slot : Nat) (late : Bool) : Dev :=
  let d := if late then d.setVerdict slot 16 else d
  let i := d.item slot
  let c := d.stnCfg s
  let b := d.stnBeam s
  let out := tb c 28 && (i.measuring || decide (i.len < d.rd (Reg.STN_LMIN s)) || decide (d.rd (Reg.STN_LMAX s) < i.len))
  let d := if out then (d.setVerdict slot (2 ^ bits c 22 6)).evt 102 64 else d
  let i := d.item slot
  let a := d.trigL s i
  let rest := d.stn.sched.filter fun e => !(e.stn == s && e.slot == slot && e.aL == a)
  let d := d.setSched rest
  let past := fun (l : Int) => decide (distL (d.fpf b) l a ≤ 0)
  if !d.stnGo s i then d
  else if bits c 8 4 = 3 ∧ (d.beam b).mode = .run then d.sendPrint s slot a
  else if bits c 8 4 ≠ 3 ∧ past (d.estAt 0 b d.lt) then d.actMiss s
  else d.setSched (rest ++ [⟨s, slot, i.id, a, past (d.beam b).l, none, 0⟩])

/-- A pulse of the item at the station contributes nothing in the furrow that starts at a dot (R201). -/
def Dev.pulseMute (d : Dev) (s slot lo : Nat) : Dev :=
  { d with stn := { d.stn with pulses := d.stn.pulses.map fun q =>
    if q.stn == s && q.slot == slot && q.stop.isNone then { q with mute := q.mute ++ [lo] } else q } }

/-- One qualifying candidate of a station in an evaluation, the `n`-th (R200, R201): its frontier is `front`. -/
def Dev.evalItem (d : Dev) (s slot n lo : Nat) (front : Int) (late : Bool) : Dev :=
  if 32 < n then ((d.setVerdict slot 2).inc (Reg.STN_MISSED s)).pulseMute s slot lo
  else
    let fpf := d.fpf (d.stnBeam s)
    let a := d.trigL s (d.item slot)
    let x := distL fpf ((lo : Int) * 2 ^ 32) a
    if 0 ≤ x ∧ x < furrowLen ∧ 0 < distL fpf front a then d.decideStn s slot late else d

/-- The overflow of a station in a furrow (R201). -/
def Dev.stnOverflow (d : Dev) (s over_ : Nat) : Dev :=
  if over_ = 0 then d else ((d.inc Reg.STN_OVF_CNT).evt 102 1).raise 103 (over_ % 65536 * 2 ^ 16 + s)

/-- The station is evaluated in a release (R213). -/
def Release.covers (r : Release) (s : Nat) : Bool := match r.only with | some t => t == s | none => !r.except.contains s

def Dev.checked (d : Dev) : Dev := { d with stn := { d.stn with checks := d.stn.checks + 1 } }

/-- A station of an evaluation is through: its overflow, and its candidates counted (R200, R201, R214). -/
def Dev.evalClose (x : Dev × Release × EvalRun) : Dev × Release × EvalRun :=
  let (d, r, u) := x
  match u.cur, u.cands with
  | some s, [] =>
    let old := tget r.counts s
    let d := d.stnOverflow s (if 32 < old then 0 else u.excess)
    (d.setF (Reg.STN_STATUS s) 8 6 (min u.n 63), { r with counts := tput r.counts s u.n }, { u with cur := none, n := 0, excess := 0 })
  | _, _ => x

/-- One check of an evaluation (R200, R202): a candidate of the present station, or the next station. -/
def Dev.evalCheck (x : Dev × Release × EvalRun) : Dev × Release × EvalRun :=
  let (d, r, u) := x
  match u.cur, u.cands with
  | some s, c :: rest =>
    let d := d.checked
    let u := { u with cands := rest }
    if !d.qualifies r.csets s (d.item c) then Dev.evalClose (d, r, u)
    else
      let n := u.n + 1
      let d := d.evalItem s c n r.lo (tget r.fronts s) (r.entered.isSome && !r.noLate)
      Dev.evalClose (d, r, { u with n := n, excess := u.excess + (if 32 < n then 1 else 0) })
  | _, _ =>
    match u.stns with
    | [] => x
    | s :: rest =>
      let lo : Int := (r.lo : Int) * 2 ^ 32
      let u := { u with stns := rest }
      if !(d.stnsOf r.beam).contains s || !r.covers s then (d, r, u)
      else
        let cs := (d.beamList r.beam).filter fun c => d.candidate s (d.item c) lo && !r.seen.contains (s, c)
        Dev.evalClose (d.checked, r, { u with cur := some s, cands := cs, n := tget r.counts s })

/-- Same evaluation. -/
def sameRel (a b : Release) : Bool := a.beam == b.beam && a.lo == b.lo && a.only == b.only

/-- Replace an evaluation. -/
def Dev.putRel (d : Dev) (r : Release) : Dev :=
  { d with stn := { d.stn with rel := d.stn.rel.map fun q => if sameRel q r then r else q } }

/-- The evaluation that the engine serves: the one under way, or else of those released 64 ns ago or longer the one with the earliest predicted
deadline (R200). -/
def Dev.nextRel (d : Dev) : Option Release :=
  match d.stn.rel.find? fun r => r.run.isSome with
  | some r => some r
  | none => (d.stn.rel.filter fun r => !r.done && decide (r.at0 + 64 ≤ d.lt)).foldl
      (fun m r => match m with | none => some r | some x => if r.dl < x.dl then some r else some x) none

/-- A late evaluation has run to completion (R203). -/
def Dev.evalLate (d : Dev) (b entered : Nat) : Dev :=
  let n := (d.lt - entered) / 4
  let d := (d.inc Reg.STN_LATE_CNT).wr Reg.STN_LATE_MAX (max n (d.rd Reg.STN_LATE_MAX))
  (d.evt 102 2).raise 104 (b + min n 0xFFFFFF * 2 ^ 8)

/-- STATION_EVALUATION (R200 to R203): the evaluation under way, or the next one, goes on by the eight checks of one beam cycle (log 94). -/
def Dev.stationEval (d : Dev) : Dev :=
  match d.nextRel with
  | none => d
  | some r =>
    if d.lt < d.stn.busy then d
    else
      let u := r.run.getD ⟨(d.stnsOf r.beam).filter r.covers, none, [], 0, 0⟩
      let d := { d with stn := { d.stn with busy := d.lt + 4 } }
      let (d, r, u) := forN 8 (fun _ x => Dev.evalCheck x) (d, r, u)
      if u.cur.isSome || !u.stns.isEmpty then d.putRel { r with run := some u }
      else
        let d := d.putRel { r with done := true, run := none }
        match r.entered with
        | some t => if r.noLate then d else d.evalLate r.beam t
        | none => d

/-- Release the evaluation of the furrow that starts at dot `lo` (R200): only while stations evaluate and the beam runs (R198, R212). -/
def Dev.releaseEval (d : Dev) (b lo : Nat) (only : Option Nat) (noLate : Bool) (entered : Option Nat) (fronts : Tab Int) : Dev :=
  if !d.bit Reg.STN_CTRL 0 || !d.runs || (d.beam b).mode != .run then d
  else
    let r : Release := { (default : Release) with beam := b, lo := lo, at0 := d.lt, fronts := fronts, csets := d.csetsNow, entered := entered, only := only }
    let r := { r with noLate := noLate, dl := d.predictV b ((lo : Int) * 2 ^ 32) }
    { d with stn := { d.stn with rel := (d.stn.rel.filter fun q => !sameRel q r) ++ [r] } }

/-- Dots of M. -/
def modNat (fpf : Nat) : Nat := 2 ^ 24 * fpf * 4096

/-- The check of an item that enters a beam list at one station in one released furrow (R204): it counts toward the limit of 32, and once past it the
station overflows, if it has not yet. The furrow that the beam is in has been entered, so a decision in it is late (DEDUCED from decide of R199,
log 96). `x.2` says whether it qualified within the limit. -/
def Dev.lateStn (slot s cur : Nat) (x : Dev × Bool) (r : Release) : Dev × Bool :=
  let d := x.1
  if !d.candidate s (d.item slot) ((r.lo : Int) * 2 ^ 32) then x
  else
    let d := d.checked.putRel { r with seen := r.seen ++ [(s, slot)] }
    if !d.qualifies r.csets s (d.item slot) then (d, x.2)
    else
      let n := (match r.run with | some u => if u.cur = some s then u.n else tget r.counts s | none => tget r.counts s) + 1
      let run := r.run.map fun u => if u.cur = some s then { u with n := n } else u
      let d := d.putRel { r with seen := r.seen ++ [(s, slot)], run := run, counts := tput r.counts s n }
      let behind := decide (distL (d.fpf r.beam) (d.beam r.beam).l (d.trigL s (d.item slot)) ≤ 0)
      let d := if behind && decide (n ≤ 32) then d else d.evalItem s slot n r.lo (tget d.stn.front s) (r.lo == cur)
      (if n = 33 then d.stnOverflow s 1 else d, x.2 || decide (n ≤ 32))

/-- The check of an item that enters a beam list (R204): every station of the beam in the released evaluations of the furrow the beam is in and of the
next one. A trigger behind the beam is spent, and counted once. -/
def Dev.lateEntry (d : Dev) (slot : Nat) : Dev :=
  let b := (d.item slot).beam
  let l := (d.beam b).l
  let cur := (l / furrowLen).toNat * 4096
  let next := (cur + 4096) % modNat (d.fpf b)
  (d.stnsOf b).foldl (fun d s =>
    let rels := fun (d : Dev) (lo : Nat) => d.stn.rel.filter fun r => r.beam == b && r.lo == lo && r.covers s
    let x := (rels d cur).foldl (Dev.lateStn slot s cur) (d, false)
    let (d, qual) := (rels x.1 next).foldl (Dev.lateStn slot s cur) x
    if qual && decide (distL (d.fpf b) l (d.trigL s (d.item slot)) ≤ 0) then d.actMiss s else d) d

/-- The first line time of the beam cycle that ends now at which a condition holds, or else its end. -/
def Dev.firstNs (d : Dev) (p : Nat → Bool) : Nat :=
  match (List.range 4).find? fun k => p (d.lt - 3 + k) with
  | some k => d.lt - 3 + k
  | none => d.lt

/-- A scheduled decision of a running beam as the beam steps from `l0` over `mv` and its estimate goes on from `e0` (R205, R211): it is due when the
estimate reaches A_i forward, if A_i was live just before the beam's step that crosses it; a step that crosses it when it was not drops it. -/
def Dev.schedStep (d : Dev) (b : Nat) (l0 mv e0 : Int) (e : Sched) : Option Sched :=
  let fpf := d.fpf b
  let live := decide (0 < distL fpf (tget d.stn.front e.stn) e.aL)
  let x := distL fpf l0 e.aL
  let steps := decide (0 < x) && decide (x ≤ mv)
  if d.stnBeam e.stn ≠ b ∨ e.due.isSome ∨ d.stnAction e.stn = 3 then some e
  else if steps && !e.crossed && !live then none
  else
    let e := { e with crossed := e.crossed || steps }
    let reached := fun (t : Nat) => decide (0 ≤ distL fpf e.aL (d.estAt 0 b t))
    if (e.crossed || live) && decide (0 < distL fpf e0 e.aL) && reached d.lt then some { e with due := some (d.firstNs reached), cyc := d.lt } else some e

/-- A position-ended pulse as the estimate of its running beam goes on from `e0` (R210): it ends at the first forward crossing of B_i or backward
crossing of A_i. -/
def Dev.pulseStep (d : Dev) (b : Nat) (e0 : Int) (q : Pulse) : Pulse :=
  let fpf := d.fpf b
  let past := fun (t : Nat) => decide (0 ≤ distL fpf q.bL (d.estAt 0 b t))
  let back := fun (t : Nat) => decide (distL fpf q.aL (d.estAt 0 b t) < 0)
  if q.beam ≠ b ∨ q.stop.isSome then q
  else if 0 < distL fpf e0 q.bL ∧ past d.lt then { q with stop := some (max q.start (d.firstNs past)) }
  else if 0 ≤ distL fpf q.aL e0 ∧ back d.lt then { q with stop := some (max q.start (d.firstNs back)) }
  else q

/-- Frontiers of a beam's stations after a step over `mv` (R211). -/
def Dev.frontStep (d : Dev) (b : Nat) (mv : Int) : Tab Int :=
  let fpf := d.fpf b
  let l := (d.beam b).l
  (d.stnsOf b).foldl (fun t s =>
    let f := tget t s
    if 0 < mv then (if 0 < distL fpf f l then tput t s l else t)
    else if mv < 0 then
      let lw := (l + d.stnWL s) % modL fpf
      if distL fpf f lw < 0 then tput t s lw else t
    else t) d.stn.front

/-- PRINT decisions that were kept while their beam did not run are sent, if their items are still there (R207, R212). -/
def Dev.printKept (d : Dev) (b : Nat) : Dev :=
  let mine := d.stn.sched.filter fun e => d.stnBeam e.stn == b && d.stnAction e.stn == 3
  mine.foldl (fun d e =>
    let i := d.item e.slot
    let d := d.setSched (d.stn.sched.filter (· != e))
    if i.state = 1 ∧ i.id = e.id then d.sendPrint e.stn e.slot e.aL else d.actMiss e.stn) d

/-- The evaluations that R213 releases for a station alone, of the furrow its beam is in and of the next one. -/
def Dev.releaseOnly (d : Dev) (s : Nat) : Dev :=
  let b := d.stnBeam s
  let cur := ((d.beam b).l / furrowLen).toNat * 4096
  (d.releaseEval b cur (some s) true none d.stn.front).releaseEval b ((cur + 4096) % modNat (d.fpf b)) (some s) false none d.stn.front

/-- The evaluations of R213 that waited for their beam to run (R212; DESIGN CHOICE, log 95). -/
def Dev.releaseOwed (d : Dev) (b : Nat) : Dev :=
  let mine := d.stn.owed.filter fun s => d.stnBeam s == b
  mine.foldl (fun d s => if (d.stnsOf b).contains s then d.releaseOnly s else d)
    { d with stn := { d.stn with owed := d.stn.owed.filter fun s => !mine.contains s } }

/-- Evaluations whose furrow the beam enters, and those done that it has left behind (R200, R203). -/
def Dev.relStep (d : Dev) (b : Nat) (l0 mv : Int) : List Release :=
  let fpf := d.fpf b
  let l := (d.beam b).l
  let rel := d.stn.rel.map fun r =>
    let x := distL fpf l0 ((r.lo : Int) * 2 ^ 32)
    if r.beam == b && r.entered.isNone && decide (0 < x) && decide (x ≤ mv) then { r with entered := some d.lt } else r
  rel.filter fun r =>
    let x := distL fpf ((r.lo : Int) * 2 ^ 32) l
    !(r.beam == b && r.done && (decide (2 * furrowLen ≤ x) || decide (x < -(2 * furrowLen))))

/-- The stations' own part of a movement of beam `b` from `l0` over `mv` (R200, R205, R210 to R212). A step over several boundaries releases every furrow
it enters, of which the first may have been released by the crossing before it, and the one after the last (log 94). -/
def Dev.stnCycle (d : Dev) (b : Nat) (l0 mv : Int) : Dev :=
  let fpf := d.fpf b
  let bm := d.beam b
  let now := d.estAt 0 b d.lt
  let e0 := (aget d.stn.est b).getD now
  let d := { d with stn := { d.stn with est := aset d.stn.est b (some now) } }
  if bm.mode ≠ .run then { d with stn := { d.stn with front := d.frontStep b bm.jumped } }
  else
    let fronts := d.stn.front
    let stn := { d.stn with sched := d.stn.sched.filterMap (d.schedStep b l0 mv e0), pulses := d.stn.pulses.map (d.pulseStep b e0) }
    let d := { d with stn := { stn with rel := d.relStep b l0 mv, front := d.frontStep b mv } }
    let d := (d.printKept b).releaseOwed b
    let fwd := (bm.crossings.filter (·.2)).map (·.1)
    let first := fwd.headD 0
    let stands := d.stn.rel.any fun (r : Release) => r.beam == b && r.lo == first && r.only.isNone
    let d := if decide (1 < fwd.length) && !stands then d.releaseEval b first none false (some d.lt) fronts else d
    let last := fwd.length - 1
    (fwd.zip (List.range fwd.length)).foldl (fun d p =>
      d.releaseEval b ((p.1 + 4096) % modNat fpf) none false (if p.2 < last then some d.lt else none) fronts) d

/-- STN_LOAD at the end of a millisecond of line time (R202). -/
def Dev.stnLoad (d : Dev) : Dev :=
  let v := min (d.stn.checks / 1000) 65535
  let d := (d.wr Reg.STN_LOAD v).wr Reg.STN_LOAD_MAX (max v (d.rd Reg.STN_LOAD_MAX))
  { d with stn := { d.stn with checks := 0 } }

/-- What a change of a register of station `s`, or of BEAM_FPF of its beam, does to its decisions (R213): evaluations already released leave it out, and
its own two replace them, at once or when its beam runs. -/
def Dev.stnAnew (d : Dev) (s : Nat) : Dev :=
  let leave := fun (r : Release) =>
    let run := r.run.map fun u => if u.cur = some s then { u with cur := none, cands := [], n := 0, excess := 0 } else u
    { r with except := if r.except.contains s then r.except else r.except ++ [s], run := run }
  let stn := { d.stn with sched := d.stn.sched.filter fun e => e.stn != s, front := tput d.stn.front s (d.beam (d.stnBeam s)).l }
  let d := { d with stn := { stn with rel := (stn.rel.filter fun (r : Release) => r.only != some s).map leave, owed := stn.owed.filter (· != s) } }
  let d := d.setF (Reg.STN_STATUS s) 0 1 (b2n (!d.stnValid s))
  if !tb (d.stnCfg s) 31 || !d.stnValid s then d
  else if (d.beam (d.stnBeam s)).mode = .run then d.releaseOnly s
  else { d with stn := { d.stn with owed := d.stn.owed ++ [s] } }

/-- A commit changed a register of station `s` (R197, R213): BAD_CFG is set if it left the configuration invalid. -/
def Dev.stnChanged (d : Dev) (s : Nat) : Dev :=
  let d := d.stnAnew s
  if d.stnValid s then d else d.evt 102 8

/-- A change of BEAM_FPF changes every station of the beam (R213). -/
def Dev.stnFpf (d : Dev) (b : Nat) : Dev := (d.stnsOf b).foldl (fun d s => d.stnAnew s) d

/-- Order of the actions that are due (R206): by beam cycle, then by station, then in list order. -/
def Dev.actBefore (d : Dev) (a b : Sched) : Bool :=
  let place := fun (e : Sched) => (d.beamList (d.stnBeam e.stn)).idxOf e.slot
  decide (a.cyc < b.cyc) || a.cyc == b.cyc && (decide (a.stn < b.stn) || a.stn == b.stn && decide (place a < place b))

/-- The action of a station that is due for a slot, once those before it in order have been carried out (R206). -/
def Dev.dueAct (d : Dev) (s slot kind : Nat) : Option (Sched × Nat) :=
  match d.stn.sched.find? fun e => e.stn == s && e.slot == slot && e.due.isSome with
  | some e =>
    if d.stnAction s = kind ∧ !(d.stn.sched.any fun x => x.due.isSome && d.actBefore x e) then some (e, e.due.getD 0) else none
  | none => none

/-- Carry out an action that is due (R205, R206): `f` is its effect at t_A; `ok` says whether it may act at all. -/
def Dev.act (d : Dev) (s slot kind : Nat) (ok : Sched → Bool) (f : Sched → Nat → Dev → Dev) : Dev :=
  match d.dueAct s slot kind with
  | none => d
  | some (e, t) =>
    let d := { d with stn := { d.stn with sched := d.stn.sched.filter (· != e) } }
    if ok e then f e t ((d.inc (Reg.STN_FIRED s)).wr (Reg.STN_LAST_ID s) e.id) else d.actMiss s

/-- The item of a scheduled action is still LIVE on the station's beam (R206). -/
def Dev.actLive (d : Dev) (e : Sched) : Bool :=
  let i := d.item e.slot
  i.state == 1 && i.id == e.id && i.beam == d.stnBeam e.stn

/-- Set STN_EVT.BAD_ARG unless the argument is valid (R206). -/
def Dev.badArg (d : Dev) (ok : Bool) : Dev := if ok then d else d.evt 102 16

def Dev.actNone (d : Dev) (s slot : Nat) : Dev := d.act s slot 0 (fun _ => true) fun _ _ d => d

/-- A station pulse is active at line time `t` (R210). -/
def pulseLive (t : Nat) (q : Pulse) : Bool := decide (q.start ≤ t) && (match q.stop with | none => true | some e => decide (t < e))

/-- A pulse shows at its pin at line time `t`: it is active, and the beam is in no furrow in which it contributes nothing (R201). -/
def Dev.pulseShows (d : Dev) (t : Nat) (q : Pulse) : Bool :=
  pulseLive t q && !(!q.mute.isEmpty && q.mute.contains ((d.estAt 0 q.beam t / furrowLen).toNat * 4096))

/-- The input of the unit of STN[p] is active at line time `t` (R209). -/
def Dev.stnInputAt (d : Dev) (p t : Nat) : Bool :=
  d.switchIn p || (d.stn.pulses.any fun q => q.pin == p && d.pulseShows t q) || d.bit (Reg.STN_PIN_CFG p) 1

def Dev.stnInput (d : Dev) (p : Nat) : Bool := d.stnInputAt p d.lt

/-- The level that the unit drives (R209). -/
def Dev.stnLevel (d : Dev) (p : Nat) : Bool := d.stnInput p != d.bit (Reg.STN_PIN_CFG p) 0

/-- PIN index of STN[p] (R257, R360). -/
def pinStn (p : Nat) : Nat := 64 + p

def Dev.pinShort (d : Dev) : Dev := (d.inc Reg.STN_PIN_SHORT).evt 102 32

def Dev.stnPin (d : Dev) (p : Nat) : StnPin := tget d.stn.pins p

def Dev.setStnPin (d : Dev) (p : Nat) (q : StnPin) : Dev := { d with stn := { d.stn with pins := tput d.stn.pins p q } }

/-- The last edge of a unit can no longer prove too short: the pin shows it (R208, R209). -/
def Dev.pinShow (d : Dev) (p : Nat) : Dev :=
  let q := d.stnPin p
  match q.edge with
  | none => d
  | some (t, v, _) => (d.setStnPin p { q with lvl := v, edge := none }).emit (.pin (pinStn p) (v != q.pol) t)

/-- The input of a unit has level `v` from line time `t` on (R209). An active period or gap of less than 4 ns that a station pulse begins or ends is
suppressed and counted; a pulse that starts no later than another's end leaves no gap. -/
def Dev.pinEdge (d : Dev) (p t : Nat) (v byPulse : Bool) : Dev :=
  let q := d.stnPin p
  match q.edge with
  | none => if v = q.lvl then d else d.setStnPin p { q with edge := some (t, v, byPulse) }
  | some (t0, v0, by0) =>
    if v = v0 then d
    else if !v0 && decide (t ≤ t0) then d.setStnPin p { q with edge := none }
    else if decide (t < t0 + 4) && (by0 || byPulse) then (d.setStnPin p { q with edge := none }).pinShort
    else
      let d := d.pinShow p
      d.setStnPin p { d.stnPin p with edge := some (t, v, byPulse) }

/-- The unit of STN[p] follows its input up to line time `t`: first the ends of pulses not yet looked at, then `t` itself. -/
def Dev.pinTo (d : Dev) (p t : Nat) (byPulse : Bool) : Dev :=
  let u := (d.stnPin p).upto
  let ends := (d.stn.pulses.filterMap fun q => if q.pin == p then q.stop else none).filter fun e => decide (u < e) && decide (e ≤ t)
  let d := (ends.foldl putNat []).foldl (fun d e => d.pinEdge p e (d.stnInputAt p e) true) d
  let d := d.pinEdge p t (d.stnInputAt p t) byPulse
  d.setStnPin p { d.stnPin p with upto := max u t }

/-- One unit in a beam cycle: it follows its input, shows an edge that is 8 ns old, since a pulse that starts within 4 ns of it has been carried out by then
(R205), and takes a change of POL. -/
def Dev.stnPinCycle (d : Dev) (p : Nat) : Dev :=
  let d := d.pinTo p d.lt false
  let d := match (d.stnPin p).edge with
    | some (t, _, _) => if t + 8 ≤ d.lt then d.pinShow p else d
    | none => d
  let q := d.stnPin p
  let pol := d.bit (Reg.STN_PIN_CFG p) 0
  if q.pol = pol then d else (d.setStnPin p { q with pol := pol }).emit (.pin (pinStn p) (q.lvl != pol) d.lt)

/-- The station output units in a beam cycle (R209). -/
def Dev.stnPins (d : Dev) : Dev := forN 64 (fun p d => d.stnPinCycle p) d

/-- PULSE_END: pulses that have lasted their width, or that their positions have ended, end (R210). -/
def Dev.pulseEnd (d : Dev) : Dev :=
  let done := fun (q : Pulse) => match q.stop with | some e => decide (e ≤ d.lt) | none => false
  let d := ((d.stn.pulses.filter done).map (·.pin)).eraseDups.foldl (fun d p => d.pinTo p d.lt false) d
  { d with stn := { d.stn with pulses := d.stn.pulses.filter fun q => !done q } }

/-- PULSE (R209, R210): time-ended after WIDTH ns, or ended by position, which the estimate may have reached already. -/
def Dev.actPulse (d : Dev) (s slot : Nat) : Dev :=
  d.act s slot 1 (fun _ => true) fun e t d =>
    let b := d.stnBeam s
    let arg := d.rd (Reg.STN_ARG s)
    let p := bits arg 0 6
    let w := bits arg 8 24
    let bL := (e.aL + d.stnWL s) % modL (d.fpf b)
    let past := fun (k : Nat) => decide (0 ≤ distL (d.fpf b) bL (d.estAt 0 b (t + k)))
    let stop := if w ≠ 0 then some (t + w)
      else if past (d.lt - t) then some (t + leastFrom past 64 0 (d.lt - t))
      else if distL (d.fpf b) e.aL (d.estAt 0 b d.lt) < 0 then some d.lt else none
    let d := d.pinTo p t true
    let q : Pulse := ⟨s, slot, p, b, e.aL, bL, t, stop, []⟩
    let d := { d with stn := { d.stn with pulses := d.stn.pulses ++ [q] } }
    d.pinEdge p t (d.stnInputAt p t) true

/-- SWITCH_EDGE: the edges that the estimate has reached in this beam cycle, each at its line time, with the unit of the pin that the channel is routed to
(R152, R209). -/
def Dev.switchPin (d : Dev) (c : Nat) : Dev :=
  [3, 2, 1, 0].foldl (fun d k =>
    let e := d.switchEdge c (d.lt - k)
    if tget e.cam.level c == tget d.cam.level c then e else e.pinTo (bits (d.rd (Reg.CAM_CHAN_ROUTE c)) 0 6) (d.lt - k) false) d

def Dev.trigPort (d : Dev) (p : Nat) : TrigPort := tget d.trig p

def Dev.setTrig (d : Dev) (p : Nat) (q : TrigPort) : Dev := { d with trig := tput d.trig p q }

/-- Width of the trigger pulse of port `p` (R370, R394). -/
def Dev.trigWidth (d : Dev) (p : Nat) : Nat :=
  let c := d.rd (Reg.CAMIN_TRIG p)
  if tb c 31 then clampN 100 4000000 (d.rd (Reg.CAMIN_EXPOSURE p)) else if bits c 0 16 = 0 then 100 else bits c 0 16

/-- The trigger pulse and strobe of port `p` at line time `t` (R370). -/
def Dev.trigPulse (d : Dev) (p t : Nat) : Dev :=
  let w := d.trigWidth p
  let st := d.rd (Reg.CAMIN_STROBE p)
  let sw := bits st 0 16
  let s0 := t + bits st 16 14
  let q := d.trigPort p
  let strobe := if tb st 31 then [(s0, if sw = 0 then t + w else s0 + sw)] else []
  let still := fun (l : List (Nat × Nat)) => l.filter fun e => decide (d.lt < e.2)
  let d := d.setTrig p { q with last := some t, pulses := still q.pulses ++ [(t, t + w)], strobes := still q.strobes ++ strobe }
  if d.fld (Reg.PIN_CFG (160 + p)) 0 2 = 0 then d.emit (.pin (160 + p) (!d.bit (Reg.CAMIN_TRIG p) 30) t) else d

/-- One of the intervals holds line time `t`. -/
def within (l : List (Nat × Nat)) (t : Nat) : Bool := l.any fun e => decide (e.1 ≤ t) && decide (t < e.2)

/-- CAM_TRIG[p] is active now, before POL. -/
def Dev.trigOn (d : Dev) (p : Nat) : Bool := within (d.trigPort p).pulses d.lt

/-- CAM_STROBE[p] is active now, before POL. -/
def Dev.strobeOn (d : Dev) (p : Nat) : Bool := within (d.trigPort p).strobes d.lt

/-- A camera tag (R371): `low` is byte 6. -/
def tagBytes (i : Item) (slot low key : Nat) (posa : List Nat) (trigno : Nat) : List Nat :=
  leBytes 4 i.id ++ leBytes 2 slot ++ [low, i.cls] ++ leBytes 8 key ++ posa ++ leBytes 4 i.pjob ++ leBytes 4 trigno

/-- Send a camera tag to the image die (R338, R371). -/
def Dev.sendTag (d : Dev) (bs : List Nat) : Dev := d.stemSend 0 3 0 bs

/-- CAMERA (R205, R370, R371, R373): the edge and the tag in AREA mode, the tag held for its first line in LINE mode. -/
def Dev.actCamera (d : Dev) (s slot : Nat) : Dev :=
  let ok := d.actLive
  d.act s slot 2 ok fun e t d =>
    let p := d.fld (Reg.STN_ARG s) 0 4
    let i := d.item slot
    let posa := d.posa (d.stnBeam s) e.aL
    let d := d.armCamera slot t
    if d.bit (Reg.CAMIN_CFG p) 27 then
      let at_ := (e.aL + sx 32 (d.rd (Reg.CAMIN_LINE_OFS p)) * 2 ^ 32) % modL (d.fpf (d.stnBeam s))
      let q := d.trigPort p
      d.setTrig p { q with held := q.held ++ [(at_, tagBytes i slot (p + 64) t posa 0)] }
    else
      let hold := d.fld (Reg.CAMIN_TRIG p) 16 14 * 1000
      let blocked := match (d.trigPort p).last with | some u => decide (t < u + hold) | none => false
      let d := if blocked then d else d.trigPulse p t
      d.sendTag (tagBytes i slot (p + b2n blocked * 128) t posa 0)

/-- The port's line triggers start anew at the beam's position: a restart, or a new scale of its beam (R39, R373, R393). -/
def Dev.trigAnew (d : Dev) (p : Nat) : Dev :=
  d.setTrig p { d.trigPort p with front := some (d.beam (d.fld (Reg.CAMIN_LINE p) 0 3)).l }

/-- Line triggers of the LINE ports on beam `b` after a forward movement (R373); each falls, within the beam cycle, where the movement reaches it
(R208). -/
def Dev.lineTriggers (d : Dev) (b : Nat) (l0 mv : Int) : Dev :=
  let fpf := d.fpf b
  forN 16 (fun p d =>
    let c := d.rd (Reg.CAMIN_CFG p)
    if !tb c 31 || !tb c 27 || d.fld (Reg.CAMIN_LINE p) 0 3 != b || decide (mv ≤ 0) then d
    else
      let pitch : Int := (max 1 (d.fld (Reg.CAMIN_LINE_PITCH p) 0 24) : Nat)
      let phase : Int := (d.fld (Reg.CAMIN_LINE_PHASE p) 0 24 : Nat)
      let q := d.trigPort p
      let front := q.front.getD l0
      let start := if 0 < distL fpf l0 front then front else l0
      let stop := (l0 + mv) % modL fpf
      let s0 := start / 2 ^ 32
      let first := s0 + 1 + (phase - (s0 + 1)) % pitch
      let past := (start + distL fpf start stop) / 2 ^ 32
      let n : Nat := if past < first then 0 else ((past - first) / pitch + 1).toNat
      let d := d.setTrig p { q with front := some (if 0 < distL fpf front stop then stop else front) }
      forN n (fun k d =>
        let pos : Int := ((first + (k : Int) * pitch) * 2 ^ 32) % modL fpf
        let t := d.lt - (4 * distL fpf pos stop / mv).toNat
        let q := d.trigPort p
        let fast := match q.last with | some u => decide (t < u + 1000) | none => false
        if fast then (if d.dataOff then d else d.evt (384 + p) 64)
        else
          let d := d.trigPulse p t
          let q := d.trigPort p
          let go := q.held.filter fun h => decide (0 ≤ distL fpf h.1 pos)
          let d := d.setTrig p { q with count := q.count + 1, held := q.held.filter fun h => decide (distL fpf h.1 pos < 0) }
          go.foldl (fun d h => d.sendTag (h.2.take 28 ++ leBytes 4 q.count)) d) d) d

/-- A new scale of beam `b`: its LINE ports start at its position, and the tags they hold go with their next triggers (R39, log 101). -/
def Dev.trigFpf (d : Dev) (b : Nat) : Dev :=
  forN 16 (fun p d =>
    if d.bit (Reg.CAMIN_CFG p) 27 && d.fld (Reg.CAMIN_LINE p) 0 3 == b then
      let d := d.trigAnew p
      d.setTrig p { d.trigPort p with held := (d.trigPort p).held.map fun h => ((d.beam b).l, h.2) }
    else d) d

def Dev.actOverride (d : Dev) (s slot : Nat) : Dev :=
  d.act s slot 4 (fun _ => true) fun _ _ d => d.camOverride (d.fld (Reg.STN_ARG s) 0 10)

/-- The argument of an EVENT action lies in the station range (R205, R317). -/
def Dev.eventArgOk (d : Dev) (s : Nat) : Bool :=
  let k := d.fld (Reg.STN_ARG s) 0 9
  decide (320 ≤ k) && decide (k < 384)

def Dev.actEvent (d : Dev) (s slot : Nat) : Dev :=
  let ok := d.eventArgOk s
  let d := if (d.dueAct s slot 5).isSome then d.badArg ok else d
  d.act s slot 5 (fun _ => ok) fun e t d =>
    let b := d.stnBeam s
    d.raiseAt (d.fld (Reg.STN_ARG s) 0 9) e.id b t (posOf (d.fpf b) e.aL)

def Dev.actHarvest (d : Dev) (s slot : Nat) : Dev :=
  let ok := d.actLive
  d.act s slot 6 ok fun _ _ d => d.harvest slot 0 true

/-- TRANSFER (R181, R206). R181 lets an OFF target supply its held position, R206 calls such a target an invalid argument: the model follows R206
(log 93). -/
def Dev.actTransfer (d : Dev) (s slot : Nat) : Dev :=
  let arg := d.rd (Reg.STN_ARG s)
  let tb_ := bits arg 0 3
  let on := (d.beam tb_).mode != .off
  let live := d.actLive
  let d := if (d.dueAct s slot 7).isSome then d.badArg on else d
  d.act s slot 7 (fun e => on && live e) fun _ t d =>
    (d.transfer slot tb_ (if tb arg 8 then some (bits arg 3 5) else none) (sx 32 (d.rd (Reg.STN_ARG2 s))) (bits arg 15 17) t).lateEntry slot

/-- SOW (R178, R205): refused sows count as any other. -/
def Dev.actSow (d : Dev) (s slot : Nat) : Dev :=
  d.act s slot 9 (fun _ => true) fun e t d =>
    let arg := d.rd (Reg.STN_ARG s)
    let b := d.stnBeam s
    let l := (e.aL - sx 32 (d.rd (Reg.STN_ARG2 s)) * 2 ^ 32) % modL (d.fpf b)
    if !d.bit Reg.ITEM_CTRL 0 || !d.runs then d.inc Reg.ITEM_SOW_DROP
    else match d.takeSlot true with
      | (none, d) => d
      | (some n, d) =>
        let (i, d) := d.newItem b (bits arg 8 5) (bits arg 0 8) l (d.tickOf t) (d.genAt t) 1 false
        (((d.setItem n i).listIn b n).touchCheck n).lateEntry n

/-- Command SOW with the check of an item that enters a list (R191, R204). -/
def Dev.cmdSowNow (d : Dev) (ch : Nat) (autoId : Bool) : Dev :=
  let d := d.cmdSow ch autoId
  if d.fld (Reg.ITEM_CMD_STATUS ch) 4 4 = 0 then d.lateEntry (d.fld (Reg.ITEM_CMD_STATUS ch) 16 16) else d

/-- Command MOVE with the same check (R191, R204). -/
def Dev.cmdMoveNow (d : Dev) (ch s : Nat) : Dev :=
  let d := d.cmdMove ch s
  if d.fld (Reg.ITEM_CMD_STATUS ch) 4 4 = 0 then d.lateEntry s else d

/-- A sensor capture with the same check (R175, R204). -/
def Dev.captureNow (d : Dev) (n te : Nat) (rising : Bool) : Dev :=
  match d.sowCapture n te rising with
  | (some s, d) => d.lateEntry s
  | (none, d) => d

/-- STN_STATUS[s] (R214). -/
def Dev.stnStatus (d : Dev) (s : Nat) : Nat :=
  b2n (!d.stnValid s) + b2n (d.stn.pulses.any fun q => q.stn == s && pulseLive d.lt q) * 2 + d.fld (Reg.STN_STATUS s) 8 6 * 2 ^ 8

/-- STN_PIN_STATE[p] (R216). -/
def Dev.stnPinState (d : Dev) (p : Nat) : Nat := b2n (d.stnLevel p) + b2n (d.stn.pulses.any fun q => q.pin == p && pulseLive d.lt q) * 2 + b2n (d.switchIn p) * 4

end Sys2Proof.Machine
end

