-- ==== Sys2Proof/Machine/Camera.lean ====
section
/-! DEFINITION. The camera ports on the image die: packets, tags, frames, abandons and I²C (14, R367 to R377, R393 to R395). -/
namespace Sys2Proof.Machine

def Dev.camPort (d : Dev) (p : Nat) : CamIn := tget d.camin p

def Dev.setCam (d : Dev) (p : Nat) (q : CamIn) : Dev := { d with camin := tput d.camin p q }

/-- One element of a list whose choice the spec leaves open, a free value (log 1). -/
def Dev.pick (d : Dev) (l : List Nat) : Option Nat × Dev :=
  match l with
  | [] => (none, d)
  | [x] => (some x, d)
  | l => let (n, d) := d.fresh 32
         (l[n % l.length]?, d)

/-- CAMIN_EVT of port `p`. -/
def Dev.camEvt (d : Dev) (p m : Nat) : Dev := d.evt (384 + p) m

def Dev.camLine (d : Dev) (p : Nat) : Bool := d.bit (Reg.CAMIN_CFG p) 27

def Dev.camDt (d : Dev) (p : Nat) : Nat := d.fld (Reg.CAMIN_CFG p) 14 6

/-- Bytes per pixel of a data type, none for one the ports do not accept (R367, R369). -/
def dtBpp (dt : Nat) : Option Nat :=
  if dt = 0x2A then some 1
  else if dt = 0x2B ∨ dt = 0x2C ∨ dt = 0x2D ∨ dt = 0x1E then some 2
  else if dt = 0x24 then some 4 else none

/-- Sample depth (R381). -/
def dtDepth (dt : Nat) : Nat := if dt = 0x2B then 10 else if dt = 0x2C then 12 else if dt = 0x2D then 14 else 8

def Dev.camW (d : Dev) (p : Nat) : Nat := d.fld (Reg.CAMIN_SIZE p) 0 16

/-- Lines of a frame (R369). -/
def Dev.camH (d : Dev) (p : Nat) : Nat :=
  if d.camLine p then max 1 (d.fld (Reg.CAMIN_LINE_FRAME p) 0 16) else d.fld (Reg.CAMIN_SIZE p) 16 16

/-- CAMIN_CFG, CAMIN_SIZE and CAMIN_PHY are valid (R394). -/
def Dev.camValid (d : Dev) (p : Nat) : Bool :=
  let c := d.rd (Reg.CAMIN_CFG p)
  let w := d.camW p
  let h := d.fld (Reg.CAMIN_SIZE p) 16 16
  let r := d.fld (Reg.CAMIN_PHY p) 0 13
  bits c 28 2 != 3 && (dtBpp (bits c 14 6)).isSome && decide (16 ≤ w) && decide (w ≤ 8192) && decide (1 ≤ h) && decide (h ≤ 8192)
    && decide (80 ≤ r) && decide (r ≤ 4500) && !(bits c 14 6 == 0x1E && w % 2 == 1)

/-- STRIDE (R369). -/
def Dev.camStride (d : Dev) (p : Nat) : Nat := (d.camW p * (dtBpp (d.camDt p)).getD 1 + 63) / 64 * 64

/-- Bytes of a slot for frames of `h` lines (R369). -/
def Dev.camSlotLen (d : Dev) (p h : Nat) : Nat := (64 + d.camStride p * h + 4095) / 4096 * 4096

def Dev.camSlots (d : Dev) (p : Nat) : Nat := 2 ^ min 6 (d.fld (Reg.CAMIN_FB_CFG p) 0 3)

/-- Address of slot `s` (R369). -/
def Dev.camSlotAddr (d : Dev) (p s : Nat) : Nat :=
  d.fld (Reg.CAMIN_FB_BASE p) 12 36 * 4096 + s * d.camSlotLen p (d.camH p)

/-- Send a verdict message from the image die (R186, R375). -/
def Dev.sendVerdict (d : Dev) (slot id kind bits_ key last : Nat) : Dev :=
  d.stemSend 1 2 (slot % 65536 * 2 ^ 26)
    (leBytes 4 id ++ [kind, 0, 0, 0] ++ leBytes 8 bits_ ++ leBytes 8 key ++ leBytes 8 last)

/-- Abandon the tag or the frame of a tag (R375). -/
def Dev.camAbandon (d : Dev) (p : Nat) (tag : List Nat) : Dev :=
  ((d.inc (Reg.CAMIN_ABANDON p)).camEvt p 2).sendVerdict (leAt tag 4 2) (leAt tag 0 4) 1 0 (leAt tag 8 8) 0

/-- Free a slot of port `p` (R375, R377). -/
def Dev.camFree (d : Dev) (p s : Nat) : Dev :=
  let q := d.camPort p
  d.setCam p { q with used := q.used.filter (· != s) }

/-- Abandon an open frame and free its slot. -/
def Dev.camDrop (d : Dev) (p : Nat) (f : CamFrame) : Dev :=
  let q := d.camPort p
  ((d.setCam p { q with frames := q.frames.filter (· != f) }).camFree p f.slot).camAbandon p f.tag

/-- A free slot of port `p`; which of several is a free value. -/
def Dev.camTake (d : Dev) (p : Nat) : Option Nat × Dev :=
  let q := d.camPort p
  let (s, d) := d.pick ((List.range (d.camSlots p)).filter fun s => !q.used.contains s)
  match s with
  | none => (none, d)
  | some s => (some s, d.setCam p { d.camPort p with used := s :: (d.camPort p).used })

/-- Open a frame for a tag, or abandon the tag with FB_FULL; says whether it opened (R372, R373). -/
def Dev.camOpen (d : Dev) (p : Nat) (tag : List Nat) (first : Nat) : Bool × Dev :=
  match d.camTake p with
  | (none, d) => (false, (d.camEvt p 32).camAbandon p tag)
  | (some s, d) =>
    let q := d.camPort p
    (true, d.setCam p { q with frames := q.frames ++ [⟨tag, s, d.camSlotAddr p s, d.camH p, first, 0, 0, 0, 0⟩] })

/-- Samples of four RAW10 or RAW14 or two RAW12 pixels packed as CSI-2 packs them (log 17). -/
def unpack10 : List Nat → List Nat
  | a :: b :: c :: e :: l :: t =>
    (a * 4 + bits l 0 2) :: (b * 4 + bits l 2 2) :: (c * 4 + bits l 4 2) :: (e * 4 + bits l 6 2) :: unpack10 t
  | _ => []

def unpack12 : List Nat → List Nat
  | a :: b :: l :: t => (a * 16 + bits l 0 4) :: (b * 16 + bits l 4 4) :: unpack12 t
  | _ => []

def unpack14 : List Nat → List Nat
  | a :: b :: c :: e :: x :: y :: z :: t =>
    let l := x + y * 2 ^ 8 + z * 2 ^ 16
    (a * 64 + bits l 0 6) :: (b * 64 + bits l 6 6) :: (c * 64 + bits l 12 6) :: (e * 64 + bits l 18 6) :: unpack14 t
  | _ => []

/-- RGB888 pixels, received blue first, as bytes R, G, B, 0 (R369; log 17). -/
def unpackRgb : List Nat → List (List Nat)
  | b :: g :: r :: t => [r, g, b, 0] :: unpackRgb t
  | _ => []

/-- The pixels of a received line in memory form, one list of bytes each (R369). -/
def linePixels (dt : Nat) (bs : List Nat) : List (List Nat) :=
  if dt = 0x2B then (unpack10 bs).map (leBytes 2)
  else if dt = 0x2C then (unpack12 bs).map (leBytes 2)
  else if dt = 0x2D then (unpack14 bs).map (leBytes 2)
  else if dt = 0x24 then unpackRgb bs
  else if dt = 0x1E then (List.range (bs.length / 2)).map fun i => [bs.getD (2 * i) 0, bs.getD (2 * i + 1) 0]
  else bs.map fun b => [b]

/-- A line cut or zero-filled to WIDTH, with STATUS bits (R369): 2 SHORT, 4 TRUNC. -/
def Dev.fitLine (d : Dev) (p : Nat) (px : List (List Nat)) : List Nat × Nat :=
  let w := d.camW p
  let bpp := (dtBpp (d.camDt p)).getD 1
  let bs := (px.take w).flatten
  (bs ++ List.replicate (w * bpp - bs.length) 0, if px.length < w then 2 else if w < px.length then 4 else 0)

/-- Write line `y` of a frame and note it (R369). -/
def Dev.camPut (d : Dev) (p : Nat) (f : CamFrame) (y : Nat) (l : CamLine) : Dev :=
  let d := d.engineWrite (f.addr + 64 + d.camStride p * y) l.bytes
  let q := d.camPort p
  let f' := { f with lines := f.lines + 1, t0 := if f.lines = 0 then l.t0 else f.t0, t1 := l.t1, status := f.status ||| l.status }
  d.setCam p { q with frames := q.frames.map fun g => if g = f then f' else g }

/-- SHORT and TRUNC of a frame are also events (R395). -/
def Dev.camFit (d : Dev) (p st : Nat) : Dev :=
  let d := if tb st 1 then d.camEvt p 256 else d
  if tb st 2 then d.camEvt p 512 else d

/-- The frame header (R369). -/
def Dev.camHeader (d : Dev) (p : Nat) (f : CamFrame) (fseq : Nat) : List Nat :=
  let t := f.tag
  t.take 6 ++ [p] ++ (t.drop 7).take 1 ++ (t.drop 8).take 8 ++ (t.drop 16).take 8 ++ (t.drop 24).take 4 ++ leBytes 4 fseq
    ++ leBytes 8 f.t0 ++ leBytes 8 f.t1 ++ leBytes 2 (d.camW p) ++ leBytes 2 f.h ++ [d.camDt p, f.status % 8]
    ++ leBytes 2 (d.camStride p) ++ List.replicate 8 0

/-- The quad that takes a job: fewest queued jobs, lowest number on a tie; none if all eligible are full (R377). -/
def Dev.jobQuad (d : Dev) (mask : Nat) : Option Nat :=
  let m := if mask = 0 then 15 else mask
  let ok := (List.range 4).filter fun q => tb m q && (tget d.quads q).queue.length < 32
  ok.foldl (fun best q => match best with
    | none => some q
    | some b => if (tget d.quads q).queue.length < (tget d.quads b).queue.length then some q else some b) none

/-- Hand a complete tagged frame to the Sieve (R377), or abandon it for CRC_BAD (R368, R375). -/
def Dev.camDone (d : Dev) (p : Nat) (f : CamFrame) : Dev :=
  let d := d.camFit p f.status
  if tb f.status 0 && !d.bit (Reg.CAMIN_CFG p) 30 then d.camDrop p f
  else
    let q := d.camPort p
    let head := d.camHeader p f q.fseq
    let a := f.addr
    let d := d.engineWrite a head
    let d := d.setCam p { d.camPort p with frames := q.frames.filter (· != f), fseq := (q.fseq + 1) % 2 ^ 32 }
    let d := d.wr (Reg.CAMIN_LAST_LT p) f.t1
    let d := d.sendVerdict (leAt f.tag 4 2) (leAt f.tag 0 4) 1 0 (leAt f.tag 8 8) f.t1
    let mask := d.fld (Reg.CAMIN_JOB p) 8 4
    match d.jobQuad mask with
    | none =>
      let low := ((List.range 4).find? fun k => tb (if mask = 0 then 15 else mask) k).getD 0
      ((d.evt (400 + low) 32).camFree p f.slot).camAbandon p f.tag
    | some k =>
      let job : SvJob := ⟨p, f.slot, a, head, f.t1, d.fld (Reg.CAMIN_JOB p) 0 4⟩
      let d := { d with quads := tmod d.quads k fun (u : Quad) => { u with queue := u.queue ++ [job] } }
      (d.inc (Reg.CAMIN_FRAMES p)).camEvt p 1

/-- Zero-fill the lines an AREA frame lacks and close it (R369, R372). -/
def Dev.camClose (d : Dev) (p : Nat) (f : CamFrame) : Dev :=
  let lack := f.h - f.lines
  let d := forN lack (fun k d => d.engineWrite (f.addr + 64 + d.camStride p * (f.lines + k))
    (List.replicate (d.camW p * (dtBpp (d.camDt p)).getD 1) 0)) d
  let f' := { f with status := f.status ||| (if lack = 0 then 0 else 2), lines := f.h, t1 := if f.lines = 0 then d.lt else f.t1,
                     t0 := if f.lines = 0 then d.lt else f.t0 }
  let q := d.camPort p
  (d.setCam p { q with frames := q.frames.map fun g => if g = f then f' else g }).camDone p f'

/-- A line of an AREA port's current frame: stored, or past HEIGHT and discarded with TRUNC; its CRC counts all the same (R368, R369). -/
def Dev.areaLine (d : Dev) (p : Nat) (l : CamLine) : Dev :=
  match (d.camPort p).frames with
  | [] => d
  | f :: _ =>
    if f.lines < f.h then d.camPut p f f.lines l
    else
      let q := d.camPort p
      d.setCam p { q with frames := q.frames.map fun g => if g = f then { f with status := f.status ||| 4 ||| l.status % 2 } else g }

/-- A tag can match a Frame Start at line time `t` (R372). -/
def Dev.tagFits (d : Dev) (p t : Nat) (tag : List Nat) : Bool :=
  let key := leAt tag 8 8
  decide (key ≤ t) && decide (t ≤ key + 1000 * max 1 (d.fld (Reg.CAMIN_FS_WIN p) 0 16))

/-- Abandon the queued tags that can no longer match at line time `t` (R372, cause NO_FRAME). -/
def Dev.tagsExpire (d : Dev) (p t : Nat) : Dev :=
  let gone := (d.camPort p).tags.filter fun g => decide (leAt g 8 8 + 1000 * max 1 (d.fld (Reg.CAMIN_FS_WIN p) 0 16) < t)
  gone.foldl (fun d g => (d.setCam p { d.camPort p with tags := (d.camPort p).tags.erase g }).camAbandon p g) d

/-- Match a Frame Start at line time `t` with the oldest fitting tag, if one is queued: the frame opens, or finds no slot (R372). -/
def Dev.camMatch (d : Dev) (p t : Nat) (lines : List CamLine) : Option Dev :=
  match (d.camPort p).tags.find? (d.tagFits p t) with
  | none => none
  | some g =>
    let d := d.setCam p { d.camPort p with tags := (d.camPort p).tags.erase g }
    let (ok, d) := d.camOpen p g 0
    if ok then
      some (lines.foldl (fun d l => d.areaLine p l) (d.setCam p { d.camPort p with rx := .store t }))
    else some (d.setCam p { d.camPort p with rx := .discard })

/-- The frame a port stores since a Frame Start, if any. -/
def Dev.camOpenFrame (d : Dev) (p : Nat) : Option CamFrame :=
  match (d.camPort p).rx with | .store _ => (d.camPort p).frames.head? | _ => none

/-- A frame that waits for its tag is discarded whole (R372). -/
def Dev.camLoose (d : Dev) (p : Nat) (rx : CamRx) : Dev :=
  ((d.setCam p { d.camPort p with rx := rx }).inc (Reg.CAMIN_UNTAGGED p)).camEvt p 16

/-- End whatever the port receives, as a Frame End or a new Frame Start does; a frame that still waits for its tag then gets none (R372; log 18). -/
def Dev.camCut (d : Dev) (p : Nat) : Dev :=
  match (d.camPort p).rx with
  | .hold _ _ _ => d.camLoose p .idle
  | _ =>
    let d := match d.camOpenFrame p with | some f => d.camClose p f | none => d
    d.setCam p { d.camPort p with rx := .idle }

/-- Lines of a LINE port that an open frame has still to get from those received (R373, R374). -/
def Dev.lineFeed (d : Dev) (p : Nat) (l : CamLine) : Dev :=
  let d := (d.camPort p).frames.foldl (fun d f =>
    if f.first ≤ l.n ∧ l.n < f.first + f.h then d.camPut p f (l.n - f.first) l else d) d
  ((d.camPort p).frames.filter fun f => f.first + f.h ≤ l.n + 1).foldl (fun d f => d.camDone p f) d

/-- A camera tag arrives at the image die (R371 to R373). -/
def Dev.camTag (d : Dev) (tag : List Nat) : Dev :=
  let b6 := leAt tag 6 1
  let p := b6 % 16
  let q := d.camPort p
  if d.dataOff then d
  else if q.bad || !d.bit (Reg.CAMIN_CFG p) 31 || tb b6 7 then d.camAbandon p tag
  else if d.camLine p then
    let first := leAt tag 28 4
    let old := match q.recent with | [] => 0 | l :: _ => l.n
    let next := match q.recent.getLast? with | some l => l.n + 1 | none => 0
    if 4 ≤ q.frames.length then d.camAbandon p tag
    else if first < old ∧ first < next then d.camAbandon p tag
    else
      match d.camOpen p tag first with
      | (false, d) => d
      | (true, d) =>
        let f := (d.camPort p).frames.getLast?
        let mine := q.recent.filter fun l => first ≤ l.n && l.n < first + d.camH p
        let d := mine.foldl (fun d l =>
          match (d.camPort p).frames.getLast? with | some f => d.camPut p f (l.n - first) l | none => d) d
        match f, (d.camPort p).frames.getLast? with
        | some _, some f => if first + f.h ≤ next then d.camDone p f else d
        | _, _ => d
  else if 16 ≤ q.tags.length then d.camAbandon p tag
  else
    let d := d.setCam p { q with tags := q.tags ++ [tag] }
    match q.rx with
    | .hold t ls ended =>
      if t + 5000 < d.lt then d
      else match d.camMatch p t ls with
        | none => d
        | some d => if ended then d.camCut p else d
    | _ => d

/-- What a packet header's ECC finds: 0 good, 1 corrected, 2 bad; answers whether the packet is used (R368). -/
def Dev.camEcc (d : Dev) (p ecc : Nat) : Bool × Dev :=
  if ecc = 0 then (true, d)
  else if ecc = 1 then (true, (d.inc (Reg.CAMIN_ECC_CORR p)).camEvt p 4)
  else (false, (d.inc (Reg.CAMIN_PKT_ERR p)).camEvt p 8)

/-- The port receives packets: enabled, valid, its lanes in sync, and its die runs (R393). -/
def Dev.camHears (d : Dev) (p : Nat) : Bool :=
  d.bit (Reg.CAMIN_CFG p) 31 && !(d.camPort p).bad && (d.camPort p).sync && !d.dataOff

/-- The port's lanes gain synchronisation, and skew calibration where it comes (R393, R394). -/
def Dev.camSync (d : Dev) (p : Nat) (deskew : Bool) : Dev :=
  let q := d.camPort p
  if d.bit (Reg.CAMIN_CFG p) 31 && !q.bad && !d.dataOff then d.setCam p { q with sync := true, deskew := q.deskew || deskew } else d

/-- A Frame Start (R372, R374). -/
def Dev.frameStart (d : Dev) (p vc ecc : Nat) : Dev :=
  if !d.camHears p then d
  else
    let (ok, d) := d.camEcc p ecc
    if !ok || vc != d.fld (Reg.CAMIN_CFG p) 20 4 then d
    else if d.camLine p then
      let q := d.camPort p
      let block := max 1 (d.fld (Reg.CAMIN_LINE p) 16 16)
      d.setCam p { q with blocks := q.blocks + 1, inBlock := 0, y := q.blocks * block, rx := .store d.lt }
    else
      let d := (d.camCut p).tagsExpire p d.lt
      match d.camMatch p d.lt [] with
      | some d => d
      | none => d.setCam p { d.camPort p with rx := .hold d.lt [] false }

/-- A long packet whose line began `ago` ns before it was complete (R367 to R369, R374). -/
def Dev.longPacket (d : Dev) (p vc dt ecc : Nat) (crcOk : Bool) (ago : Nat) (bs : List Nat) : Dev :=
  if !d.camHears p then d
  else
    let (ok, d) := d.camEcc p ecc
    if !ok then d
    else if vc != d.fld (Reg.CAMIN_CFG p) 20 4 || dt != d.camDt p then (d.inc (Reg.CAMIN_PKT_ERR p)).camEvt p 8
    else
      let d := if crcOk then d else (d.inc (Reg.CAMIN_PKT_ERR p)).camEvt p 8
      let (bytes, st) := d.fitLine p (linePixels dt bs)
      let q := d.camPort p
      let l : CamLine := ⟨q.y, d.lt - ago, d.lt, bytes, st ||| b2n (!crcOk)⟩
      match q.rx with
      | .idle | .discard => d
      | .hold t ls ended => if ended then d else d.setCam p { q with rx := .hold t (ls ++ [l]) false }
      | .store _ =>
        if d.camLine p then
          let all := q.recent ++ [l]
          let d := d.setCam p { q with y := q.y + 1, inBlock := q.inBlock + 1, recent := all.drop (all.length - 64) }
          d.lineFeed p l
        else d.areaLine p l

/-- A Frame End (R372, R374, R377). -/
def Dev.frameEnd (d : Dev) (p vc ecc : Nat) : Dev :=
  if !d.camHears p then d
  else
    let (ok, d) := d.camEcc p ecc
    if !ok || vc != d.fld (Reg.CAMIN_CFG p) 20 4 then d
    else if d.camLine p then
      let q := d.camPort p
      let block := max 1 (d.fld (Reg.CAMIN_LINE p) 16 16)
      match q.rx with
      | .store _ =>
        let d := d.setCam p { q with rx := .idle }
        if q.inBlock = block then d
        else
          let lo := (q.blocks - 1) * block
          let hit := q.frames.filter fun f => decide (f.first < lo + block) && decide (lo < f.first + f.h)
          hit.foldl (fun d f => d.camDrop p f) (d.camEvt p 128)
      | _ => d
    else
      match (d.camPort p).rx with
      | .hold t ls _ => d.setCam p { d.camPort p with rx := .hold t ls true }
      | _ => d.camCut p

/-- A Frame Start held 5 µs without a tag (R372). -/
def Dev.camUntagged (d : Dev) (p : Nat) : Dev :=
  match (d.camPort p).rx with
  | .hold t _ ended => if t + 5000 ≤ d.lt then d.camLoose p (if ended then .idle else .discard) else d
  | _ => d

/-- A frame without Frame End in its time is closed with SHORT (R372). -/
def Dev.frameTimeout (d : Dev) (p : Nat) : Dev :=
  match (d.camPort p).rx, d.camOpenFrame p with
  | .store t, some f =>
    if !d.camLine p && decide (t + 10000 * max 1 (d.fld (Reg.CAMIN_FS_WIN p) 16 16) ≤ d.lt) then
      let q := d.camPort p
      let f' := { f with status := f.status ||| 2 }
      (d.setCam p { q with rx := .discard, frames := q.frames.map fun g => if g = f then f' else g }).camClose p f'
    else d
  | _, _ => d

/-- The oldest queued tag that can no longer match is abandoned (R372). -/
def Dev.camNoFrame (d : Dev) (p : Nat) : Dev := if d.camLine p then d else d.tagsExpire p d.lt

/-- A commit restarts a port (R393): every queued tag and open frame is abandoned, on the beam die numbering and frontier start
again. -/
def Dev.camRestart (d : Dev) (p : Nat) : Dev :=
  let q := d.camPort p
  let d := q.tags.foldl (fun d g => d.camAbandon p g) d
  let d := q.frames.foldl (fun d f => d.camDrop p f) d
  let bad := d.bit (Reg.CAMIN_CFG p) 31 && !d.camValid p
  let r : CamIn := default
  let d := d.setCam p { r with bad := bad, fseq := q.fseq, used := (d.camPort p).used }
  let d := (d.setTrig p { d.trigPort p with count := 0 }).trigAnew p
  if bad then d.camEvt p 1024 else d

/-- CAMIN_STATUS[p] (R394). -/
def Dev.camStatus (d : Dev) (p : Nat) : Nat :=
  let q := d.camPort p
  let en := d.bit (Reg.CAMIN_CFG p) 31
  let state := if !en then 0 else if q.bad then 3 else if q.sync then 2 else 1
  let lanes := 2 ^ (2 ^ min 2 (d.fld (Reg.CAMIN_CFG p) 28 2)) - 1
  state + (if d.camLine p then q.frames.length else q.tags.length) * 2 ^ 8 + (if en then d.camSlots p - q.used.length else 0) * 2 ^ 16
    + (if q.sync then lanes else 0) * 2 ^ 24 + b2n q.deskew * 2 ^ 28

/-- A write to CAMIN_I2C_CMD (R376): ignored while BUSY. -/
def Dev.i2cCmd (d : Dev) (p v : Nat) : Dev :=
  if d.bit (Reg.CAMIN_I2C_STATUS p) 0 then d
  else
    let wl := min 8 (bits v 8 4)
    let rl := min 8 (bits v 12 4)
    (d.wr (Reg.CAMIN_I2C_STATUS p) 1).emit (.i2c p ([bits v 0 7, wl, rl] ++ leBytes wl (d.rd (Reg.CAMIN_I2C_WDATA p))))

/-- The end of an I²C transfer (R376, R394, R395): outcome 0 DONE, 1 NACK_ADDR, 2 NACK_DATA, 3 TIMEOUT, 4 ARB_LOST, the bytes
written before a NACK, and the bytes read. -/
def Dev.i2cDone (d : Dev) (p outcome written rdata : Nat) : Dev :=
  if !d.bit (Reg.CAMIN_I2C_STATUS p) 0 then d
  else if outcome = 0 then ((d.wr (Reg.CAMIN_I2C_STATUS p) 2).wr (Reg.CAMIN_I2C_RDATA p) rdata).camEvt p 2048
  else
    let n := if outcome = 2 then min 8 written else 0
    (d.wr (Reg.CAMIN_I2C_STATUS p) (2 ^ (outcome + 1) + n * 2 ^ 8)).camEvt p 4096

end Sys2Proof.Machine
end

