-- ==== Sys2Proof/Machine/Sieve.lean ====
section
/-! DEFINITION. The Sieve: jobs, descriptors and their arithmetic, results and aborts (14, R377 to R392, R396, R397). -/
namespace Sys2Proof.Machine

/-- Bytes that an engine reads; where an address has no target and the spec states no value, free values (log 1). -/
def Dev.engRead (d : Dev) (a n : Nat) : List Nat :=
  if d.hasRange a (max 1 n) then d.memRead a n else (List.range n).map fun k => Config.freeRead d.free (a + k) % 256

def Dev.engNum (d : Dev) (a n : Nat) : Nat := leNum (d.engRead a n)

/-- Count a use of free values. -/
def Dev.bump (d : Dev) : Dev := { d with free := d.free + 1 }

def Dev.quad (d : Dev) (q : Nat) : Quad := tget d.quads q

def Dev.setQuad (d : Dev) (q : Nat) (u : Quad) : Dev := { d with quads := tput d.quads q u }

def SvJob.w (j : SvJob) : Nat := leAt j.head 48 2

def SvJob.h (j : SvJob) : Nat := leAt j.head 50 2

def SvJob.dt (j : SvJob) : Nat := leAt j.head 52 1

def SvJob.stride (j : SvJob) : Nat := leAt j.head 54 2

/-- The samples of pixel (x, y) of the stored frame (R369): one for raw data, R, G, B, or Y, U, V. -/
def Dev.frameRaw (d : Dev) (j : SvJob) (x y : Nat) : List Nat :=
  let a := j.addr + 64 + j.stride * y
  if j.dt = 0x24 then (d.engRead (a + 4 * x) 3)
  else if j.dt = 0x1E then
    [d.engNum (a + 4 * (x / 2) + 1 + 2 * (x % 2)) 1, d.engNum (a + 4 * (x / 2)) 1, d.engNum (a + 4 * (x / 2) + 2) 1]
  else if j.dt = 0x2A then [d.engNum (a + x) 1]
  else [d.engNum (a + 2 * x) 2]

/-- Y of R381. -/
def lumOf : List Nat → Nat
  | [r, g, b] => (77 * r + 150 * g + 29 * b + 128) / 256
  | v :: _ => v
  | [] => 0

/-- The working image of a run is xRGB (R379, R381). -/
def SvRun.rgb (r : SvRun) : Bool := r.work.getD (r.job.dt == 0x24)

/-- Address of the working image buffer of quad `q` (R396). -/
def Dev.wbuf (d : Dev) (q : Nat) : Nat := d.fld (Reg.SIEVE_WBUF q) 6 42 * 64

/-- The channels of pixel (x, y) of the working image (R379). -/
def Dev.workPx (d : Dev) (q : Nat) (r : SvRun) (x y : Nat) : List Nat :=
  match r.work with
  | none =>
    let s := d.frameRaw r.job x y
    if r.job.dt = 0x24 then s else if r.job.dt = 0x1E then s.take 1 else s.map (· / 2 ^ (dtDepth r.job.dt - 8))
  | some true => d.engRead (d.wbuf q + 4 * (y * r.job.w + x)) 3
  | some false => d.engRead (d.wbuf q + (y * r.job.w + x)) 1

/-- The channels of golden pixel (x, y) (R378). -/
def Dev.goldPx (d : Dev) (r : SvRun) (x y : Nat) : List Nat :=
  let a := leAt r.gold 8 6 + leAt r.gold 20 2 * y
  if leAt r.gold 22 1 = 1 then d.engRead (a + 4 * x) 3 else d.engRead (a + x) 1

def SvRun.gx (r : SvRun) : Int := sx 16 (leAt r.gold 24 2)

def SvRun.gy (r : SvRun) : Int := sx 16 (leAt r.gold 26 2)

/-- The quad's job in queue order with the earliest LT_LAST (R377). -/
def earliest : List SvJob → Option SvJob
  | [] => none
  | j :: t => match earliest t with
    | none => some j
    | some k => if j.last ≤ k.last then some j else some k

/-- End the running job of quad `q`: its slot is freed and its busy span kept (R377, R388, R397). -/
def Dev.svEnd (d : Dev) (q : Nat) : Dev :=
  let u := d.quad q
  match u.run with
  | none => d
  | some (t, r) =>
    let spans := (u.spans ++ [(t, d.lt)]).filter fun s => decide (d.lt < s.2 + 100000000)
    (d.setQuad q { u with run := none, spans := spans }).camFree r.job.port r.job.slot

/-- End the running job as invalid (R389): 4 BAD_DESC or 8 STEP_LIMIT. -/
def Dev.svBad (d : Dev) (q m : Nat) : Dev :=
  match (d.quad q).run with
  | none => d
  | some (_, r) => (((d.svEnd q).inc (Reg.SIEVE_Q_BAD q)).evt (400 + q) m).camAbandon r.job.port r.job.head

/-- SIEVE_DL in ns (R396). -/
def Dev.svDl (d : Dev) : Nat := 1000 * clampN 50 2000 (d.fld Reg.SIEVE_DL 0 16)

/-- A job's deadline has come (R390). -/
def Dev.svLate (d : Dev) (j : SvJob) : Bool := decide (j.last + d.svDl ≤ d.lt)

/-- A job of quad `q`, running or queued, whose deadline has come is aborted (R390). -/
def Dev.svAbort (d : Dev) (q : Nat) : Dev :=
  let u := d.quad q
  let count := fun (d : Dev) => (d.inc (Reg.SIEVE_Q_ABORT q)).evt (400 + q) 2
  match u.run with
  | some (_, r) => if d.svLate r.job then count (d.svEnd q) else
    match u.queue.find? d.svLate with
    | some j => count ((d.setQuad q { u with queue := u.queue.erase j }).camFree j.port j.slot)
    | none => d
  | none =>
    match u.queue.find? d.svLate with
    | some j => count ((d.setQuad q { u with queue := u.queue.erase j }).camFree j.port j.slot)
    | none => d

/-- Eight words of descriptor `i` of a list (R380). -/
def Dev.svDesc (d : Dev) (base i : Nat) : List Nat := (List.range 8).map fun k => d.engNum (base + 32 * i + 4 * k) 4

/-- The format that a job's working image will have: that of the list's first CORRECT, else that of the stored frame (log 20). -/
def Dev.svFormat (d : Dev) (j : SvJob) (base len : Nat) : Bool :=
  match (List.range len).find? fun i => d.engNum (base + 32 * i) 1 == 1 with
  | some i => d.engNum (base + 32 * i) 4 / 2 ^ 21 % 2 == 1
  | none => j.dt == 0x24

/-- Start the next job of quad `q` (R377 to R379, R389). -/
def Dev.svStart (d : Dev) (q : Nat) : Dev :=
  let u := d.quad q
  match u.run, earliest (u.queue.filter fun j => !d.svLate j) with
  | none, some j =>
    let base := d.fld (Reg.SIEVE_LIST_BASE j.list) 5 43 * 32
    let len := min 1024 (d.fld (Reg.SIEVE_LIST_LEN j.list) 0 11)
    let k := min 16 (d.fld Reg.SIEVE_GOLD_CFG 0 5)
    let pjob := leAt j.head 24 4
    let gold := d.engRead (d.fld Reg.SIEVE_GOLD_BASE 6 42 * 64 + 64 * (pjob % 2 ^ k)) 64
    let fmt := b2n (d.svFormat j base len)
    let hit := leAt gold 23 1 % 2 == 1 && leAt gold 4 4 == pjob && leAt gold 0 4 == leAt j.head 0 4 && leAt gold 22 1 == fmt
    let st := leAt j.head 53 1 % 8 + b2n (!hit) * 8
    let r : SvRun := ⟨j, base, len, 0, 0, List.replicate 14 0 ++ [leAt j.head 7 1, st], 0, 0, 0, none, gold, !hit, []⟩
    let d := (d.setQuad q { u with queue := u.queue.erase j, run := some (d.lt, r) }).bump
    let d := if hit then d else (d.inc (Reg.SIEVE_Q_GOLD_MISS q)).evt (400 + q) 16
    if d.bit Reg.SIEVE_CTRL 0 then d else d.svBad q 4
  | _, _ => d

/-- Result words an operation writes (R380). -/
def svWrites (op : Nat) (rgb : Bool) : Nat :=
  if op = 2 ∨ op = 3 then 3 else if op = 4 ∨ op = 10 then 1 else if op = 5 then (if rgb then 3 else 1) else if op = 6 then 8 else 0

/-- The bits a descriptor of an operation may have set: OPX in bits 31:16 of word 0, then words 1 to 7 (R380). -/
def svMasks (op : Nat) : List Nat :=
  let a := 0xFFFFFFFF
  match op with
  | 1 => [0x7F, 0, a, 0xFFFF, a, 0xFFFF, 0, 0]
  | 2 => [0x3F, a, a, 0, 0, 0, 0, 0]
  | 3 => [1, a, a, a, 0, 0, 0, 0]
  | 4 => [0, a, a, a, a, 0, 0, 0]
  | 5 => [0, a, a, 0, 0, 0, 0, 0]
  | 6 => [0x7F, a, a, 0, 0, 0, 0, 0]
  | 7 => [0xF1F, 0xF, a, 0x3FF, 0, 0, 0, 0]
  | 8 => [0, 0, a, a, 0, 0, 0, 0]
  | 9 => [0xF, 0x3FF, a, a, a, 0, 0, 0]
  | 10 => [0xF1F, 0xF, a, 0, 0, 0, 0, 0]
  | _ => [0, 0, 0, 0, 0, 0, 0, 0]

/-- The region a descriptor uses (R380): X, Y, W, H after any shift. -/
def svRegion (r : SvRun) (w : List Nat) : Int × Int × Nat × Nat :=
  let reg := tb (w.getD 0 0) 12
  let x : Int := (bits (w.getD 1 0) 0 16 : Nat)
  let y : Int := (bits (w.getD 1 0) 16 16 : Nat)
  (if reg then x + r.sx_ else x, if reg then y + r.sy_ else y, bits (w.getD 2 0) 0 16, bits (w.getD 2 0) 16 16)

/-- Whether a descriptor of the running job is invalid (R389). -/
def svInvalid (r : SvRun) (w : List Nat) : Bool :=
  let w0 := w.getD 0 0
  let op := w0 % 256
  let m := svMasks op
  let extra := clearMask (w0 / 2 ^ 16) (m.getD 0 0) != 0 || bits w0 13 3 != 0 ||
    (List.range 7).any fun k => clearMask (w.getD (k + 1) 0) (m.getD (k + 1) 0) != 0
  let (x, y, rw, rh) := svRegion r w
  let outside := decide (x < 0) || decide (y < 0) || decide ((r.job.w : Int) < x + rw) || decide ((r.job.h : Int) < y + rh)
  let size := fun n => n % 4 != 0 || decide (n < 8) || decide (64 < n)
  let raw := r.job.dt != 0x24 && r.job.dt != 0x1E
  decide (11 < op) || extra || decide (16 < bits w0 8 4 + svWrites op r.rgb) || ((3 ≤ op && op ≤ 6) && outside)
    || (op == 3 && (rw % 16 != 0 || rh % 16 != 0)) || (op == 2 && (size rw || size rh))
    || (op == 1 && ((bits w0 18 3 != 0 && !raw) || decide (4 < bits w0 18 3))) || (op == 6 && decide (4 < bits w0 16 3))
    || (op == 7 && (decide (r.len ≤ w.getD 3 0) || decide (7 < bits w0 16 4))) || (op == 10 && decide (8 < bits w0 16 4))

/-- The next descriptor of quad `q`'s job, if one runs. -/
def Dev.svNext (d : Dev) (q : Nat) : Option (SvRun × List Nat) :=
  match (d.quad q).run with
  | none => none
  | some (_, r) => some (r, d.svDesc r.base r.idx)

def Dev.setRun (d : Dev) (q : Nat) (r : SvRun) : Dev :=
  let u := d.quad q
  match u.run with
  | none => d
  | some (t, _) => d.setQuad q { u with run := some (t, r) }

/-- Execute the next descriptor of quad `q` where it has operation `op`: an end without END, a 257th descriptor or an invalid one
ends the job, and one whose deadline has come is aborted; a descriptor of another operation waits for its own command (R389, R390, log 21). -/
def Dev.svExec (d : Dev) (q op : Nat) (f : SvRun → List Nat → Dev → Dev) : Dev :=
  match d.svNext q with
  | none => d
  | some (r, w) =>
    if d.svLate r.job then d.svAbort q
    else if r.len ≤ r.idx then d.svBad q 4
    else if 256 ≤ r.steps then d.svBad q 8
    else if svInvalid r w then d.svBad q 4
    else if w.getD 0 0 % 256 ≠ op then d
    else f { r with idx := r.idx + 1, steps := r.steps + 1 } w d.bump

/-- Write result words from Vd on (R380). -/
def SvRun.put (r : SvRun) (w : List Nat) (vs : List Int) : SvRun :=
  let dst := bits (w.getD 0 0) 8 4
  { r with v := (List.range 16).map fun i => if dst ≤ i ∧ i < dst + vs.length then tw 32 (vs.getD (i - dst) 0) else r.v.getD i 0 }

/-- END (R385). -/
def Dev.svEndOp (d : Dev) (q : Nat) : Dev :=
  d.svExec q 0 fun r _ d =>
    let j := r.job
    let d := d.sendVerdict (leAt j.head 4 2) (leAt j.head 0 4) 2 (r.bits_ &&& 0xFFFFFFFFFFFF0041) (leAt j.head 8 8) 0
    let lat := min ((d.lt - j.last) / 1000) 0xFFFFFFFF
    let d := d.wr (Reg.SIEVE_Q_LAT_MAX q) (max lat (d.rd (Reg.SIEVE_Q_LAT_MAX q)))
    ((d.svEnd q).inc (Reg.SIEVE_Q_JOBS q)).evt (400 + q) 1

/-- Index mirrored at the edges of a line of `n` (R381). -/
def mirrorIx (n : Nat) (i : Int) : Nat :=
  let k := if i < 0 then -i else if (n : Int) ≤ i then 2 * n - 2 - i else i
  min (n - 1) k.toNat

/-- Colour of a Bayer site: 0 R, 1 G, 2 B (R380). -/
def bayerAt (pat x y : Nat) : Nat :=
  let k := x % 2 + 2 * (y % 2)
  (match pat with
    | 1 => [0, 1, 1, 2]
    | 2 => [1, 0, 2, 1]
    | 3 => [1, 2, 0, 1]
    | _ => [2, 1, 1, 0]).getD k 0

/-- A flat-fielded sample cut to 8 bits (R381). -/
def Dev.flat (d : Dev) (j : SvJob) (w : List Nat) (x y : Nat) : Nat :=
  let w0 := w.getD 0 0
  let b := dtDepth j.dt
  let p := (d.frameRaw j x y).headD 0
  let tab := w.getD 2 0 + bits (w.getD 3 0) 0 16 * 2 ^ 32
  let t := d.engNum (tab + 4 * (if tb w0 17 then y * j.w + x else x)) 4
  let p := if tb w0 16 then min (((p - bits t 16 16) * bits t 0 16 + 2048) / 4096) (2 ^ b - 1) else p
  p / 2 ^ (b - 8)

/-- The demosaic of one site as R, G, B (R381). -/
def Dev.demosaic (d : Dev) (j : SvJob) (w : List Nat) (pat x y : Nat) : List Nat :=
  let at_ := fun (dx dy : Int) => d.flat j w (mirrorIx j.w ((x : Int) + dx)) (mirrorIx j.h ((y : Int) + dy))
  let me := at_ 0 0
  let cross := (at_ 0 (-1) + at_ 0 1 + at_ (-1) 0 + at_ 1 0 + 2) / 4
  let diag := (at_ (-1) (-1) + at_ 1 (-1) + at_ (-1) 1 + at_ 1 1 + 2) / 4
  let row := (at_ (-1) 0 + at_ 1 0 + 1) / 2
  let col := (at_ 0 (-1) + at_ 0 1 + 1) / 2
  match bayerAt pat x y with
  | 0 => [me, cross, diag]
  | 2 => [diag, cross, me]
  | _ => if bayerAt pat (x + 1) y = 0 then [row, me, col] else [col, me, row]

/-- The colour matrix on three inputs (R381). -/
def Dev.colourOf (d : Dev) (cb : Nat) (xs : List Int) : List Nat :=
  (List.range 3).map fun i =>
    let m := fun k => sx 16 (d.engNum (cb + 2 * (3 * i + k)) 2)
    let o := sx 16 (d.engNum (cb + 18 + 2 * i) 2)
    (clampI 0 255 ((m 0 * xs.getD 0 0 + m 1 * xs.getD 1 0 + m 2 * xs.getD 2 0 + 8192) / 16384 + o)).toNat

/-- One pixel of CORRECT, or none where the rules state no result (R381; log 22). -/
def Dev.correctPx (d : Dev) (j : SvJob) (w : List Nat) (x y : Nat) : Option (List Nat) :=
  let w0 := w.getD 0 0
  let bayer := bits w0 18 3
  let out := tb w0 21
  let csc := tb w0 22
  let cb := w.getD 4 0 + bits (w.getD 5 0) 0 16 * 2 ^ 32
  let fin := fun c => if out then c else [lumOf c]
  let raw := j.dt != 0x24 && j.dt != 0x1E
  if raw then
    if bayer = 0 then (if out || csc then none else some [d.flat j w x y])
    else
      let c := d.demosaic j w bayer x y
      some (fin (if csc then d.colourOf cb (c.map fun (n : Nat) => (n : Int)) else c))
  else if tb w0 16 then none
  else
    let s := d.frameRaw j x y
    if j.dt = 0x24 then some (fin (if csc then d.colourOf cb (s.map fun (n : Nat) => (n : Int)) else s))
    else if csc then
      some (fin (d.colourOf cb [((s.getD 0 0 : Nat) : Int), ((s.getD 1 0 : Nat) : Int) - 128, ((s.getD 2 0 : Nat) : Int) - 128]))
    else if out then none else some (s.take 1)

/-- CORRECT (R381). -/
def Dev.svCorrect (d : Dev) (q : Nat) : Dev :=
  d.svExec q 1 fun r w d =>
    let out := tb (w.getD 0 0) 21
    let fill := fun (px : List Nat) => if out then px ++ [0] else px
    let (n, d) := d.fresh (8 * (4 * r.job.w * r.job.h))
    let size := if out then 4 else 1
    let img := (List.range r.job.h).map fun y => (List.range r.job.w).map fun x =>
      match d.correctPx r.job w x y with
      | some px => fill px
      | none => leBytes size (n / 2 ^ (8 * size * (y * r.job.w + x)))
    (d.engineWrite (d.wbuf q) img.flatten.flatten).setRun q { r with work := some out }

/-- Sum of absolute differences of two lists of numbers. -/
def sadOf (a b : List Nat) : Nat := ((a.zip b).map fun p => (p.1 - p.2) + (p.2 - p.1)).sum

/-- Luminances of a window, row by row. -/
def winOf (f : Nat → Nat → Nat) (x y w h : Nat) : List Nat :=
  ((List.range h).map fun j => (List.range w).map fun i => f (x + i) (y + j)).flatten

/-- 4 × 4 box means of a window, floored (R382). -/
def boxOf (f : Nat → Nat → Nat) (x y w h : Nat) : List Nat :=
  ((List.range (h / 4)).map fun j => (List.range (w / 4)).map fun i =>
    (winOf f (x + 4 * i) (y + 4 * j) 4 4).sum / 16).flatten

/-- The better of two tried positions (R382, ties): score, dx, dy. -/
def betterPos (a b : Nat × Int × Int) : Bool :=
  let k := fun (p : Nat × Int × Int) => p.2.1.natAbs + p.2.2.natAbs
  if a.1 ≠ b.1 then a.1 < b.1
  else if k a ≠ k b then k a < k b
  else if a.2.2 ≠ b.2.2 then a.2.2 < b.2.2 else a.2.1 < b.2.1

def bestPos : List (Nat × Int × Int) → Option (Nat × Int × Int)
  | [] => none
  | a :: t => match bestPos t with
    | none => some a
    | some b => if betterPos b a then some b else some a

/-- Sub-pixel part in 1/16 pixel from the scores at −1, 0, +1 (R382). -/
def subPixel (m z p : Option Nat) : Int :=
  match m, z, p with
  | some m, some z, some p =>
    let den : Int := 2 * ((m : Int) - 2 * z + p)
    if den ≤ 0 then 0 else clampI (-8) 8 (roundDiv (16 * ((m : Int) - p)) den.toNat)
  | _, _, _ => 0

/-- REGISTER's search (R382): the best fine score and displacement, with the scores tried. -/
def Dev.svSearch (d : Dev) (q : Nat) (r : SvRun) (w : List Nat) : Option ((Nat × Int × Int) × List (Nat × Int × Int)) :=
  let rr := (bits (w.getD 0 0) 16 6 + 3) / 4 * 4
  let px := bits (w.getD 1 0) 0 16
  let py := bits (w.getD 1 0) 16 16
  let pw := bits (w.getD 2 0) 0 16
  let ph := bits (w.getD 2 0) 16 16
  let f := fun x y => lumOf (d.workPx q r x y)
  let g := fun x y => lumOf (d.goldPx r x y)
  let ox : Int := px + r.gx
  let oy : Int := py + r.gy
  let fits := fun (dx dy : Int) => decide (0 ≤ ox + dx) && decide (0 ≤ oy + dy) && decide (ox + dx + pw ≤ r.job.w)
    && decide (oy + dy + ph ≤ r.job.h)
  let side := (List.range (2 * (rr / 4) + 1)).map fun (k : Nat) => 4 * (k : Int) - rr
  let pos := (side.map fun dy => side.map fun dx => (dx, dy)).flatten.filter fun p => fits p.1 p.2
  let gb := boxOf g px py pw ph
  match bestPos (pos.map fun p => (sadOf (boxOf f (ox + p.1).toNat (oy + p.2).toNat pw ph) gb, p.1, p.2)) with
  | none => none
  | some (_, cx, cy) =>
    let near := (List.range 5).map fun (k : Nat) => (k : Int) - 2
    let pos := (near.map fun dy => near.map fun dx => (cx + dx, cy + dy)).flatten.filter fun p => fits p.1 p.2
    let gw := winOf g px py pw ph
    let tried := pos.map fun p => (sadOf (winOf f (ox + p.1).toNat (oy + p.2).toNat pw ph) gw, p.1, p.2)
    (bestPos tried).map fun b => (b, tried)

/-- REGISTER (R382). -/
def Dev.svRegister (d : Dev) (q : Nat) : Dev :=
  d.svExec q 2 fun r w d =>
    match (if r.miss then none else d.svSearch q r w) with
    | none => d.setRun q (r.put w [0, 0, 0xFFFFFFFF])
    | some ((s, dx, dy), tried) =>
      let at_ := fun (x y : Int) => (tried.find? fun t => t.2.1 == x && t.2.2 == y).map (·.1)
      let fx := subPixel (at_ (dx - 1) dy) (some s) (at_ (dx + 1) dy)
      let fy := subPixel (at_ dx (dy - 1)) (some s) (at_ dx (dy + 1))
      d.setRun q { r.put w [16 * dx + fx, 16 * dy + fy, s] with sx_ := dx, sy_ := dy }

/-- NCC score of two tiles of luminance: round(1,000 × (1 − ncc)), from exact arithmetic (R383). -/
def nccScore (fs gs : List Nat) : Nat :=
  let n : Int := (fs.length : Nat)
  let sf : Int := (fs.sum : Nat)
  let sg : Int := (gs.sum : Nat)
  let sff : Int := ((fs.map fun v => v * v).sum : Nat)
  let sgg : Int := ((gs.map fun v => v * v).sum : Nat)
  let sfg : Int := (((fs.zip gs).map fun p => p.1 * p.2).sum : Nat)
  let vf := n * sff - sf * sf
  let vg := n * sgg - sg * sg
  if vf ≤ 0 ∨ vg ≤ 0 then (if vf ≤ 0 ∧ vg ≤ 0 ∧ (sf - sg).natAbs ≤ 8 * fs.length then 0 else 2000)
  else
    let num := n * sfg - sf * sg
    -- the largest k with 2000 × num ≤ (2001 − 2k) × √(vf × vg)
    let ok := fun (k : Nat) =>
      let c : Int := 2001 - 2 * (k : Int)
      let l := 2000 * num
      if 0 ≤ c then (l ≤ 0 || decide (l * l ≤ c * c * (vf * vg))) else (l < 0 && decide (c * c * (vf * vg) ≤ l * l))
    (List.range 2001).foldl (fun a k => if ok k then k else a) 0

/-- The scores of the tiles of a region with column and row, tiles wholly outside the golden image left out (R383). Golden
coordinates are the frame's minus (GX, GY) (log 23). -/
def Dev.tileScores (d : Dev) (q : Nat) (r : SvRun) (w : List Nat) : List (Nat × Nat × Nat) :=
  let (x0, y0, rw, rh) := svRegion r w
  let gw : Int := (leAt r.gold 16 2 : Nat)
  let gh : Int := (leAt r.gold 18 2 : Nat)
  ((List.range (rh / 16)).map fun ty => (List.range (rw / 16)).map fun tx =>
    let px := ((List.range 16).map fun j => (List.range 16).map fun i =>
      ((x0 + (16 * tx + i : Nat) : Int), (y0 + (16 * ty + j : Nat) : Int))).flatten.filter fun p =>
        decide (0 ≤ p.1 - r.gx) && decide (p.1 - r.gx < gw) && decide (0 ≤ p.2 - r.gy) && decide (p.2 - r.gy < gh)
    let fs := px.map fun p => d.workPx q r p.1.toNat p.2.toNat
    let gs := px.map fun p => d.goldPx r (p.1 - r.gx).toNat (p.2 - r.gy).toNat
    if px.isEmpty then []
    else if tb (w.getD 0 0) 16 then [(nccScore (fs.map lumOf) (gs.map lumOf), tx, ty)]
    else [(sadOf fs.flatten gs.flatten * 256 / px.length, tx, ty)]).flatten.flatten

/-- TILECMP (R383). With no tile scored, and among tiles of one worst score, the value is free (log 1). -/
def Dev.svTilecmp (d : Dev) (q : Nat) : Dev :=
  d.svExec q 3 fun r w d =>
    if r.miss then d.setRun q (r.put w [0xFFFFFFFF, 0xFFFFFFFF, 0])
    else
      let sc := d.tileScores q r w
      let worst := sc.foldl (fun a s => max a s.1) 0
      let over_ := (sc.filter fun s => decide (w.getD 3 0 < s.1)).length
      let cand := (sc.filter fun s => s.1 == worst).map fun s => s.2.1 + s.2.2 * 65536
      if sc.isEmpty then
        let (a, d) := d.fresh 32
        let (b, d) := d.fresh 32
        d.setRun q (r.put w [a, 0, b])
      else
        let (c, d) := d.pick cand
        d.setRun q (r.put w [worst, over_, ((c.getD 0 : Nat) : Int)])

/-- The pixels of a region of the working image. -/
def Dev.regionPx (d : Dev) (q : Nat) (r : SvRun) (w : List Nat) : List (List Nat) :=
  let (x, y, rw, rh) := svRegion r w
  ((List.range rh).map fun j => (List.range rw).map fun i => d.workPx q r (x.toNat + i) (y.toNat + j)).flatten

/-- PRESENCE (R380). -/
def Dev.svPresence (d : Dev) (q : Nat) : Dev :=
  d.svExec q 4 fun r w d =>
    let inside := fun (px : List Nat) => (List.range px.length).all fun c =>
      decide (bits (w.getD 3 0) (8 * c) 8 ≤ px.getD c 0) && decide (px.getD c 0 ≤ bits (w.getD 4 0) (8 * c) 8)
    d.setRun q (r.put w [(((d.regionPx q r w).filter inside).length : Nat)])

/-- COLOUR (R380); the mean of an empty region is a free value (log 1). -/
def Dev.svColour (d : Dev) (q : Nat) : Dev :=
  d.svExec q 5 fun r w d =>
    let px := d.regionPx q r w
    let ch := if r.rgb then 3 else 1
    if px.isEmpty then
      let (a, d) := d.fresh 96
      d.setRun q (r.put w ((List.range ch).map fun c => ((bits a (32 * c) 32 : Nat) : Int)))
    else
      d.setRun q (r.put w ((List.range ch).map fun c =>
        ((16 * (px.map fun p => p.getD c 0).sum / px.length : Nat) : Int)))

/-- A grade from a measured parameter and its four limits (R384): `down` where smaller is better. -/
def gradeOf (m : Nat) (lims : List Nat) (down : Bool) : Nat :=
  (lims.filter fun l => if down then decide (m ≤ l) else decide (l ≤ m)).length

/-- The four grades of R384 from four measurements: contrast in percent, the others in hundredths. -/
def gradesOf (sc mod_ anu uec : Nat) : List Nat :=
  [gradeOf sc [70, 55, 40, 20] false, gradeOf mod_ [50, 40, 30, 20] false, gradeOf anu [6, 8, 10, 12] true,
   gradeOf uec [62, 50, 37, 25] false]

/-- CODE (R384): what a symbol in the image reads as is a free value (log 24); grades and the comparison follow from it. -/
def Dev.svCode (d : Dev) (q : Nat) : Dev :=
  d.svExec q 6 fun r w d =>
    let w0 := w.getD 0 0
    let (res, d) := d.fresh 32
    let (len, d) := d.fresh 8
    let (raw, d) := d.fresh 2040
    let (ms, d) := d.fresh 64
    let res := res % 3
    let data := if res = 0 then leBytes len raw else []
    let graded := res = 0 ∧ tb w0 19 ∧ bits w0 16 3 < 2
    let gr := gradesOf (bits ms 0 16) (bits ms 16 16) (bits ms 32 16) (bits ms 48 16)
    let low := gr.foldl min 4
    let gs : List Int := if graded then (((low :: gr).map fun (n : Nat) => (n : Int))) else [-1, -1, -1, -1, -1]
    let want := d.engRead (leAt r.gold 28 6) (leAt r.gold 36 2)
    let cmp : Int := if tb w0 20 && !r.miss && res == 0 && want == data then 1 else 0
    d.setRun q { r.put w ([((res : Nat) : Int)] ++ gs ++ [cmp, (data.length : Nat)]) with data := data }

/-- The operand of CB and CALC: the immediate or VB (R380). -/
def svOperand (r : SvRun) (w : List Nat) : Nat :=
  if tb (w.getD 0 0) 20 then w.getD 2 0 else r.v.getD (bits (w.getD 1 0) 0 4) 0

def svA (r : SvRun) (w : List Nat) : Nat := r.v.getD (bits (w.getD 0 0) 24 4) 0

/-- The condition of CB (R380). -/
def svCond (c a b : Nat) : Bool :=
  let x := sx 32 a
  let y := sx 32 b
  match c with
  | 0 => x == y
  | 1 => x != y
  | 2 => decide (x < y)
  | 3 => decide (x ≤ y)
  | 4 => decide (y < x)
  | 5 => decide (y ≤ x)
  | 6 => a &&& b != 0
  | _ => a &&& b == 0

/-- CB (R380). -/
def Dev.svCb (d : Dev) (q : Nat) : Dev :=
  d.svExec q 7 fun r w d =>
    d.setRun q (if svCond (bits (w.getD 0 0) 16 4) (svA r w) (svOperand r w) then { r with idx := bits (w.getD 3 0) 0 10 } else r)

/-- SETV (R380). -/
def Dev.svSetv (d : Dev) (q : Nat) : Dev :=
  d.svExec q 8 fun r w d => d.setRun q { r with bits_ := r.bits_ ||| (w.getD 2 0 + w.getD 3 0 * 2 ^ 32) }

/-- CORRX (R386): the correction goes to CAM_CORR_IN as a Stem register access. -/
def Dev.svCorrx (d : Dev) (q : Nat) : Dev :=
  d.svExec q 9 fun r w d =>
    let a := sx 32 (r.v.getD (bits (w.getD 0 0) 16 4) 0)
    let v := roundDiv (a * sx 32 (w.getD 2 0)) 65536
    let d := d.setRun q r
    if (v.natAbs : Nat) < w.getD 3 0 then d
    else
      let lim : Int := (w.getD 4 0 : Nat)
      let off := Reg.CAM_CORR_IN (bits (w.getD 1 0) 0 10) - 0x30000000000
      d.stemSend 1 4 (2 ^ 41 + off) (leBytes 4 (tw 32 (clampI (-lim) lim v)))

/-- The function of CALC (R380). -/
def calcOf (fn a b : Nat) : Nat :=
  match fn with
  | 0 => b
  | 1 => a + b
  | 2 => tw 32 ((a : Int) - b)
  | 3 => a * b
  | 4 => if sx 32 a ≤ sx 32 b then a else b
  | 5 => if sx 32 a ≤ sx 32 b then b else a
  | 6 => (sx 32 a).natAbs
  | 7 => a &&& b
  | _ => a ||| b

/-- CALC (R380). -/
def Dev.svCalc (d : Dev) (q : Nat) : Dev :=
  d.svExec q 10 fun r w d =>
    d.setRun q (r.put w [((calcOf (bits (w.getD 0 0) 16 4) (svA r w) (svOperand r w) : Nat) : Int)])

/-- Bytes of a result record (R387). -/
def Dev.svRecord (d : Dev) (r : SvRun) : List Nat :=
  let body := r.job.head.take 32 ++ leBytes 8 d.lt ++ leBytes 8 r.bits_ ++ (r.v.map (leBytes 4)).flatten ++ leBytes 2 r.data.length
    ++ r.data.take 142
  body ++ List.replicate (256 - body.length) 0

/-- RESULT (R387). -/
def Dev.svResult (d : Dev) (q : Nat) : Dev :=
  d.svExec q 11 fun r _ d =>
    let rec_ := d.svRecord r
    let d := d.setRun q r
    if !d.bit Reg.SIEVE_RR_CFG 0 then d
    else
      let k := clampN 4 12 (d.fld Reg.SIEVE_RR_CFG 4 5)
      let wrc := d.rd Reg.SIEVE_RR_WR % 2 ^ 17
      let rdc := d.rd Reg.SIEVE_RR_RD % 2 ^ 17
      let a := d.fld Reg.SIEVE_RR_BASE 0 48 / 2 ^ (8 + k) * 2 ^ (8 + k) + 256 * (wrc % 2 ^ k)
      if (wrc + 2 ^ 17 - rdc) % 2 ^ 17 ≥ 2 ^ k ∨ !d.hasRange a 256 then (d.inc Reg.SIEVE_RR_DROP).evt (400 + q) 64
      else (d.engineWrite a rec_).wr Reg.SIEVE_RR_WR ((wrc + 1) % 2 ^ 17)

/-- A write of SIEVE_RR_RD, ignored if it would overfill the ring (R185, R387). -/
def Dev.rrRd (d : Dev) (v : Nat) : Dev :=
  let k := clampN 4 12 (d.fld Reg.SIEVE_RR_CFG 4 5)
  if (d.rd Reg.SIEVE_RR_WR % 2 ^ 17 + 2 ^ 17 - v % 2 ^ 17) % 2 ^ 17 ≤ 2 ^ k then d.wr Reg.SIEVE_RR_RD (v % 2 ^ 17) else d

/-- SIEVE_Q_STATUS[q] (R397). -/
def Dev.svStatus (d : Dev) (q : Nat) : Nat := (d.quad q).queue.length + b2n (d.quad q).run.isSome * 2 ^ 8

/-- SIEVE_Q_LOAD[q]: busy time over the last 100 ms, per mille (R397). -/
def Dev.svLoad (d : Dev) (q : Nat) : Nat :=
  let u := d.quad q
  let all := u.spans ++ (match u.run with | some (t, _) => [(t, d.lt)] | none => [])
  let lo := d.lt - 100000000
  min 1000 ((all.map fun s => s.2 - max lo s.1).sum / 100000)

end Sys2Proof.Machine
end

