-- ==== Sys2Proof/Machine/Comp.lean ====
section
/-! DEFINITION. The composition pipes: frames, layers, line lists, scaling, blending, tone, the LUT, writeback and tables
(15, R398 to R425). -/
namespace Sys2Proof.Machine

def Dev.pipe (d : Dev) (p : Nat) : Pipe := tget d.pipes p

def Dev.setPipe (d : Dev) (p : Nat) (q : Pipe) : Dev := { d with pipes := tput d.pipes p q }

def Dev.compEvt (d : Dev) (p m : Nat) : Dev := d.evt (404 + p) m

/-- The largest number below 2^n for which a property that holds of 0 and is downward closed holds. -/
def bmaxFrom (q : Nat → Bool) : Nat → Nat → Nat
  | 0, acc => acc
  | n + 1, acc => bmaxFrom q n (if q (acc + 2 ^ n) then acc + 2 ^ n else acc)

def bmax (n : Nat) (q : Nat → Bool) : Nat := bmaxFrom q n 0

/-- round(a / b) for naturals, half up. -/
def rdiv (a b : Nat) : Nat := (2 * a + b) / (2 * b)

/-- e^(num/den) in units of 2^-96 by its series (log 25). -/
def expSeries (num : Int) (den : Nat) : Nat → Int → Nat → Int
  | 0, _, _ => 0
  | n + 1, term, k => term + expSeries num den n (term * num / ((den * (k + 1) : Nat) : Int)) (k + 1)

/-- The decoding table of R413: 0 LINEAR, 1 SRGB, 2 PQ, 3 HLG (log 25 for the standards' formulas). -/
def tfDecode (tf v : Nat) : Nat :=
  match tf with
  | 0 => rdiv (16384 * v) 4095
  | 1 =>
    if v * 100000 ≤ 4045 * 4095 then rdiv (16384 * v * 100) (4095 * 1292)
    else bmax 22 fun k => k == 0 || decide ((2 * k - 1) ^ 5 * (4095 * 1055) ^ 12 ≤ 32768 ^ 5 * (1000 * v + 225225) ^ 12)
  | 2 =>
    let e := bmax 97 fun e => decide ((e ^ 87) ^ 29 * 4095 ^ 32 ≤ v ^ 32 * ((2 ^ 96) ^ 87) ^ 29)
    let num := 128 * e - 107 * 2 ^ 96
    let den := 2413 * 2 ^ 96 - 2392 * e
    min (2 ^ 21 - 1) (bmax 22 fun k => k == 0 || decide ((((2 * k - 1) * 203) ^ 45) ^ 29 * (den ^ 128) ^ 64 ≤ ((2 * 16384 * 10000) ^ 45) ^ 29 * (num ^ 128) ^ 64))
  | _ =>
    if 2 * v ≤ 4095 then rdiv (16384 * v * v * 100000) (3 * 4095 * 4095 * 26497)
    else
      let t : Int := (v : Int) * 100000000 - 55991073 * 4095
      let ex := expSeries t (17883277 * 4095) 60 (2 ^ 96) 0
      let f := ex * 100000000 + 28466892 * 2 ^ 96
      min (2 ^ 21 - 1) (rdiv (16384 * f.toNat) (12 * 2 ^ 96 * 26497 * 1000))

/-- The encoding table of R416: 0 sRGB, 1 BT.709 (log 25). -/
def encTable (oetf k : Nat) : Nat :=
  if oetf = 0 then
    if k * 10000000 ≤ 31308 * 4095 then rdiv (1292 * k) 100
    else bmax 12 fun o => decide ((2000 * o + 449450) ^ 12 * 4095 ^ 5 ≤ 8640450 ^ 12 * k ^ 5)
  else
    if k * 1000 < 18 * 4095 then rdiv (45 * k) 10
    else bmax 12 fun o => decide ((2000 * o + 809810) ^ 20 * 4095 ^ 9 ≤ 9000810 ^ 20 * k ^ 9)

def e8 (v : Nat) : Nat := 16 * v + v / 16

def e5 (v : Nat) : Nat := 128 * v + 4 * v + v / 8

def e6 (v : Nat) : Nat := 64 * v + v

def e10 (v : Nat) : Nat := 4 * v + v / 256

/-- The reset content of entry i of a curve (R421). -/
def curveReset (i : Nat) : Nat :=
  let s := i / 64
  let x0 := if i < 64 then i else 64 * 2 ^ (s - 1) + i % 64 * 2 ^ (s - 1)
  min 65535 (rdiv (65535 * x0) 16384)

/-- The reset content of the 16-bit word at a byte offset of a table of a kind (R421). -/
def tableReset (kind off : Nat) : Nat :=
  match kind with
  | 1 => curveReset (off / 2 % 1024)
  | 2 =>
    let (ph, k, m) := if off < 1024 then (off / 16, off % 16 / 2, 3) else ((off - 1024) / 12, (off - 1024) % 12 / 2, 2)
    if k = m then 4096 - 64 * ph else if k = m + 1 then 64 * ph else 0
  | 3 =>
    let n := off / 8
    match off % 8 / 2 with
    | 0 => rdiv (4095 * (n / 1089)) 32
    | 1 => rdiv (4095 * (n / 33 % 33)) 32
    | 2 => rdiv (4095 * (n % 33)) 32
    | _ => 0
  | _ => 0

/-- Bytes of a table image (R420). -/
def tableLen (kind : Nat) : Nat := [16384, 6144, 1792, 287496].getD kind 0

/-- The 16-bit word at a byte offset of a pipe's table. -/
def Dev.table16 (d : Dev) (p kind bank off : Nat) : Nat :=
  match tget (d.pipe p).banks (2 * kind + bank) with
  | [] => tableReset kind off
  | bs => leAt bs off 2

/-- A register of a frame's line copy (R399, R410). -/
def PipeFrame.r (f : PipeFrame) (k : Nat) : Nat := (aget f.lat k).getD (resetOf k)

def PipeFrame.fld (f : PipeFrame) (k lo w : Nat) : Nat := bits (f.r k) lo w

def PipeFrame.bank (f : PipeFrame) (p kind : Nat) : Nat := f.fld (Reg.COMP_BANK p) kind 1

/-- Palette entry as R, G, B, A (R404). -/
def Dev.palEntry (d : Dev) (f : PipeFrame) (p pal i : Nat) : List Nat :=
  let off := 4 * (256 * pal + i)
  let b := f.bank p 0
  let lo := d.table16 p 0 b off
  let hi := d.table16 p 0 b (off + 2)
  [e8 (lo % 256), e8 (lo / 256), e8 (hi % 256), e8 (hi / 256)]

/-- Bits per pixel of a surface format (R403). -/
def fmtBits (fmt : Nat) : Nat := [8, 4, 8, 16, 32, 32, 32, 8].getD fmt 8

/-- One pixel of indexed or direct format at bit `bit` of the line at `a` (R403, R404), as R, G, B, A of 12 bits. -/
def Dev.fetchPx (d : Dev) (f : PipeFrame) (p a x fmt pal fill : Nat) (tr0 : Bool) : List Nat :=
  let byte := fun (o n : Nat) => d.engNum (a + o) n
  let ix := fun (v : Nat) => if tr0 && v == 0 then [0, 0, 0, 0] else d.palEntry f p pal v
  match fmt with
  | 0 => let v := e8 (byte x 1); [v, v, v, 4095]
  | 1 => ix (byte (x / 2) 1 / 16 ^ (x % 2) % 16)
  | 2 => ix (byte x 1)
  | 3 => let v := byte (2 * x) 2; [e5 (bits v 11 5), e6 (bits v 5 6), e5 (bits v 0 5), 4095]
  | 4 => let v := byte (4 * x) 4; [e8 (bits v 0 8), e8 (bits v 8 8), e8 (bits v 16 8), 4095]
  | 5 => let v := byte (4 * x) 4; [e8 (bits v 0 8), e8 (bits v 8 8), e8 (bits v 16 8), e8 (bits v 24 8)]
  | 6 => let v := byte (4 * x) 4; [e10 (bits v 0 10), e10 (bits v 10 10), e10 (bits v 20 10), 1365 * bits v 30 2]
  | _ => [e8 (bits fill 0 8), e8 (bits fill 8 8), e8 (bits fill 16 8), e8 (byte x 1)]

/-- Pixel (x, y) of a SURFACE layer's surface. -/
def Dev.surfPx (d : Dev) (f : PipeFrame) (p l x y : Nat) : List Nat :=
  let c := f.r (Reg.COMP_L_CFG p l)
  let a := f.fld (Reg.COMP_L_BASE p l) 0 48 + f.fld (Reg.COMP_L_STRIDE p l) 0 18 * y
  d.fetchPx f p a x (bits c 4 4) (bits c 12 4) (f.r (Reg.COMP_L_FILL p l)) (tb c 11)

/-- Source step, phase and first tap of output index j (R411). -/
def scaleAt (sw dw j : Nat) : Int × Nat :=
  let s : Int := ((2 * j + 1) * (sw * 65536 / dw) / 2 : Nat) - 32768
  (s / 65536, (s / 1024 % 64).toNat)

def clamp12 (x : Int) : Nat := (clampI 0 4095 x).toNat

/-- Pixel (j, i) of a SURFACE layer's destination rectangle (R411): the horizontal pass, then the vertical one. -/
def Dev.scaled (d : Dev) (f : PipeFrame) (p l j i : Nat) : List Nat :=
  let sz := f.r (Reg.COMP_L_SSIZE p l)
  let ds := f.r (Reg.COMP_L_DSIZE p l)
  let sc := f.r (Reg.COMP_L_SCROLL p l)
  let sw := bits sz 0 14
  let sh := bits sz 16 14
  let b := f.bank p 2
  let (n, ph) := scaleAt sw (bits ds 0 14) j
  let (m, pv) := scaleAt sh (bits ds 16 14) i
  let src := fun (y : Nat) => (List.range 8).map fun k =>
    (sx 16 (d.table16 p 2 b (2 * (8 * ph + k))), d.surfPx f p l (bits sc 0 16 + (clampI 0 (sw - 1 : Nat) (n - 3 + k)).toNat) y)
  let row := fun (y : Nat) =>
    let t := src y
    (List.range 4).map fun c => clamp12 (((t.map fun q => q.1 * ((q.2.getD c 0 : Nat) : Int)).sum + 2048) / 4096)
  let cols := (List.range 6).map fun k =>
    (sx 16 (d.table16 p 2 b (1024 + 2 * (6 * pv + k))), row (bits sc 16 16 + (clampI 0 (sh - 1 : Nat) (m - 2 + k)).toNat))
  (List.range 4).map fun c => clamp12 (((cols.map fun q => q.1 * ((q.2.getD c 0 : Nat) : Int)).sum + 2048) / 4096)

/-- Pixel of a TILE layer at an offset from its corner (R405). -/
def Dev.tilePx (d : Dev) (f : PipeFrame) (p l dx dy : Nat) : List Nat :=
  let c := f.r (Reg.COMP_L_CFG p l)
  let ss := f.r (Reg.COMP_L_SSIZE p l)
  let ts := if tb ss 0 then 16 else 8
  let bpp := if tb ss 1 then 8 else 4
  let sc := f.r (Reg.COMP_L_SCROLL p l)
  let mx := (dx + bits sc 0 16) % (128 * ts)
  let my := (dy + bits sc 16 16) % (128 * ts)
  let e := d.engNum (f.fld (Reg.COMP_L_BASE p l) 0 48 + 2 * (128 * (my / ts) + mx / ts)) 2
  let ix := if tb e 14 then ts - 1 - mx % ts else mx % ts
  let iy := if tb e 15 then ts - 1 - my % ts else my % ts
  let a := f.fld (Reg.COMP_L_TBASE p l) 0 48 + bits e 0 10 * (ts * ts * bpp / 8) + iy * (ts * bpp / 8)
  d.fetchPx f p a ix (if bpp = 4 then 1 else 2) (bits e 10 4) 0 (tb c 11)

/-- Pixel (i, j) of a sprite (R406). -/
def Dev.sprPx (d : Dev) (f : PipeFrame) (p : Nat) (s : Spr) (i j : Nat) : List Nat :=
  let x := if s.hf then s.w - 1 - i else i
  let y := if s.vf then s.h - 1 - j else j
  d.fetchPx f p (s.addr + (s.w * fmtBits s.fmt + 7) / 8 * y) x s.fmt s.pal 0 true

/-- A sprite definition from words 1 to 3 (R406): none if it is invalid. -/
def sprOf (img w1 w2 w3 : Nat) (x y : Int) (mirror : Bool) : Option Spr :=
  let fmt := bits w2 16 4
  if bits w2 27 5 != 0 || bits w2 14 2 != 0 || bits w2 6 2 != 0 || bits w3 17 15 != 0 || !(fmt == 1 || fmt == 2 || fmt == 5) then none
  else some ⟨x, y, img + 64 * w1, bits w2 0 6 + 1, bits w2 8 6 + 1, fmt, bits w2 20 4, tb w2 24, tb w2 25, bits w3 0 8,
    min 256 (bits w3 8 9), mirror⟩

/-- The layer slot of a kind, if the frame has one. -/
def PipeFrame.layerOf (f : PipeFrame) (p kind : Nat) : Option Nat :=
  (List.range 8).find? fun l => f.fld (Reg.COMP_L_CFG p l) 0 3 == kind

/-- The sprites of the table: those enabled, and how many were skipped as invalid (R406). -/
def PipeFrame.tableSprites (f : PipeFrame) (p : Nat) : List Spr × Nat :=
  let img := f.fld (Reg.COMP_SPR_IMG p) 6 42 * 64
  (List.range (f.table.length / 16)).foldl (fun a i =>
    let w := fun k => leAt f.table (16 * i + 4 * k) 4
    if !tb (w 2) 26 then a
    else match sprOf img (w 1) (w 2) (w 3) (sx 16 (bits (w 0) 0 16)) (sx 16 (bits (w 0) 16 16)) false with
      | some s => (a.1 ++ [s], a.2)
      | none => (a.1, a.2 + 1)) ([], 0)

/-- The sprites of the mirror list (R408). -/
def PipeFrame.mirrorSprites (f : PipeFrame) (p : Nat) : List Spr × Nat :=
  let img := f.fld (Reg.COMP_SPR_IMG p) 6 42 * 64
  let xy := f.r (Reg.COMP_M_XY0 p)
  f.items.foldl (fun a (u, lane, k) =>
    let w := fun i => f.r (Reg.COMP_M_SPR p k i)
    let x := sx 16 (bits xy 0 16) + u * sx 32 (f.r (Reg.COMP_M_SCALE p)) / 2 ^ 32
    let y := sx 16 (bits xy 16 16) + (lane : Int) * sx 16 (f.fld (Reg.COMP_M_DY p) 0 16)
    if !tb (w 2) 26 then a
    else match sprOf img (w 1) (w 2) (w 3) x y true with
      | some s => (a.1 ++ [s], a.2)
      | none => (a.1, a.2 + 1)) ([], 0)

/-- Insert by PRI, after those of the same PRI: the ranking of R407 over sprites given SPRITE before MIRROR. -/
def sprInsert (s : Spr) : List Spr → List Spr
  | [] => [s]
  | t :: ts => if s.pri < t.pri then s :: t :: ts else t :: sprInsert s ts

/-- Sprites that touch output line y (R407). -/
def touching (ss : List Spr) (y : Nat) : List Spr := ss.filter fun s => decide (s.y ≤ (y : Int)) && decide ((y : Int) < s.y + s.h)

/-- One blend (R414) into a running value per channel. -/
def blend (dst c : List Nat) (a ga mode : Nat) : List Nat :=
  let eff := ((a + a / 2048) * ga + 128) / 256
  if a = 0 then dst
  else (List.range 3).map fun k =>
    let x : Int := (dst.getD k 0 : Nat)
    let y : Int := (c.getD k 0 : Nat)
    if mode = 0 then (x + ((y - x) * eff + 2048) / 4096).toNat else min ((x + (y * eff + 2048) / 4096).toNat) (2 ^ 21 - 1)

/-- Blend one layer slot at output pixel (x, y) (R402, R407, R414). -/
def Dev.layerBlend (d : Dev) (f : PipeFrame) (p : Nat) (drawn : List Spr) (l x y : Nat) (dst : List Nat) : List Nat :=
  let c := f.r (Reg.COMP_L_CFG p l)
  let ds := f.r (Reg.COMP_L_DSIZE p l)
  let pos := f.r (Reg.COMP_L_DPOS p l)
  let dx : Int := x - sx 16 (bits pos 0 16)
  let dy : Int := y - sx 16 (bits pos 16 16)
  if dx < 0 ∨ dy < 0 ∨ ((bits ds 0 14 : Nat) : Int) ≤ dx ∨ ((bits ds 16 14 : Nat) : Int) ≤ dy then dst
  else
    let put := fun (ga : Nat) (dst px : List Nat) => blend dst ((px.take 3).map (tfDecode (bits c 8 2))) (px.getD 3 0) ga (bits c 10 1)
    let ga := min 256 (bits c 16 9)
    let sprites := fun (m : Bool) =>
      ((drawn.filter fun s => s.mirror == m && decide (s.x ≤ (x : Int)) && decide ((x : Int) < s.x + s.w)).reverse).foldl (fun dst s =>
        put s.alpha dst (d.sprPx f p s ((x : Int) - s.x).toNat ((y : Int) - s.y).toNat)) dst
    match bits c 0 3 with
    | 1 => put ga dst (d.scaled f p l dx.toNat dy.toNat)
    | 2 => put ga dst (d.tilePx f p l dx.toNat dy.toNat)
    | 3 => sprites false
    | 4 => sprites true
    | _ => dst

/-- The tone curve of a channel (R415). -/
def Dev.tone (d : Dev) (f : PipeFrame) (p ch x : Nat) : Nat :=
  if !tb (f.r (Reg.COMP_CTRL p)) 3 then min 65535 (4 * x)
  else
    let b := f.bank p 1
    let e := fun i => d.table16 p 1 b (2048 * ch + 2 * min i 1023)
    let s := if x < 64 then 0 else Nat.log2 (x / 64) + 1
    let q := 2 ^ (s - 1)
    let i := if x < 64 then x else 64 * s + (x - 64 * q) / q
    let fr := if s ≤ 1 then 0 else x % q
    let h := if 2 ≤ s then 2 ^ (s - 2) else 0
    ((e i : Int) + (((e (i + 1) : Int) - e i) * fr + h) / q).toNat

/-- The 3D LUT at three 12-bit inputs (R417). -/
def Dev.lut3 (d : Dev) (f : PipeFrame) (p : Nat) (o : List Nat) : List Nat :=
  let b := f.bank p 3
  let q := o.map fun v => (v * 32 * 4096 + 2047) / 4095
  let n := q.map fun v => min (v / 4096) 31
  let fr := (List.range 3).map fun k => q.getD k 0 - 4096 * n.getD k 0
  let step := fun k => [1089, 33, 1].getD k 0
  let gt := fun (i j : Nat) => decide (fr.getD j 0 < fr.getD i 0) || (fr.getD i 0 == fr.getD j 0 && decide (i < j))
  let order := if gt 0 1 then (if gt 1 2 then [0, 1, 2] else if gt 0 2 then [0, 2, 1] else [2, 0, 1])
    else (if gt 0 2 then [1, 0, 2] else if gt 1 2 then [1, 2, 0] else [2, 1, 0])
  let a := order.getD 0 0
  let m := order.getD 1 0
  let z := order.getD 2 0
  let base := 1089 * n.getD 0 0 + 33 * n.getD 1 0 + n.getD 2 0
  let c := fun (node k : Nat) => d.table16 p 3 b (8 * node + 2 * k) % 4096
  (List.range 4).map fun k =>
    min 4095 ((c base k * (4096 - fr.getD a 0) + c (base + step a) k * (fr.getD a 0 - fr.getD m 0)
      + c (base + step a + step m) k * (fr.getD m 0 - fr.getD z 0) + c (base + step a + step m + step z) k * fr.getD z 0 + 2048) / 4096)

/-- Encoded R, G, B of output pixel (x, y) (R413 to R416). -/
def Dev.compRgb (d : Dev) (f : PipeFrame) (p : Nat) (drawn : List Spr) (x y : Nat) : List Nat :=
  let bg := f.r (Reg.COMP_BG p)
  let base := [bits bg 0 8, bits bg 8 8, bits bg 16 8].map fun v => tfDecode 1 (e8 v)
  let v := if f.blank then base else (List.range 8).foldl (fun v l => d.layerBlend f p drawn l x y v) base
  (List.range 3).map fun ch => encTable (f.fld (Reg.COMP_CTRL p) 4 1) (d.tone f p ch (v.getD ch 0) / 16)

/-- LUT_EN acts on pipes 6 and 7 alone (R417). -/
def PipeFrame.lutOn (f : PipeFrame) (p : Nat) : Bool := decide (6 ≤ p) && tb (f.r (Reg.COMP_CTRL p)) 5

/-- The four values that a pipe delivers for a pixel (R416). -/
def Dev.deliver (d : Dev) (f : PipeFrame) (p : Nat) (rgb : List Nat) : List Nat :=
  if f.lutOn p then d.lut3 f p rgb else rgb ++ [0]

/-- Where writeback puts frame pixel (x, y): rotated, then mirrored (R418). -/
def orient (o ow oh x y : Nat) : Nat × Nat :=
  let (x', y', w') := match o % 4 with
    | 0 => (x, y, ow)
    | 1 => (oh - 1 - y, x, oh)
    | 2 => (ow - 1 - x, oh - 1 - y, ow)
    | _ => (y, ow - 1 - x, oh)
  (if tb o 2 then w' - 1 - x' else x', y')

/-- The bytes that writeback writes for a pixel (R418). -/
def Dev.wbBytes (_d : Dev) (fmt : Nat) (o : List Nat) : List Nat :=
  let b := (o.take 3).map fun v => min 255 ((v + 8) / 16)
  match fmt with
  | 0 => b ++ [0]
  | 1 => [(77 * b.getD 0 0 + 150 * b.getD 1 0 + 29 * b.getD 2 0 + 128) / 256]
  | _ => (o.map (leBytes 2)).flatten

/-- Address of a frame's writeback slot (R418). -/
def PipeFrame.wbSlot (f : PipeFrame) (p : Nat) : Nat :=
  let k := 2 ^ min 6 (f.fld (Reg.COMP_WB_CFG p) 8 5)
  f.fld (Reg.COMP_WB_BASE p) 12 36 * 4096 + f.k % k * (f.r (Reg.COMP_WB_SLOT p) / 4096 * 4096)

def PipeFrame.ow (f : PipeFrame) (p : Nat) : Nat := f.fld (Reg.COMP_SIZE p) 0 14

def PipeFrame.oh (f : PipeFrame) (p : Nat) : Nat := f.fld (Reg.COMP_SIZE p) 16 14

/-- The slot that a frame writes back to overlaps a surface that one of its SURFACE layers reads (R418). -/
def PipeFrame.wbClash (f : PipeFrame) (p : Nat) : Bool :=
  let turned := tb (f.r (Reg.COMP_WB_CFG p)) 4
  let lo := f.wbSlot p
  let hi := lo + f.fld (Reg.COMP_WB_STRIDE p) 6 12 * 64 * (if turned then f.ow p else f.oh p)
  (List.range 8).any fun l =>
    let a := f.fld (Reg.COMP_L_BASE p l) 0 48
    let n := f.fld (Reg.COMP_L_STRIDE p l) 0 18 * (f.fld (Reg.COMP_L_SCROLL p l) 16 16 + f.fld (Reg.COMP_L_SSIZE p l) 16 14)
    f.fld (Reg.COMP_L_CFG p l) 0 3 == 1 && decide (a < hi) && decide (lo < a + n)

/-- Write back one line; into a surface that the frame reads goes undefined content, a free value (R418, log 1). -/
def Dev.writeback (d : Dev) (f : PipeFrame) (p y : Nat) (rgb : List (List Nat)) : Dev :=
  let c := f.r (Reg.COMP_WB_CFG p)
  if !tb c 0 || f.bad then d
  else
    let fmt := bits c 2 2
    let bpp := [4, 1, 8].getD fmt 4
    let tapped := fun (o : List Nat) => if tb c 1 && f.lutOn p then d.lut3 f p o else o ++ [0]
    let (x, d) := if f.wbClash p then d.fresh (64 * rgb.length) else (0, d)
    let px := if f.wbClash p then (List.range rgb.length).map fun i => leBytes bpp (x / 2 ^ (64 * i)) else rgb.map fun o => d.wbBytes fmt (tapped o)
    let slot := f.wbSlot p
    let stride := f.fld (Reg.COMP_WB_STRIDE p) 6 12 * 64
    (List.range px.length).foldl (fun d x =>
      let (x', y') := orient (bits c 4 3) (f.ow p) (f.oh p) x y
      d.engineWrite (slot + stride * y' + bpp * x') (px.getD x [])) d

/-- Active size of a display mode (R457). -/
def dispSize (mode : Nat) : Option (Nat × Nat) :=
  [(640, 480), (800, 600), (1024, 768), (1280, 800), (1280, 1024), (1366, 768), (1600, 900), (1920, 1200), (1280, 720), (1280, 720),
   (1920, 1080), (1920, 1080), (3840, 2160), (3840, 2160)][mode]?

/-- COMP_OUT of a pipe as KIND and PORT, kinds 3 to 7 as 0 (R423). -/
def outOf (v : Nat) : Nat × Nat := (if bits v 0 3 ≤ 2 then bits v 0 3 else 0, bits v 4 3)

/-- A layer of a frame is invalid (R402, R403, R405, R412). -/
def PipeFrame.layerBad (f : PipeFrame) (p l : Nat) : Bool :=
  let c := f.r (Reg.COMP_L_CFG p l)
  let ss := f.r (Reg.COMP_L_SSIZE p l)
  let ds := f.r (Reg.COMP_L_DSIZE p l)
  let inR := fun n => decide (1 ≤ n) && decide (n ≤ 8192)
  let fmt := bits c 4 4
  match bits c 0 3 with
  | 0 => false
  | 1 => decide (8 ≤ fmt) || !(inR (bits ss 0 14) && inR (bits ss 16 14) && inR (bits ds 0 14) && inR (bits ds 16 14)) ||
      decide (8 * bits ds 0 14 < bits ss 0 14) || decide (8 * bits ds 16 14 < bits ss 16 14)
  | 2 => fmt != (if tb ss 1 then 2 else 1)
  | 3 | 4 => decide (8 ≤ fmt)
  | _ => true

/-- The latched configuration is invalid (R422). -/
def Dev.compBad (d : Dev) (f : PipeFrame) (p : Nat) : Bool :=
  let c := f.r (Reg.COMP_CTRL p)
  let wb := f.r (Reg.COMP_WB_CFG p)
  let (kind, port) := outOf (f.r (Reg.COMP_OUT p))
  let count := fun k => ((List.range 8).filter fun l => f.fld (Reg.COMP_L_CFG p l) 0 3 == k).length
  bits c 1 2 == 3 || (List.range 8).any (fun l => f.layerBad p l) || decide (1 < count 3) || decide (1 < count 4)
    || (tb wb 0 && bits wb 2 2 == 3) || (tb wb 7 && decide (2 ≤ bits wb 2 2))
    || (bits c 1 2 == 0 && kind == 1 && dispSize (d.fld (Reg.DISP_CFG port) 0 4) != some (f.ow p, f.oh p))
    || (kind == 1 && (List.range p).any fun q => d.bit (Reg.COMP_CTRL q) 0 && outOf (d.rd (Reg.COMP_OUT q)) == (1, port))

/-- OR with PRINT_FAULT for an item (R186, R400, R454). -/
def Dev.printFault (d : Dev) (slot id : Nat) : Dev := d.sendVerdict slot id 0 8 0 0

/-- The golden directory entry of a frame, with VALID left 0 (R378, R419). -/
def PipeFrame.goldEntry (f : PipeFrame) (p : Nat) (s : SwStart) (caddr clen : Nat) : List Nat :=
  let c := f.r (Reg.COMP_WB_CFG p)
  let turned := tb c 4
  let xy := f.r (Reg.COMP_WB_GXY p)
  leBytes 4 s.id ++ leBytes 4 s.pjob ++ leBytes 8 (f.wbSlot p) ++ leBytes 2 (if turned then f.oh p else f.ow p)
    ++ leBytes 2 (if turned then f.ow p else f.oh p) ++ leBytes 2 (f.fld (Reg.COMP_WB_STRIDE p) 6 12 * 64)
    ++ [if bits c 2 2 = 0 then 1 else 0, 0] ++ leBytes 2 (bits xy 0 16) ++ leBytes 2 (bits xy 16 16) ++ leBytes 8 caddr
    ++ leBytes 2 clen ++ List.replicate 26 0

/-- Layers that take an address override, in rising order, with their ADDRk (R401). -/
def overrides (job : List Nat) : List (Nat × Nat) :=
  let ls := ((List.range 8).filter fun l => tb (leAt job 5 1) l).take 6
  (List.range ls.length).map fun k => (ls.getD k 0, leAt job (16 + 8 * k) 6)

/-- Start a frame: latch the configuration, read the sprite table and the job, request the mirror list (R399 to R401, R419, R422). -/
def Dev.frameBegin (d : Dev) (p : Nat) (s : Option SwStart) : Dev :=
  let base := Reg.COMP_CTRL p
  let lat := (d.regs.filter fun x => decide (base ≤ x.1) && decide (x.1 < base + 0x1000)).map fun x => (x.1, x.2.toNat)
  let q := d.pipe p
  let f : PipeFrame := { (default : PipeFrame) with lat := lat, start := s, k := match s with | some s => s.pjob | none => q.count }
  let f := { f with bad := d.compBad f p }
  let d := d.setPipe p { q with count := q.count + 1, bad := f.bad }
  let d := match s with | some s => d.wr (Reg.COMP_LAST_ID p) s.id | none => d
  let d := if f.bad then d.compEvt p 4096 else d
  let d := match s with | some s => if f.bad then d.printFault s.slot s.id else d | none => d
  let jobAt := f.fld (Reg.COMP_JOB_BASE p) 6 42 * 64 + 64 * (f.k % 2 ^ min 16 (f.fld (Reg.COMP_JOB_CFG p) 0 5))
  let job := d.engRead jobAt 64
  let d := d.bump
  let (f, d) := match s with
    | none => (f, d)
    | some s =>
      if s.pjob = 0 ∨ f.bad then ({ f with blank := true }, d)
      else
        let miss := leAt job 4 1 % 2 == 0 || leAt job 0 4 != s.pjob
        let lat := if miss then f.lat else (overrides job).foldl (fun t (o : Nat × Nat) => aset t (Reg.COMP_L_BASE p o.1) (some o.2)) f.lat
        let gold := tb (f.r (Reg.COMP_WB_CFG p)) 7
        let g := d.fld Reg.SIEVE_GOLD_BASE 6 42 * 64 + 64 * (s.pjob % 2 ^ min 16 (d.fld Reg.SIEVE_GOLD_CFG 0 5))
        let ent := f.goldEntry p s (leAt job 8 6) (leAt job 6 2)
        let d := if gold then d.engineWrite g ent else d
        let d := if miss then (((d.inc (Reg.COMP_JOB_MISS p)).compEvt p 128).printFault s.slot s.id) else d
        ({ f with lat := lat, blank := miss, gold := if gold && !miss && tb (f.r (Reg.COMP_WB_CFG p)) 0 then some (g, ent) else none }, d)
  let n := min 256 (f.fld (Reg.COMP_SPR_CFG p) 0 9)
  let table := if (f.layerOf p 3).isSome then d.engRead (f.fld (Reg.COMP_SPR_BASE p) 4 44 * 16) (16 * n) else []
  let f := { f with table := table, mir := if (f.layerOf p 4).isSome then 1 else 0 }
  d.setPipe p { d.pipe p with frame := some f }

/-- A pipe can start a frame now: enabled, and its die runs. -/
def Dev.compOn (d : Dev) (p : Nat) : Bool := d.bit (Reg.COMP_CTRL p) 0 && !d.dataOff

/-- A swath start reaches its source pipe (R400). -/
def Dev.pipeSwath (d : Dev) (p : Nat) (s : SwStart) : Dev :=
  let q := d.pipe p
  if q.frame.isNone && q.queue.isEmpty then d.frameBegin p (some s)
  else if q.queue.length < 2 then d.setPipe p { q with queue := q.queue ++ [s] }
  else ((d.inc (Reg.COMP_START_OVF p)).compEvt p 256).printFault s.slot s.id

/-- The line that ends a frame: the last of a selective update, or of the picture (R459). -/
def PipeFrame.stop (f : PipeFrame) (p : Nat) : Nat :=
  match f.part with
  | some (_, y1) => min (f.oh p) (y1 + 1)
  | none => f.oh p

/-- Lines of a frame that its display port did not get in time (R398, R458): they are sent with repeated pixels, and the frame ends with them. -/
def Dev.dispLate (d : Dev) (p : Nat) : Dev :=
  match (d.pipe p).frame with
  | none => d
  | some f =>
    let (kind, port) := outOf (f.r (Reg.COMP_OUT p))
    let n := f.stop p - f.line
    if kind ≠ 1 ∨ n = 0 ∨ f.bad ∨ 3 ≤ port then d
    else
      let d := d.compEvt p 2
      if d.fld (Reg.DISP_STATUS port) 0 3 = 3 then
        (((d.addSat (Reg.DISP_UNDERRUN port) n).evt (422 + port) 4).inc (Reg.DISP_FRAMES port)).evt (422 + port) 1
      else d

/-- The frame that pipe `p` has begun for display port `port` (R459): a PSR entry that waits takes this frame, and in PSR2 it is the selective update
requested. The line list acts on the lines above the update as if they were rendered (log 105). -/
def Dev.dispBegin (d : Dev) (p port : Nat) : Dev :=
  let q := tget d.disp port
  match (d.pipe p).frame with
  | none => d
  | some f =>
    if d.fld (Reg.DISP_STATUS port) 0 3 = 5 then
      let d := { d with disp := tput d.disp port { q with su := none } }
      let f := { f with part := q.su, line := min (f.oh p) (q.su.getD (0, 0)).1 }
      d.setPipe p { d.pipe p with frame := some f }
    else if q.entering = 1 then { d with disp := tput d.disp port { q with entering := 2 } }
    else d

/-- A display port that no enabled pipe names sends a black frame (R458). -/
def Dev.blackFrame (d : Dev) (port : Nat) : Dev :=
  let named := (List.range 8).any fun p => d.bit (Reg.COMP_CTRL p) 0 && outOf (d.rd (Reg.COMP_OUT p)) == (1, port)
  if named || d.dataOff || d.fld (Reg.DISP_STATUS port) 0 3 != 3 then d
  else ((d.emit (.event 9 [port])).inc (Reg.DISP_FRAMES port)).evt (422 + port) 1

/-- The start of a pipe frame: in DISPLAY mode the port's vertical blanking, in PRINT mode the next queued swath start (R398, R400). A
display port in PSR gives no frame start (R459). The vertical blanking of a port whose pipe is not enabled starts a black frame (R458, log 105). -/
def Dev.pipeFrameStart (d : Dev) (p : Nat) : Dev :=
  let q := d.pipe p
  if !d.bit (Reg.COMP_CTRL p) 0 then
    let (kind, port) := outOf (d.rd (Reg.COMP_OUT p))
    if kind = 1 ∧ port < 3 then d.blackFrame port else d
  else if d.dataOff then d
  else match d.fld (Reg.COMP_CTRL p) 1 2 with
    | 1 => match q.frame, q.queue with
      | none, s :: t => (d.setPipe p { q with queue := t }).frameBegin p (some s)
      | _, _ => d
    | 2 => d
    | _ =>
      let (kind, port) := outOf (d.rd (Reg.COMP_OUT p))
      let st := d.fld (Reg.DISP_STATUS port) 0 3
      if d.fld (Reg.COMP_CTRL p) 1 2 = 0 ∧ (kind ≠ 1 ∨ 3 ≤ port) then d
      else if kind == 1 && (st == 4 || (st == 5 && (tget d.disp port).su.isNone)) then d
      else
        let d := (d.dispLate p).frameBegin p none
        if kind = 1 ∧ port < 3 then d.dispBegin p port else d

/-- A write of 1 to COMP_GO (R398). -/
def Dev.compGo (d : Dev) (p v : Nat) : Dev :=
  if v % 2 = 0 || !d.compOn p || d.fld (Reg.COMP_CTRL p) 1 2 != 2 then d
  else if (d.pipe p).frame.isSome then d.compEvt p 8192
  else d.frameBegin p none

/-- The item engine takes a pipe's mirror list, which reaches the pipe unless the Stem carries no flits; the request then still stands (R24, R408,
log 102). -/
def Dev.mirrorList (d : Dev) (p : Nat) : Dev :=
  match (d.pipe p).frame with
  | none => d
  | some f =>
    if f.mir ≠ 1 ∨ !d.stemUp then d
    else
      let b := f.fld (Reg.COMP_M_CFG p) 0 3
      let l := (tget d.beams b).l
      let lo := sx 32 (f.r (Reg.COMP_M_UMIN p))
      let hi := sx 32 (f.r (Reg.COMP_M_UMAX p))
      let dist := fun (i : Item) => distL (d.fpf b) (d.itemL i) l / 2 ^ 32
      let ok := fun (i : Item) => (i.state == 1 || i.state == 2) && tb (f.r (Reg.COMP_M_LANES p)) i.lane
        && tb (f.r (Reg.COMP_M_CLS p (i.cls / 32))) (i.cls % 32) && decide (lo ≤ dist i) && decide (dist i < hi)
      let sel := ((d.beamList b).map d.item).filter ok
      let rows := (sel.take 256).map fun i =>
        (dist i, i.lane, if tb i.verdict 0 then 1 else if i.vpend != 0 || i.printing then 2 else 0)
      let d := if 256 < sel.length then (d.addSat (Reg.COMP_SPR_DROP p) (sel.length - 256)).compEvt p 16 else d
      d.setPipe p { d.pipe p with frame := some { f with mir := 2, items := rows } }

/-- One line-list entry (R409, R410): its words. -/
def Dev.llEntry (d : Dev) (f : PipeFrame) (p i : Nat) : List Nat :=
  (List.range 4).map fun k => d.engNum (f.fld (Reg.COMP_LLIST_BASE p) 4 44 * 16 + 16 * i + 4 * k) 4

/-- The line copy after an entry, none where its target holds no CMT field (R409, R410). -/
def PipeFrame.llApply (f : PipeFrame) (p : Nat) (w : List Nat) : Option PipeFrame :=
  let a := Reg.COMP_CTRL p + bits (w.getD 1 0) 2 10 * 4
  match regFind a with
  | none => none
  | some (row, key) =>
    if row.cmt = 0 then none
    else
      let sh := 8 * (a - key)
      let m := (w.getD 3 0 * 2 ^ sh) &&& row.cmt
      some { f with lat := aset f.lat key (some (mergeMask (f.r key) (w.getD 2 0 * 2 ^ sh) m)) }

/-- Apply the line list at the start of line y (R409, R410): at most `room` entries, of at most `n` read. -/
def Dev.llLine (d : Dev) (p y : Nat) : Nat → Nat → PipeFrame → PipeFrame × Dev
  | 0, _, f => (f, d)
  | n + 1, room, f =>
    let len := min 1024 (f.fld (Reg.COMP_LLIST_CFG p) 0 11)
    if len ≤ f.ll then (f, d)
    else
      let w := d.llEntry f p f.ll
      let line := bits (w.getD 0 0) 0 13
      let next := { f with ll := f.ll + 1 }
      let skip := (d.inc (Reg.COMP_LL_SKIP p)).compEvt p 8
      if !tb (w.getD 0 0) 31 then d.llLine p y n room next
      else if line < f.llLast then skip.llLine p y n room next
      else if y < line then (f, d)
      else match next.llApply p w with
        | none => skip.llLine p y n room { next with llLast := line }
        | some g =>
          if room = 0 then (f, d)
          else
            let d := if line < y then (d.inc (Reg.COMP_LL_LATE p)).compEvt p 4 else d
            d.llLine p y n (room - 1) { g with llLast := line }

/-- The line list's entries for the lines above a selective update (R410, R459, log 105). -/
def Dev.llAbove (d : Dev) (p : Nat) (f : PipeFrame) : PipeFrame × Dev :=
  (List.range f.line).foldl (fun x y => x.2.llLine p y 1024 64 x.1) (f, d)

/-- The kept sprites of a frame, with their drops (R407, R408). -/
def Dev.keepSprites (d : Dev) (p : Nat) (f : PipeFrame) : PipeFrame × Dev :=
  if f.sprs.isSome || f.bad || f.blank then (f, d)
  else
    let d := if f.mir = 1 then d.compEvt p 64 else d
    let f := { f with mir := if f.mir = 1 then 3 else f.mir }
    let (a, x) := f.tableSprites p
    let (b, y) := f.mirrorSprites p
    let d := if x + y = 0 then d else d.compEvt p 32
    let all := (a ++ b).foldl (fun l s => sprInsert s l) []
    let lost := all.length - 256
    let d := if lost = 0 then d else (d.addSat (Reg.COMP_SPR_DROP p) lost).compEvt p 16
    ({ f with sprs := some (all.take 256) }, d)

/-- Deliver a rendered line to the frame's port: to the swath it belongs to, or to a display port (R398, R450, R458). -/
def Dev.deliverLine (d : Dev) (p : Nat) (f : PipeFrame) (px : List (List Nat)) : Dev :=
  let (kind, port) := outOf (f.r (Reg.COMP_OUT p))
  match f.start with
  | some s =>
    let q := tget d.ras s.port
    let c := d.rd (Reg.RASTER_CFG s.port)
    let feed := fun (w : Swath) =>
      if w.seq ≠ s.seq then w
      else
        let w := if bits c 10 3 = p then { w with got0 := w.got0 ++ [px.flatten] } else w
        if tb c 16 && bits c 13 3 == p then { w with got1 := w.got1 ++ [px.flatten] } else w
    { d with ras := tput d.ras s.port { q with swaths := q.swaths.map feed } }
  | none =>
    let st := d.fld (Reg.DISP_STATUS port) 0 3
    if kind = 1 ∧ (st = 3 ∨ (st = 5 ∧ f.part.isSome)) then
      let n := if d.bit (Reg.DISP_CFG port) 7 then 10 else 8
      d.emit (.event 5 ([port, f.line] ++ (px.map fun o => (o.take 3).map fun v => (v * (2 ^ n - 1) + 2047) / 4095).flatten))
    else d

/-- Swaths of the frame's port hold the pipe at 64 lines ahead of its consumption (R398). -/
def Dev.pipeHeld (d : Dev) (f : PipeFrame) : Bool :=
  match f.start with
  | none => false
  | some s => match (tget d.ras s.port).swaths.find? fun w => w.seq == s.seq with
    | none => false
    | some w => decide (w.k + 64 ≤ f.line)

/-- The end of a frame (R400, R419, R459). -/
def Dev.frameFinish (d : Dev) (p : Nat) (f : PipeFrame) : Dev :=
  let q := d.pipe p
  let d := d.setPipe p { q with frame := none, golds := match f.gold with | some g => q.golds ++ [g] | none => q.golds }
  let d := (d.inc (Reg.COMP_FRAMES p)).compEvt p 1
  let (kind, port) := outOf (f.r (Reg.COMP_OUT p))
  if kind ≠ 1 ∨ f.start.isSome ∨ 3 ≤ port then d
  else
    let st := d.fld (Reg.DISP_STATUS port) 0 3
    let dp := tget d.disp port
    let sent := fun (d : Dev) => (d.inc (Reg.DISP_FRAMES port)).evt (422 + port) 1
    if st = 3 then
      let d := sent d
      if dp.entering = 2 then
        let d := { d with disp := tput d.disp port { dp with entering := 0 } }
        d.setF (Reg.DISP_STATUS port) 0 3 (if d.bit (Reg.DISP_PSR port) 1 && dp.psr2 then 5 else 4)
      else d
    else if st = 5 ∧ f.part.isSome then sent d
    else d

/-- The start of an output line (R410), with the line itself: line list, layers, output and writeback (R402 to R418). -/
def Dev.pipeLine (d : Dev) (p : Nat) : Dev :=
  match (d.pipe p).frame with
  | none => d
  | some f =>
    if d.dataOff || d.pipeHeld f then d
    else if f.stop p ≤ f.line then d.frameFinish p f
    else
      let d := d.bump
      let (f, d) := if f.part.isSome ∧ (f.part.getD (0, 0)).1 = f.line ∧ !f.bad ∧ tb (f.r (Reg.COMP_LLIST_CFG p)) 31 then d.llAbove p f else (f, d)
      let (f, d) := if f.bad || !tb (f.r (Reg.COMP_LLIST_CFG p)) 31 then (f, d) else d.llLine p f.line 1024 64 f
      let (f, d) := d.keepSprites p f
      let all := touching (f.sprs.getD []) f.line
      let d := if all.length ≤ 64 then d else (d.addSat (Reg.COMP_LINE_DROP p) (all.length - 64)).compEvt p 16
      let ow := f.ow p
      let rgb := if f.bad then List.replicate ow [0, 0, 0]
        else (List.range ow).map fun x => d.compRgb f p (all.take 64) x f.line
      let px := if f.bad then List.replicate ow [0, 0, 0, 0] else rgb.map (d.deliver f p)
      let d := (d.deliverLine p f px).writeback f p f.line rgb
      let f := { f with line := f.line + 1 }
      if f.stop p ≤ f.line then d.frameFinish p f else d.setPipe p { d.pipe p with frame := some f }

/-- The golden entry of a finished frame is written with VALID = 1 (R419). -/
def Dev.goldValid (d : Dev) (p : Nat) : Dev :=
  let q := d.pipe p
  match q.golds with
  | [] => d
  | (a, e) :: t => (d.setPipe p { q with golds := t }).engineWrite a (e.take 23 ++ [1] ++ e.drop 24)

/-- A write to COMP_TLOAD (R420). -/
def Dev.compTload (d : Dev) (p v : Nat) : Dev :=
  let q := d.pipe p
  if q.load.isSome then d
  else (d.setPipe p { q with load := some (bits v 0 2, bits v 4 1, d.fld (Reg.COMP_TLOAD_SRC p) 3 45 * 8) }).wr (Reg.COMP_TLOAD_STATUS p) 1

/-- The end of a pipe's table load (R420): the image with its CRC, or TLOAD_ERR and undefined content, which is a free value. -/
def Dev.compTloadDone (d : Dev) (p : Nat) : Dev :=
  let q := d.pipe p
  match q.load with
  | none => d
  | some (kind, bank, src) =>
    let n := tableLen kind
    if kind = 3 ∧ p < 6 then
      ((d.setPipe p { q with load := none }).wr (Reg.COMP_TLOAD_STATUS p) 2).compEvt p 2048
    else if d.hasRange src n && !d.dataOff then
      let bs := d.memRead src n
      let d := d.setPipe p { q with load := none, banks := tput q.banks (2 * kind + bank) bs }
      ((d.wr (Reg.COMP_TLOAD_CRC p) (crc32c bs)).wr (Reg.COMP_TLOAD_STATUS p) 0).compEvt p 1024
    else
      let (x, d) := d.fresh (8 * n)
      let d := d.setPipe p { q with load := none, banks := tput q.banks (2 * kind + bank) (leBytes n x) }
      (d.wr (Reg.COMP_TLOAD_STATUS p) 2).compEvt p 2048

/-- COMP_STATUS[p] (R423). -/
def Dev.compStatus (d : Dev) (p : Nat) : Nat :=
  let q := d.pipe p
  let st := if !d.bit (Reg.COMP_CTRL p) 0 then 0 else if q.bad then 2 else 1
  st + q.queue.length * 4 + (match q.frame with | some f => f.line | none => 0) * 2 ^ 16

end Sys2Proof.Machine
end

