-- ==== Sys2Proof/Machine/Line.lean ====
section
/-! DEFINITION. The line code of the drive ports (R217, R218): the 8b/10b code, its running disparity and the synchronisation state machine of IEEE
802.3 Clause 36, which R217 takes unchanged (PRESUMED, log 98). A code group is a number of ten bits, a first as bit 9 and j as bit 0. -/
namespace Sys2Proof.Machine

/-- What a code group is at a running disparity. -/
inductive Code
  | data (byte : Nat)
  | ctrl (byte : Nat)
  | bad
deriving DecidableEq, Repr

/-- The 5b/6b sub-blocks of D0 to D31 at negative disparity. -/
def sixes : List Nat := [0x27, 0x1D, 0x2D, 0x31, 0x35, 0x29, 0x19, 0x38, 0x39, 0x25, 0x15, 0x34, 0x0D, 0x2C, 0x1C, 0x17, 0x1B, 0x23, 0x13, 0x32,
  0x0B, 0x2A, 0x1A, 0x3A, 0x33, 0x26, 0x16, 0x36, 0x0E, 0x2E, 0x1E, 0x2B]

/-- The 3b/4b sub-blocks of data at negative disparity; the last is the primary one of y = 7. -/
def fours : List Nat := [0xB, 0x9, 0x5, 0xC, 0xD, 0xA, 0x6, 0xE]

/-- The 3b/4b sub-blocks of control groups at negative disparity. -/
def kFours : List Nat := [0xB, 0x6, 0xA, 0xC, 0xD, 0x5, 0x9, 0x7]

/-- Ones among the low `n` bits. -/
def onesIn (n v : Nat) : Nat := ((List.range n).filter fun i => tb v i).length

/-- Running disparity after a sub-block of `n` bits; true is positive. -/
def dispAfter (n : Nat) (rd : Bool) (v : Nat) : Bool :=
  let k := onesIn n v
  if n < 2 * k then true else if 2 * k < n then false
  else if v = 0x07 ∧ n = 6 ∨ v = 0x3 ∧ n = 4 then true
  else if v = 0x38 ∧ n = 6 ∨ v = 0xC ∧ n = 4 then false
  else rd

/-- A sub-block at a disparity: the unbalanced ones, and D7 and y = 3, have two forms. -/
def subBlock (n : Nat) (rd : Bool) (v : Nat) : Nat :=
  if rd ∧ (2 * onesIn n v ≠ n ∨ v = 0x38 ∧ n = 6 ∨ v = 0xC ∧ n = 4) then 2 ^ n - 1 - v else v

def sixOf (rd : Bool) (x : Nat) : Nat := subBlock 6 rd (sixes.getD x 0)

/-- The second sub-block of data: y = 7 takes its alternate form after some first ones. -/
def fourOf (rd : Bool) (x y : Nat) : Nat :=
  if y = 7 ∧ (if rd then x = 11 ∨ x = 13 ∨ x = 14 else x = 17 ∨ x = 18 ∨ x = 20) then (if rd then 0x8 else 0x7)
  else subBlock 4 rd (fours.getD y 0)

/-- The second sub-block of a control group, whose balanced forms too come in two. -/
def kFourOf (rd : Bool) (y : Nat) : Nat := if rd then 0xF - kFours.getD y 0 else kFours.getD y 0

/-- The first sub-block of a control group: K28 has its own. -/
def kSixOf (rd : Bool) (x : Nat) : Nat := if x = 28 then (if rd then 0x30 else 0x0F) else sixOf rd x

/-- The code group of a byte, as data or control, and the disparity after it. -/
def lineEncode (rd ctrl : Bool) (byte : Nat) : Nat × Bool :=
  let x := byte % 32
  let y := byte / 32 % 8
  let a := if ctrl then kSixOf rd x else sixOf rd x
  let rd := dispAfter 6 rd a
  let b := if ctrl then kFourOf rd y else fourOf rd x y
  (a * 16 + b, dispAfter 4 rd b)

/-- The control groups that Clause 36 uses. -/
def isControl (x y : Nat) : Bool := x == 28 || y == 7 && [23, 27, 29, 30].contains x

/-- Read a code group at a disparity (R218): one that the disparity does not allow is bad. -/
def lineDecode (rd : Bool) (g : Nat) : Code :=
  let a := g / 16 % 64
  let b := g % 16
  let rd1 := dispAfter 6 rd a
  let byte := fun (p : Nat × Nat) => p.2 * 32 + p.1
  let xs := (List.range 32).filter fun x => sixOf rd x == a
  let ks := [23, 27, 28, 29, 30].filter fun x => kSixOf rd x == a
  let pairs := fun (l : List Nat) => (l.map fun x => (List.range 8).map fun y => (x, y)).flatten
  match (pairs xs).find? fun p => fourOf rd1 p.1 p.2 == b with
  | some p => .data (byte p)
  | none => match (pairs ks).find? fun p => isControl p.1 p.2 && kFourOf rd1 p.2 == b with
    | some p => .ctrl (byte p)
    | none => .bad

/-- Disparity after a received code group. -/
def lineDisp (rd : Bool) (g : Nat) : Bool := dispAfter 4 (dispAfter 6 rd (g / 16 % 64)) (g % 16)

/-- A frame as it leaves (R218): /S/, its bytes, /T/ /R/, and one more /R/ if the next /I2/ would begin at an odd position. -/
def lineFrame (rd : Bool) (bs : List Nat) : List Nat × Bool :=
  let codes := [(true, 0xFB)] ++ bs.map (fun b => (false, b)) ++ [(true, 0xFD), (true, 0xF7)] ++ (if bs.length % 2 = 0 then [(true, 0xF7)] else [])
  codes.foldl (fun (x : List Nat × Bool) c => let (g, rd) := lineEncode x.2 c.1 c.2; (x.1 ++ [g], rd)) ([], rd)

/-- One step of the synchronisation state machine: state 0 is loss of synchronisation, 1, 3 and 5 follow a comma, 2 and 4 seek the next one, 6 and above
are synchronised, 6, 7, 9 and 11 with no, one, two and three errors not yet made good, and 8, 10 and 12 making one good. The state, whether the last
group stood at an even position, and the good groups in a row. -/
def syncStep (st : Nat) (even : Bool) (good : Nat) (c : Code) : Nat × Bool × Nat :=
  let comma := c == .ctrl 0x3C || c == .ctrl 0xBC || c == .ctrl 0xFC
  let isData := match c with | .data _ => true | _ => false
  let wrong := c == .bad || comma && even
  let made := fun (up : Nat) => if good = 3 then (up, !even, 0) else (st, !even, good + 1)
  match st with
  | 0 => if comma then (1, true, 0) else (0, !even, 0)
  | 1 => (if isData then 2 else 0, !even, 0)
  | 2 => if wrong then (0, !even, 0) else if comma then (3, true, 0) else (2, !even, 0)
  | 3 => (if isData then 4 else 0, !even, 0)
  | 4 => if wrong then (0, !even, 0) else if comma then (5, true, 0) else (4, !even, 0)
  | 5 => (if isData then 6 else 0, !even, 0)
  | 6 => (if wrong then 7 else 6, !even, 0)
  | 7 => if wrong then (9, !even, 0) else (8, !even, 1)
  | 8 => if wrong then (9, !even, 0) else made 6
  | 9 => if wrong then (11, !even, 0) else (10, !even, 1)
  | 10 => if wrong then (11, !even, 0) else made 7
  | 11 => if wrong then (0, !even, 0) else (12, !even, 1)
  | _ => if wrong then (0, !even, 0) else made 9

end Sys2Proof.Machine
end

