-- ==== Sys2Proof/Machine/TimerPin.lean ====
section
/-! DEFINITION. General timers and field pins (R67 to R69, R321, R345 to R366) and the private pin port's latches (R257). -/
namespace Sys2Proof.Machine

def Dev.timer (d : Dev) (n : Nat) : Tmr := tget d.tmr n

def Dev.setTimer (d : Dev) (n : Nat) (t : Tmr) : Dev := { d with tmr := tput d.tmr n t }

/-- KIND of a timer's source (R348). -/
def Dev.tmrKind (d : Dev) (n : Nat) : Nat := d.fld (Reg.TMR_SRC n) 28 4

/-- BAD_CFG (R348). -/
def Dev.tmrBad (d : Dev) (n : Nat) : Bool :=
  let k := d.tmrKind n
  decide (6 ≤ k) || (k == 4 && decide (96 ≤ d.fld (Reg.TMR_SRC n) 15 7)) || (k == 5 && n % 4 == 0)

/-- Lowest timer of a timer's chain (R355). -/
def Dev.tmrLow (d : Dev) (n : Nat) : Nat :=
  let up (m : Nat) : Bool := d.tmrKind m == 5 && m % 4 != 0
  if !up n then n else if !up (n - 1) then n - 1 else if !up (n - 2) then n - 2 else n - 3

/-- Core `c` is in HALT (R259). -/
def Dev.coreHalted (d : Dev) (c : Nat) : Bool := (tget d.cores c).mode == .halt

/-- The timer is frozen (R355, R357). -/
def Dev.tmrFrozen (d : Dev) (n : Nat) : Bool :=
  let c := d.rd (Reg.TMR_CTRL (d.tmrLow n))
  let w := bits c 23 5
  tb c 28 && (if w < 24 then d.coreHalted w else (List.range 24).any fun k => d.coreHalted k)

/-- EN in force, source valid and not frozen (R348, R351, R357). -/
def Dev.tmrRuns (d : Dev) (n : Nat) : Bool := d.bit (Reg.TMR_CTRL n) 31 && !d.tmrBad n && !d.tmrFrozen n && !d.cloche

/-- Set event bits of a timer; each that becomes set with its enable raises source 176 + n (R347). -/
def Dev.tmrEvt (d : Dev) (n m : Nat) : Dev :=
  let old := d.rd (Reg.TMR_EVT n)
  let new := clearMask m old
  let d := d.orBits (Reg.TMR_EVT n) m
  forN 8 (fun i d => if tb new i && d.bit (Reg.TMR_EVT_EN n) i then d.raise (176 + n) 0 else d) d

/-- Compare the count after an up step (R352, R353). -/
def Dev.tmrMatch (d : Dev) (n : Nat) : Dev :=
  let c := d.rd (Reg.TMR_COUNT n)
  let m0 := c = d.rd (Reg.TMR_CMP0 n)
  let m1 := c = d.rd (Reg.TMR_CMP1 n)
  let d := if m0 then (d.setTimer n { d.timer n with out := true }).tmrEvt n 1 else d
  if m1 then (d.setTimer n { d.timer n with out := false }).tmrEvt n 2 else d

/-- Copy the pending preloads (R351). -/
def Dev.tmrCopy (d : Dev) (n : Nat) : Dev :=
  let t := d.timer n
  let put (d : Dev) (k : Nat) (o : Option Nat) : Dev := match o with | some v => d.wr k v | none => d
  let d := put (put (put d (Reg.TMR_RELOAD n) t.pr) (Reg.TMR_CMP0 n) t.pc0) (Reg.TMR_CMP1 n) t.pc1
  d.setTimer n { t with pr := none, pc0 := none, pc1 := none }

/-- The next timer up the chain, if there is one. -/
def Dev.tmrNext (d : Dev) (n : Nat) : Option Nat :=
  if (n + 1) % 4 ≠ 0 ∧ d.tmrKind (n + 1) = 5 then some (n + 1) else none

/-- One up step, with its carries (R350 to R352, R355). -/
def Dev.tmrUp (d : Dev) (n : Nat) : Nat → Dev
  | 0 => d
  | f + 1 =>
    if !d.tmrRuns n then d
    else
      let c := d.rd (Reg.TMR_COUNT n)
      if c ≠ 0xFFFFFFFF then (d.wr (Reg.TMR_COUNT n) (c + 1)).tmrMatch n
      else
        let d := d.tmrCopy n
        let d := ((d.wr (Reg.TMR_COUNT n) (d.rd (Reg.TMR_RELOAD n))).tmrEvt n 4).tmrMatch n
        match d.tmrNext n with
        | some k => d.tmrUp k f
        | none => d

/-- One down step, with its carries (R350, R355). -/
def Dev.tmrDown (d : Dev) (n : Nat) : Nat → Dev
  | 0 => d
  | f + 1 =>
    if !d.tmrRuns n then d
    else
      let c := d.rd (Reg.TMR_COUNT n)
      if c ≠ d.rd (Reg.TMR_RELOAD n) then d.wr (Reg.TMR_COUNT n) (tw 32 ((c : Int) - 1))
      else
        let d := (d.wr (Reg.TMR_COUNT n) 0xFFFFFFFF).tmrEvt n 8
        match d.tmrNext n with
        | some k => if d.bit (Reg.TMR_CTRL k) 29 then d.tmrDown k f else d
        | none => d

/-- `k` steps up, or down if `back`, of one beam cycle (R345). -/
def Dev.tmrSteps (d : Dev) (n k : Nat) (back : Bool) : Dev :=
  forN k (fun _ d => if back then d.tmrDown n 4 else d.tmrUp n 4) d

/-- MHz of cluster `c` in force (R349, R561). -/
def Dev.clusMhz (d : Dev) (c : Nat) : Nat := clampN 600 1200 (d.fld (Reg.CLK_CLUS_SEL c) 0 11)

/-- CLK steps of one beam cycle (R348, R349): the divider's phase is kept in MHz × 4 ns. -/
def Dev.tmrClk (d : Dev) (n : Nat) : Dev :=
  let cl := d.fld (Reg.TMR_SRC n) 12 3
  let div := 1000 * (max 4 (d.fld (Reg.TMR_PRESC n) 0 16) + 1)
  let t := d.timer n
  let p := t.phase + 4 * d.clusMhz (if cl < 6 then cl else 0)
  (d.setTimer n { t with phase := p % div }).tmrSteps n (p / div) false

/-- Steps of DOT and FURROW timers for a movement of their beam (R348, R349). -/
def Dev.tmrBeam (d : Dev) (n : Nat) : Dev :=
  let b := d.fld (Reg.TMR_SRC n) 24 3
  let bm := d.beam b
  let net := d.bit (Reg.TMR_CTRL n) 29
  let k := d.tmrKind n
  if bm.mode ≠ .run then d
  else if k = 2 then
    let hi := bm.l / 2 ^ 32
    let lo := (bm.l - bm.stepped) / 2 ^ 32
    if lo ≤ hi then d.tmrSteps n (hi - lo).toNat false
    else if net then d.tmrSteps n (lo - hi).toNat true else d
  else bm.crossings.foldl (fun d c => if c.2 then d.tmrUp n 4 else if net then d.tmrDown n 4 else d) d

/-- Steps of a beam cycle, lowest timer first (R346). -/
def Dev.tmrCycle (d : Dev) : Dev :=
  forN 32 (fun n d =>
    if !d.bit (Reg.TMR_CTRL n) 31 then d
    else match d.tmrKind n with
      | 0 => d.tmrClk n
      | 2 | 3 => d.tmrBeam n
      | _ => d) d

/-- Steps at a tick boundary (R348). -/
def Dev.tmrTick (d : Dev) : Dev := forN 32 (fun n d => if d.tmrKind n = 1 then d.tmrUp n 4 else d) d

/-- The edge is of the polarity that EDGE selects (R348). -/
def edgeSel (e : Nat) (rising : Bool) : Bool := e == 2 || e == 3 || (e == 0 && rising) || (e == 1 && !rising)

/-- Capture of a chain by its lowest timer (R354). -/
def Dev.tmrCapture (d : Dev) (n : Nat) : Dev :=
  (List.range 4).foldl (fun d k =>
    let m := n + k
    if m < 32 ∧ d.tmrLow m = n ∧ m / 4 = n / 4 then
      let ovr := d.bit (Reg.TMR_EVT m) 4
      (d.wr (Reg.TMR_CAP m) (d.rd (Reg.TMR_COUNT m))).tmrEvt m (if ovr then 48 else 16)
    else d) d

/-- An accepted edge of input `p` (0–63 SNS, 64–95 AUX): steps, then captures (R346, R348, R354). -/
def Dev.tmrPin (d : Dev) (p : Nat) (rising : Bool) : Dev :=
  let d := forN 32 (fun n d =>
    let s := d.rd (Reg.TMR_SRC n)
    if bits s 28 4 = 4 ∧ bits s 15 7 = p ∧ edgeSel (bits s 22 2) rising then d.tmrUp n 4 else d) d
  forN 32 (fun n d =>
    let c := d.rd (Reg.TMR_CAP_CFG n)
    if tb c 31 && bits c 0 7 == p && edgeSel (bits c 8 2) rising && d.tmrKind n != 5 then d.tmrCapture n else d) d

/-- TMR_LOAD (R351). -/
def Dev.tmrLoad (d : Dev) (n v : Nat) : Dev := d.wr (Reg.TMR_COUNT n) v

/-- Write of TMR_RELOAD (0), TMR_CMP0 (1) or TMR_CMP1 (2) (R351). -/
def Dev.tmrPreload (d : Dev) (n which v : Nat) : Dev :=
  let t := d.timer n
  if d.bit (Reg.TMR_CTRL n) 30 then
    d.setTimer n (match which with | 0 => { t with pr := some v } | 1 => { t with pc0 := some v } | _ => { t with pc1 := some v })
  else d.wr (match which with | 0 => Reg.TMR_RELOAD n | 1 => Reg.TMR_CMP0 n | _ => Reg.TMR_CMP1 n) v

/-- A read of TMR_COUNT latches the chain (R356). -/
def Dev.tmrSnap (d : Dev) (n : Nat) : Dev :=
  let low := d.tmrLow n
  (List.range 4).foldl (fun d k =>
    let m := low + k
    if m / 4 = low / 4 ∧ d.tmrLow m = low then d.wr (Reg.TMR_SNAP m) (d.rd (Reg.TMR_COUNT m)) else d) d

/-- A commit changed TMR_CTRL or TMR_SRC of a timer (R348, R351); `oldCtrl` is the value before. -/
def Dev.tmrChanged (d : Dev) (n oldCtrl : Nat) (srcChanged : Bool) : Dev :=
  let d := if srcChanged && d.tmrBad n then d.tmrEvt n 128 else d
  if !tb oldCtrl 31 && d.bit (Reg.TMR_CTRL n) 31 then
    let d := d.tmrCopy n
    (d.wr (Reg.TMR_COUNT n) (d.rd (Reg.TMR_RELOAD n))).setTimer n { d.timer n with out := false, pr := none, pc0 := none, pc1 := none }
  else d

/-- TMR_STATUS[n] (R358). -/
def Dev.tmrStatus (d : Dev) (n : Nat) : Nat :=
  let t := d.timer n
  b2n (d.bit (Reg.TMR_CTRL n) 31 && !d.tmrFrozen n) + b2n (d.tmrFrozen n) * 2 + b2n (d.tmrBad n) * 4 + b2n t.out * 8 +
    b2n t.pr.isSome * 16 + b2n t.pc0.isSome * 32 + b2n t.pc1.isSome * 64 + d.tmrLow n % 4 * 256

/-- Clock of cluster `c` changed (R349). -/
def Dev.tmrClkChanged (d : Dev) (c : Nat) : Dev :=
  forN 32 (fun n d =>
    let cl := d.fld (Reg.TMR_SRC n) 12 3
    if d.bit (Reg.TMR_CTRL n) 31 && d.tmrKind n == 0 && (if cl < 6 then cl else 0) == c then d.tmrEvt n 64 else d) d

/-! Field pins: SNS 0 to 63, STN 64 to 127, AUX 128 to 159, CAM_TRIG 160, CAM_STROBE 176, CAM_SCL 192, CAM_SDA 208, ENC 224 to
247 (R257, R360). -/

def Dev.pin (d : Dev) (i : Nat) : Pin := tget d.pins i

def Dev.setPin (d : Dev) (i : Nat) (p : Pin) : Dev := { d with pins := tput d.pins i p }

/-- Input-only pads (R360). -/
def pinInputOnly (i : Nat) : Bool := decide (i < 64) || decide (224 ≤ i)

/-- What the fixed peripheral of a pin drives: a level, or nothing (R360). -/
def Dev.periphOut (d : Dev) (i : Nat) : Option Bool :=
  if i < 64 ∨ 192 ≤ i then none
  else if i < 128 then some (d.stnLevel (i - 64))
  else if i < 160 then
    let n := i - 128
    let c := d.rd (Reg.TMR_CTRL n)
    if tb c 22 then some ((d.timer n).out != tb c 21) else none
  else if i < 176 then some (d.trigOn (i - 160) != d.bit (Reg.CAMIN_TRIG (i - 160)) 30)
  else some (d.strobeOn (i - 176) != d.bit (Reg.CAMIN_STROBE (i - 176)) 30)

/-- The core that owns a pin through its private port (R361). -/
def pinCore (cfg : Nat) : Option Nat := if bits cfg 0 2 = 1 ∧ bits cfg 2 5 < 24 then some (bits cfg 2 5) else none

/-- What a configuration makes the owner of a pin drive (R361). -/
def Dev.pinDrive (d : Dev) (i cfg : Nat) : Option Bool :=
  let v := if bits cfg 0 2 = 0 then d.periphOut i
    else match pinCore cfg with
      | some _ => if tb cfg 7 && !pinInputOnly i then some (d.pin i).latch else none
      | none => none
  if tb cfg 8 && v == some true then none else v

/-- What drives the pad now: EXTEST (R642), switch interval, sleep state, or owner (R364, R365). -/
def Dev.pinOut (d : Dev) (i : Nat) : Option Bool :=
  match d.sec.extest.find? fun q => q.1 == i with
  | some q => some q.2
  | none => match (d.pin i).sw, (d.pin i).sleep with
    | some w, _ => w.hold
    | none, some s => s
    | none, none => d.pinDrive i (d.rd (Reg.PIN_CFG i))

/-- Level of the pad (R361, R363). -/
def Dev.padLevel (d : Dev) (i : Nat) : Bool :=
  match d.pinOut i with
  | some v => v
  | none =>
    if 224 ≤ i then
      let e := tget d.encs (i % 8)
      if i < 232 then e.a else if i < 240 then e.b else e.z
    else (d.pin i).ext.getD (d.bit (Reg.PIN_CFG i) 9)

/-- The switch interval Δ in pin-clock cycles (R364): the velocity is held in 2^-48 / 250,000 dots/µs. -/
def Dev.switchCycles (d : Dev) (i : Nat) : Nat :=
  let bm := d.beam (d.fld (Reg.PIN_CFG i) 12 3)
  let v := bm.v.natAbs
  if bm.mode ≠ .run ∨ v = 0 then 256
  else
    let num := 100 * 2 ^ 48 * 250000
    min 256 (max 1 ((num + v - 1) / v))

/-- Pin `i` begins a switch that lasts `n` pin-clock cycles, with `before` on its pad meanwhile (R364). -/
def Dev.pinSwitch (d : Dev) (i n : Nat) (before : Option Bool) : Dev :=
  (d.setPin i { d.pin i with sw := some ⟨(d.lt + 9) / 10 * 10 + 10 * n, before⟩ }).inc Reg.PIN_SWITCHES

/-- OWNER, CORE, PP_DIR and OD of a pin, and for an AUX pin under its peripheral OUT_EN: a change of any of them switches it (R364). -/
def Dev.pinKey (d : Dev) (i : Nat) : Nat × Nat × Bool × Bool × Bool :=
  let c := d.rd (Reg.PIN_CFG i)
  (min 2 (bits c 0 2), bits c 2 5, tb c 7, tb c 8, 128 ≤ i && i < 160 && bits c 0 2 == 0 && d.bit (Reg.TMR_CTRL (i - 128)) 22)

/-- A commit changed PIN_CFG[i], or TMR_CTRL of the timer behind it (R361, R363, R364): the latch follows what the pin last drove, and a switch starts
from what drove the pad before. -/
def Dev.pinChanged (d old : Dev) (i : Nat) : Dev :=
  let new := d.rd (Reg.PIN_CFG i)
  let bad := (bits new 0 2 == 1) && (decide (24 ≤ bits new 2 5) || (tb new 7 && pinInputOnly i))
  let d := if bad && old.rd (Reg.PIN_CFG i) ≠ new then d.orBits Reg.PIN_EVT 1 else d
  if old.pinKey i = d.pinKey i then d
  else
    let p := d.pin i
    let before := old.pinOut i
    let latch := if (pinCore (old.rd (Reg.PIN_CFG i))).isSome then p.latch else before.getD p.latch
    (d.setPin i { p with latch := latch }).pinSwitch i (d.switchCycles i) before

/-- PIN_SWITCH_END (R364): a switch interval that has passed ends. -/
def Dev.pinSwitchEnd (d : Dev) (i : Nat) : Dev :=
  match (d.pin i).sw with
  | some w => if w.ends ≤ d.lt then (d.setPin i { d.pin i with sw := none }).orBits Reg.PIN_EVT 2 else d
  | none => d

/-- The sleep state of a pin (R365). -/
def Dev.pinSleepState (d : Dev) (i : Nat) : Option Bool :=
  match d.fld (Reg.PIN_CFG i) 10 2 with
  | 0 => none
  | 1 => some false
  | 2 => some true
  | _ => d.pinOut i

/-- Pin `i` switches to its sleep state over `n` pin-clock cycles (R364, R365). -/
def Dev.pinToSleep (d : Dev) (i n : Nat) : Dev :=
  let before := d.pinOut i
  (d.setPin i { d.pin i with sleep := some (d.pinSleepState i) }).pinSwitch i n before

/-- Pin `i` switches back from its sleep state to its owner over `n` pin-clock cycles (R364, R365). -/
def Dev.pinFromSleep (d : Dev) (i n : Nat) : Dev :=
  if (d.pin i).sleep.isNone then d
  else (d.setPin i { d.pin i with sleep := none }).pinSwitch i n (d.pinOut i)

/-- Every pin takes its sleep state (R365), with a beam that is not RUN. -/
def Dev.pinsSleep (d : Dev) : Dev := forN 248 (fun i d => d.pinToSleep i 256) d

/-- A STN or CAM_TRIG pin, which a member that does not run the machine keeps asleep (R535, R540). -/
def roleSleep (i : Nat) : Bool := (64 ≤ i && i < 128) || (160 ≤ i && i < 176)

/-- Every pin switches back to its owner (R365), but those that the role of the member keeps asleep. -/
def Dev.pinsWake (d : Dev) : Dev :=
  forN 248 (fun i d => if (d.follows || d.role == 5) && roleSleep i then d else d.pinFromSleep i 256) d

/-- The STN and CAM_TRIG pins take their sleep states, or return to their owners (R535, R540, R544). -/
def Dev.rolePins (d : Dev) (sleep : Bool) : Dev :=
  forN 248 (fun i d =>
    if !roleSleep i then d else if sleep then d.pinToSleep i (d.switchCycles i) else d.pinFromSleep i (d.switchCycles i)) d

/-- Bits of bank `b` that core `c` owns (R257). -/
def Dev.ownedMask (d : Dev) (c b : Nat) : Nat :=
  (List.range 32).foldl (fun a k =>
    let i := 32 * b + k
    if i < 248 ∧ pinCore (d.rd (Reg.PIN_CFG i)) = some c then a + 2 ^ k else a) 0

/-- Output latches of a bank (R257, R363, R366). -/
def Dev.latchWord (d : Dev) (b : Nat) : Nat :=
  (List.range 32).foldl (fun a k =>
    let i := 32 * b + k
    let cfg := d.rd (Reg.PIN_CFG i)
    let v := if (pinCore cfg).isSome then (d.pin i).latch else (d.pinOut i).getD (d.pin i).latch
    if i < 248 ∧ v then a + 2 ^ k else a) 0

/-- Pad levels of a bank (R257, R366). -/
def Dev.levelWord (d : Dev) (b : Nat) : Nat :=
  (List.range 32).foldl (fun a k => if 32 * b + k < 248 ∧ d.padLevel (32 * b + k) then a + 2 ^ k else a) 0

/-- Pads driven in a bank (R366). -/
def Dev.oeWord (d : Dev) (b : Nat) : Nat :=
  (List.range 32).foldl (fun a k => if 32 * b + k < 248 ∧ (d.pinOut (32 * b + k)).isSome then a + 2 ^ k else a) 0

/-- Set the latches of the pins that core `c` owns in a bank to `v` where `m` selects (R257). -/
def Dev.ppSet (d : Dev) (c b v m : Nat) : Dev :=
  let own := d.ownedMask c b &&& m
  forN 32 (fun k d => if tb own k then d.setPin (32 * b + k) { d.pin (32 * b + k) with latch := tb v k } else d) d

def Dev.ppOut (d : Dev) (c b v : Nat) : Dev := d.ppSet c b v 0xFFFFFFFF

def Dev.ppSetBits (d : Dev) (c b v : Nat) : Dev := d.ppSet c b 0xFFFFFFFF v

def Dev.ppClrBits (d : Dev) (c b v : Nat) : Dev := d.ppSet c b 0 v

def Dev.ppTglBits (d : Dev) (c b v : Nat) : Dev := d.ppSet c b (clearMask 0xFFFFFFFF (d.latchWord b)) v

/-- PIN index of filtered input `p` (0–63 SNS, 64–95 AUX). -/
def inPin (p : Nat) : Nat := if p < 64 then p else 128 + (p - 64)

/-- The filter of input `p` looks at its pad at line time `te` (R67, R69, R362): a change begins a run, and a run shorter than the filter is dropped. -/
def Dev.padSample (d : Dev) (p te : Nat) : Dev :=
  let i := inPin p
  let q := d.pin i
  let level := d.padLevel i
  let seen := fun (l : List (Nat × Bool)) => match l.getLast? with | some r => r.2 | none => q.acc
  if seen q.runs = level then d
  else
    let keep := match q.runs.getLast? with
      | some r => if te - r.1 < 10 * d.fld (Reg.INTC_PIN_CFG p) 0 10 then q.runs.dropLast else q.runs
      | none => q.runs
    d.setPin i { q with runs := if seen keep = level then keep else keep ++ [(te, level)] }

/-- PIN_INPUT_CHANGE (R67, R69): something outside drives the pad to a level at line time `te`. -/
def Dev.pinInput (d : Dev) (p te : Nat) (level : Bool) : Dev :=
  (d.setPin (inPin p) { d.pin (inPin p) with ext := some level }).padSample p te

/-- The filters look at the pads that the device itself may drive or hold (R362, log 100). -/
def Dev.padCycle (d : Dev) : Dev := forN 96 (fun p d => if (d.pin (inPin p)).ext.isSome && p < 64 then d else d.padSample p d.lt) d

/-- The pin's interrupt source for an accepted edge (R321, R336). -/
def Dev.pinSource (d : Dev) (p te : Nat) (level : Bool) : Dev :=
  let k := if p < 64 then 208 + p else 272 + (p - 64)
  let b := d.fld (Reg.INTC_SRC_CFG k) 4 3
  let pos := d.stampPos b te
  match d.fld (Reg.INTC_PIN_CFG p) 12 3 with
  | 1 => if level then d.raiseAt k 0 b te pos else d
  | 2 => if level then d else d.raiseAt k 0 b te pos
  | 3 => d.raiseAt k 0 b te pos
  | 4 => d.levelAt k level 0 b te pos
  | 5 => d.levelAt k (!level) 0 b te pos
  | _ => d

/-- Captures that a standby holds for a takeover: the last 16 of each sow-enabled pin (R540). -/
def Dev.holdCapture (d : Dev) (p te : Nat) (level : Bool) : Dev :=
  let (_, rev, _) := d.posAt (d.fld (Reg.ITEM_SOW_CFG p) 13 3) te
  let l := tget d.grf.caps p ++ [(te, b2n level, rev)]
  { d with grf := { d.grf with caps := tput d.grf.caps p (l.drop (l.length - 16)) } }

/-- PIN_CHANGE_ACCEPTED (R67 to R69, R175, R321, R348, R354): the oldest run that has lasted the filter is accepted at its edge. -/
def Dev.pinAccept (d : Dev) (p : Nat) : Dev :=
  let i := inPin p
  let q := d.pin i
  let f := d.fld (Reg.INTC_PIN_CFG p) 0 10
  match q.runs with
  | [] => d
  | (te, level) :: rest =>
    if d.lt < te + 10 * (f + 3) then d
    else
      let d := d.setPin i { q with acc := level, runs := rest }
      let d := d.tmrPin p level
      let d := if p < 64 then (if d.follows && d.bit (Reg.ITEM_SOW_CFG p) 16 then d.holdCapture p te level else d.captureNow p te level)
        else d
      d.pinSource p te level

end Sys2Proof.Machine
end

