-- ==== Sys2Proof/Machine/Drive.lean ====
section
/-! DEFINITION. Drive ports: frames, timing, bring-up and loss (R217 to R234). -/
namespace Sys2Proof.Machine

def Dev.dport (d : Dev) (p : Nat) : DrvPort := tget d.drv p

def Dev.setDport (d : Dev) (p : Nat) (q : DrvPort) : Dev := { d with drv := tput d.drv p q }

/-- DRV_STATUS.STATE: 0 DISABLED, 1 SYNC, 2 PROBE, 3 UP (R232). -/
def Dev.drvState (d : Dev) (p : Nat) : Nat := d.fld (Reg.DRV_STATUS p) 0 3

/-- NAX in force (R232). -/
def Dev.nax (d : Dev) (p : Nat) : Nat := min 8 (d.fld (Reg.DRV_CFG p) 4 4)

/-- Lowest enabled motion channel routed to an axis (R150). -/
def Dev.axisChan (d : Dev) (p a : Nat) : Option Nat := (d.chansOn 0 512).find? fun c => d.axisOf c == some (8 * p + a)

/-- Setpoint, vff, tff and FF_VALID of an axis for the tick just evaluated. An axis to which no enabled channel is routed carries the last setpoint the
port sent on it, which after a channel is disabled is the last one it produced (R150, R220, R222). -/
def Dev.axisValue (d : Dev) (p a : Nat) : Nat × Int × Int × Bool :=
  match d.axisChan p a with
  | some c => let o := tget d.cam.out c; (o.setp, o.vff, o.tff, !o.held)
  | none => (d.rd (Reg.DRV_AX_SETP p a) % 2 ^ 48, 0, 0, false)

/-- ACTIVE and NAX, and EPOCH, as a downlink carries them (R220, R230). -/
def Dev.frameRole (d : Dev) (n : Nat) : List Nat := [b2n d.runs * 128 + n] ++ leBytes 4 (d.rd Reg.GRF_EPOCH)

/-- The fields of a downlink that are taken at the boundary (R220, R222, R230), after LDLY and before TXOFS. -/
def Dev.buildFrame (d : Dev) (p : Nat) : List Nat :=
  let n := d.nax p
  let axes := (List.range n).map fun a =>
    let (s, vff, tff, ff) := d.axisValue p a
    let cw := clearMask (d.fld (Reg.DRV_AX_CW p a) 0 16) 2 + b2n ff * 2
    leBytes 6 s ++ leBytes 4 (tw 32 vff) ++ leBytes 2 (tw 16 tff) ++ leBytes 2 cw
  let out := d.rd (Reg.DRV_OUT p) ||| d.switchBits p
  d.frameRole n ++ leBytes 2 (d.fld Reg.DRV_APPLY 0 16) ++ leBytes 4 out ++ axes.flatten

/-- Leave a state for SYNC, PROBE or DISABLED (R228); AXIS beams of a port that leaves UP become STALE (R51). -/
def Dev.drvDown (d : Dev) (p st : Nat) : Dev :=
  let was := d.drvState p
  let d := d.setF (Reg.DRV_STATUS p) 0 3 st
  let d := (d.setF (Reg.DRV_STATUS p) 8 4 0).setDport p { d.dport p with misses := 0 }
  if was ≠ 3 then d
  else
    let d := (d.inc (Reg.DRV_LINK_DOWN p)).evt (112 + p) 2
    forN 8 (fun b d =>
      if d.fld (Reg.BEAM_CTRL b) 1 3 = 4 ∧ d.rd (Reg.BEAM_SRC_SEL b) % 64 = p then d.srcLost b else d) d

/-- A port at a tick boundary: the frame of the tick (R222). A frame never sent is dropped (R223). -/
def Dev.drvTick (d : Dev) (p tick tn : Nat) : Dev :=
  if d.drvState p = 0 then d
  else
    let q := d.dport p
    let d := if q.frame.isSome then (d.inc Reg.DRV_FRAME_OVR).evt (112 + p) 512 else d
    d.setDport p { q with frame := some (tick, tn, d.buildFrame p) }

/-- DOWNLINK_TRANSMIT (R220, R223, R224): the frame of the tick leaves at tₙ + DRV_TXOFS or after the frame still on the line, or is
not sent if it cannot begin before the next boundary. -/
def Dev.downlink (d : Dev) (p : Nat) : Dev :=
  let q := d.dport p
  match q.frame with
  | none => d
  | some (tick, tn, f) =>
    let due := tn + max 2400 (d.fld Reg.DRV_TXOFS 0 16)
    if d.lt < due then d
    else
      let start := max ((due + 3) / 4 * 4) (if due < q.free then q.free + 8 else 0)
      let d := d.setDport p { q with frame := none }
      if d.tick.next ≤ start ∧ tn < d.tick.next then (d.inc Reg.DRV_FRAME_OVR).evt (112 + p) 512
      else
        let body := [0x51] ++ f.take 1 ++ leBytes 2 (d.fld (Reg.DRV_LINK p) 0 16) ++ leBytes 4 tick ++ leBytes 8 tn ++
          (f.drop 1).take 6 ++ leBytes 2 (start - tn) ++ f.drop 7
        let bs := body ++ leBytes 4 (fcs body)
        let d := d.wr (Reg.DRV_OUT_SENT p) (leAt bs 24 4)
        let d := forN (f.headD 0 % 16) (fun a d => d.wr (Reg.DRV_AX_SETP p a) (tw 64 (sx 48 (leAt bs (28 + 14 * a) 6)))) d
        let (gs, rd) := lineFrame q.txRd bs
        let d := d.setDport p { d.dport p with free := start + 4 * gs.length, sentAt := ((tick, start) :: q.sentAt).take 128, txRd := rd }
        d.emit (.downlink p bs gs)

/-- Move an axis's values into the registers that software reads, all as one uplink delivered them (R233). -/
def Dev.axCapture (d : Dev) (p a : Nat) : Dev :=
  let x := tget (d.dport p).axes a
  let d := (d.wr (Reg.DRV_AX_ACT p a) x.act).wr (Reg.DRV_AX_STAT p a) x.stat
  ((d.wr (Reg.DRV_AX_FERR p a) x.ferr).wr (Reg.DRV_AX_CAP0 p a) x.cap0).wr (Reg.DRV_AX_CAP1 p a) x.cap1

/-- Deliver one axis record (R221, R225, R232). -/
def Dev.axDeliver (d : Dev) (p a slt : Nat) (r : List Nat) : Dev :=
  let q := d.dport p
  let x := tget q.axes a
  let stat := leAt r 10 2
  let act := sx 48 (leAt r 0 6)
  let y : DrvAx := ⟨stat, tw 64 act, leAt r 6 4, if tb stat 4 then tw 64 (sx 48 (leAt r 12 6)) else x.cap0,
    if tb stat 5 then tw 64 (sx 48 (leAt r 18 6)) else x.cap1, slt, true, if x.got then some (x.act, x.slt) else none⟩
  let d := d.setDport p { q with axes := tput q.axes a y }
  let d := if tb stat 2 && !tb x.stat 2 then d.evt (112 + p) 32 else d
  let d := if tb stat 4 || tb stat 5 then d.evt (112 + p) 64 else d
  forN 8 (fun b d =>
    if d.fld (Reg.BEAM_CTRL b) 1 3 = 4 ∧ d.rd (Reg.BEAM_SRC_SEL b) % 64 = p ∧ d.fld (Reg.BEAM_SRC_SEL b) 6 3 = a then
      d.setBeam b { d.beam b with lossTicks := 0 }
    else d) d

/-- An uplink is well formed for the port (R221, R225). -/
def Dev.uplinkOk (d : Dev) (p : Nat) (bs : List Nat) : Bool :=
  leAt bs 0 1 == 0xA1 && leAt bs 1 1 % 16 == d.nax p && bs.length == 32 + 24 * d.nax p

/-- The tick in whose window line time `t` lies: a window runs from DRV_TXOFS after its tick's boundary to DRV_TXOFS after the next (R225). -/
def Dev.drvWindow (d : Dev) (t : Nat) : Nat :=
  let n := d.rd Reg.BEAM_TICK_NUM
  if d.tick.start + max 2400 (d.fld Reg.DRV_TXOFS 0 16) ≤ t then n else (n + 2 ^ 32 - 1) % 2 ^ 32

/-- LDLY and TURN from a good uplink (R226). A downlink older than the 128 whose transmit times are kept gives a delay that saturates; for a TICK that
names no downlink sent LDLY stays (log 97). -/
def Dev.linkDelay (d : Dev) (p at0 tick turn : Nat) : Dev :=
  let sent := (d.dport p).sentAt
  let ldly := match sent.find? fun s => s.1 == tick with
    | some s => min 65535 ((at0 - s.2 - turn) / 2)
    | none => if 128 ≤ sent.length && csnBefore tick ((sent.getLast?.getD (0, 0)).1) then 65535 else d.fld (Reg.DRV_LINK p) 0 16
  d.wr (Reg.DRV_LINK p) (ldly + turn * 2 ^ 16)

/-- What every good uplink updates (R226, R228, R232): the link delay, the drive's epoch, errors and status, IN and SLT. -/
def Dev.uplinkStatus (d : Dev) (p at0 : Nat) (bs : List Nat) : Dev :=
  let d := d.linkDelay p at0 (leAt bs 4 4) (leAt bs 2 2)
  let seen := decide (128 ≤ leAt bs 1 1)
  let d := ((d.wr (Reg.DRV_REMOTE_EPOCH p) (leAt bs 16 4)).wr (Reg.DRV_REMOTE_ERR p) (leAt bs 22 2)).setF (Reg.DRV_STATUS p) 16 16 (leAt bs 20 2)
  let d := d.setF (Reg.DRV_STATUS p) 3 1 (b2n seen)
  let inb := leAt bs 24 4
  let chg := (inb ^^^ d.rd (Reg.DRV_IN p)) &&& d.rd (Reg.DRV_IN_MASK p)
  let d := (d.wr (Reg.DRV_IN p) inb).wr (Reg.DRV_SLT p) (leAt bs 8 8)
  if chg = 0 then d else d.evt (112 + p) 128

/-- A good uplink in SYNC or PROBE counts towards the 8 that lead from PROBE to UP (R228). -/
def Dev.probeCount (d : Dev) (p : Nat) : Dev :=
  let c := d.fld (Reg.DRV_STATUS p) 8 4 + 1
  let d := d.setF (Reg.DRV_STATUS p) 8 4 (min c 8)
  if 8 ≤ c ∧ d.drvState p = 2 then (d.setF (Reg.DRV_STATUS p) 0 3 3).evt (112 + p) 1 else d

/-- A frame has arrived: its /S/ at line time `at0`, its last code group at `end_`; `code` says that it held a code error (R218, R219, R221, R225, R226,
R228, R230, R535). -/
def Dev.uplinkFrame (d : Dev) (p at0 end_ : Nat) (code : Bool) (bs : List Nat) : Dev :=
  let q := d.dport p
  let n := bs.length
  let w := d.drvWindow end_ + 1
  if code then d
  else if n < 32 ∨ fcs (bs.take (n - 4)) ≠ leAt bs (n - 4) 4 then (d.inc (Reg.DRV_CRC_ERR p)).evt (112 + p) 4
  else if leAt bs 0 1 = 0xA1 ∧ leAt bs 1 1 % 16 ≠ d.nax p then d.evt (112 + p) 16
  else if !d.uplinkOk p bs || q.got.1 == w then d
  else
    let d := (d.setDport p { q with got := (w, q.got.1), misses := 0 }).uplinkStatus p at0 bs
    if d.drvState p = 3 then
      let d := if decide (leAt bs 1 1 < 128) && d.runs then d.evt (112 + p) 256 else d
      let d := if d.role = 2 ∧ csnBefore (d.rd Reg.GRF_EPOCH) (leAt bs 16 4) then d.deposeSoon else d
      forN (d.nax p) (fun a d => d.axDeliver p a (leAt bs 8 8) ((bs.drop (28 + 24 * a)).take 24)) d
    else d.probeCount p

/-- UPLINK_MISS (R225, R228): the window before the present one has closed without a good uplink. -/
def Dev.uplinkMiss (d : Dev) (p : Nat) : Dev :=
  let q := d.dport p
  let st := d.drvState p
  let w := (d.drvWindow d.lt + 2 ^ 32 - 1) % 2 ^ 32 + 1
  if st = 0 ∨ q.got.1 = w ∨ q.got.2 = w ∨ q.closed = w then d
  else
    let d := ((d.inc (Reg.DRV_MISS p)).evt (112 + p) 8).setDport p { q with misses := q.misses + 1, closed := w }
    if st = 3 then (if max 1 (d.fld (Reg.DRV_CFG p) 8 3) ≤ q.misses + 1 then d.drvDown p 2 else d)
    else d.setF (Reg.DRV_STATUS p) 8 4 0

def Dev.setLine (d : Dev) (p : Nat) (x : LineRx) : Dev := d.setDport p { d.dport p with line := x }

/-- Clause 36 synchronisation is acquired: SYNC is left for PROBE (R228). -/
def Dev.drvSync (d : Dev) (p : Nat) : Dev := if d.drvState p = 1 then d.setF (Reg.DRV_STATUS p) 0 3 2 else d

/-- Clause 36 loss of synchronisation in any state (R228). -/
def Dev.drvSyncLoss (d : Dev) (p : Nat) : Dev := if d.drvState p = 0 then d else d.drvDown p 1

/-- A code group of the frame under way, or of the line between frames, at its arrival (R218). A comma ends a frame that has no /T/. -/
def Dev.lineFrameStep (d : Dev) (p t : Nat) (c : Code) : Dev :=
  let x := (d.dport p).line
  let put := fun (f : Option (Nat × List Nat × Bool × Bool)) => d.setLine p { x with frame := f }
  match x.frame, c with
  | none, .ctrl 0xFB => put (some (t, [], false, false))
  | none, _ => d
  | some (at0, bs, e, true), .ctrl 0xF7 => (put none).uplinkFrame p at0 (if bs.length % 2 = 0 then t + 4 else t) e bs
  | some (_, _, _, true), _ => put none
  | some (at0, bs, e, false), .data b => put (some (at0, bs ++ [b], e, false))
  | some (at0, bs, e, false), .ctrl 0xFD => put (some (at0, bs, e, true))
  | some (_, _, _, false), .ctrl 0xBC => put none
  | some (at0, bs, _, false), _ => put (some (at0, bs, true, false))

/-- A code error (R218): an invalid code group, one of the wrong disparity, or a control code group other than /T/ inside a frame. -/
def lineError (x : LineRx) (c : Code) : Bool :=
  match c with
  | .bad => true
  | .ctrl b => (match x.frame with | some (_, _, _, false) => b != 0xFD | _ => false)
  | .data _ => false

/-- A code group arrives at a port at line time `t` (R217, R218). -/
def Dev.lineGroup (p t : Nat) (d : Dev) (g : Nat) : Dev :=
  let x := (d.dport p).line
  let c := lineDecode x.rd g
  let (st, even, good) := syncStep x.sync x.even x.good c
  let d := if lineError x c then d.inc (Reg.DRV_CODE_ERR p) else d
  let d := d.setLine p { x with rd := lineDisp x.rd g, sync := st, even := even, good := good }
  let d := if x.sync < 6 ∧ 6 ≤ st then d.drvSync p else if 6 ≤ x.sync ∧ st < 6 then d.drvSyncLoss p else d
  d.lineFrameStep p t c

/-- Code groups arrive at a port, the first at line time `start`, 4 ns each (R217). A DISABLED port receives nothing. -/
def Dev.lineIn (d : Dev) (p start : Nat) (gs : List Nat) : Dev :=
  if d.drvState p = 0 then d
  else (gs.zip (List.range gs.length)).foldl (fun d x => d.lineGroup p (start + 4 * x.2) x.1) d

/-- DRIVE_SYNC_ACQUIRED (R217, R228): idle has arrived long enough at a port in SYNC. Its running disparity is then a free value (log 1). -/
def Dev.lineLock (d : Dev) (p : Nat) : Dev :=
  if d.drvState p ≠ 1 then d
  else
    let (x, d) := d.fresh 1
    (d.setLine p { (d.dport p).line with rd := x == 1, sync := 6, even := false, good := 0, frame := none }).drvSync p

/-- DRIVE_SYNC_LOSS (R228): the receiver detects no signal, and Clause 36 loses synchronisation. -/
def Dev.lineLost (d : Dev) (p : Nat) : Dev :=
  if d.drvState p = 0 then d
  else (d.setLine p { (d.dport p).line with sync := 0, good := 0, frame := none }).drvSyncLoss p

/-- A commit changed DRV_CFG[p] from `old` (R228). -/
def Dev.drvChanged (d : Dev) (p old : Nat) : Dev :=
  let new := d.rd (Reg.DRV_CFG p)
  if !tb new 0 then
    let d := d.drvDown p 0
    d.setDport p { d.dport p with frame := none, line := default }
  else if d.drvState p = 0 then d.setF (Reg.DRV_STATUS p) 0 3 1
  else if min 8 (bits old 4 4) ≠ min 8 (bits new 4 4) ∧ d.drvState p = 3 then d.drvDown p 2
  else if min 8 (bits old 4 4) ≠ min 8 (bits new 4 4) then d.setF (Reg.DRV_STATUS p) 8 4 0
  else d

/-- DRV_PORT_EVT (R234). -/
def Dev.drvPortEvt (d : Dev) : Nat :=
  (List.range 64).foldl (fun a p => if d.rd (Reg.DRV_EVT p) &&& d.rd (Reg.DRV_EVT_EN p) ≠ 0 then a + 2 ^ p else a) 0

end Sys2Proof.Machine
end

