-- ==== Sys2Proof/Machine/Raster.lean ====
section
/-! DEFINITION. Raster out ports and display ports (17, R443 to R461). -/
namespace Sys2Proof.Machine

def Dev.rport (d : Dev) (n : Nat) : RasPort := tget d.ras n

def Dev.setRport (d : Dev) (n : Nat) (q : RasPort) : Dev := { d with ras := tput d.ras n q }

def Dev.rasEvt (d : Dev) (n m : Nat) : Dev := d.evt (414 + n) m

/-- RASTER_STATUS.STATE: 0 DISABLED, 1 TRAIN, 2 UP, 3 BAD_CFG (R460). -/
def Dev.rasState (d : Dev) (n : Nat) : Nat := d.fld (Reg.RASTER_STATUS n) 0 2

def Dev.rasPlanes (d : Dev) (n : Nat) : Nat := d.fld (Reg.RASTER_CFG n) 5 3 + 1

def Dev.rasBits (d : Dev) (n : Nat) : Nat := d.fld (Reg.RASTER_CFG n) 4 1 + 1

def Dev.rasXrep (d : Dev) (n : Nat) : Nat := 2 ^ d.fld (Reg.RASTER_CFG n) 8 2

def Dev.rasNozzles (d : Dev) (n : Nat) : Nat := d.fld (Reg.RASTER_NOZZLES n) 0 15

def Dev.rasMinper (d : Dev) (n : Nat) : Nat := max 6667 (d.fld (Reg.RASTER_MINPER n) 0 16)

def Dev.rasLead (d : Dev) (n : Nat) : Nat := max 1000 (d.fld (Reg.RASTER_LEAD n) 0 16)

/-- Source pipes of a port (R460). -/
def Dev.rasSources (d : Dev) (n : Nat) : List Nat :=
  let c := d.rd (Reg.RASTER_CFG n)
  if tb c 16 then [bits c 10 3, bits c 13 3] else [bits c 10 3]

/-- The port's configuration is valid (R460). -/
def Dev.rasValid (d : Dev) (n : Nat) : Bool :=
  let c := d.rd (Reg.RASTER_CFG n)
  let noz := d.rasNozzles n
  let src := fun p => d.fld (Reg.COMP_SIZE p) 0 14 * d.rasXrep n == noz && d.fld (Reg.COMP_CTRL p) 1 2 == 1
    && outOf (d.rd (Reg.COMP_OUT p)) == (2, n)
  let frame := 36 + d.rasPlanes n * ((noz * d.rasBits n + 7) / 8)
  (d.rasSources n).all src && !(decide (4 < d.rasPlanes n) && !tb c 16) && decide (frame ≤ 5 * d.rasMinper n)

/-- Report PRINT_FAULT once for a swath (R454). -/
def Dev.swathFault (d : Dev) (w : Swath) : Swath × Dev :=
  if w.faulted then (w, d) else ({ w with faulted := true }, d.printFault w.slot w.id)

/-- PRINT_END of a swath (R449). -/
def Dev.sendPrintEnd (d : Dev) (e : Nat × Nat × Nat × Nat) : Dev := d.sendVerdict e.1 e.2.1 4 0 e.2.2.1 0

/-- The port leaves UP: every swath ends with PRINT_FAULT and PRINT_END (R446, R454). A swath that has sent END keeps its own PRINT_END (R449). -/
def Dev.rasDown (d : Dev) (n st : Nat) : Dev :=
  let was := d.rasState n
  let q := d.rport n
  let d := q.swaths.foldl (fun d w =>
    let (_, d) := d.swathFault w
    (d.sendPrintEnd (w.slot, w.id, w.that, 0)).inc (Reg.RASTER_SWATHS n)) d
  let d := d.setRport n { q with swaths := [], good := 0 }
  let d := d.setF (Reg.RASTER_STATUS n) 0 2 st
  if was = 2 then d.rasEvt n 2 else d

/-- A commit changed the port's configuration (R446, R460). -/
def Dev.rasChanged (d : Dev) (n : Nat) : Dev :=
  let st := d.rasState n
  if !d.bit (Reg.RASTER_CFG n) 31 then (if st = 0 then d else d.rasDown n 0)
  else if !d.rasValid n then (if st = 3 then d else d.rasDown n 3)
  else if st = 0 ∨ st = 3 then d.setF (Reg.RASTER_STATUS n) 0 2 1
  else d

/-- A swath start arrives (R447). -/
def Dev.swathStart (d : Dev) (bs : List Nat) : Dev :=
  let n := leAt bs 6 1 % 8
  let q := d.rport n
  let posa := leAt bs 16 8
  let b := bits posa 48 3
  if d.dataOff then d
  else if d.rasState n ≠ 2 ∨ !d.rasValid n ∨ 2 ≤ q.swaths.length then (d.inc (Reg.RASTER_REFUSED n)).rasEvt n 16
  else
    let w : Swath := { (default : Swath) with
      id := leAt bs 0 4, slot := leAt bs 4 2, that := leAt bs 8 8, beam := b, aL := linOf (d.fpf b) (bits posa 0 48) 0,
      pjob := leAt bs 24 4, seq := q.seq }
    let d := d.sendVerdict w.slot w.id 3 0 w.that 0
    let d := d.setRport n { q with swaths := q.swaths ++ [w], seq := (q.seq + 1) % 65536 }
    (d.rasSources n).foldl (fun d p => d.pipeSwath p ⟨w.id, w.slot, w.pjob, n, w.seq⟩) d

/-- Close a transmit frame with its frame check sequence and send it, as blocks that the port deals to its lanes (R443, R444). -/
def Dev.rasSend (d : Dev) (n ty : Nat) (bs : List Nat) : Dev :=
  let bs := bs ++ leBytes 4 (fcs bs)
  d.emit (.raster n ty bs (frameBlocks bs))

/-- The TIME frame of a 100 µs period (R445, R446). -/
def Dev.timeFrame (d : Dev) (n : Nat) : Dev :=
  let q := d.rport n
  let st := d.rasState n
  let due := match q.timeAt with | none => true | some t => decide (t / 100000 < d.lt / 100000)
  if (st ≠ 1 ∧ st ≠ 2) ∨ !due ∨ d.dataOff then d
  else
    let ldly := d.fld (Reg.RASTER_LINK n) 0 16
    (d.setRport n { q with timeAt := some d.lt, answered := false }).rasSend n 1
      ([1, 1] ++ leBytes 2 ldly ++ [0, 0, 0, 0] ++ leBytes 8 d.lt ++ List.replicate 16 0)

/-- A STATUS frame arrives, its start block at line time `start` (R444 to R446, R454): the blocks of the return lane, from the one before it on. The
first STATUS frame after a TIME frame answers it. -/
def Dev.statusFrame (d : Dev) (n start : Nat) (blocks : List Nat) : Dev :=
  let st := d.rasState n
  let got := readFrame (laneState (blocks.headD 0)) (blocks.drop 1)
  let bs := got.getD []
  if (st ≠ 1 ∧ st ≠ 2) ∨ d.dataOff then d
  else if got.isNone || bs.length != 36 || fcs (bs.take 32) != leAt bs 32 4 then
    (d.inc (Reg.RASTER_CRC_ERR n)).setRport n { d.rport n with good := 0 }
  else if leAt bs 0 1 ≠ 9 then d
  else
    let q := d.rport n
    let turn := leAt bs 2 2
    let d := match q.timeAt with
      | some t => if q.answered then d else d.wr (Reg.RASTER_LINK n) (min 65535 ((start - t - turn) / 2) + turn * 2 ^ 16)
      | none => d
    let d := d.wr (Reg.RASTER_HEAD_ERR n) (leAt bs 12 4)
    let d := d.setRport n { q with good := q.good + 1, lastGood := d.lt, answered := true }
    let d := if tb (leAt bs 18 1) 0 then
        let d := d.rasEvt n 32
        match q.swaths.find? fun w => w.seq == leAt bs 16 2 && w.begun with
        | none => d
        | some w =>
          let (w', d) := d.swathFault w
          d.setRport n { d.rport n with swaths := (d.rport n).swaths.map fun x => if x.seq = w.seq then w' else x }
      else d
    if st = 1 ∧ 8 ≤ q.good + 1 then (d.setF (Reg.RASTER_STATUS n) 0 2 2).rasEvt n 1 else d

/-- Position of print line k (R448). -/
def Dev.lineAt (d : Dev) (n : Nat) (w : Swath) (k : Nat) : Int :=
  let ofs := sx 32 (d.rd (Reg.RASTER_OFS n)) + ((k * d.rd (Reg.RASTER_PITCH n) + 32768) / 65536 : Nat)
  (w.aL + ofs * 2 ^ 32) % modL (d.fpf w.beam)

/-- Lines of a swath (R448). -/
def Dev.swathLines (d : Dev) (n : Nat) : Nat := d.fld (Reg.COMP_SIZE (d.fld (Reg.RASTER_CFG n) 10 3)) 16 14

/-- The first line time within `lead` ns from now at which the estimate of a beam has reached a linear count (R448). -/
def Dev.reachIn (d : Dev) (b : Nat) (p : Int) (lead : Nat) : Option Nat :=
  ((List.range (lead + 1)).find? fun k => decide (distL (d.fpf b) (d.estAt 1 b (d.lt + k)) p ≤ 0)).map (d.lt + ·)

/-- Skip a line (R448, R454). -/
def Dev.skipLine (d : Dev) (n : Nat) (w : Swath) : Swath × Dev :=
  let (w, d) := ((d.inc (Reg.RASTER_SKIP n)).rasEvt n 8).swathFault w
  ({ w with k := w.k + 1, skipped := w.skipped + 1 }, d)

/-- The threshold entry (R452): the loaded one, else the Bayer order of 8 × 8 scaled to 64 × index + 32. -/
def bayer8 (y x : Nat) : Nat :=
  let bit := fun (v i : Nat) => v / 2 ^ i % 2
  let c := fun i => 2 * ((bit x i + bit y i) % 2) + bit y i
  16 * c 0 + 4 * c 1 + c 2

def Dev.threshold (d : Dev) (n plane y x : Nat) : Nat :=
  match tget (d.rport n).banks (2 * plane + d.fld (Reg.RASTER_BANK n) 0 1) with
  | [] => 64 * bayer8 (y % 8) (x % 8) + 32
  | bs => leAt bs (2 * (64 * y + x)) 2 % 4096

/-- Add to one element of an error row; past either end it is discarded (R451). -/
def addAt (l : List Int) (i : Int) (x : Int) : List Int :=
  if i < 0 then l else lset l i.toNat (l.getD i.toNat 0 + x)

/-- Error diffusion of one line of one plane (R451): values in, output per nozzle and the next row out. -/
def diffuse (lmax : Nat) (back : Bool) (vs : List Nat) (cur : List Int) : List Nat × List Int :=
  let n := vs.length
  let order := if back then (List.range n).reverse else List.range n
  let nx : Int := if back then -1 else 1
  let go := order.foldl (fun (s : List Nat × List Int × List Int) x =>
    let (out, cur, nxt) := s
    let e : Int := (vs.getD x 0 : Nat) + cur.getD x 0
    let q := (clampI 0 lmax ((lmax * e + 2048) / 4095)).toNat
    let df := e - (4095 * q / lmax : Nat)
    let a := 3 * df / 16
    let b := 5 * df / 16
    let c := df / 16
    let nxt := addAt (addAt (addAt nxt (x - nx) a) x b) (x + nx) c
    (lset out x q, addAt cur (x + nx) (df - a - b - c), nxt))
    (List.replicate n 0, (cur ++ List.replicate n 0).take n, List.replicate n 0)
  (go.1, go.2.2)

/-- The last value that a port received for a plane (R453). -/
def Dev.lastOf (d : Dev) (n : Nat) (w : Swath) (plane : Nat) : Nat :=
  let got := if plane < 4 then w.got0 else w.got1
  match got.getLast? with
  | some l => l.getD (l.length - 4 + plane % 4) 0
  | none => (d.rport n).last.getD plane 0

/-- The 12-bit values of a plane for print line k: those delivered, or the last value received (R450, R453). -/
def Dev.planeLine (d : Dev) (n : Nat) (w : Swath) (plane : Nat) : List Nat :=
  let got := if plane < 4 then w.got0 else w.got1
  let rep := d.rasXrep n
  let noz := d.rasNozzles n
  match got[w.k]? with
  | some l => (List.range noz).map fun x => l.getD (4 * (x / rep) + plane % 4) 0
  | none => List.replicate noz (d.lastOf n w plane)

/-- Screen one plane of a line (R451): the outputs and the plane's next error row. -/
def Dev.screen (d : Dev) (n : Nat) (w : Swath) (plane : Nat) : List Nat × List Int :=
  let sc := bits (d.rd (Reg.RASTER_SCREEN n)) (4 * plane) 4
  let lmax := 2 ^ d.rasBits n - 1
  let vs := (d.planeLine n w plane).map fun v => if tb sc 1 then 4095 - v else v
  let ms := d.rd (Reg.RASTER_MSIZE n)
  let mw := 2 ^ clampN 2 6 (bits ms 0 3)
  let mh := 2 ^ clampN 2 6 (bits ms 4 3)
  if tb sc 0 then diffuse lmax (tb sc 2 && w.k % 2 == 1) vs (w.err.getD plane [])
  else ((List.range vs.length).map fun x => min lmax ((lmax * vs.getD x 0 + d.threshold n plane (w.k % mh) (x % mw)) / 4096), [])

/-- The packed bytes of one screened plane (R444). -/
def packPlane (b : Nat) (out : List Nat) : List Nat :=
  leBytes ((out.length * b + 7) / 8) ((List.range out.length).foldl (fun a x => a + out.getD x 0 * 2 ^ (b * x)) 0)

/-- Send the BEGIN frame of a swath, once (R444, R449). -/
def Dev.sendBegin (d : Dev) (n : Nat) (w : Swath) (oh : Nat) : Swath × Dev :=
  if w.begun then (w, d)
  else
    ({ w with begun := true },
      d.rasSend n 2 ([2, d.rasPlanes n - 1 + (d.rasBits n - 1) * 8] ++ leBytes 2 w.seq ++ leBytes 4 w.id ++ leBytes 4 w.pjob
        ++ leBytes 2 (d.rasNozzles n) ++ leBytes 2 oh ++ leBytes 8 w.that ++ List.replicate 8 0))

/-- Send line `w.k` to be fired at `fire` (R444, R448 to R453). -/
def Dev.sendLine (d : Dev) (n : Nat) (w : Swath) (fire oh : Nat) : Swath × Dev :=
  let planes := d.rasPlanes n
  let late := (d.rasSources n).zipIdx.filter fun x => decide ((if x.2 = 0 then w.got0 else w.got1).length ≤ w.k)
  let ready := late.isEmpty
  let res := (List.range planes).map fun j => d.screen n w j
  let d := d.rasSend n 3 ([3, 0] ++ leBytes 2 w.seq ++ leBytes 2 w.k ++ [b2n (!ready) + b2n (w.k + 1 == oh) * 2, 0] ++ leBytes 8 fire
    ++ List.replicate 16 0 ++ (res.map fun r => packPlane (d.rasBits n) r.1).flatten)
  let d := (d.setRport n { d.rport n with last := (List.range 8).map fun j => d.lastOf n w j, lastFire := some fire }).inc (Reg.RASTER_LINES n)
  let (w, d) := if ready then (w, d) else
    let (w, d) := ((d.inc (Reg.RASTER_UNDERRUN n)).rasEvt n 4).swathFault w
    (w, late.foldl (fun d x => d.compEvt x.1 2) d)
  ({ w with k := w.k + 1, fire := some fire, sent := w.sent + 1, err := res.map Prod.snd }, d)

/-- Skip the lines of a swath that the estimate has passed (R448). -/
def Dev.skipPassed (d : Dev) (n oh : Nat) (front : Int) : Nat → Swath → Swath × Dev
  | 0, w => (w, d)
  | m + 1, w =>
    if w.k < oh ∧ distL (d.fpf w.beam) front (d.lineAt n w w.k) ≤ 0 then
      let (w, d) := d.skipLine n w
      d.skipPassed n oh front m w
    else (w, d)

/-- The active swath has no line left: END, and PRINT_END at the last fire time (R449). -/
def Dev.swathEnd (d : Dev) (n : Nat) (w : Swath) : Dev :=
  let d := d.rasSend n 4 ([4, 0] ++ leBytes 2 w.seq ++ leBytes 2 w.sent ++ leBytes 2 w.skipped ++ List.replicate 24 0)
  let q := d.rport n
  let d := (d.setRport n { q with swaths := q.swaths.filter fun x => x.seq != w.seq }).inc (Reg.RASTER_SWATHS n)
  match w.fire with
  | some t => d.setRport n { d.rport n with ends := (d.rport n).ends ++ [(w.slot, w.id, w.that, t)] }
  | none => d.sendPrintEnd (w.slot, w.id, w.that, 0)

/-- Replace a swath of a port. -/
def Dev.putSwath (d : Dev) (n : Nat) (w : Swath) : Dev :=
  let q := d.rport n
  d.setRport n { q with swaths := q.swaths.map fun x => if x.seq = w.seq then w else x }

/-- Send the PRINT_ENDs whose fire time has come (R449). -/
def Dev.flushEnds (d : Dev) (n : Nat) : Dev :=
  let q := d.rport n
  let go := q.ends.filter fun e => decide (e.2.2.2 ≤ d.lt)
  go.foldl (fun d e => d.sendPrintEnd e) (d.setRport n { q with ends := q.ends.filter fun e => decide (d.lt < e.2.2.2) })

/-- The image die's broadcast of a beam is not older than 2 µs (R27, R448). -/
def Dev.estFresh (d : Dev) (b : Nat) : Bool :=
  let e := tget d.est (8 + b)
  e.got && decide (d.lt ≤ e.last.lt + 2000)

/-- The frontier of a swath follows the estimate (R448). -/
def Dev.swathFront (d : Dev) (w : Swath) : Swath :=
  if !d.estFresh w.beam then w
  else
    let now := d.estAt 1 w.beam d.lt
    let old := w.front.getD now
    { w with front := some (if 0 < distL (d.fpf w.beam) old now then now else old) }

/-- Every accepted swath keeps its frontier in each beam cycle (R448). -/
def Dev.rasFronts (d : Dev) : Dev :=
  { d with ras := d.ras.map fun p => (p.1, { p.2 with swaths := p.2.swaths.map d.swathFront }) }

/-- The moment of the next print line (R448, R449): passed lines are skipped, a due line is sent, a finished swath ends. BEGIN is sent at the LEAD time
of line 0, or, if that has passed when the swath's turn comes, at once. -/
def Dev.lineFrame (d : Dev) (n : Nat) : Dev :=
  let d := d.flushEnds n
  if d.rasState n ≠ 2 ∨ d.dataOff then d
  else match (d.rport n).swaths with
    | [] => d
    | w :: _ =>
      let oh := d.swathLines n
      if !d.estFresh w.beam then d
      else
        let w := d.swathFront w
        let front := w.front.getD 0
        let first := decide (distL (d.fpf w.beam) front (d.lineAt n w 0) ≤ 0) || (d.reachIn w.beam (d.lineAt n w 0) (d.rasLead n)).isSome
        let (w, d) := if first || w.k != 0 then d.sendBegin n w oh else (w, d)
        let (w, d) := d.skipPassed n oh front oh w
        if oh ≤ w.k then (d.putSwath n w).swathEnd n w
        else match d.reachIn w.beam (d.lineAt n w w.k) (d.rasLead n) with
          | none => d.putSwath n w
          | some fire =>
            let tight := match (d.rport n).lastFire with | some t => decide (fire < t + d.rasMinper n) | none => false
            let (w, d) := if tight then d.skipLine n w else d.sendLine n w fire oh
            let d := d.putSwath n w
            if oh ≤ w.k then d.swathEnd n w else d

/-- No good STATUS for RASTER_LOSS µs (R446). -/
def Dev.rasterLoss (d : Dev) (n : Nat) : Dev :=
  if d.rasState n = 2 ∧ (d.rport n).lastGood + 1000 * max 1 (d.fld (Reg.RASTER_LOSS n) 0 16) ≤ d.lt then d.rasDown n 1 else d

/-- The return lane's block lock is lost (R446). -/
def Dev.rasLockLoss (d : Dev) (n : Nat) : Dev := if d.rasState n = 2 then d.rasDown n 1 else d

/-- A write to RASTER_TLOAD (R452). -/
def Dev.rasTload (d : Dev) (n v : Nat) : Dev :=
  let q := d.rport n
  if q.load.isSome then d
  else (d.setRport n { q with load := some (bits v 0 3, bits v 4 1, d.fld (Reg.RASTER_TLOAD_SRC n) 3 45 * 8) }).setF
    (Reg.RASTER_TLOAD_STATUS n) 0 1 1

/-- The end of a threshold load (R452, as R420). -/
def Dev.rasTloadDone (d : Dev) (n : Nat) : Dev :=
  let q := d.rport n
  match q.load with
  | none => d
  | some (plane, bank, src) =>
    if d.hasRange src 8192 && !d.dataOff then
      let bs := d.memRead src 8192
      let d := d.setRport n { q with load := none, banks := tput q.banks (2 * plane + bank) bs }
      (d.wr (Reg.RASTER_TLOAD_STATUS n) (crc32c bs % 65536 * 65536)).rasEvt n 64
    else
      let (x, d) := d.fresh (8 * 8192)
      let d := d.setRport n { q with load := none, banks := tput q.banks (2 * plane + bank) (leBytes 8192 x) }
      (d.setF (Reg.RASTER_TLOAD_STATUS n) 0 2 2).rasEvt n 128

/-- RASTER_STATUS[n] (R460): lanes are aligned on a port that receives STATUS frames (log 26). -/
def Dev.rasStatus (d : Dev) (n : Nat) : Nat :=
  let q := d.rport n
  d.rasState n + q.swaths.length * 4 + (if d.rasState n = 2 ∨ q.good ≠ 0 then 0x1F00 else 0)

/-- A display port. -/
def Dev.dsp (d : Dev) (p : Nat) : DispPort := tget d.disp p

def Dev.setDsp (d : Dev) (p : Nat) (q : DispPort) : Dev := { d with disp := tput d.disp p q }

def Dev.dispState (d : Dev) (p : Nat) : Nat := d.fld (Reg.DISP_STATUS p) 0 3

def Dev.dispEvt (d : Dev) (p m : Nat) : Dev := d.evt (422 + p) m

/-- A display port changes state: without a link it shows no trained one, and leaving PSR or PSR2 is an event (R459, R461). -/
def Dev.setDispState (d : Dev) (p st : Nat) : Dev :=
  let was := d.dispState p
  let d := d.setF (Reg.DISP_STATUS p) 0 3 st
  let d := if st ≤ 1 then d.setF (Reg.DISP_STATUS p) 6 6 0 else d
  if (was = 4 ∨ was = 5) ∧ st ≠ 4 ∧ st ≠ 5 then (d.setDsp p { d.dsp p with su := none, entering := 0 }).dispEvt p 32 else d

/-- Link rate in Mbit/s of a RATE code (R456, R461). -/
def dispRate (r : Nat) : Nat := [1620, 2700, 5400, 8100, 2160, 2430, 3240, 4320].getD r 0

/-- Pixel clock in kHz of a mode (R457). -/
def dispClock (m : Nat) : Nat :=
  [25175, 40000, 65000, 83500, 108000, 85500, 108000, 154000, 74250, 74250, 148500, 148500, 297000, 594000].getD m 0

/-- A link of `lanes` lanes at a rate carries the port's mode: 8 of 10 bits on the line are data (log 27). -/
def Dev.dispCarries (d : Dev) (p rate lanes : Nat) : Bool :=
  let c := d.rd (Reg.DISP_CFG p)
  let bpp := if tb c 7 then 30 else 24
  decide (dispClock (bits c 0 4) * bpp * 10 ≤ dispRate rate * 1000 * lanes * 8)

/-- The mode is in the table and the fastest link the port may train carries it (R457). -/
def Dev.dispValid (d : Dev) (p : Nat) : Bool :=
  let c := d.rd (Reg.DISP_CFG p)
  let r := bits c 10 3
  decide (bits c 0 4 < 14) && (decide (p = 2) || decide (r < 4))

/-- Lanes of a LANES code (R461). -/
def dispLanes (k : Nat) : Nat := 2 ^ min 2 k

/-- A commit changed DISP_CFG (R457, R458). -/
def Dev.dispChanged (d : Dev) (p : Nat) : Dev :=
  let d := d.setDsp p { d.dsp p with retryAt := none }
  if !d.bit (Reg.DISP_CFG p) 31 then d.setDispState p 0
  else if !d.dispValid p then d.setDispState p 6
  else if d.bit (Reg.DISP_STATUS p) 12 then d.setDispState p 2
  else d.setDispState p 1

/-- After a failed round the port waits 100 ms before it trains again (R458). -/
def Dev.retryWaits (d : Dev) (p : Nat) : Bool := match (d.dsp p).retryAt with | some t => decide (d.lt < t) | none => false

/-- Link training completes at a rate and lane count that the port and the sink allow (R457, R458). A link that cannot carry the mode
makes the port BAD_CFG. -/
def Dev.linkTrained (d : Dev) (p rate lanes : Nat) : Dev :=
  let q := d.dsp p
  let c := d.rd (Reg.DISP_CFG p)
  if d.dispState p ≠ 2 ∨ d.retryWaits p then d
  else if decide (min (dispRate (bits c 10 3)) (dispRate q.rate) < dispRate rate) || decide (min (min 2 (bits c 8 2)) q.lanes < lanes) then d
  else if !d.dispCarries p rate (dispLanes lanes) then d.setDispState p 6
  else ((d.setF (Reg.DISP_STATUS p) 6 2 lanes).setF (Reg.DISP_STATUS p) 8 4 rate).setDispState p 3

/-- The link wakes from PSR (R459). -/
def Dev.psrWake (d : Dev) (p : Nat) : Dev :=
  if d.dispState p = 4 ∨ d.dispState p = 5 then d.setDispState p 3 else d

/-- A hot-plug or IRQ_HPD event (R456, R458, R459): kind 0 sink gone, 1 sink present with its rate, lanes and PSR, 2 IRQ_HPD with
lost link, 3 another IRQ_HPD. -/
def Dev.hpd (d : Dev) (p kind rate lanes : Nat) (psr psr2 : Bool) : Dev :=
  let d := d.dispEvt p 2
  let on := d.bit (Reg.DISP_CFG p) 31 && d.dispState p != 6
  match kind with
  | 0 =>
    let d := (d.setF (Reg.DISP_STATUS p) 12 1 0).setDsp p default
    if on then d.setDispState p 1 else d
  | 1 =>
    let q := { d.dsp p with rate := rate, lanes := min 2 lanes, psr := psr && p == 2, psr2 := psr2 && p == 2, retryAt := none }
    let d := (d.setF (Reg.DISP_STATUS p) 12 1 1).setDsp p q
    if on then d.setDispState p 2 else d
  | 2 =>
    let d := d.psrWake p
    if on && d.dispState p == 3 then d.setDispState p 2 else d
  | _ => d.psrWake p

/-- A failed training round (R458): counted, and retried after 100 ms. -/
def Dev.trainFail (d : Dev) (p : Nat) : Dev :=
  if d.dispState p ≠ 2 ∨ d.retryWaits p then d
  else ((d.inc (Reg.DISP_TRAIN_FAIL p)).dispEvt p 8).setDsp p { d.dsp p with retryAt := some (d.lt + 100000000) }

/-- A write of ENTER (R459): the next frame to start is the panel's stored one. Where PSR is not enabled it does nothing (log 105). -/
def Dev.psrEnter (d : Dev) : Dev :=
  if !(d.dsp 2).psr then d.dispEvt 2 64
  else if d.bit (Reg.DISP_PSR 2) 0 && d.dispState 2 == 3 then d.setDsp 2 { d.dsp 2 with entering := 1 } else d

/-- A write of EXIT (R459). -/
def Dev.psrExit (d : Dev) : Dev := d.psrWake 2

/-- A write of DISP_SU[p] (R459); reserved on ports 0 and 1, and reserved bits read 0 (R11, R461). -/
def Dev.dispSu (d : Dev) (p v : Nat) : Dev :=
  if p ≠ 2 then d
  else
  let d := d.wr (Reg.DISP_SU 2) (bits v 0 13 + bits v 16 13 * 2 ^ 16)
  if d.dispState 2 = 5 then d.setDsp 2 { d.dsp 2 with su := some (bits v 0 13, bits v 16 13) } else d

/-- A write of DISP_AUX_CMD (R461). -/
def Dev.auxCmd (d : Dev) (p v : Nat) : Dev :=
  if d.bit (Reg.DISP_AUX_STATUS p) 0 then d
  else
    let data := ((List.range 4).map fun w => leBytes 4 (d.rd (Reg.DISP_AUX_DATA p w))).flatten
    ((d.wr (Reg.DISP_AUX_STATUS p) 1).wr (Reg.DISP_AUX_CMD p) v).emit (.aux p ([v % 2 ^ 26] ++ (if tb v 24 then [] else data.take (bits v 20 4 + 1))))

/-- The end of an AUX transaction (R461): outcome 0 ACK, 1 NACK, 2 DEFER exhausted, 3 TIMEOUT, and the bytes that a READ has read. -/
def Dev.auxDone (d : Dev) (p outcome : Nat) (read : List Nat) : Dev :=
  if !d.bit (Reg.DISP_AUX_STATUS p) 0 then d
  else
    let d := d.wr (Reg.DISP_AUX_STATUS p) (2 ^ (outcome % 4 + 1))
    let read := read.take (d.fld (Reg.DISP_AUX_CMD p) 20 4 + 1)
    let d := if outcome % 4 = 0 ∧ d.bit (Reg.DISP_AUX_CMD p) 24 then
        forN 4 (fun w d =>
          if 4 * w < read.length then
            d.wr (Reg.DISP_AUX_DATA p w) (leNum (((leBytes 4 (d.rd (Reg.DISP_AUX_DATA p w))).zipIdx).map fun x => read.getD (4 * w + x.2) x.1))
          else d) d
      else d
    d.dispEvt p 16

end Sys2Proof.Machine
end

