-- ==== Sys2Proof/Machine/Symbol.lean ====
section
/-! DEFINITION. The symbol encoder of the drawing engines: Data Matrix ECC 200 and Code 128 (16, R435, R436). The tables and the
placement are those of the two standards that R436 names (log 28). -/
namespace Sys2Proof.Machine

/-- Multiplication in GF(256) with the polynomial 0x12D of Data Matrix. -/
def gfMulN (a b : Nat) : Nat → Nat
  | 0 => 0
  | n + 1 => (if tb b 0 then a else 0) ^^^ gfMulN (if 128 ≤ a then (2 * a) ^^^ 0x12D else 2 * a) (b / 2) n

def gfMul (a b : Nat) : Nat := gfMulN a b 8

/-- Generator polynomial with the roots 2^1 to 2^n, highest coefficient left out, highest power first. -/
def rsGen : Nat → List Nat × Nat
  | 0 => ([], 1)
  | n + 1 =>
    let (g, r) := rsGen n
    let r := gfMul r 2
    let full := 1 :: g
    ((List.range (n + 1)).map fun i => (full.getD (i + 1) 0) ^^^ gfMul r (full.getD i 0), r)

/-- Reed-Solomon check words of a block (R436). -/
def rsCheck (n : Nat) (data : List Nat) : List Nat :=
  let g := (rsGen n).1
  data.foldl (fun rem d =>
    let k := d ^^^ rem.headD 0
    (List.range n).map fun i => rem.getD (i + 1) 0 ^^^ gfMul k (g.getD i 0)) (List.replicate n 0)

/-- A symbol size: rows, columns, data words, check words, blocks, and regions down and across. -/
structure DmSize where
  rows : Nat
  cols : Nat
  data : Nat
  check : Nat
  blocks : Nat
  down : Nat
  across : Nat

def dmSquare0 : List DmSize := [⟨10, 10, 3, 5, 1, 1, 1⟩, ⟨12, 12, 5, 7, 1, 1, 1⟩, ⟨14, 14, 8, 10, 1, 1, 1⟩, ⟨16, 16, 12, 12, 1, 1, 1⟩,
  ⟨18, 18, 18, 14, 1, 1, 1⟩, ⟨20, 20, 22, 18, 1, 1, 1⟩, ⟨22, 22, 30, 20, 1, 1, 1⟩, ⟨24, 24, 36, 24, 1, 1, 1⟩, ⟨26, 26, 44, 28, 1, 1, 1⟩,
  ⟨32, 32, 62, 36, 1, 2, 2⟩, ⟨36, 36, 86, 42, 1, 2, 2⟩, ⟨40, 40, 114, 48, 1, 2, 2⟩]

def dmSquare1 : List DmSize := [⟨44, 44, 144, 56, 1, 2, 2⟩, ⟨48, 48, 174, 68, 1, 2, 2⟩, ⟨52, 52, 204, 84, 2, 2, 2⟩, ⟨64, 64, 280, 112, 2, 4, 4⟩,
  ⟨72, 72, 368, 144, 4, 4, 4⟩, ⟨80, 80, 456, 192, 4, 4, 4⟩, ⟨88, 88, 576, 224, 4, 4, 4⟩, ⟨96, 96, 696, 272, 4, 4, 4⟩, ⟨104, 104, 816, 336, 6, 4, 4⟩,
  ⟨120, 120, 1050, 408, 6, 6, 6⟩, ⟨132, 132, 1304, 496, 8, 6, 6⟩, ⟨144, 144, 1558, 620, 10, 6, 6⟩]

def dmRect : List DmSize := [⟨8, 18, 5, 7, 1, 1, 1⟩, ⟨8, 32, 10, 11, 1, 1, 2⟩, ⟨12, 26, 16, 14, 1, 1, 1⟩, ⟨12, 36, 22, 18, 1, 1, 2⟩,
  ⟨16, 36, 32, 24, 1, 1, 2⟩, ⟨16, 48, 49, 28, 1, 1, 2⟩]

def isDigit (b : Nat) : Bool := 48 ≤ b && b ≤ 57

/-- Data Matrix ASCII encodation (R436). -/
def dmAscii (gs1 : Bool) : Nat → List Nat → List Nat
  | 0, _ => []
  | _, [] => []
  | n + 1, a :: t =>
    if gs1 && a == 0x1D then 232 :: dmAscii gs1 n t
    else match t with
      | b :: u => if isDigit a && isDigit b then (130 + (a - 48) * 10 + (b - 48)) :: dmAscii gs1 n u
        else if 128 ≤ a then 235 :: (a - 127) :: dmAscii gs1 n t else (a + 1) :: dmAscii gs1 n t
      | [] => if 128 ≤ a then [235, a - 127] else [a + 1]

/-- The smaller of two sizes: by data capacity, then area, then the square one (R436). -/
def dmLess (a b : DmSize) : Bool :=
  if a.data ≠ b.data then a.data < b.data
  else if a.rows * a.cols ≠ b.rows * b.cols then a.rows * a.cols < b.rows * b.cols else a.rows == a.cols

/-- The size for a number of codewords (R436). -/
def dmPick (sym n : Nat) : Option DmSize :=
  let all := match sym with | 0 => dmSquare0 ++ dmSquare1 | 1 => dmRect | _ => dmSquare0 ++ dmSquare1 ++ dmRect
  (all.filter fun s => decide (n ≤ s.data)).foldl (fun best s => match best with
    | none => some s
    | some b => if dmLess s b then some s else some b) none

/-- Padding to capacity: 129, then the 253-state randomised pads. -/
def dmPad (cap : Nat) (cw : List Nat) : List Nat :=
  if cap ≤ cw.length then cw
  else cw ++ 129 :: (List.range (cap - cw.length - 1)).map fun i =>
    let p := cw.length + 2 + i
    let r := 129 + 149 * p % 253 + 1
    if r ≤ 254 then r else r - 254

/-- Codewords with interleaved check words. -/
def dmWords (s : DmSize) (data : List Nat) : List Nat :=
  let per := s.check / s.blocks
  let blocks := (List.range s.blocks).map fun b =>
    rsCheck per (((List.range data.length).filter fun i => i % s.blocks == b).map fun i => data.getD i 0)
  data ++ (List.range s.check).map fun i => (blocks.getD (i % s.blocks) []).getD (i / s.blocks) 0

/-- A placement map: module (row × columns + column) to 8 × codeword + bit (0 the highest). -/
abbrev DmMap := Tab Nat

/-- Place one bit of a codeword, wrapped round the edges. -/
def dmModule (nr nc : Nat) (chr bit : Nat) (m : DmMap) (rc : Int × Int) : DmMap :=
  let (r, c) := rc
  let (r, c) := if r < 0 then (r + nr, c + 4 - ((nr + 4) % 8 : Nat)) else (r, c)
  let (r, c) := if c < 0 then (r + 4 - ((nc + 4) % 8 : Nat), c + nc) else (r, c)
  aset m (r.toNat * nc + c.toNat) (some (8 * chr + bit))

/-- Place the eight bits of a codeword at given modules. -/
def dmPlace (nr nc chr : Nat) (m : DmMap) (l : List (Int × Int)) : DmMap :=
  (l.zipIdx).foldl (fun m x => dmModule nr nc chr x.2 m x.1) m

def dmUtah (r c : Int) : List (Int × Int) :=
  [(r - 2, c - 2), (r - 2, c - 1), (r - 1, c - 2), (r - 1, c - 1), (r - 1, c), (r, c - 2), (r, c - 1), (r, c)]

/-- The four corner cases. -/
def dmCorner (nr nc : Int) : Nat → List (Int × Int)
  | 1 => [(nr - 1, 0), (nr - 1, 1), (nr - 1, 2), (0, nc - 2), (0, nc - 1), (1, nc - 1), (2, nc - 1), (3, nc - 1)]
  | 2 => [(nr - 3, 0), (nr - 2, 0), (nr - 1, 0), (0, nc - 4), (0, nc - 3), (0, nc - 2), (0, nc - 1), (1, nc - 1)]
  | 3 => [(nr - 3, 0), (nr - 2, 0), (nr - 1, 0), (0, nc - 2), (0, nc - 1), (1, nc - 1), (2, nc - 1), (3, nc - 1)]
  | _ => [(nr - 1, 0), (nr - 1, nc - 1), (0, nc - 3), (0, nc - 2), (0, nc - 1), (1, nc - 3), (1, nc - 2), (1, nc - 1)]

/-- Sweep upward to the right, then downward to the left, along diagonals. -/
def dmSweep (nr nc : Nat) (up : Bool) : Nat → Int → Int → Nat → DmMap → Int × Int × Nat × DmMap
  | 0, r, c, chr, m => (r, c, chr, m)
  | n + 1, r, c, chr, m =>
    let free := decide (0 ≤ r) && decide (r < nr) && decide (0 ≤ c) && decide (c < nc) && (aget m (r.toNat * nc + c.toNat)).isNone
    let m' := if free then dmPlace nr nc chr m (dmUtah r c) else m
    let chr := if free then chr + 1 else chr
    let r := if up then r - 2 else r + 2
    let c := if up then c + 2 else c - 2
    if (if up then decide (0 ≤ r) && decide (c < nc) else decide (r < nr) && decide (0 ≤ c)) then dmSweep nr nc up n r c chr m'
    else (r, c, chr, m')

/-- The whole placement. -/
def dmLayout (nr nc : Nat) : Nat → Int → Int → Nat → DmMap → DmMap
  | 0, _, _, _, m => m
  | n + 1, r, c, chr, m =>
    let corner := if r = nr ∧ c = 0 then some 1
      else if r = (nr : Int) - 2 ∧ c = 0 ∧ nc % 4 ≠ 0 then some 2
      else if r = (nr : Int) - 2 ∧ c = 0 ∧ nc % 8 = 4 then some 3
      else if r = (nr : Int) + 4 ∧ c = 2 ∧ nc % 8 = 0 then some 4 else none
    let (chr, m) := match corner with | some k => (chr + 1, dmPlace nr nc chr m (dmCorner nr nc k)) | none => (chr, m)
    let (r, c, chr, m) := dmSweep nr nc true (nr + nc) r c chr m
    let (r, c, chr, m) := dmSweep nr nc false (nr + nc) (r + 1) (c + 3) chr m
    let r := r + 3
    let c := c + 1
    if r < nr ∨ c < nc then dmLayout nr nc n r c chr m else m

/-- The dark modules of a Data Matrix symbol of a size, row by row. -/
def dmImage (s : DmSize) (words : List Nat) : List (List Bool) :=
  let h := s.rows / s.down
  let w := s.cols / s.across
  let nr := s.rows - 2 * s.down
  let nc := s.cols - 2 * s.across
  let map := dmLayout nr nc (nr + nc) 4 0 0 []
  let bitAt := fun (r c : Nat) => match aget map (r * nc + c) with
    | some k => tb (words.getD (k / 8) 0) (7 - k % 8)
    | none => (r == nr - 1 && c == nc - 1) || (r == nr - 2 && c == nc - 2)
  (List.range s.rows).map fun y => (List.range s.cols).map fun x =>
    let i := y % h
    let j := x % w
    if j = 0 ∨ i = h - 1 then true
    else if i = 0 then j % 2 == 0
    else if j = w - 1 then (h - 1 - i) % 2 == 0
    else bitAt (y / h * (h - 2) + (i - 1)) (x / w * (w - 2) + (j - 1))

/-- Bar and space widths of the 107 Code 128 characters, as decimal digits. -/
def c128a : List Nat := [212222, 222122, 222221, 121223, 121322, 131222, 122213, 122312, 132212, 221213, 221312, 231212, 112232, 122132,
  122231, 113222, 123122, 123221, 223211, 221132, 221231, 213212, 223112, 312131, 311222, 321122, 321221, 312212, 322112, 322211, 212123,
  212321, 232121, 111323, 131123, 131321, 112313, 132113, 132311, 211313]

def c128b : List Nat := [231113, 231311, 112133, 112331, 132131, 113123, 113321, 133121, 313121, 211331, 231131, 213113, 213311, 213131,
  311123, 311321, 331121, 312113, 312311, 332111, 314111, 221411, 431111, 111224, 111422, 121124, 121421, 141122, 141221, 112214, 112412,
  122114, 122411, 142112, 142211, 241211, 221114, 413111, 241112, 134111]

def c128c : List Nat := [111242, 121142, 121241, 114212, 124112, 124211, 411212, 421112, 421211, 212141, 214121, 412121, 111143, 111341,
  131141, 114113, 114311, 411113, 411311, 113141, 114131, 311141, 411131, 211412, 211214, 211232, 2331112]

/-- Decimal digits of a number, highest first. -/
def decDigits : Nat → Nat → List Nat
  | 0, _ => []
  | n + 1, v => if v = 0 then [] else decDigits n (v / 10) ++ [v % 10]

/-- The modules of one Code 128 character: bars dark, spaces clear, in turn. -/
def c128Modules (v : Nat) : List Bool :=
  (((decDigits 8 ((c128a ++ c128b ++ c128c).getD v 0)).zipIdx).map fun x => List.replicate x.1 (x.2 % 2 == 0)).flatten

/-- Digits at the head of the data. -/
def digitRun : List Nat → Nat
  | [] => 0
  | a :: t => if isDigit a then digitRun t + 1 else 0

/-- Code set A or B for what follows (R436): A when a byte below 0x20 comes before any from 0x60 to 0x7F. -/
def setAB (gs1 : Bool) : List Nat → Nat
  | [] => 1
  | a :: t => if gs1 && a == 0x1D then setAB gs1 t else if a < 0x20 then 0 else if 0x60 ≤ a then 1 else setAB gs1 t

/-- A byte lies in code set A or B. -/
def inSet (s a : Nat) : Bool := if s = 0 then a < 0x60 else 0x20 ≤ a

/-- The value of a byte in code set A or B. -/
def setVal (s a : Nat) : Nat := if s = 0 ∧ a < 0x20 then a + 64 else a - 32

/-- Code 128 characters of data in a code set: 0 A, 1 B, 2 C (R436). A byte outside the set switches sets; no shift is used (log 28). -/
def c128Body (gs1 : Bool) : Nat → Nat → List Nat → List Nat
  | 0, _, _ => []
  | _, _, [] => []
  | n + 1, s, a :: t =>
    let run := digitRun (a :: t)
    if gs1 && a == 0x1D then 102 :: c128Body gs1 n s t
    else if s = 2 then
      match t with
      | b :: u => if isDigit a && isDigit b then ((a - 48) * 10 + (b - 48)) :: c128Body gs1 n 2 u
        else let k := setAB gs1 (a :: t); (if k = 0 then 101 else 100) :: c128Body gs1 n k (a :: t)
      | [] => let k := setAB gs1 (a :: t); (if k = 0 then 101 else 100) :: c128Body gs1 n k (a :: t)
    else if run % 2 = 0 ∧ (6 ≤ run ∨ (4 ≤ run ∧ run = t.length + 1)) then 99 :: c128Body gs1 n 2 (a :: t)
    else if !inSet s a then
      let k := 1 - s
      (if k = 0 then 101 else 100) :: c128Body gs1 n k (a :: t)
    else setVal s a :: c128Body gs1 n s t

/-- The characters of a Code 128 symbol: start, data and check character (R436). -/
def c128Chars (gs1 : Bool) (data : List Nat) : List Nat :=
  let run := digitRun data
  let s := if 4 ≤ run ∨ (run = 2 ∧ data.length = 2) then 2 else setAB gs1 data
  let body := (if gs1 then [102] else []) ++ c128Body gs1 (4 * data.length + 4) s data
  let sum := (body.zipIdx).foldl (fun a x => a + x.1 * (x.2 + 1)) (103 + s)
  (103 + s) :: body ++ [sum % 103]

/-- What SYMBOL makes of its data: the module image without its quiet zone, or an error code of R431 (3 data, 4 size). -/
inductive SymOut
  | image (rows : List (List Bool))
  | error (code : Nat)

/-- The symbol encoder (R435, R436). -/
def symbolOf (sym : Nat) (gs1 : Bool) (data : List Nat) : SymOut :=
  if data.isEmpty then .error 3
  else if sym = 3 then
    if data.any (fun b => 128 ≤ b) then .error 3
    else .image [((c128Chars gs1 data).map c128Modules).flatten ++ c128Modules 106]
  else
    let cw := (if gs1 then [232] else []) ++ dmAscii gs1 data.length data
    match dmPick sym cw.length with
    | none => .error 4
    | some s => .image (dmImage s (dmWords s (dmPad s.data cw)))

end Sys2Proof.Machine
end

