-- ==== Sys2Proof/Machine/Draw.lean ====
section
/-! DEFINITION. The drawing engines (16, R426 to R442). -/
namespace Sys2Proof.Machine

def Dev.drawEng (d : Dev) (e : Nat) : DrawEng := tget d.draw e

def Dev.setDraw (d : Dev) (e : Nat) (q : DrawEng) : Dev := { d with draw := tput d.draw e q }

def Dev.drawEvt (d : Dev) (e m : Nat) : Dev := d.evt (412 + e) m

def Dev.drawK (d : Dev) (e : Nat) : Nat := clampN 4 16 (d.fld (Reg.DRAW_Q_CFG e) 0 5)

def Dev.drawWr (d : Dev) (e : Nat) : Nat := d.rd (Reg.DRAW_Q_WR e) % 2 ^ 17

def Dev.drawRd (d : Dev) (e : Nat) : Nat := d.rd (Reg.DRAW_Q_RD e) % 2 ^ 17

/-- STATE: 0 STOPPED, 1 IDLE, 2 RUN, 3 ERROR (R442). -/
def Dev.drawState (d : Dev) (e : Nat) : Nat :=
  if !d.bit (Reg.DRAW_CTRL e) 0 then 0 else if (d.drawEng e).halted then 3 else if d.drawWr e = d.drawRd e then 1 else 2

/-- A write of DRAW_Q_WR, ignored if it would overfill the ring (R426). -/
def Dev.drawQWr (d : Dev) (e v : Nat) : Dev :=
  if (v % 2 ^ 17 + 2 ^ 17 - d.drawRd e) % 2 ^ 17 ≤ 2 ^ d.drawK e then d.wr (Reg.DRAW_Q_WR e) (v % 2 ^ 17) else d

/-- The address of the command at RD (R426). -/
def Dev.drawAt (d : Dev) (e : Nat) : Nat :=
  let k := d.drawK e
  d.fld (Reg.DRAW_Q_BASE e) 0 48 / 2 ^ (6 + k) * 2 ^ (6 + k) + 64 * (d.drawRd e % 2 ^ k)

/-- A read by the engine: bytes, and whether every one had a target; missing data are 0 (R431). -/
def Dev.drawRead (d : Dev) (a n : Nat) : List Nat × Bool :=
  if d.hasRange a (max 1 n) then (d.memRead a n, true) else (List.replicate n 0, false)

/-- The command at RD as sixteen words (R428). -/
def Dev.drawCmd (d : Dev) (e : Nat) : List Nat :=
  let bs := (d.drawRead (d.drawAt e) 64).1
  (List.range 16).map fun i => leAt bs (4 * i) 4

/-- The bits of word 0 to 15 that an operation may set (R428, R430). -/
def drawMasks (op : Nat) : List Nat :=
  let a := 0xFFFFFFFF
  let h := 0xFFFF
  let f := 0xF3FFFF
  match op with
  | 1 => [0x3FFFF, a, h, f, a, a, 0, 0, 0, 0, 0, a, 0x1FF, 0, 0, 0]
  | 2 => [0x3FFFF, a, h, f, a, 0, a, h, f, a, a, 0, 0x1FF, 0, 0, 0]
  | 3 => [0x3FFFF, a, h, f, a, 0, a, h, f, a, a, a, a, 0xFFFFFFF, 0, 0]
  | 4 => [0xFFFF, a, h, f, 0, 0, a, h, 0xFF, 0, 0, 0xF007, 0, 0, 0, 0]
  | 5 => [0xFF, a, a, a, a, a, a, a, a, 0xF, 0, 0, 0, 0, 0, 0]
  | 6 => [0xFF, a, h, a, 0, 0, 0, 0, 0, 0, 0, 1, 0, 0, 0, 0]
  | _ => [0xFF, 0, 0, 0, 0, 0, 0, 0, 0, 0, 0, 0, 0, 0, 0, 0]

/-- The formats of a FILL, COPY or GLYPH destination (R429). -/
def dstFmt (f : Nat) : Bool := f == 0 || f == 3 || f == 4 || f == 5 || f == 6 || f == 7

def fmtOf (w : List Nat) (i : Nat) : Nat := bits (w.getD i 0) 20 4

/-- The error that a command shows before any write (R431): 0 none, 1 reserved, 2 format. -/
def drawCheck (w : List Nat) : Nat :=
  let op := w.getD 0 0 % 256
  let m := drawMasks op
  let extra := (List.range 16).any fun i => clearMask (w.getD i 0) (m.getD i 0) != 0
  let lastsym := op == 3 && tb (w.getD 13 0) 18
  if decide (6 < op) || extra || ((op == 1 || op == 2 || op == 3) && tb (w.getD 0 0) 17)
      || (op == 3 && bits (w.getD 13 0) 16 2 == 3) || (lastsym && (w.getD 9 0 != 0 || w.getD 10 0 != 0)) then 1
  else
    let raw := fmtOf w 3 == 2 && fmtOf w 8 == 2 && !tb (w.getD 0 0) 16
    let bad := match op with
      | 1 => !dstFmt (fmtOf w 3)
      | 2 => !raw && !(dstFmt (fmtOf w 3) && dstFmt (fmtOf w 8))
      | 3 => !(dstFmt (fmtOf w 3) && fmtOf w 8 == 8)
      | 4 => fmtOf w 3 != 8
      | _ => false
    if bad then 2 else 0

/-- A surface of a command: BASE, STRIDE, FMT, X, Y (R428). -/
structure Surf where
  base : Nat
  stride : Nat
  fmt : Nat
  x : Nat
  y : Nat

def surfOf (w : List Nat) (i : Nat) : Surf :=
  ⟨w.getD i 0 + bits (w.getD (i + 1) 0) 0 16 * 2 ^ 32, bits (w.getD (i + 2) 0) 0 18, fmtOf w (i + 2), bits (w.getD (i + 3) 0) 0 16,
    bits (w.getD (i + 3) 0) 16 16⟩

/-- Bits per pixel of a format, MONO1 among them (R429). -/
def pxBits (f : Nat) : Nat := if f = 8 then 1 else fmtBits f

/-- Byte address of pixel (x, y). -/
def Surf.addr (s : Surf) (x y : Nat) : Nat := s.base + s.stride * y + x * pxBits s.fmt / 8

/-- Byte spans, as start and length, of a rectangle of a surface. -/
def Surf.spans (s : Surf) (x y w h : Nat) : List (Nat × Nat) :=
  if w = 0 then [] else (List.range h).map fun j => (s.addr x (y + j), (s.addr (x + w - 1) (y + j)) + (pxBits s.fmt + 7) / 8 - s.addr x (y + j))

/-- Two sets of spans share a byte (R439). -/
def spansMeet (a b : List (Nat × Nat)) : Bool := a.any fun x => b.any fun y => decide (x.1 < y.1 + y.2) && decide (y.1 < x.1 + x.2)

/-- A pixel is inside the clip rectangles that a command selects (R438). -/
def DrawEng.shows (q : DrawEng) (mask x y : Nat) : Bool :=
  (List.range 4).all fun n =>
    let (x0, y0, x1, y1) := q.clips.getD n (0, 0, 65535, 65535)
    !tb mask n || ((decide (x0 ≤ x) && decide (x ≤ x1) && decide (y0 ≤ y) && decide (y ≤ y1)) != tb q.excl n)

/-- R, G, B, A of 12 bits from the bytes of a pixel (R403, R433); an A8 pixel has the colour `c` that the rules leave open. -/
def unpackPx (fmt v : Nat) (c : List Nat) : List Nat :=
  match fmt with
  | 0 => [e8 v, e8 v, e8 v, 4095]
  | 3 => [e5 (bits v 11 5), e6 (bits v 5 6), e5 (bits v 0 5), 4095]
  | 4 => [e8 (bits v 0 8), e8 (bits v 8 8), e8 (bits v 16 8), 4095]
  | 5 => [e8 (bits v 0 8), e8 (bits v 8 8), e8 (bits v 16 8), e8 (bits v 24 8)]
  | 6 => [e10 (bits v 0 10), e10 (bits v 10 10), e10 (bits v 20 10), 1365 * bits v 30 2]
  | _ => c.take 3 ++ [e8 v]

/-- Reduction to n bits (R433). -/
def reduce (n v : Nat) : Nat := (v * (2 ^ n - 1) + 2047) / 4095

/-- The number that a pixel of a format holds (R403, R433); the unused byte of an xRGB pixel is `x`. -/
def packPx (fmt : Nat) (p : List Nat) (x : Nat) : Nat :=
  let r := p.getD 0 0
  let g := p.getD 1 0
  let b := p.getD 2 0
  let a := p.getD 3 0
  match fmt with
  | 0 => reduce 8 ((77 * r + 150 * g + 29 * b + 128) / 256)
  | 3 => reduce 5 r * 2 ^ 11 + reduce 6 g * 2 ^ 5 + reduce 5 b
  | 4 => reduce 8 r + reduce 8 g * 2 ^ 8 + reduce 8 b * 2 ^ 16 + x * 2 ^ 24
  | 5 => reduce 8 r + reduce 8 g * 2 ^ 8 + reduce 8 b * 2 ^ 16 + reduce 8 a * 2 ^ 24
  | 6 => reduce 10 r + reduce 10 g * 2 ^ 10 + reduce 10 b * 2 ^ 20 + reduce 2 a * 2 ^ 30
  | _ => reduce 8 a

/-- OVER (R433): source over destination with GA. -/
def over12 (s dst : List Nat) (ga : Nat) : List Nat :=
  let a := s.getD 3 0
  let eff := ((a + a / 2048) * min 256 ga + 128) / 256
  let mix := fun (x y : Nat) => ((x : Int) + (((y : Int) - x) * eff + 2048) / 4096).toNat
  (List.range 3).map (fun k => mix (dst.getD k 0) (s.getD k 0)) ++ [mix (dst.getD 3 0) 4095]

/-- What a command writes and whether all its reads had a target. -/
structure DrawJob where
  writes : List (Nat × List Nat)
  readOk : Bool

/-- One destination pixel of a FILL, COPY or GLYPH (R433, R438): nothing where it is clipped. -/
def Dev.drawPx (d : Dev) (e : Nat) (w : List Nat) (dst : Surf) (x y ga : Nat) (src : List Nat) : DrawJob :=
  if !(d.drawEng e).shows (bits (w.getD 0 0) 8 4) x y then ⟨[], true⟩
  else
    let a := dst.addr x y
    let n := pxBits dst.fmt / 8
    let keep := Config.freeRead d.free a % 256
    if tb (w.getD 0 0) 16 then
      let (old, ok) := d.drawRead a n
      ⟨[(a, leBytes n (packPx dst.fmt (over12 src (unpackPx dst.fmt (leNum old) [0, 0, 0]) ga) keep))], ok⟩
    else ⟨[(a, leBytes n (packPx dst.fmt src keep))], true⟩

def joinJobs (l : List DrawJob) : DrawJob := ⟨(l.map (·.writes)).flatten, l.all (·.readOk)⟩

/-- FILL (R430). -/
def Dev.drawFill (d : Dev) (e : Nat) (w : List Nat) : DrawJob :=
  let dst := surfOf w 1
  let c := w.getD 11 0
  let src := [e8 (bits c 0 8), e8 (bits c 8 8), e8 (bits c 16 8), e8 (bits c 24 8)]
  joinJobs ((List.range (bits (w.getD 5 0) 16 16)).map fun j => joinJobs ((List.range (bits (w.getD 5 0) 0 16)).map fun i =>
    d.drawPx e w dst (dst.x + i) (dst.y + j) (bits (w.getD 12 0) 0 9) src))

/-- Where the orientation stage puts source pixel (x, y) of a W × H rectangle (R432). -/
def drawOrient (w0 sw sh x y : Nat) : Nat × Nat :=
  let rot := bits w0 12 2
  let (x', y') := orient rot sw sh x y
  let w' := if rot % 2 = 0 then sw else sh
  let h' := if rot % 2 = 0 then sh else sw
  (if tb w0 14 then w' - 1 - x' else x', if tb w0 15 then h' - 1 - y' else y')

/-- The source rectangle of a COPY or GLYPH (R430, R434): X, Y, W, H. -/
def Dev.drawSrc (d : Dev) (e : Nat) (w : List Nat) : Nat × Nat × Nat × Nat :=
  if w.getD 0 0 % 256 = 3 ∧ tb (w.getD 13 0) 18 then
    let s := d.rd (Reg.DRAW_SYM_SIZE e)
    (0, 0, bits s 0 16, bits s 16 16)
  else (bits (w.getD 9 0) 0 16, bits (w.getD 9 0) 16 16, bits (w.getD 10 0) 0 16, bits (w.getD 10 0) 16 16)

/-- COPY (R430, R432, R433). -/
def Dev.drawCopy (d : Dev) (e : Nat) (w : List Nat) : DrawJob :=
  let dst := surfOf w 1
  let src := surfOf w 6
  let (sx0, sy0, sw, sh) := d.drawSrc e w
  let n := pxBits src.fmt / 8
  let colour := [Config.freeRead d.free 1 % 4096, Config.freeRead d.free 2 % 4096, Config.freeRead d.free 3 % 4096]
  joinJobs ((List.range sh).map fun y => joinJobs ((List.range sw).map fun x =>
    let (x', y') := drawOrient (w.getD 0 0) sw sh x y
    let (bs, ok) := d.drawRead (src.addr (sx0 + x) (sy0 + y)) n
    if dst.fmt = 2 then
      if (d.drawEng e).shows (bits (w.getD 0 0) 8 4) (dst.x + x') (dst.y + y') then ⟨[(dst.addr (dst.x + x') (dst.y + y'), bs)], ok⟩ else ⟨[], ok⟩
    else
      let j := d.drawPx e w dst (dst.x + x') (dst.y + y') (bits (w.getD 12 0) 0 9) (unpackPx src.fmt (leNum bs) colour)
      ⟨j.writes, j.readOk && ok⟩))

/-- GLYPH (R430, R432, R434). -/
def Dev.drawGlyph (d : Dev) (e : Nat) (w : List Nat) : DrawJob :=
  let dst := surfOf w 1
  let src := surfOf w 6
  let (sx0, sy0, sw, sh) := d.drawSrc e w
  let w13 := w.getD 13 0
  let kx := bits w13 0 8 + 1
  let ky := bits w13 8 8 + 1
  let mode := bits w13 16 2
  let col := fun (c : Nat) => [e8 (bits c 0 8), e8 (bits c 8 8), e8 (bits c 16 8), e8 (bits c 24 8)]
  joinJobs ((List.range sh).map fun y => joinJobs ((List.range sw).map fun x =>
    let (x', y') := drawOrient (w.getD 0 0) sw sh x y
    let (bs, ok) := d.drawRead (src.addr (sx0 + x) (sy0 + y)) 1
    let set := tb (bs.headD 0) (7 - (sx0 + x) % 8)
    let c := if set then (if mode = 2 then none else some (w.getD 11 0)) else (if mode = 1 then none else some (w.getD 12 0))
    match c with
    | none => ⟨[], ok⟩
    | some c =>
      let j := joinJobs ((List.range ky).map fun v => joinJobs ((List.range kx).map fun u =>
        d.drawPx e w dst (dst.x + kx * x' + u) (dst.y + ky * y' + v) (bits w13 19 9) (col c)))
      ⟨j.writes, j.readOk && ok⟩))

/-- The bytes of a module image line: dark modules set, the rest of the last byte 0 (R429, R435). -/
def packModules (l : List Bool) : List Nat :=
  (List.range ((l.length + 7) / 8)).map fun i => (List.range 8).foldl (fun a k => a + b2n (l.getD (8 * i + k) false) * 2 ^ (7 - k)) 0

/-- The whole module image with its quiet zone (R435, R436). -/
def quietZone (sym qz : Nat) (rows : List (List Bool)) : List (List Bool) :=
  let q := List.replicate qz false
  let mid := rows.map fun r => q ++ r ++ q
  let n := (mid.headD []).length
  let v := if sym = 3 then [] else List.replicate qz (List.replicate n false)
  v ++ mid ++ v

/-- Perform the writes of a command, pixel by pixel; says whether every one had a target (R431). -/
def Dev.drawWrites (d : Dev) (ws : List (Nat × List Nat)) : Bool × Dev :=
  ws.foldl (fun s w => if s.2.hasRange w.1 (max 1 w.2.length) then (s.1, s.2.memWrite 26 w.1 w.2) else (false, s.2)) (true, d)

/-- Overlap leaves every pixel written undefined: free values (R439; log 1). The lowest `pad` bits of the last byte of each write hold no pixel, and
stay 0 (R435). -/
def Dev.drawBlur (d : Dev) (pad : Nat) (ws : List (Nat × List Nat)) : List (Nat × List Nat) :=
  ws.map fun w => (w.1, (List.range w.2.length).map fun k =>
    let v := Config.freeRead d.free (w.1 + k) % 256
    if k + 1 = w.2.length then v / 2 ^ pad * 2 ^ pad else v)

/-- End the command at RD with an error code, 0 for none (R427, R431). A failed command has ended too, also where it halts the engine (log 103). -/
def Dev.drawEnd (d : Dev) (e code : Nat) : Dev :=
  let d := d.inc (Reg.DRAW_CMDS e)
  let d := if code = 0 then d
    else ((d.inc (Reg.DRAW_ERRS e)).setF (Reg.DRAW_STATUS e) 16 3 code).drawEvt e 2
  if code ≠ 0 ∧ d.bit (Reg.DRAW_CTRL e) 1 then d.setDraw e { d.drawEng e with halted := true }
  else
    let d := d.wr (Reg.DRAW_Q_RD e) ((d.drawRd e + 1) % 2 ^ 17)
    if d.drawRd e = d.drawWr e then d.drawEvt e 8 else d

/-- Run the next command of engine `e` where it has operation `op`, or where it fails before any write (R426, R427, R431). A
command that cannot be read at all is taken as zeros with error code 5. -/
def Dev.drawExec (d : Dev) (e op : Nat) (f : List Nat → Dev → Nat × Dev) : Dev :=
  if d.drawState e ≠ 2 ∨ d.dataOff then d
  else
    let w := d.drawCmd e
    let o := w.getD 0 0 % 256
    let d := d.bump
    let note := fun (d : Dev) => d.setF (Reg.DRAW_STATUS e) 8 8 o
    if !(d.drawRead (d.drawAt e) 64).2 then (note d).drawEnd e 5
    else
      let bad := drawCheck w
      if bad ≠ 0 then
        let d := if o = 4 then d.wr (Reg.DRAW_SYM_SIZE e) 0 else d
        (note d).drawEnd e bad
      else if o ≠ op then d
      else
        let (code, d) := f w (note d)
        d.drawEnd e code

/-- Perform a drawing job (R431, R439): the error code of its reads and writes, the reads' where both find no target (log 103). -/
def Dev.drawDo (d : Dev) (e : Nat) (meet : Bool) (j : DrawJob) (pad : Nat := 0) : Nat × Dev :=
  let ws := if meet then d.drawBlur pad j.writes else j.writes
  let d := if meet then (d.inc (Reg.DRAW_OVERLAP e)).drawEvt e 4 else d
  let (ok, d) := d.drawWrites ws
  (if !j.readOk then 5 else if !ok then 6 else 0, d)

def Dev.opDrawNop (d : Dev) (e : Nat) : Dev := d.drawExec e 0 fun _ d => (0, d)

def Dev.opFill (d : Dev) (e : Nat) : Dev := d.drawExec e 1 fun w d => d.drawDo e false (d.drawFill e w)

/-- The destination rectangle of a COPY or GLYPH overlaps its source (R430, R439). -/
def Dev.drawMeets (d : Dev) (e : Nat) (w : List Nat) (kx ky : Nat) : Bool :=
  let dst := surfOf w 1
  let src := surfOf w 6
  let (x, y, sw, sh) := d.drawSrc e w
  let turned := tb (w.getD 0 0) 12
  spansMeet (src.spans x y sw sh) (dst.spans dst.x dst.y (kx * if turned then sh else sw) (ky * if turned then sw else sh))

def Dev.opCopy (d : Dev) (e : Nat) : Dev := d.drawExec e 2 fun w d => d.drawDo e (d.drawMeets e w 1 1) (d.drawCopy e w)

def Dev.opGlyph (d : Dev) (e : Nat) : Dev :=
  d.drawExec e 3 fun w d =>
    d.drawDo e (d.drawMeets e w (bits (w.getD 13 0) 0 8 + 1) (bits (w.getD 13 0) 8 8 + 1)) (d.drawGlyph e w)

/-- SYMBOL (R430, R435 to R437). -/
def Dev.opSymbol (d : Dev) (e : Nat) : Dev :=
  d.drawExec e 4 fun w d =>
    let dst := surfOf w 1
    let a := w.getD 6 0 + bits (w.getD 7 0) 0 16 * 2 ^ 32
    let n := bits (w.getD 8 0) 0 8
    let (data, ok) := d.drawRead a n
    let sym := bits (w.getD 11 0) 0 2
    match symbolOf sym (tb (w.getD 11 0) 2) data with
    | .error c => (c, d.wr (Reg.DRAW_SYM_SIZE e) 0)
    | .image rows =>
      let img := quietZone sym (bits (w.getD 11 0) 12 4) rows
      let wid := (img.headD []).length
      let lines := (List.range img.length).map fun y => (dst.base + dst.stride * y, packModules (img.getD y []))
      let meet := spansMeet [(a, n)] (lines.map fun l => (l.1, l.2.length))
      let (code, d) := d.drawDo e meet ⟨lines, ok⟩ ((8 - wid % 8) % 8)
      (code, d.wr (Reg.DRAW_SYM_SIZE e) (if code = 0 then wid + img.length * 2 ^ 16 else 0))

/-- CLIP (R430, R438). -/
def Dev.opClip (d : Dev) (e : Nat) : Dev :=
  d.drawExec e 5 fun w d =>
    let rect := fun n => (bits (w.getD (1 + 2 * n) 0) 0 16, bits (w.getD (1 + 2 * n) 0) 16 16, bits (w.getD (2 + 2 * n) 0) 0 16,
      bits (w.getD (2 + 2 * n) 0) 16 16)
    (0, d.setDraw e { d.drawEng e with clips := (List.range 4).map rect, excl := bits (w.getD 9 0) 0 4 })

/-- SIGNAL (R430). -/
def Dev.opSignal (d : Dev) (e : Nat) : Dev :=
  d.drawExec e 6 fun w d =>
    let a := (w.getD 1 0 + bits (w.getD 2 0) 0 16 * 2 ^ 32) / 4 * 4
    let (ok, d) := d.drawWrites [(a, leBytes 4 (w.getD 3 0))]
    (if ok then 0 else 6, if tb (w.getD 11 0) 0 then d.drawEvt e 1 else d)

/-- A write of RESUME (R431, R442). -/
def Dev.drawResume (d : Dev) (e : Nat) : Dev :=
  if !(d.drawEng e).halted then d
  else
    let d := (d.setDraw e { d.drawEng e with halted := false }).wr (Reg.DRAW_Q_RD e) ((d.drawRd e + 1) % 2 ^ 17)
    if d.drawRd e = d.drawWr e then d.drawEvt e 8 else d

/-- A write of DRAW_CTRL (R438, R442). -/
def Dev.drawCtrl (d : Dev) (e v : Nat) : Dev :=
  let d := d.wr (Reg.DRAW_CTRL e) (v % 4)
  let d := if v % 2 = 0 then d.setDraw e { d.drawEng e with clips := [], excl := 0 } else d
  if tb v 2 then d.drawResume e else d

/-- A write of DRAW_Q_BASE or DRAW_Q_CFG, ignored unless the engine is STOPPED (R426). -/
def Dev.drawQCfg (d : Dev) (e : Nat) (f : Dev → Dev) : Dev := if d.drawState e = 0 then f d else d

/-- DRAW_STATUS[e] (R442). -/
def Dev.drawStatus (d : Dev) (e : Nat) : Nat := putBits (d.rd (Reg.DRAW_STATUS e)) 0 2 (d.drawState e)

end Sys2Proof.Machine
end

