-- ==== Sys2Proof/Machine/Audio.lean ====
section
/-! DEFINITION. Audio: rate domains, TDM ports, the crosspoint, banks, voices, domain B and order analysis (18, R462 to R480). -/
namespace Sys2Proof.Machine

def Dev.audEvt (d : Dev) (m : Nat) : Dev := d.evt 304 m

def Dev.audDom (d : Dev) (k : Nat) : AudDom := tget d.aud.doms k

def Dev.setAudDom (d : Dev) (k : Nat) (q : AudDom) : Dev := { d with aud := { d.aud with doms := tput d.aud.doms k q } }

def Dev.voice (d : Dev) (v : Nat) : Voice := tget d.aud.voices v

def Dev.setVoice (d : Dev) (v : Nat) (q : Voice) : Dev := { d with aud := { d.aud with voices := tput d.aud.voices v q } }

/-- SLOTS of a TDM configuration, and the bits of a slot; none for the invalid WIDTH (R464, R479). -/
def tdmSlots (c : Nat) : Nat := bits c 24 4 + 1

def tdmWidth (c : Nat) : Option Nat := [16, 24, 32][bits c 22 2]?

/-- Sample rate of domain A (0) or V (1) (R462). -/
def domRate (k : Nat) : Nat := if k = 0 then 48000 else 384000

/-- A TDM port's configuration is valid (R465). -/
def tdmValid (c : Nat) : Bool :=
  match tdmWidth c with
  | none => false
  | some w => decide (domRate (bits c 30 1) * tdmSlots c * w ≤ 49152000)

/-- Where an input's sample comes from, with its domain, or nothing (R466). -/
inductive AudSrc | none | tdm (p s : Nat) | voice (v : Nat) | asrc (b : Nat) | resamp (b : Nat)
deriving DecidableEq, Repr

/-- Word `w` of voice `v` in bank `k` (R480). -/
def Dev.voiceWord (d : Dev) (k v w : Nat) : Nat := d.rd (Reg.AUD_VOICE k v w)

/-- The source of input `i` in bank `k` with its domain (0 A, 1 V, 2 B), and whether the code is bad (R466). -/
def Dev.audSrc (d : Dev) (k i : Nat) : AudSrc × Nat × Bool :=
  let c := d.fld (Reg.AUD_IN_SRC k i) 0 8
  if c = 0 then (.none, 3, false)
  else if c ≤ 0x40 then
    let p := (c - 1) / 16
    let s := (c - 1) % 16
    let g := d.rd (Reg.AUD_TDMI_CFG p)
    if s < tdmSlots g then (.tdm p s, bits g 30 1, false) else (.none, 3, true)
  else if c ≤ 0x60 then (.voice (c - 0x41), bits (d.voiceWord k (c - 0x41) 0) 6 1, false)
  else if c ≤ 0x68 then (.asrc (c - 0x61), 1, false)
  else if c ≤ 0x70 then (.resamp (c - 0x69), 2, false)
  else (.none, 3, true)

/-- Domain of the sink of output `o` in bank `k`, 3 for none, and whether the code is bad (R466). -/
def Dev.audSink (d : Dev) (k o : Nat) : Nat × Bool :=
  let c := d.fld (Reg.AUD_OUT_DST k o) 0 8
  if c = 0 then (3, false)
  else if c ≤ 0x40 then
    let g := d.rd (Reg.AUD_TDMO_CFG ((c - 1) / 16))
    if (c - 1) % 16 < tdmSlots g then (bits g 30 1, false) else (3, true)
  else if c ≤ 0x48 then (0, false)
  else if c ≤ 0x50 then (1, false)
  else if c ≤ 0x58 then (2, false)
  else (3, true)

/-- Gain of a node, signed Q3.12 (R467). -/
def Dev.audGain (d : Dev) (k i o : Nat) : Int :=
  let n := 48 * i + o
  sx 16 (d.fld (Reg.AUD_GAIN k (n / 2)) (16 * (n % 2)) 16)

/-- The output that drives the sink of code `c`: the lowest-numbered that names it (R466). -/
def Dev.audDriver (d : Dev) (k c : Nat) : Option Nat := (List.range 48).find? fun o => d.fld (Reg.AUD_OUT_DST k o) 0 8 == c

/-- Event bits that bank `k` shows when it takes effect (R465 to R467): 0x800 BAD_CFG, 0x400 NODE_DOM, 0x200 DUP_SINK. -/
def Dev.audCheck (d : Dev) (k : Nat) : Nat :=
  let badIn := (List.range 96).any fun i => (d.audSrc k i).2.2
  let badOut := (List.range 48).any fun o => (d.audSink k o).2
  let badPort := (List.range 4).any fun p =>
    (d.bit (Reg.AUD_TDMI_CFG p) 31 && !tdmValid (d.rd (Reg.AUD_TDMI_CFG p))) || (d.bit (Reg.AUD_TDMO_CFG p) 31 && !tdmValid (d.rd (Reg.AUD_TDMO_CFG p)))
  let dup := (List.range 48).any fun o =>
    let c := d.fld (Reg.AUD_OUT_DST k o) 0 8
    (d.audSink k o).1 != 3 && d.audDriver k c != some o
  let cross := (List.range 96).any fun i => (List.range 48).any fun o =>
    let a := (d.audSrc k i).2.1
    let b := (d.audSink k o).1
    d.audGain k i o != 0 && a != 3 && b != 3 && a != b
  (if badIn || badOut || badPort then 0x800 else 0) + (if cross then 0x400 else 0) + (if dup then 0x200 else 0)

/-- Set the event bits of a configuration that takes effect. -/
def Dev.audNote (d : Dev) (k : Nat) (nodes : Bool) : Dev :=
  let m := d.audCheck k
  let m := if nodes then m else clearMask m 0x400
  if m = 0 then d else d.audEvt m

/-- The audio subsystem runs in a domain now (R478). -/
def Dev.audOn (d : Dev) (dom : Nat) : Bool :=
  d.bit Reg.AUD_CTRL 31 && !d.cloche && d.domOn 36 && (d.fld Reg.PWR_STATE 0 3 != 2 || (dom == 0 && d.bit Reg.AUD_CTRL 30))

/-- Linear interpolation a + (b − a) × f / n, where the rounding is a free value of one unit (log 29). -/
def Dev.lerp (d : Dev) (a b : Int) (f n : Nat) : Int × Dev :=
  let p := (b - a) * f
  if p % n = 0 then (a + p / n, d)
  else
    let (x, d) := d.fresh 1
    (a + p / n + (x : Int), d)

/-- 2π in units of 2^-128. -/
def twoPi : Int := 2138057168129933495719360746323741566601

/-- cos(2π n / N) in units of 2^-128 by its series (log 25). -/
def cosSeries (x2 : Int) : Nat → Int → Nat → Int
  | 0, _, _ => 0
  | m + 1, term, k => term + cosSeries x2 m (-(term * x2 / 2 ^ 128) / (((2 * k + 1) * (2 * k + 2) : Nat) : Int)) (k + 1)

def cosTab (n nn : Nat) : Int :=
  let x := twoPi * (n % nn : Nat) / nn
  cosSeries (x * x / 2 ^ 128) 50 (2 ^ 128) 0

/-- sin(2π n / 1,024) of the voice table: round(32,767 × sin), (R470). -/
def sineTab (n : Nat) : Int := roundDiv (32767 * cosTab (n + 768) 1024) (2 ^ 128)

/-- Signed 16-bit sample at an address, or none where it has no target. -/
def Dev.pcm (d : Dev) (a : Nat) : Option Int := if d.hasRange a 2 then some (sx 16 (leNum (d.memRead a 2))) else none

/-- The wave value of a voice for this frame (R470). Where the rules give no formula it is a free value (log 29). -/
def Dev.waveOf (d : Dev) (k v : Nat) (q : Voice) : Option Int × Dev :=
  let w0 := d.voiceWord k v 0
  let a := d.voiceWord k v 5 + bits (d.voiceWord k v 6) 0 16 * 2 ^ 32
  let free := fun (d : Dev) => let (x, d) := d.fresh 16; (some (sx 16 x), d)
  match bits w0 0 3 with
  | 0 =>
    match bits w0 3 3 with
    | 0 => (some (if bits q.phase 24 8 < bits w0 8 8 then 32767 else -32767), d)
    | 2 =>
      let i := bits q.phase 22 10
      let (x, d) := d.lerp (sineTab i) (sineTab (i + 1)) (bits q.phase 0 22) (2 ^ 22)
      (some x, d)
    | _ => free d
  | 1 => (some (sx 16 (bits q.noise 7 16)), d)
  | 2 =>
    let i := bits q.phase 24 8
    match d.pcm (a + 2 * i), d.pcm (a + 2 * ((i + 1) % 256)) with
    | some x, some y => let (z, d) := d.lerp x y (bits q.phase 0 24) (2 ^ 24); (some z, d)
    | _, _ => (none, d)
  | 3 => (d.pcm (a + 2 * (q.pos / 65536)), d)
  | _ => free d

/-- INC of a voice (R471). -/
def Dev.voiceInc (d : Dev) (k v : Nat) : Nat :=
  let w0 := d.voiceWord k v 0
  let f := d.voiceWord k v 1
  if tb w0 7 && bits w0 0 3 != 3 then
    let b := d.fld Reg.AUD_B_CFG 0 3
    let vel := if (tget d.beams b).mode = .run then (tget d.est b).last.vel.natAbs else 0
    tw 32 (roundDiv (sx 32 f * vel) (domRate (bits w0 6 1)))
  else f

/-- One envelope step (R472). -/
def envStep (w3 w4 : Nat) (q : Voice) : Voice :=
  let top := 65535 * 256
  let sus := bits w4 0 16 * 256
  match q.st with
  | 1 =>
    let r := bits w3 0 16
    let e := if r = 0 then top else min top (q.env + r)
    { q with env := e, st := if e = top then 2 else 1 }
  | 2 =>
    let r := bits w3 16 16
    let e := if r = 0 then sus else max sus (q.env - r)
    { q with env := e, st := if e ≤ sus then 3 else 2 }
  | 3 => { q with env := sus }
  | 4 =>
    let r := bits w4 16 16
    let e := if r = 0 then 0 else q.env - r
    { q with env := e, st := if e = 0 then 0 else 4 }
  | _ => q

/-- One frame of a voice: its output, and the voice after it (R470, R472). -/
def Dev.voiceFrame (d : Dev) (k v : Nat) : Int × Dev :=
  let q := d.voice v
  if q.st = 0 then (0, d)
  else
    let w0 := d.voiceWord k v 0
    let (w, d) := d.waveOf k v q
    let d := match w with | some _ => d | none => (d.inc Reg.AUD_VOICE_UR).audEvt 128
    let w := w.getD q.last
    let out := w * (q.env / 256 : Nat) * (min 32768 (bits (d.voiceWord k v 2) 0 16) : Nat) / 2 ^ 23
    let inc := d.voiceInc k v
    let wrap := 2 ^ 32 ≤ q.phase + inc
    let (nz, d) := if bits w0 0 3 = 1 ∧ wrap then d.fresh 23 else (q.noise, d)
    let w7 := d.voiceWord k v 7
    let len := bits w7 0 24 * 65536
    let pos := q.pos + inc
    let ended := bits w0 0 3 = 3 ∧ len ≤ pos
    let q := envStep (d.voiceWord k v 3) (d.voiceWord k v 4) { q with
      phase := (q.phase + inc) % 2 ^ 32, noise := nz, last := w,
      pos := if bits w0 0 3 = 3 then (if ended then 0 else pos) else q.pos }
    (out, d.setVoice v (if ended && !tb w7 31 then { q with st := 0, env := 0 } else q))

/-- Every voice of a domain makes its sample; by voice number. -/
def Dev.voicesFrame (d : Dev) (k dom : Nat) : Tab Int × Dev :=
  (List.range 32).foldl (fun s v =>
    if bits (s.2.voiceWord k v 0) 6 1 = dom then
      let (x, d) := s.2.voiceFrame k v
      (tput s.1 v x, d)
    else s) ([], d)

/-- The frame that a TDM input takes for a sample period (R465). -/
def Dev.tdmTake (d : Dev) (p : Nat) : Dev :=
  let q := tget d.aud.tdm p
  let c := d.rd (Reg.AUD_TDMI_CFG p)
  let lockR := if tb c 30 then Reg.AUD_DOM_V else Reg.AUD_DOM_A
  let lockPort := d.bit lockR 31 && d.fld lockR 0 2 == p
  match q.buf with
  | s :: t => { d with aud := { d.aud with tdm := tput d.aud.tdm p { buf := t, cur := s } } }
  | [] => if tb c 31 && !tb c 29 && !lockPort then (d.inc Reg.AUD_SLIP).audEvt 2 else d

/-- Value of an input in this frame (R466). The outputs of the rate converters are free values (log 29). -/
def Dev.audIn (d : Dev) (k i dom : Nat) (vs : Tab Int) : Int :=
  let (s, dm, _) := d.audSrc k i
  if dm ≠ dom then 0
  else match s with
    | .none => 0
    | .tdm p s => (tget d.aud.tdm p).cur.getD s 0
    | .voice v => tget vs v
    | .asrc b => sx 24 (Config.freeRead d.free b)
    | .resamp b => sx 24 (Config.freeRead d.free (8 + b))

/-- The clamp of R467, with whether it changed the sum. -/
def audClamp (acc : Int) : Int × Bool :=
  let y := (acc + 2048) / 4096
  let z := clampI (-(2 ^ 23)) (2 ^ 23 - 1) y
  (z, z != y)

/-- Output `o` of a domain under bank `k` (R467). -/
def Dev.audOut (d : Dev) (k o dom : Nat) (xs : List Int) : Int × Bool :=
  if (d.audSink k o).1 ≠ dom then (0, false)
  else audClamp (((xs.zipIdx).map fun p => d.audGain k p.2 o * p.1).sum)

/-- The slots that a TDM output port sends for one frame, each of WIDTH bits with the sample word first (R464). -/
def Dev.tdmWords (d : Dev) (p k : Nat) (out : Tab Int) : List Nat :=
  let c := d.rd (Reg.AUD_TDMO_CFG p)
  let w := (tdmWidth c).getD 32
  (List.range (tdmSlots c)).map fun s =>
    let y := match d.audDriver k (1 + 16 * p + s) with | some o => tget out o | none => 0
    if tb c 21 then tw 24 y * 2 ^ w / 2 ^ 24 else tw 16 (y / 256) * 2 ^ w / 2 ^ 16

/-- Level of the frame sync that a master drives during each bit clock of a frame, from the first bit of slot 0 (R464): one clock or half the frame
wide, one clock ahead of slot 0 with DELAY, falling at the start with FSPOL. -/
def tdmSync (c : Nat) : List Bool :=
  let n := tdmSlots c * (tdmWidth c).getD 32
  (List.range n).map fun i => decide ((i + bits c 19 1) % n < if tb c 20 then n / 2 else 1) != tb c 17

/-- The bits of a frame's slots in the order they are sent (R464). -/
def tdmBits (c : Nat) (slots : List Nat) : List Bool :=
  let w := (tdmWidth c).getD 32
  slots.flatMap fun x => (List.range w).map fun i => tb x (w - 1 - i)

/-- Send the frames of a domain's TDM outputs: what was computed one frame before (R463). A slave drives the data only; with EDGE the data changes on the
rising bit-clock edge. -/
def Dev.tdmSend (d : Dev) (dom : Nat) : Dev :=
  let q := d.audDom dom
  forN 4 (fun p d =>
    let c := d.rd (Reg.AUD_TDMO_CFG p)
    if tb c 31 && bits c 30 1 == dom && tdmValid c then
      let ws := d.tdmWords p q.sel q.out
      d.emit (.tdm p ws (if tb c 29 then tdmSync c else []) (tdmBits c ws) (tb c 18))
    else d) d

/-- Make a domain's pending swap (R468, R469). -/
def Dev.audSwap (d : Dev) (dom : Nat) : Dev :=
  let q := d.audDom dom
  match q.swap with
  | none => d
  | some (sel, t) =>
    if d.lt < t then d
    else
      let d := if q.ramp.isSome then d.audEvt 256 else d
      let n := d.fld Reg.AUD_CTRL 0 12
      (d.setAudDom dom { q with sel := sel, swap := none, ramp := if n = 0 then none else some (q.sel, 0, n) }).audNote sel true

/-- The crosspoint of one domain for one frame (R467, R469). -/
def Dev.audCross (d : Dev) (dom : Nat) : Dev :=
  let q := d.audDom dom
  let (vs, d) := if dom < 2 then d.voicesFrame q.sel dom else ([], d)
  let xsOf := fun k => (List.range 96).map fun i => d.audIn k i dom vs
  let xs := xsOf q.sel
  let old := match q.ramp with | some (k, j, n) => some (k, xsOf k, j, n) | none => none
  let one := fun o =>
    let (y, c) := d.audOut q.sel o dom xs
    match old with
    | none => (y, b2n c)
    | some (k, ox, j, n) =>
      let (z, c') := d.audOut k o dom ox
      (z + (y - z) * j / n, b2n c + b2n c')
  let all := (List.range 48).map fun o => (o, one o)
  let clips := (all.map fun x => x.2.2).sum
  let out : Tab Int := all.foldl (fun t x => tput t x.1 x.2.1) []
  let ramp := match q.ramp with | some (k, j, n) => if j + 1 < n then some (k, j + 1, n) else none | none => none
  let d := (d.setAudDom dom { q with out := out, ramp := ramp }).bump
  if clips = 0 then d else (d.addSat Reg.AUD_CLIP clips).audEvt 1

/-- Samples of a segment (R475), none for an invalid channel configuration. -/
def Dev.oaNs (d : Dev) (c : Nat) : Option (Nat × Nat) :=
  let g := d.rd (Reg.AUD_OA_CFG c)
  let segf := if bits g 20 12 = 0 then 4096 else bits g 20 12
  let spf := max 1 (d.fld Reg.AUD_B_CFG 8 6)
  let ns := 64 * 2 ^ bits g 2 3
  let fpf := d.fpf (d.fld Reg.AUD_B_CFG 0 3)
  if bits g 2 3 ≤ 4 ∧ spf * segf = ns ∧ fpf % segf = 0 ∧ fpf / segf ≤ 64 then some (ns, fpf / segf) else none

def Dev.oaOn (d : Dev) (c : Nat) : Bool := let m := d.fld (Reg.AUD_OA_CFG c) 0 2; m == 1 || m == 2

def Dev.oa (d : Dev) (c : Nat) : OaChan := tget d.aud.oa c

def Dev.setOa (d : Dev) (c : Nat) (q : OaChan) : Dev := { d with aud := { d.aud with oa := tput d.aud.oa c q } }

/-- A finding key's outcome of one field (R477): whether it exceeded. Says whether a finding is raised, with the count. -/
def Dev.oaOutcome (d : Dev) (c s b : Nat) (hit : Bool) : Bool × Nat × Dev :=
  let q := d.oa c
  let key := 16 * s + b
  let h := (2 * tget q.hist key + b2n hit) % 256
  let n := ((List.range 8).filter fun i => tb h i).length
  let m := d.fld (Reg.AUD_OA_CFG c) 8 4
  let m := if m = 0 ∨ 8 < m then 8 else m
  let was := tget q.raised key
  let now := decide (m ≤ n)
  (now && !was, n, d.setOa c { q with hist := tput q.hist key h, raised := tput q.raised key now })

/-- A dropped segment (R476). -/
def Dev.oaDrop (d : Dev) (c s : Nat) : Dev :=
  let d := (d.inc Reg.AUD_SEG_DROP).audEvt 32
  if d.fld (Reg.AUD_OA_CFG c) 0 2 = 2 then forN 16 (fun b d => (d.oaOutcome c s b false).2.2) d else d

/-- Segments from `s` on up to `cs` of a channel whose samples were not all taken are dropped (R474, R476). More than 8 fields of them leave the same
outcomes as 8. -/
def Dev.oaGap (d : Dev) (c segs total s cs : Nat) : Dev :=
  let k := (cs + total - s) % total
  let m := min k (8 * segs)
  (forN m (fun i d => d.oaDrop c ((s + i) % segs)) d).addSat Reg.AUD_SEG_DROP (k - m)

/-- A B sample reaches an order-analysis channel: sample number `j` since the beam's origin, in field `f`, of `total` in all (R475, R476). -/
def Dev.oaSample (d : Dev) (c j f total : Nat) (y : Int) : Dev :=
  match d.oaNs c with
  | none => d
  | some (ns, segs) =>
    if !d.oaOn c then d
    else
      let n := j % ns
      let cs := j / ns
      let last := (d.oa c).seg.getD cs
      let d := if last = cs then d else d.oaGap c segs (total / ns) last cs
      let q := d.oa c
      let q := if n = 0 || last != cs then { q with seg := some cs, cur := [y], bad := n != 0 }
        else { q with seg := some cs, cur := q.cur ++ [y], bad := q.bad || q.cur.length != n }
      if n + 1 < ns then d.setOa c q
      else
        let s := cs % segs
        let fin := { q with seg := some ((cs + 1) % (total / ns)), cur := [], bad := false }
        if q.done.isSome then (d.setOa c fin).oaDrop c s
        else d.setOa c { fin with done := some (s, f, q.cur, q.bad) }

/-- Domain B takes samples now (R474). -/
def Dev.bRuns (d : Dev) : Bool :=
  let b := d.fld Reg.AUD_B_CFG 0 3
  let s := tget d.beams b
  let e := tget d.est b
  d.bit Reg.AUD_B_CFG 31 && s.mode == .run && !s.rev && e.got && decide (d.lt ≤ e.last.lt + 2000) && decide (0 ≤ e.last.vel)

/-- One frame of domain B: the next L_j ahead of the frontier, if the estimate has reached it (R473, R474). -/
def Dev.bFrame (d : Dev) : Dev :=
  let b := d.fld Reg.AUD_B_CFG 0 3
  let fpf := d.fpf b
  let spf := max 1 (d.fld Reg.AUD_B_CFG 8 6)
  let now := d.estAt 0 b d.lt
  let setF := fun (d : Dev) (x : Int) => { d with aud := { d.aud with front := some x } }
  let front := d.aud.front.getD now
  let u : Int := 4096 * 2 ^ 32
  let moved := distL fpf front now
  if !d.bRuns then (if 0 < moved then setF d now else setF d front)
  else
    let j := front * spf / u + 1
    let need := j * u - front * spf
    if moved * spf < need then setF d front
    else
      let d := setF d ((front + (need + spf - 1) / spf) % modL fpf)
      let fast := match d.aud.lastB with | some t => decide (d.lt < t + 2604) | none => false
      if fast then (d.inc Reg.AUD_B_OVR).audEvt 16
      else
        let d := { d with aud := { d.aud with lastB := some d.lt } }
        let d := (d.audSwap 2).audCross 2
        let q := d.audDom 2
        let total := 2 ^ 24 * fpf * spf
        let jn := (j % (total : Nat)).toNat
        forN 8 (fun c d =>
          let y := match d.audDriver q.sel (0x51 + c) with | some o => tget q.out o | none => 0
          d.oaSample c jn (jn / (fpf * spf)) total y) d

/-- AUDIO_FRAME (R463, R467): one frame of domain A (0), V (1) or B (2). -/
def Dev.audioFrame (d : Dev) (dom : Nat) : Dev :=
  if !d.audOn dom then d
  else if dom = 2 then d.bFrame
  else
    let d := (d.audSwap dom).tdmSend dom
    let d := forN 4 (fun p d => if d.fld (Reg.AUD_TDMI_CFG p) 30 1 = dom then d.tdmTake p else d) d
    d.audCross dom

/-- TDM_FRAME (R464, R465): the slots of an input frame, WIDTH bits each with the sample word first, and its bit-clock count. A 24-bit word in a 16-bit
slot has its low 8 bits 0, as the slots of 16 bits hold no more (log 107). -/
def Dev.tdmFrame (d : Dev) (p clocks : Nat) (words : List Nat) : Dev :=
  let c := d.rd (Reg.AUD_TDMI_CFG p)
  let dom := bits c 30 1
  if !d.audOn dom || !tb c 31 || !tdmValid c then d
  else
    let q := tget d.aud.tdm p
    let bad := !tb c 29 && clocks != tdmSlots c * (tdmWidth c).getD 32
    let width := (tdmWidth c).getD 32
    let one := fun w => if tb c 21 then sx 24 (w * 2 ^ 24 / 2 ^ width) else sx 16 (w * 2 ^ 16 / 2 ^ width) * 256
    let new := if bad then (q.buf.getLast?.getD q.cur) else (words.take (tdmSlots c)).map one
    let d := if bad then (d.inc Reg.AUD_FRAME_ERR).audEvt 4 else d
    let lockR := if dom = 1 then Reg.AUD_DOM_V else Reg.AUD_DOM_A
    let mine := d.bit lockR 31 && d.fld lockR 0 2 == p
    let d := if mine then d.setAudDom dom { d.audDom dom with locked := true } else d
    if 4 ≤ q.buf.length then (if mine then d else (d.inc Reg.AUD_SLIP).audEvt 2)
    else { d with aud := { d.aud with tdm := tput d.aud.tdm p { q with buf := q.buf ++ [new] } } }

/-- UNLOCK (R462). -/
def Dev.audUnlock (d : Dev) (dom : Nat) : Dev :=
  let q := d.audDom dom
  if q.locked then (d.setAudDom dom { q with locked := false }).audEvt 8 else d

/-- AUD_KEY_ON (R472). -/
def Dev.keyOn (d : Dev) (m : Nat) : Dev :=
  forN 32 (fun v d => if tb m v then d.setVoice v { d.voice v with st := 1, phase := 0, pos := 0 } else d) d

/-- AUD_KEY_OFF (R472). -/
def Dev.keyOff (d : Dev) (m : Nat) : Dev :=
  forN 32 (fun v d => if tb m v && (d.voice v).st != 0 then d.setVoice v { d.voice v with st := 4 } else d) d

/-- Power of bin k of a windowed segment, in units of 2^-512 (R475). -/
def binPower (xs : List Int) (k : Nat) : Nat :=
  let n := xs.length
  let w := (xs.zipIdx).map fun p => p.1 * ((2 ^ 128 - cosTab p.2 n) / 2)
  let re := ((w.zipIdx).map fun p => p.1 * cosTab (k * p.2) n).sum
  let im := ((w.zipIdx).map fun p => p.1 * cosTab (k * p.2 + 3 * n / 4) n).sum
  (re * re + im * im).toNat

/-- Band energy: min(65,535, floor(256 × log2(1 + sum of powers))) (R475). -/
def bandEnergy (xs : List Int) (lo hi : Nat) : Nat :=
  let s := ((List.range (hi + 1 - lo)).map fun i => binPower xs (lo + i)).sum
  let one := (2 ^ 256) ^ 2
  min 65535 (bmax 17 fun e => decide (2 ^ e * one ^ 256 ≤ (one + s) ^ 256))

/-- Raise a finding (R477, R572): AUD_FIND, the HEALTH copy and the ACOUSTIC_FINDING alarm. -/
def Dev.finding (d : Dev) (field mu e n b s c : Nat) : Dev :=
  let v := field % 65536 * 2 ^ 48 + mu * 2 ^ 32 + e * 2 ^ 16 + (n - 1) * 2 ^ 13 + b * 2 ^ 9 + s * 2 ^ 3 + c
  let d := ((d.wr Reg.AUD_FIND v).inc Reg.AUD_FIND_CNT).audEvt 64
  ((d.wr Reg.HEALTH_FIND v).evt 451 64).alarm 0x14 (v % 2 ^ 13)

/-- ORDER_ANALYSIS_SEGMENT (R475 to R477): the completed segment of a channel. -/
def Dev.orderSegment (d : Dev) (c : Nat) : Dev :=
  let q := d.oa c
  match q.done with
  | none => d
  | some (s, f, xs, bad) =>
    let d := d.setOa c { q with done := none }
    if bad then d.oaDrop c s
    else
      let g := d.rd (Reg.AUD_OA_CFG c)
      forN 16 (fun b d =>
        let band := d.rd (Reg.AUD_OA_BAND b)
        let e := bandEnergy xs (bits band 0 10) (bits band 16 10)
        let a := d.fld Reg.AUD_OA_BASE 12 36 * 4096 + 4096 * c + 4 * (16 * s + b)
        let w := d.engNum a 4
        let d := d.bump
        let mu : Int := (bits w 0 16 : Nat)
        let de : Int := (bits w 16 16 : Nat)
        if bits g 0 2 = 1 then
          let sh := 2 ^ (bits g 5 3 + 1)
          let mu' := mu + ((e : Int) - mu) / sh
          let de' := de + ((((e : Int) - mu').natAbs : Nat) - de) / sh
          d.engineWrite a (leBytes 2 (tw 16 mu') ++ leBytes 2 (tw 16 de'))
        else if bits g 0 2 = 2 then
          let hit := decide (mu + (bits g 12 8 * max de.toNat 64 / 16 : Nat) < e)
          let (raise, n, d) := d.oaOutcome c s b hit
          if raise then d.finding f mu.toNat e n b s c else d
        else d) d

/-- A commit changed AUD_BANK.SEL: each domain swaps at its own frame, domain B at once when it takes no samples (R468). -/
def Dev.audSelChanged (d : Dev) (t : Nat) : Dev :=
  let sel := d.fld Reg.AUD_BANK 0 1
  let put := fun (d : Dev) k => d.setAudDom k { d.audDom k with swap := some (sel, t) }
  let d := put (put (put d 0) 1) 2
  if d.bRuns then d else d.audSwap 2

/-- A commit changed other AUD registers `ch` (R462, R465, R473, R476): configuration checks, the locks that it takes away, domain B anew, and the
segment of each order-analysis channel whose configuration it changed. -/
def Dev.audChanged (d : Dev) (ch : List Nat) : Dev :=
  let unlock := fun (d : Dev) (dom r : Nat) => if ch.contains r then d.setAudDom dom { d.audDom dom with locked := false } else d
  let d := unlock (unlock d 0 Reg.AUD_DOM_A) 1 Reg.AUD_DOM_V
  let anew := ch.contains Reg.AUD_B_CFG
  let d := if anew then { d with aud := { d.aud with front := none, lastB := none } } else d
  let band := ch.any fun k => decide (Reg.AUD_OA_BAND 0 ≤ k) && decide (k ≤ Reg.AUD_OA_BAND 15)
  let d := forN 8 (fun c d =>
    let q := d.oa c
    if anew then d.setOa c { q with seg := none, cur := [], bad := false }
    else if band || ch.contains (Reg.AUD_OA_CFG c) then d.setOa c { q with bad := true }
    else d) d
  let bad := (List.range 8).any fun c => d.oaOn c && (d.oaNs c).isNone
  let d := d.audNote (d.audDom 0).sel false
  if bad then d.audEvt 0x800 else d

/-- A code of bank `k` was written while the bank is in use (R466, R468). -/
def Dev.audCode (d : Dev) (k : Nat) : Dev :=
  if (List.range 3).any fun m => (d.audDom m).sel == k then d.audNote k false else d

/-- AUD_STATUS (R479). -/
def Dev.audStatus (d : Dev) : Nat :=
  let a := d.audDom 0
  let ramping := (List.range 3).any fun k => (d.audDom k).ramp.isSome
  b2n (a.locked && d.bit Reg.AUD_DOM_A 31) + b2n ((d.audDom 1).locked && d.bit Reg.AUD_DOM_V 31) * 2 + b2n ramping * 4 + a.sel * 8 + b2n d.bRuns * 16

/-- AUD_VOICE_ACT (R479). -/
def Dev.voiceAct (d : Dev) : Nat := (List.range 32).foldl (fun a v => a + (if (d.voice v).st = 0 then 0 else 2 ^ v)) 0

end Sys2Proof.Machine
end

