-- ==== Sys2Proof/Machine/Dma.lean ====
section
/-! DEFINITION. The memory controller and the DMA engines' channels (19, R484 to R492, R495 to R500). -/
namespace Sys2Proof.Machine

/-- Base of the registers of DMA engine `e`: 0 DMAB, 1 and 2 the engines of DMAI (R489, R500). -/
def dmaBase (e : Nat) : Nat := if e = 0 then 0x300000A0000 else 0x30100070000 + (e - 1) * 0x1000

/-- Register at offset `o` of channel `c` (R500). -/
def dmaCh (e c o : Nat) : Nat := dmaBase e + 0x40 * c + o

/-- The engine's source id (R489) and its interrupt source. -/
def dmaSrc (e : Nat) : Nat := 26 + e

def dmaIrq (e : Nat) : Nat := if e = 0 then 305 else 425 + e

def Dev.dmaEng (d : Dev) (e : Nat) : DmaEng := tget d.dma e

def Dev.setDma (d : Dev) (e : Nat) (q : DmaEng) : Dev := { d with dma := tput d.dma e q }

/-- Ring size exponent of a channel (R500). -/
def Dev.dmaK (d : Dev) (e c : Nat) : Nat := clampN 4 16 (d.fld (dmaCh e c 0) 16 5)

/-- Descriptors in a channel's ring (R490). -/
def Dev.dmaHeld (d : Dev) (e c : Nat) : Nat :=
  (d.rd (dmaCh e c 0x10) % 2 ^ 17 + 2 ^ 17 - d.rd (dmaCh e c 0x14) % 2 ^ 17) % 2 ^ 17

/-- DMA_CH_WR: a write of WR that would overfill the ring is ignored (R490). -/
def Dev.dmaChWr (d : Dev) (e c v : Nat) : Dev :=
  let n := (v % 2 ^ 17 + 2 ^ 17 - d.rd (dmaCh e c 0x14) % 2 ^ 17) % 2 ^ 17
  if 2 ^ d.dmaK e c < n then d else d.wr (dmaCh e c 0x10) (v % 2 ^ 17)

/-- RESUME (R496). -/
def Dev.dmaResume (d : Dev) (e c : Nat) : Dev :=
  let q := d.dmaEng e
  d.setDma e { q with halted := q.halted.filter (· != c) }

/-- A channel is ready (R490). -/
def Dev.dmaReady (d : Dev) (e c : Nat) : Bool :=
  let cfg := d.rd (dmaCh e c 0)
  let q := d.dmaEng e
  tb cfg 31 && !q.halted.contains c && d.dmaHeld e c != 0 && (!tb cfg 27 || q.credit.contains c)

/-- A tick boundary grants each channel its credit (R490). -/
def Dev.dmaTick (d : Dev) : Dev := forN 3 (fun e d => d.setDma e { d.dmaEng e with credit := List.range 16 }) d

/-- The channel that the engine selects: lowest PRI, then the first after the one served last (R491). -/
def Dev.dmaSelect (d : Dev) (e : Nat) : Option Nat :=
  let order := (List.range 16).map fun i => ((d.dmaEng e).last + i) % 16
  let ready := order.filter fun c => d.dmaReady e c
  (List.range 4).findSome? fun p => ready.find? fun c => d.fld (dmaCh e c 0) 28 2 == p

/-- CH_STATUS (R500): STATE and the last CODE. -/
def Dev.dmaStatus (d : Dev) (e c : Nat) : Nat :=
  let q := d.dmaEng e
  let run := match q.busy with | some (b, _) => b == c | none => false
  let st := if run then 2 else if q.halted.contains c then 3 else b2n (d.bit (dmaCh e c 0) 31)
  st + d.fld (dmaCh e c 0x18) 4 4 * 16

/-- Words of the channel's next descriptor (R490, R492); a ring without a target reads as 0 (R482, R496). -/
def Dev.dmaDesc (d : Dev) (e c : Nat) : List Nat :=
  let k := d.dmaK e c
  let a := d.fld (dmaCh e c 8) 0 48 / 2 ^ (5 + k) * 2 ^ (5 + k) + 32 * (d.rd (dmaCh e c 0x14) % 2 ^ k)
  if d.hasRange a 32 then (List.range 8).map fun w => leNum (d.memRead (a + 4 * w) 4) else List.replicate 8 0

/-- Field of two descriptor words. -/
def dmaAddr (ws : List Nat) (i : Nat) : Nat := (ws.getD i 0 + ws.getD (i + 1) 0 * 2 ^ 32) % 2 ^ 48

/-- Address of byte `j` of a range (R493). -/
def wrapAddr (base : Nat) (fix : Bool) (k j : Nat) : Nat :=
  if fix then base else if k = 0 then base + j else base / 2 ^ k * 2 ^ k + (base + j) % 2 ^ k

def dmaFrom (ws : List Nat) (j : Nat) : Nat := wrapAddr (dmaAddr ws 2) (tb (ws.getD 0 0) 4) (bits (ws.getD 0 0) 8 5) j

def dmaTo (ws : List Nat) (j : Nat) : Nat := wrapAddr (dmaAddr ws 4) (tb (ws.getD 0 0) 5) (bits (ws.getD 0 0) 16 5) j

/-- A range is accessed as aligned 32-bit words: it lies in register space, or the descriptor fixes its address (R494). -/
def dmaWords (ws : List Nat) (source : Bool) : Bool :=
  let f := if source then dmaFrom ws else dmaTo ws
  tb (ws.getD 0 0) (if source then 4 else 5) || (ws.getD 1 0 != 0 && (isRegSpace (f 0) || isRegSpace (f (ws.getD 1 0 - 1))))

/-- A descriptor with the status BAD_DESC (R492, R493, R496). -/
def dmaBad (ws : List Nat) : Bool :=
  let w := ws.getD 0 0
  let len := ws.getD 1 0
  let op := bits w 0 4
  let wrap (k : Nat) : Bool := 1 ≤ k && k ≤ 5
  let words (source : Bool) : Bool :=
    dmaWords ws source && (len % 4 != 0 || dmaAddr ws (if source then 2 else 4) % 4 != 0)
  3 ≤ op || bits w 21 11 != 0 || bits w 13 3 != 0 || bits (ws.getD 5 0) 16 16 != 0 || wrap (bits w 8 5) || wrap (bits w 16 5) ||
    (op == 0 && words true) || (op < 2 && words false)

/-- DESCRIPTOR_COMPLETE: the record, RD, DONE, and what a status other than OK does (R495, R496). -/
def Dev.dmaComplete (d : Dev) (e : Nat) : Dev :=
  let q := d.dmaEng e
  match q.busy with
  | none => d
  | some (c, ws, st, n, rdc) =>
    let w0 := ws.getD 0 0
    let rec_ := leBytes 4 (rdc + st * 2 ^ 20 + c * 2 ^ 24) ++ leBytes 4 n ++ leBytes 8 d.lt
    let cr := dmaAddr ws 6 / 16 * 16
    let d := if tb w0 6 && d.hasRange cr 16 then d.memWrite (dmaSrc e) cr rec_ else d
    let d := d.wr (dmaCh e c 0x14) ((rdc + 1) % 2 ^ 17)
    let halt := st == 1 || st == 2 || st == 3
    let q := { q with busy := none, halted := if halt && q.halt then q.halted ++ [c] else q.halted }
    let d := d.setDma e q
    let d := d.addSat (dmaCh e c 0x20) n
    let d := if st = 0 then d else
      ((d.setF (dmaCh e c 0x18) 4 4 st).inc (dmaBase e + 0x808)).evt (dmaIrq e) (2 ^ (16 + c))
    let d := if st = 5 then d.inc (dmaBase e + 0x80C) else d
    if tb w0 7 then d.evt (dmaIrq e) (2 ^ c) else d

/-! The memory controller. -/

/-- MEMC_TRAIN: a training starts with MEMC_CFG as it stands, and DRAM loses its target (R486). -/
def Dev.memcTrain (d : Dev) : Dev :=
  if d.dataOff then d
  else
    let d := { d with memcCfg := d.rd Reg.MEMC_CFG }
    (forN 8 (fun c d => d.wr (Reg.MEMC_CH_STATUS c) 0) d).wr Reg.MEMC_STATUS 1

/-- TRAINED: the training ends; CAP 3 makes it fail (R486, R498). The temperature codes of MR4 are the devices' own. -/
def Dev.memcTrained (d : Dev) : Dev :=
  if d.fld Reg.MEMC_STATUS 0 2 ≠ 1 ∨ d.dataOff then d
  else if bits d.memcCfg 0 2 = 3 then (d.wr Reg.MEMC_STATUS 0).evt 425 2
  else
    let d := forN 8 (fun c d => let (m, d) := d.fresh 4; d.wr (Reg.MEMC_CH_STATUS c) (1 + 0xF0 + m * 2 ^ 8)) d
    (d.wr Reg.MEMC_STATUS (2 + 0xFF00 + b2n (tb d.memcCfg 8) * 2 ^ 16)).evt 425 1

/-- Controller channel of a DRAM address (R485). -/
def dramChan (a : Nat) : Nat := (bits a 8 3 ^^^ bits a 16 3) ^^^ bits a 24 3

/-- A read finds an error in a line: `ue` uncorrectable, else corrected (R488). -/
def Dev.eccError (d : Dev) (line : Nat) (ue : Bool) : Dev :=
  let a := line % 2 ^ 42 * 64
  if !d.bit Reg.MEMC_STATUS 16 || d.dramSize ≤ a || !d.hasTarget a then d
  else if ue then
    (((d.inc Reg.MEMC_UE_CNT).wr Reg.MEMC_UE_ADDR a).evt 425 8).alarm 6 (a / 64)
  else ((d.inc Reg.MEMC_CE_CNT).inc (Reg.MEMC_CH_CE (dramChan a))).evt 425 4

/-- SCRUB: the scrub reads a line (R488). A correction leaves the line's data as they read. -/
def Dev.scrub (d : Dev) (line : Nat) (found : Nat) : Dev :=
  if d.bit Reg.MEMC_CFG 16 && found != 0 then d.eccError line (found == 2) else d

/-- WCK2DQ_TRACKING on channel `c` (R486). -/
def Dev.wckTrack (d : Dev) (c : Nat) : Dev :=
  if d.fld Reg.MEMC_STATUS 0 2 == 2 && !d.dataOff then d.inc (Reg.MEMC_CH_RETRAIN c) else d

end Sys2Proof.Machine
end

