-- ==== Sys2Proof/Machine/ResetOps.lean ====
section
/-! DEFINITION. What returning blocks to their reset contents means: the registers and engines of a power domain or of a plane
(R16, R32, R121, R441, R497, R551, R608). -/
namespace Sys2Proof.Machine

/-- The power domain that holds the register with key `k` (R551). The device-wide registers of the Trellis and Graft blocks are taken
with the control engines, those of the Sieve with the fabric, those of the memory controller with channel 0 (log 40). -/
def powDomain (k : Nat) : Nat :=
  if corectlHigh ≤ k then 13
  else
    let o := k % 0x10000
    let i := o / 0x1000
    match k / 0x10000 with
    | 0x3000005 => if o < 0x8000 then 17 + o / 0x200 / 8 else 13
    | 0x3000009 => 36
    | 0x300000A => 37
    | 0x300000B => if i < 8 then 25 + i else 13
    | 0x300000C => if i < 2 then 33 + i else 13
    | 0x300000D => 35
    | 0x300000F => 38
    | 0x3010000 => 53 + i / 4
    | 0x3010001 => if i = 0 then 66 else 39 + (i - 1) % 4
    | 0x3010002 => 43 + i % 8
    | 0x3010003 => 51 + i % 2
    | 0x3010004 => 57 + i % 8 / 4
    | 0x3010005 => 59
    | 0x3010006 => if i < 8 then 60 + i / 2 else 60
    | 0x3010007 => 66
    | 0x301000F => 67
    | b => if b / 0x100 = 0x3FF00 then 0 else 13

/-- Registers whose keys `p` selects return to their Reset values; those marked (kept) stay (R16). -/
def Dev.dropRegs (d : Dev) (p : Nat → Bool) : Dev :=
  { d with regs := d.regs.filter fun r => !p r.1 || (match regRow r.1 with | some w => w.kept | none => false) }

/-- Bytes of memory from `lo` below `hi` lose their content (R483). -/
def Dev.dropMem (d : Dev) (lo hi : Nat) : Dev :=
  { d with mem := d.mem.filter fun c => !(decide (lo ≤ c.1) && decide (c.1 < hi)) }

/-- Re-evaluate every level source that a block's event register feeds (R317). -/
def Dev.refreshAll (d : Dev) : Dev :=
  (List.range 455).foldl (fun d k => if (evtOf k).isSome then d.refresh k else d) d

/-- Forget the table entries below `n` from `lo`. -/
def dropKeys {α : Type} (t : Tab α) (lo n : Nat) : Tab α := t.filter fun p => !(decide (lo ≤ p.1) && decide (p.1 < lo + n))

/-- The ticks after a reset of the BEAM block (R653). -/
def Dev.tickReset (d : Dev) : Dev :=
  let n := (d.lt + 2000 + 15999) / 16000 * 16000
  { d with tick := { d.tick with start := d.lt, next := n, realign := none, ltAdj := 0, firstLock := false } }

/-- Every receiver marks each beam STALE and holds the last position (R32). -/
def Dev.estStale (d : Dev) : Dev :=
  { d with est := d.est.map fun p =>
      if p.1 < 16 then (p.1, { p.2 with last := { p.2.last with stale := true, vel := 0, acc := 0 }, e := 0 }) else p }

/-- The engines of the control plane, but for the commit gate and the cores, return to their reset contents; the pads and encoder inputs keep
the levels that stand on them, and the image die keeps its copy of list memory (R121, R341, R357, R365, R608). -/
def Dev.clearEngines (d : Dev) : Dev :=
  let d := { d with beams := [], stn := default, cam := default, seq := { d.seq with sides := [], fwd := [] }, trig := [], drv := [] }
  (d.estStale).tickReset

/-- Pins at their Reset values (R365); the glitch filters start from the pad levels (R341). -/
def Dev.clearPins (d : Dev) : Dev :=
  { d with pins := d.pins.map fun p =>
      (p.1, { (default : Pin) with ext := p.2.ext, acc := (p.2.ext).getD (d.bit (Reg.PIN_CFG p.1) 9), sleep := p.2.sleep }) }

/-- A core whose registers are at the values of R235. -/
def Dev.coreInit (d : Dev) (c : Nat) : Core :=
  { (default : Core) with r := { (default : CoreRegs) with ssp := d.rd (Reg.CORECTL_BOOT_SP c) } }

/-- A core whose cluster has been without power keeps its mode (R551, R340). -/
def Dev.coreWoken (d : Dev) (c : Nat) (m : CoreMode) : Core := { d.coreInit c with mode := m }

/-- Commits under way, the routing of the Trellis and the node id are lost with the control engines (R551, log 40). -/
def Dev.fabricLost (d : Dev) : Dev := { d with commit := default, nodeId := 0, trl := { (default : TrlSt) with ports := d.trl.ports } }

/-- One domain of the image die or a port group loses its content (R551). -/
def Dev.domClear (d : Dev) (k : Nat) : Dev :=
  let keepMemc := fun (r : Nat) => r != Reg.MEMC_STATUS && !(List.range 8).any fun c => r == Reg.MEMC_CH_STATUS c
  let d := d.dropRegs fun r => powDomain r == k && keepMemc r
  let d :=
    if 17 ≤ k ∧ k < 25 then { d with drv := dropKeys d.drv (8 * (k - 17)) 8 }
    else if 25 ≤ k ∧ k < 33 then { d with trl := { d.trl with ports := dropKeys d.trl.ports (k - 25) 1 } }
    else if k = 36 then { d with aud := default }
    else if k = 37 then { d with dma := dropKeys d.dma 0 1 }
    else if k = 38 then { d with stem := dropKeys d.stem 0 1 }
    else if 39 ≤ k ∧ k < 43 then { d with quads := dropKeys d.quads (k - 39) 1 }
    else if 43 ≤ k ∧ k < 51 then { d with pipes := dropKeys d.pipes (k - 43) 1 }
    else if 51 ≤ k ∧ k < 53 then { d with draw := dropKeys d.draw (k - 51) 1 }
    else if 53 ≤ k ∧ k < 57 then { d with camin := dropKeys d.camin (4 * (k - 53)) 4 }
    else if 57 ≤ k ∧ k < 59 then { d with ras := dropKeys d.ras (4 * (k - 57)) 4 }
    else if k = 59 then { d with disp := [] }
    else if k = 64 then d.dropMem 0x10000000000 0x10001000000
    else if k = 65 then d.dropMem 0x10001000000 0x10002000000
    else if k = 66 then ({ d with dma := dropKeys d.dma 1 2 }).mirrorLost
    else if k = 67 then { d with stem := dropKeys d.stem 1 1 }
    else if 1 ≤ k ∧ k < 7 then { d with cores := d.cores.map fun p =>
        if p.1 / 4 + 1 = k then (p.1, d.coreWoken p.1 p.2.mode) else p }
    else if k = 13 then
      ((d.dropRegs fun r => [0x3000000, 0x3000001, 0x3000002, 0x3000003, 0x3000004, 0x3000007, 0x300000E].contains (r / 0x10000)
        || corectlHigh ≤ r).clearEngines).clearPins.fabricLost
    else d
  d.refreshAll

/-- Blocks of the data plane: CAMIN to DMAI, AUD and DMAB (01). -/
def dataBlocks : List Nat :=
  [0x3010000, 0x3010001, 0x3010002, 0x3010003, 0x3010004, 0x3010005, 0x3010006, 0x3010007, 0x3000009, 0x300000A]

/-- Blocks of the control plane: COMMIT to INTC and CORECTL (01). -/
def controlBlocks : List Nat :=
  [0x3000000, 0x3000001, 0x3000002, 0x3000003, 0x3000004, 0x3000005, 0x3000006, 0x3000007, 0x3000008, 0x300000E]

/-- Blocks of the management plane: PWR to ID, and the routing of Trellis, the supervision of Graft and the host interface (01, log 41). -/
def mgmtBlocks : List Nat :=
  [0x3FF0000, 0x3FF0001, 0x3FF0002, 0x3FF0003, 0x3FF0004, 0x3FF0005, 0x3FF0006, 0x3FF0007, 0x300000B, 0x300000C, 0x300000D]

def inBlocks (l : List Nat) (k : Nat) : Bool := l.contains (k % corectlHigh / 0x10000)

/-- Items under print are given PRINT_FAULT when the data plane stops (R32). -/
def Dev.printsLost (d : Dev) : Dev :=
  d.items.store.foldl (fun d p => if p.2.printing then d.setVerdict p.1 8 else d) d

/-- The data plane returns to its reset contents (R32, R121, R421, R441, R478, R497, R608); DRAM goes into self-refresh and has no target
until it is trained again (R486). -/
def Dev.clearData (d : Dev) : Dev :=
  let d := d.printsLost
  let d := d.dropRegs (inBlocks dataBlocks)
  let d := { d with camin := [], quads := [], pipes := [], ras := [], disp := [], draw := [], aud := default, dma := [], memcCfg := 0 }
  d.mirrorLost.refreshAll

end Sys2Proof.Machine
end

