-- ==== Sys2Proof/Machine/CoreCtl.lean ====
section
/-! DEFINITION. The control of a core from outside: its registers by number, CORE resets, halts and the CORECTL block (09 R235 to R237,
R259 to R264, 24 R613). Core 24 is Flagar, which has no CORECTL instance. -/
namespace Sys2Proof.Machine

def Dev.core (d : Dev) (c : Nat) : Core := tget d.cores c

def Dev.setCore (d : Dev) (c : Nat) (x : Core) : Dev := { d with cores := tput d.cores c x }

/-- PSW of a core whose PRI is `pri` (R236). -/
def CoreRegs.psw (r : CoreRegs) (pri : Nat) : Nat :=
  b2n r.trace * 2 ^ 11 + b2n r.upin * 2 ^ 10 + b2n (!r.user) * 2 ^ 9 + b2n r.ie * 2 ^ 8 + pri

/-- A write of PSW; PRI is left unchanged (R236, R322). -/
def CoreRegs.setPsw (r : CoreRegs) (v : Nat) : CoreRegs :=
  { r with trace := tb v 11, upin := tb v 10, user := !tb v 9, ie := tb v 8 }

/-- Register `n` of R235. -/
def CoreRegs.get (r : CoreRegs) (pri n : Nat) : Nat :=
  if n = 7 then (if r.user then r.usp else r.ssp)
  else if n = 28 then (if r.user then r.ssp else r.usp)
  else if n = 16 then r.psw pri
  else if n < 28 then tget r.gp n else 0

/-- A write of register `n` of R235; the reserved bits of WINn read 0 (R242). -/
def CoreRegs.set (r : CoreRegs) (n v : Nat) : CoreRegs :=
  let v := v % 2 ^ 32
  if n = 7 then (if r.user then { r with usp := v } else { r with ssp := v })
  else if n = 28 then (if r.user then { r with ssp := v } else { r with usp := v })
  else if n = 16 then r.setPsw v
  else if 20 ≤ n ∧ n < 28 then { r with gp := tput r.gp n (putBits v 4 8 0) }
  else if n = 18 then { r with gp := tput r.gp n (putBits (putBits (v % 2 ^ 24) 12 4 0) 24 8 0) }
  else if n < 28 then { r with gp := tput r.gp n v } else r

/-- Re-evaluate the fault source of a control core (R317). -/
def Dev.coreFaultSrc (d : Dev) (c : Nat) : Dev := if c < 24 then d.refresh c else d

/-- RELEASE has taken effect: the core starts in supervisor mode at CORECTL_BOOT with SSP = CORECTL_BOOT_SP (R260). -/
def Dev.coreStart (d : Dev) (c boot sp : Nat) : Dev :=
  let x := d.core c
  d.setCore c { x with mode := .run, relNext := false, r := { x.r with pc := boot % 2 ^ 32 / 2 * 2, ssp := sp % 2 ^ 32 } }

/-- RELEASE: a core in RESET starts; one whose reset is still completing starts then (R260, R613). -/
def Dev.coreRelease (d : Dev) (c : Nat) : Dev :=
  let x := d.core c
  if x.mode != .reset then d
  else if x.draining.isSome then d.setCore c { x with relNext := true }
  else d.coreStart c (d.rd (Reg.CORECTL_BOOT c)) (d.rd (Reg.CORECTL_BOOT_SP c))

/-- A CORE reset (R235, R260, R283, R314, R316, R341, R613): the released stores stay until they are performed, and the core shows its former
state until then. -/
def Dev.coreReset (d : Dev) (c : Nat) : Dev :=
  let x := d.core c
  let keep := x.sb.filter (·.released)
  let st := if keep.isEmpty then none else some (x.draining.getD x.mode.code)
  let d := d.setCore c { d.coreInit c with werr := x.werr, why := x.why, sb := keep, draining := st }
  let d := d.wr (Reg.CORECTL_PERF_CTRL c) 0
  (d.intcCoreReset c).coreFaultSrc c

/-- The released stores of a core that is being reset have been performed (R613). -/
def Dev.coreDrained (d : Dev) (c : Nat) : Dev :=
  let x := d.core c
  if x.draining.isSome && x.sb.isEmpty then
    let d := d.setCore c { x with draining := none }
    if x.relNext then d.coreRelease c else d
  else d

/-- Everything unretired of a core is abandoned: stores not released, a transfer that waits for its slot, an instruction that waits for a far
read (R254, R261, R277, R303). -/
def Core.abandon (x : Core) : Core :=
  let x := { x with sb := x.sb.filter (·.released), farWait := false, far := [] }
  match x.slot with
  | none => x
  | some s => { x with r := { s.undo with pc := s.at0 }, slot := none, hist := s.hist, ras := s.ras }

/-- The unretired work of a core is abandoned: what its slot no longer saw of the priority stack is there again (R276). -/
def Dev.coreAbandon (d : Dev) (c : Nat) : Dev :=
  let x := d.core c
  let d := match x.slot.bind (·.popped) with
    | some e => d.setStack c (e :: d.priStack c)
    | none => d
  d.setCore c x.abandon

/-- The core stops in HALT at an instruction boundary (R261). -/
def Dev.coreStop (d : Dev) (c why : Nat) : Dev :=
  let d := d.coreAbandon c
  let x := d.core c
  let d := d.setCore c { x with mode := .halt, why := why, halting := false, stepping := false, phase := .none }
  d.wr (Reg.CORECTL_DPC c) (x.r.pc / 2 * 2)

/-- HALT: at the next boundary, once every pending long result is written (R261, R283). -/
def Dev.coreHalt (d : Dev) (c : Nat) : Dev :=
  let x := d.core c
  if x.mode == .run || x.mode == .wait then
    if x.long.isEmpty then d.coreStop c 1
    else
      let d := d.coreAbandon c
      d.setCore c { d.core c with halting := true, why := 1 }
  else d

/-- RESUME and STEP: a halted core continues at CORECTL_DPC (R259, R261). -/
def Dev.coreResume (d : Dev) (c : Nat) (step : Bool) : Dev :=
  let x := d.core c
  if x.mode == .halt then
    d.setCore c { x with mode := .run, stepping := step, r := { x.r with pc := d.rd (Reg.CORECTL_DPC c) / 2 * 2 } }
  else d

/-- The action bits of CORECTL_CTRL in order, as far as the security state admits them from `src` (R263, R264). A core halted when the
device locks stays halted. -/
def Dev.coreActs (d : Dev) (c v src : Nat) : Dev :=
  let free := !d.locked
  let own := free || src == 24
  let d := if own && tb v 0 then d.coreReset c else d
  let d := if own && tb v 1 then d.coreRelease c else d
  let d := if free && tb v 2 then d.coreHalt c else d
  let d := if free && tb v 3 then d.coreResume c false else d
  if free && tb v 4 then d.coreResume c true else d

/-- A write of CORECTL_CTRL by `src` (R263, R264). -/
def Dev.coreCtrl (d : Dev) (c v src : Nat) : Dev :=
  let d := if d.locked then d else d.wr (Reg.CORECTL_CTRL c) (b2n (tb v 8) * 2 ^ 8)
  d.coreActs c v src

/-- DBG_EN in force: while the device is LOCKED it reads 0 (R263). -/
def Dev.dbgEn (d : Dev) (c : Nat) : Bool := !d.locked && d.bit (Reg.CORECTL_CTRL c) 8

/-- CORECTL_STATUS (R264). -/
def Dev.coreStatus (d : Dev) (c : Nat) : Nat :=
  let x := d.core c
  x.draining.getD x.mode.code + x.why * 2 ^ 4 + b2n (!x.r.user) * 2 ^ 8 + b2n x.werr * 2 ^ 9 + d.pri c * 2 ^ 16

/-- A read of CORECTL_DREG_DATA (R261, R263). -/
def Dev.dregRead (d : Dev) (c : Nat) : Nat :=
  let x := d.core c
  if d.locked || x.mode != .halt then 0 else x.r.get (d.pri c) (d.fld (Reg.CORECTL_DREG_SEL c) 0 5)

/-- A write of CORECTL_DREG_DATA (R261, R263). -/
def Dev.dregWrite (d : Dev) (c v : Nat) : Dev :=
  let x := d.core c
  let n := d.fld (Reg.CORECTL_DREG_SEL c) 0 5
  if d.locked || x.mode != .halt || 29 ≤ n then d else d.setCore c { x with r := x.r.set n v }

/-- A write of CORECTL_DPC (R261, R263). -/
def Dev.dpcWrite (d : Dev) (c v : Nat) : Dev :=
  if d.locked || (d.core c).mode != .halt then d else d.wr (Reg.CORECTL_DPC c) (v / 2 * 2)

/-- A read of CORECTL_ERR clears it and WERR (R264). -/
def Dev.coreErrRead (d : Dev) (c : Nat) : Nat × Dev :=
  let v := d.rd (Reg.CORECTL_ERR c)
  (v, ((d.wr (Reg.CORECTL_ERR c) 0).setCore c { d.core c with werr := false }).coreFaultSrc c)

/-- A write that found no target (R245). -/
def Dev.coreWerr (d : Dev) (c : Nat) : Dev :=
  ((d.inc (Reg.CORECTL_ERR c)).setCore c { d.core c with werr := true }).coreFaultSrc c

/-- The counters count: enabled, in RUN or in HALT unless frozen, and in user mode if UONLY (R315, R316). -/
def Dev.perfOn (d : Dev) (c : Nat) : Bool :=
  let x := d.core c
  let k := d.rd (Reg.CORECTL_PERF_CTRL c)
  tb k 0 && (x.mode == .run || x.mode == .halt && !tb k 1) && (!tb k 3 || x.r.user)

/-- Width of the counter at an offset of the CORECTL instance (R315). -/
def perfWidth (o : Nat) : Nat := if o < 0x128 then 64 else 32

/-- Add to a performance counter, which wraps (R316). -/
def Dev.perfAdd (d : Dev) (c o n : Nat) : Dev :=
  if c < 24 && d.perfOn c then
    let x := d.core c
    d.setCore c { x with perf := tput x.perf o ((tget x.perf o + n) % 2 ^ perfWidth o) }
  else d

/-- Offsets of the counters (R315). -/
def perfOffsets : List Nat :=
  [0x108, 0x110, 0x118, 0x120, 0x128, 0x12C, 0x130, 0x134, 0x138, 0x13C, 0x140, 0x144, 0x148]

/-- A read of CORECTL_PERF_CYCLE's low word captures every counter (R315). -/
def Dev.perfCapture (d : Dev) (c : Nat) : Dev :=
  let x := d.core c
  d.setCore c { x with perfCap := x.perf }

/-- `n` core cycles count: all in PERF_CYCLE; the cycles lost to each stall cause are free values, each cycle at most one cause (R316), and
so are the fetch accesses, at most one a cycle (R293; log 1). -/
def Dev.perfCycles (d : Dev) (c n : Nat) : Dev :=
  if c < 24 && d.perfOn c then
    let d := d.perfAdd c 0x108 n
    let f := d.fresh 32
    let d := f.2.perfAdd c 0x118 (f.1 % (n + 1))
    ([0x134, 0x138, 0x13C, 0x140, 0x144].foldl (fun (a : Nat × Dev) o =>
      let f := a.2.fresh 32
      let k := f.1 % (a.1 + 1)
      (a.1 - k, f.2.perfAdd c o k)) (n, d)).2
  else d

/-- A write of CORECTL_PERF_CTRL (R315). -/
def Dev.perfCtrl (d : Dev) (c v : Nat) : Dev :=
  let d := d.wr (Reg.CORECTL_PERF_CTRL c) (putBits (v % 16) 2 1 0)
  if tb v 2 then d.setCore c { d.core c with perf := [] } else d

end Sys2Proof.Machine
end

