-- ==== Sys2Proof/Machine/Power.lean ====
section
/-! DEFINITION. Power domains and states, cluster clocks, temperatures, droops and margin plans (22, R551 to R576). -/
namespace Sys2Proof.Machine

/-- An enable bit of a DMA engine's channels. -/
def Dev.dmaOn (d : Dev) (e : Nat) : Bool := (List.range 16).any fun c => d.bit (dmaCh e c 0) 31

/-- Some block of domain `k` has an enable field at 1 (R552). -/
def Dev.domEnabled (d : Dev) (k : Nat) : Bool :=
  let any8 := fun (n : Nat) (f : Nat → Bool) => (List.range n).any f
  if 1 ≤ k ∧ k < 7 then any8 4 fun i => (tget d.cores (4 * (k - 1) + i)).mode != .reset
  else if 17 ≤ k ∧ k < 25 then any8 8 fun i => d.bit (Reg.DRV_CFG (8 * (k - 17) + i)) 0
  else if 25 ≤ k ∧ k < 33 then d.bit (Reg.TRL_PORT_CFG (k - 25)) 0
  else if 33 ≤ k ∧ k < 35 then d.bit (Reg.GRF_PORT_CFG (k - 33)) 0
  else if k = 35 then d.fld Reg.HOST_CTRL 0 2 != 0
  else if k = 36 then d.bit Reg.AUD_CTRL 31 || d.bit Reg.AUD_B_CFG 31 ||
    any8 4 fun p => d.bit (Reg.AUD_TDMI_CFG p) 31 || d.bit (Reg.AUD_TDMO_CFG p) 31
  else if k = 37 then d.dmaOn 0
  else if 39 ≤ k ∧ k < 43 then d.bit Reg.SIEVE_CTRL 0
  else if 43 ≤ k ∧ k < 51 then d.bit (Reg.COMP_CTRL (k - 43)) 0 || d.bit (Reg.COMP_WB_CFG (k - 43)) 0
  else if 51 ≤ k ∧ k < 53 then d.bit (Reg.DRAW_CTRL (k - 51)) 0
  else if 53 ≤ k ∧ k < 57 then any8 4 fun i => d.bit (Reg.CAMIN_CFG (4 * (k - 53) + i)) 31
  else if 57 ≤ k ∧ k < 59 then any8 4 fun i => d.bit (Reg.RASTER_CFG (4 * (k - 57) + i)) 31
  else if k = 59 then any8 3 fun i => d.bit (Reg.DISP_CFG i) 31
  else if k = 66 then d.dmaOn 1 || d.dmaOn 2
  else false

/-- Flagar refuses to switch domain `k` off (R552). -/
def Dev.domRefused (d : Dev) (k : Nat) : Bool :=
  k == 0 || k == 13 || k == 38 || k == 67 || d.domEnabled k || d.commit.claims.any fun c => powDomain c.1 == k

/-- Domain `k` is requested on (R574). -/
def Dev.domReq (d : Dev) (k : Nat) : Bool := d.bit (Reg.PWR_DOM_REQ (k / 32)) (k % 32)

/-- Domains that a request does not switch (R552). -/
def domFixed (k : Nat) : Bool := 60 ≤ k && k ≤ 65

/-- PWR_DOM_REQ: a write of word `w` asks for each of its domains as its bits say (R552); bits of domains 60 to 65 keep their value. -/
def Dev.pwrDomReq (d : Dev) (w v : Nat) : Dev :=
  let mine := fun (k : Nat) => k / 32 == w && !domFixed k
  let m := (List.range 68).foldl (fun a k => if mine k then a + 2 ^ (k % 32) else a) 0
  let d := d.wr (Reg.PWR_DOM_REQ w) (mergeMask (d.rd (Reg.PWR_DOM_REQ w)) v m)
  let bad := (List.range 68).filter fun k => mine k && !d.domReq k && d.domOn k && d.domRefused k
  let d := { d with pwr := { d.pwr with refused := (d.pwr.refused.filter fun k => !mine k) ++ bad } }
  if bad.isEmpty then d else d.evt 449 4

/-- PWR_DOM_STAT of domain `k`. -/
def Dev.setDom (d : Dev) (k : Nat) (on : Bool) : Dev := d.setF (Reg.PWR_DOM_STAT (k / 32)) (k % 32) 1 (b2n on)

/-- Switch a domain: its registers hold their Reset values when it comes on, and it loses its content when it goes off (R551, R552). -/
def Dev.switchDom (d : Dev) (k : Nat) (on : Bool) : Dev :=
  if d.domOn k == on then d else (d.setDom k on).domClear k

/-- The retention domains of the beam die (R551). -/
def domRetains (k : Nat) : Bool := (7 ≤ k && k ≤ 12) || (14 ≤ k && k ≤ 16)

/-- Domains that entry into the low state switches off, in order (R554, R556). -/
def entryDoms (low : Nat) : List Nat :=
  let image := (List.range 68).filter fun k => 39 ≤ k && (low == 3 || !(60 ≤ k && k ≤ 63 || k == 67))
  if low = 3 then image ++ (List.range 39).filter fun k => k != 0 else image

/-- A PMBus command to a rail (R570). -/
def Dev.pmbus (d : Dev) (r cmd v : Nat) : Dev := if d.bit (Reg.PWR_RAIL_CFG r) 31 then d.emit (.pmbus r cmd v) else d

/-- The device comes back to RUN (R554, R556, R557). -/
def Dev.wakeUp (d : Dev) : Dev :=
  let p := d.pwr
  let d := if p.low = 3 then [0, 1, 4, 5].foldl (fun d r => d.pmbus r 1 0x80) d else d
  let d := (List.range 68).foldl (fun d k => if (d.domReq k || domFixed k) && !d.domOn k then
    (if domRetains k then d.setDom k true else d.switchDom k true) else d) d
  let d := if d.fld Reg.MEMC_STATUS 0 2 = 3 then d.setF Reg.MEMC_STATUS 0 2 2 else d
  let d := if p.low = 3 then { d with cloche := false }.startRetrain 2 255 255 else d
  let d := d.pinsWake
  let (t, d) := d.fresh 16
  let d := { d with pwr := { d.pwr with low := 0, step := 0, woke := [] } }
  let d := (d.setF Reg.PWR_STATE 0 3 0).setF Reg.PWR_LAST 16 16 t
  d.evt 449 32

/-- Entry is complete (R554, R556); a wake that arrived meanwhile begins the exit at once. -/
def Dev.entryDone (d : Dev) : Dev :=
  let p := d.pwr
  let d := if p.low = 3 then [0, 1, 4, 5].foldl (fun d r => d.pmbus r 1 0) ({ d with cloche := true }.pmbus 2 0x21 600) else d
  let d := { d with pwr := { d.pwr with step := 3 } }
  let d := (d.setF Reg.PWR_STATE 0 3 p.low).setF Reg.PWR_LAST 0 3 p.low
  let d := d.wr Reg.PWR_LAST_ENTRY (min 65535 ((d.lt - p.began) / 10000))
  if p.woke.isEmpty then d else d.wakeUp

/-- The next domain to switch while no state entry is under way: the lowest whose state is not the one requested, but for the requests refused (R552). -/
def Dev.nextDom (d : Dev) : Option Nat :=
  (List.range 68).find? fun k => !domFixed k && d.domReq k != d.domOn k && (d.domReq k || !d.pwr.refused.contains k)

/-- Mask of the image-die domains, bit k for domain 39 + k (R573). -/
def Dev.imageDoms (d : Dev) : Nat :=
  (List.range 29).foldl (fun a k => if d.domOn (39 + k) then a + 2 ^ k else a) 0

/-- A management flit of subtype `t` (R573). -/
def Dev.mgmtFlit (d : Dev) (die t : Nat) (bs : List Nat) : Dev := d.stemSend die 5 (t * 2 ^ 36) bs

/-- DOMAIN_SWITCH: Flagar switches one domain (R552), or the next one of a state entry (R556). An image-die domain is asked for over the
Stem (R573). -/
def Dev.domainSwitch (d : Dev) : Dev :=
  let p := d.pwr
  if p.step = 1 ∨ p.step = 2 then
    let rest := (entryDoms p.low).filter fun k => d.domOn k
    match rest with
    | [] => d.entryDone
    | k :: more =>
      let d := { d with pwr := { d.pwr with step := 2 } }
      let d := if domRetains k then d.setDom k false else d.switchDom k false
      if more.isEmpty then d.entryDone else d
  else if p.step = 3 ∨ p.switching.isSome then d
  else match d.nextDom with
    | none => d
    | some k =>
      let on := d.domReq k
      if !on ∧ d.domRefused k then ({ d with pwr := { d.pwr with refused := d.pwr.refused ++ [k] } }).evt 449 4
      else if k < 39 then (if domRetains k then d.setDom k on else d.switchDom k on)
      else
        let m := putBits d.imageDoms (k - 39) 1 (b2n on)
        ({ d with pwr := { d.pwr with switching := some (k, on) } }).mgmtFlit 0 0 (leBytes 4 m)

/-- DOM_REQ at the image die: it switches its domains and reports them (R573). -/
def Dev.domReqFlit (d : Dev) (m : Nat) : Dev :=
  let d := (List.range 28).foldl (fun d k => if domFixed (39 + k) then d else d.switchDom (39 + k) (tb m k)) d
  d.mgmtFlit 1 1 (leBytes 4 d.imageDoms ++ leBytes 4 0)

/-- DOM_ACK at the beam die: PWR_DOM_STAT shows the domains that are on (R573). -/
def Dev.domAck (d : Dev) (on failed : Nat) : Dev :=
  let d := (List.range 28).foldl (fun d k => if domFixed (39 + k) then d else d.setDom (39 + k) (tb on k && !tb failed k)) d
  { d with pwr := { d.pwr with switching := none } }

/-- The cause that refuses a low state, 0 for none (R555). -/
def Dev.stateRefuse (d : Dev) (low : Nat) : Nat :=
  let beamOn := (List.range 8).any fun b => (tget d.beams b).mode == .run || (tget d.beams b).mode == .stale
  let coreOn := (List.range 24).any fun c => (tget d.cores c).mode != .wait && (tget d.cores c).mode != .reset
  let st := d.fld (Reg.DISP_STATUS 2) 0 3
  if beamOn then 1
  else if d.role ≠ 0 then 2
  else if low = 3 ∧ coreOn then 3
  else if low = 3 ∧ d.bit (Reg.DISP_CFG 2) 31 ∧ st ≠ 4 ∧ st ≠ 5 then 4
  else if d.pwr.switching.isSome ∨ d.pwr.step = 1 ∨ d.pwr.step = 2 then 5
  else 0

/-- STANDBY and CLOCHE: a request for a low state is refused, or its entry begins: pins go to sleep and DRAM into self-refresh (R365, R555,
R556); the domains follow one by one. -/
def Dev.lowRequest (d : Dev) (low : Nat) : Dev :=
  let d := d.setF Reg.PWR_STATE 4 3 low
  if d.pwr.step = 3 ∧ d.pwr.low = low then d
  else
    let why := d.stateRefuse low
    if why ≠ 0 then (d.setF Reg.PWR_STATE 8 4 why).evt 449 1
    else
      let d := if d.pwr.step = 0 then d.pinsSleep else d
      let d := if d.fld Reg.MEMC_STATUS 0 2 = 2 then d.setF Reg.MEMC_STATUS 0 2 3 else d
      { d with pwr := { d.pwr with low := low, step := 1, began := d.lt, woke := [] } }

/-- PWR_RUN: a request for RUN in a low state; in RUN it is ignored, and so it is until an entry is complete (R555). -/
def Dev.pwrRun (d : Dev) : Dev := if d.pwr.step = 3 then (d.setF Reg.PWR_STATE 4 3 0).wakeUp else d

/-- A wake source is enabled now: 0 interrupt source `k`, 1 PCIe, 2 Ethernet, 3 the timer, 4 PMB_ALERT_N (R340, R556). -/
def Dev.wakeOk (d : Dev) (src k : Nat) : Bool :=
  d.bit Reg.PWR_WAKE_CFG src &&
    (if src = 0 then d.bit (Reg.INTC_SRC_CFG k) 28 && d.srcEn k && !d.srcQueued k
     else if src = 3 then decide (d.rd Reg.PWR_WAKE_LT ≤ d.lt) else true)

/-- WAKE_EVENT (R340, R556, R557): in CLOCHE a pin source becomes PENDING; before the image die switches off, the entry is undone; after
that, it completes and the exit begins. -/
def Dev.wakeEvent (d : Dev) (src k : Nat) : Dev :=
  if d.pwr.step = 0 ∨ !d.wakeOk src k then d
  else
    let d := if src = 0 ∧ d.cloche ∧ (srcPin k).isSome ∧ (d.irq k).st = 0 then d.setIrq k { d.irq k with st := 1 } else d
    if d.pwr.step = 1 then
      let d := if d.fld Reg.MEMC_STATUS 0 2 = 3 then d.setF Reg.MEMC_STATUS 0 2 2 else d
      ({ d with pwr := { d.pwr with low := 0, step := 0, woke := [] } }).pinsWake.evt 449 2
    else if d.pwr.step = 2 then { d with pwr := { d.pwr with woke := d.pwr.woke ++ [src] } }
    else d.wakeUp

/-- PWR_STATE (R554, R574): IDLE while every cluster is gated and not all cores are in RESET (log 42). -/
def Dev.pwrState (d : Dev) : Nat :=
  let v := d.rd Reg.PWR_STATE
  let gated := (List.range 24).all fun c => (tget d.cores c).mode != .run
  let resets := (List.range 24).all fun c => (tget d.cores c).mode == .reset
  if bits v 0 3 = 0 ∧ gated ∧ !resets then v + 1 else v

/-! Clocks. -/

/-- The frequency that Flagar wants for cluster `c` (R561, R575). -/
def Dev.clusWant (d : Dev) (c : Nat) : Nat :=
  max 600 (min (d.fld (Reg.CLK_CLUS_REQ c) 0 11 / 25 * 25) (d.fld (Reg.CLK_CLUS_CAP c) 0 11))

/-- Group 7 takes a new commit of Flagar. -/
def Dev.grp7Free (d : Dev) : Bool := (d.grp 7).mode == .empty || (d.grp 7).mode == .opened

/-- Stage the wanted clocks of clusters in group 7 and issue the commit on a boundary and a beam (R561, R569). -/
def Dev.clusCommit (d : Dev) (cs : List Nat) (bnd b : Nat) : Dev :=
  let d := cs.foldl (fun d c =>
    let d := d.setF Reg.CLK_STATUS (2 * c) 2 3
    (d.stage 24 (Reg.CLK_CLUS_SEL c) (d.clusWant c) 0x7FF).2) d
  (d.wr (Reg.COMMIT_GRP_CTRL 7) (bnd + b * 16)).go 7 24

/-- CLUSTER_CLOCK_CHANGE (R561): the idle PLL locks and the change is committed at once, unless it lowers a cluster under a cap that waits
(R569). -/
def Dev.clusterClock (d : Dev) (c : Nat) : Dev :=
  let w := d.clusWant c
  let now := d.fld (Reg.CLK_CLUS_SEL c) 0 11
  if w = now ∨ !d.grp7Free ∨ (d.pwr.capWait.isSome ∧ w < now) then d else d.clusCommit [c] 0 0

/-- Clusters whose clock a lowered cap will change. -/
def Dev.capLowers (d : Dev) : List Nat :=
  (List.range 6).filter fun c => d.clusWant c < d.fld (Reg.CLK_CLUS_SEL c) 0 11

/-- CAP_COMMIT_WAIT (R569): the commit of a lowered cap is issued when no item of the beam is live, when the wait is over, or at once. -/
def Dev.capCommit (d : Dev) : Dev :=
  match d.pwr.capWait with
  | none => d
  | some (dl, hurry) =>
    let b := d.fld Reg.HEALTH_CFG 24 3
    let cs := d.capLowers
    if cs.isEmpty then { d with pwr := { d.pwr with capWait := none } }
    else if !d.grp7Free then d
    else
      let d0 := { d with pwr := { d.pwr with capWait := none } }
      if (d.beam b).mode ≠ .run then d0.clusCommit cs 0 b
      else if d.beamLive b = 0 ∨ dl ≤ d.lt ∨ hurry then d0.clusCommit cs 3 b
      else d

/-- REF_LOSS (R575). -/
def Dev.refLoss (d : Dev) : Dev :=
  let d := { d with pwr := { d.pwr with refLost := true } }
  (((d.setF Reg.CLK_STATUS 16 1 0).setF Reg.BEAM_LT_STATUS 0 1 0).evt 450 4).alarm 0x13 0

/-! Health. -/

/-- Set the caps of all clusters to 600 MHz by an IMMEDIATE commit (R565). -/
def Dev.critCaps (d : Dev) : Dev :=
  let d := { d with pwr := { d.pwr with caps := (List.range 6).map fun c => d.rd (Reg.CLK_CLUS_CAP c), coolAt := none } }
  let d := forN 6 (fun c d => d.wr (Reg.CLK_CLUS_CAP c) 600) d
  if d.grp7Free && !d.capLowers.isEmpty then d.clusCommit d.capLowers 0 0 else d

/-- Signed temperature of a sensor, in 1/16 °C. -/
def Dev.temp (d : Dev) (s : Nat) : Int := sx 16 (d.rd (Reg.HEALTH_TEMP s))

/-- A new reading of one sensor (R565): the hottest reading, and the thresholds WARN and CRIT. -/
def Dev.thermIn (d : Dev) (s v : Nat) : Dev :=
  let old := d.temp s
  let d := d.wr (Reg.HEALTH_TEMP s) (v % 65536)
  let new := d.temp s
  let hot := (List.range 24).foldl (fun m i => if d.temp m < d.temp i then i else m) 0
  let w := d.rd (Reg.HEALTH_TEMP hot) + hot * 2 ^ 16
  let d := d.wr Reg.HEALTH_TJ w
  let d := if sx 16 (d.rd Reg.HEALTH_TJ_MAX) < d.temp hot then d.wr Reg.HEALTH_TJ_MAX w else d
  let at_ := fun (i : Nat) => decide (old < (d.fld Reg.HEALTH_THERM i 8 : Int) * 16) && decide ((d.fld Reg.HEALTH_THERM i 8 : Int) * 16 ≤ new)
  let d := if at_ 0 then (d.evt 451 2).alarm 0x0D 0 else d
  if at_ 8 then
    let d := if d.pwr.caps.isEmpty then d.critCaps else d
    (d.evt 451 4).alarm 0x0E 0
  else d

/-- After readings: the caps come back once every sensor has been 10 °C below CRIT for 1 s (R565). -/
def Dev.thermCool (d : Dev) : Dev :=
  if d.pwr.caps.isEmpty then d
  else if (List.range 24).any fun s => (d.fld Reg.HEALTH_THERM 8 8 : Int) * 16 - 160 < d.temp s then
    { d with pwr := { d.pwr with coolAt := none } }
  else match d.pwr.coolAt with
    | none => { d with pwr := { d.pwr with coolAt := some d.lt } }
    | some t =>
      if t + 1000000000 ≤ d.lt then
        let d' := forN 6 (fun c x => x.wr (Reg.CLK_CLUS_CAP c) (d.pwr.caps.getD c 1200)) d
        { d' with pwr := { d'.pwr with caps := [], coolAt := none } }
      else d

/-- A plan is to be made (R567). -/
def Dev.wantPlan (d : Dev) : Dev := { d with pwr := { d.pwr with planDue := true } }

/-- Count a millisecond of operation; the hour may be that of the next plan (R567, R576). -/
def Dev.hoursTick (d : Dev) : Dev :=
  if d.cloche then d
  else if d.pwr.ms + 1 < 3600000 then { d with pwr := { d.pwr with ms := d.pwr.ms + 1 } }
  else
    let d := ({ d with pwr := { d.pwr with ms := 0 } }).wr Reg.HEALTH_HOURS ((d.rd Reg.HEALTH_HOURS + 1) % 2 ^ 32)
    let since := (d.rd Reg.HEALTH_HOURS + 2 ^ 32 - d.pwr.planAt) % 2 ^ 32
    if d.bit Reg.HEALTH_PLAN 16 && decide (max 1 (d.fld Reg.HEALTH_PLAN 0 8) ≤ since) then d.wantPlan else d

/-- A sensor at or above a temperature in °C. -/
def Dev.anyHot (d : Dev) (deg : Int) : Bool := (List.range 24).any fun s => decide (deg * 16 ≤ d.temp s)

/-- `n` droops of margin domain `m`: each is counted, more than 64 in a second call for a plan, and in a cluster the next 4 cycles are stretched (R566,
R567). -/
def Dev.droop (d : Dev) (m n : Nat) : Dev :=
  let d := if m < 6 ∧ 0 < n then forN 4 (fun i d => { d with cores := tput d.cores (4 * m + i) { tget d.cores (4 * m + i) with slow := 4000 } }) d else d
  let d := d.addSat Reg.HEALTH_DROOP n
  let p := d.pwr
  let new := p.droopAt + 1000000000 ≤ d.lt || p.droops == 0
  let cnt := (if new then 0 else p.droops) + n
  let was := if new then 0 else p.droops
  let d := { d with pwr := { p with droops := cnt, droopAt := if new then d.lt else p.droopAt } }
  if 64 < cnt ∧ was ≤ 64 then ((d.evt 451 8).alarm 0x0F 0).wantPlan else d

/-- Rail of a margin domain (R564). -/
def railOf (m : Nat) : Nat :=
  if m ≤ 6 then 0 else if m = 7 then 3 else if m ≤ 10 then 1 else if m ≤ 12 then 2 else if m ≤ 14 then 4 else 5

/-- Margin domains on a rail. -/
def railDoms (r : Nat) : List Nat := (List.range 16).filter fun m => railOf m == r

/-- Present margin and the worst since the last plan (R564, R576). -/
def Dev.marginNow (d : Dev) (m : Nat) : Int := sx 16 (d.fld (Reg.HEALTH_MARGIN m) 0 16)

def Dev.marginWorst (d : Dev) (m : Nat) : Int := sx 16 (d.fld (Reg.HEALTH_MARGIN m) 16 16)

/-- Cluster `m` is clocked above the part's highest core clock, as a GW964-E1 at 1.2 GHz is (R5, R571). -/
def Dev.overClocked (d : Dev) (m : Nat) : Bool := m < 6 && decide (Config.maxClock < d.clusMhz m)

/-- A new present margin; the monitors of a cluster above its highest clock report a negative one (R5, R571). One that drops below URGENT calls for a
plan (R567). -/
def Dev.setMargin (d : Dev) (m : Nat) (v : Int) : Dev :=
  let v := if d.overClocked m then min v (-1) else v
  let w := min v (d.marginWorst m)
  let u : Int := d.fld Reg.HEALTH_CFG 16 8
  let d := if v < u ∧ u ≤ d.marginNow m then d.wantPlan else d
  d.wr (Reg.HEALTH_MARGIN m) (tw 16 v + tw 16 w * 2 ^ 16)

/-- MON_DATA: slacks of monitors from `first` on; the margin of a domain is the least of its 6 less HEALTH_GB (R564, R573). The 6
monitors of domain m are numbers 6 m to 6 m + 5 (log 43). -/
def Dev.monData (d : Dev) (first : Nat) (vs : List Nat) : Dev :=
  let n := vs.length
  let sl := (List.range n).foldl (fun t i => if first + i < 96 then tput t (first + i) (vs.getD i 0) else t) d.pwr.slack
  let d := { d with pwr := { d.pwr with slack := sl } }
  (List.range 16).foldl (fun d m =>
    if first < 6 * m + 6 ∧ 6 * m < first + n then
      let l := (List.range 6).map fun i => sx 32 (tget d.pwr.slack (6 * m + i))
      d.setMargin m (l.foldl min (l.headD 0) - (d.fld Reg.HEALTH_GB 0 8 : Int))
    else d) d

/-- MON_READ at the image die: it answers with the slacks it measures (R573). -/
def Dev.monRead (d : Dev) (first count : Nat) : Dev :=
  let (l, d) := forN count (fun _ (x : List Nat × Dev) => let (v, e) := x.2.fresh 32; (x.1 ++ [v], e)) ([], d)
  d.mgmtFlit 1 3 (leBytes 4 first ++ (l.map (leBytes 4)).flatten)

/-- A rail's setpoint in mV. -/
def Dev.setpoint (d : Dev) (r : Nat) : Nat := d.fld (Reg.PWR_RAIL_SET r) 0 16

/-- The rail is managed, and has not failed (R568, R570). -/
def Dev.railOk (d : Dev) (r : Nat) : Bool :=
  d.bit (Reg.PWR_RAIL_CFG r) 31 && d.fld (Reg.PWR_RAIL_LIM r) 16 16 != 0 && !d.pwr.stuck.contains r

/-- Margins measured after a wait; none left: they stay. -/
def Dev.measure (d : Dev) : List (List Nat) → List (List Nat) × Dev
  | [] => ([], d)
  | m :: t => (t, forN 16 (fun i d => d.setMargin i (sx 16 (m.getD i 0))) d)

/-- One VOUT_COMMAND of a plan; `bad` rails fail three times (R568, R570). -/
def Dev.vout (d : Dev) (r v bad : Nat) : Dev :=
  if tb bad r then
    (((({ d with pwr := { d.pwr with stuck := d.pwr.stuck ++ [r] } }).inc Reg.PWR_PMB_ERR).evt 449 16).alarm 0x11 r)
  else (d.pmbus r 0x21 v).setF (Reg.PWR_RAIL_SET r) 0 16 v

/-- The raising loop of R568 on rail `r`, at most `n` steps. -/
def Dev.planUp (r bad : Nat) (low : Nat → Dev → Int) : Nat → List (List Nat) × Dev → List (List Nat) × Dev
  | 0, x => x
  | n + 1, (ms, d) =>
    let tgt : Int := d.fld Reg.HEALTH_CFG 0 8
    if d.railOk r ∧ (railDoms r).any (fun m => low m d < tgt) ∧ d.setpoint r + 5 ≤ d.fld (Reg.PWR_RAIL_LIM r) 16 16 then
      planUp r bad (fun m d => d.marginNow m) n ((d.vout r (d.setpoint r + 5) bad).measure ms)
    else (ms, d)

/-- The lowering loop of R568. -/
def Dev.planDown (r bad : Nat) (low : Nat → Dev → Int) : Nat → List (List Nat) × Dev → List (List Nat) × Dev
  | 0, x => x
  | n + 1, (ms, d) =>
    let tgt : Int := d.fld Reg.HEALTH_CFG 0 8 + d.fld Reg.HEALTH_CFG 8 8
    if d.railOk r ∧ (railDoms r).all (fun m => tgt < low m d) ∧ d.fld (Reg.PWR_RAIL_LIM r) 0 16 + 5 ≤ d.setpoint r then
      planDown r bad (fun m d => d.marginNow m) n ((d.vout r (d.setpoint r - 5) bad).measure ms)
    else (ms, d)

/-- VDD_CTRL and the rest at their highest voltage. -/
def Dev.atVmax (d : Dev) (r : Nat) : Bool := d.fld (Reg.PWR_RAIL_LIM r) 16 16 < d.setpoint r + 5

/-- What remains of domain `m` after the rails: a cluster's cap falls where VDD_CTRL is at VMAX or changes no more (R570), any other becomes SHORT; then its state, its record and its
fit (R567, R568, R571). `m0` is the margin the plan works with. -/
def Dev.planDom (d : Dev) (m : Nat) (m0 : Int) : Dev :=
  let tgt : Int := d.fld Reg.HEALTH_CFG 0 8
  let vmax := d.atVmax (railOf m)
  let short := decide (m0 < tgt)
  let cut := m < 6 && short && (vmax || d.pwr.stuck.contains 0)
  let was := d.bit (Reg.HEALTH_DSTAT m) 3
  let d := if cut then
      let c := d.rd (Reg.CLK_CLUS_CAP m)
      d.wr (Reg.CLK_CLUS_CAP m) (max 600 (c - 25 * ((tgt - m0 + 9) / 10).toNat))
    else d
  let sh := 6 ≤ m && short
  let d := if sh then (if was then d else d.evt 451 16).alarm 0x10 m else d
  let cap := if m < 6 then d.rd (Reg.CLK_CLUS_CAP m) else 0
  let fits := if vmax then tget d.pwr.fit m ++ [(d.rd Reg.HEALTH_HOURS, d.marginNow m)] else tget d.pwr.fit m
  let d := { d with pwr := { d.pwr with fit := tput d.pwr.fit m fits } }
  let fit := 3 ≤ fits.length
  let d := if !fit then d
    else if d.marginNow m ≤ 0 then d.wr (Reg.HEALTH_TTE m) 0
    else let (t, d) := d.fresh 32; d.wr (Reg.HEALTH_TTE m) t
  let d := d.wr (Reg.HEALTH_DSTAT m) (b2n fit + b2n vmax * 2 + b2n (m < 6 && decide (cap < 1200)) * 4 + b2n sh * 8)
  d.logPut 2 0 24 m (d.rd Reg.HEALTH_EPOCH) (tw 16 (d.marginNow m) + d.setpoint (railOf m) * 2 ^ 16) cap

/-- Least hours to exhaustion of the domains with no remedy left (R571). -/
def Dev.planLife (d : Dev) : Dev :=
  let l := (List.range 16).filter fun m => 6 ≤ m || d.rd (Reg.CLK_CLUS_CAP m) == 600
  let life := l.foldl (fun a m => min a (d.rd (Reg.HEALTH_TTE m))) 0xFFFFFFFF
  let old := d.rd Reg.HEALTH_LIFE
  let d := d.wr Reg.HEALTH_LIFE life
  if life < 8760 ∧ 8760 ≤ old then (d.evt 451 32).alarm 0x12 0 else d

/-- HEALTH_PLAN (R567 to R571): `ms` are the margins measured, first those at its start and then those after each wait; `bad` the rails
whose PMBus transfers fail. Without a cause of R567 no plan is made. What the ring oscillators show of the ageing is a free value (log 1). -/
def Dev.healthPlan (d : Dev) (ms : List (List Nat)) (bad : Nat) : Dev :=
  if !d.pwr.planDue then d
  else
  let (ms, d) := d.measure ms
  let d := d.wr Reg.HEALTH_EPOCH ((d.rd Reg.HEALTH_EPOCH + 1) % 2 ^ 32)
  let start := (List.range 16).map fun m => d.marginWorst m
  let worst := fun (m : Nat) (_ : Dev) => start.getD m 0
  let set0 := (List.range 8).map fun r => d.setpoint r
  let (_, d) := (List.range 8).foldl (fun x r =>
    let x := Dev.planUp r bad worst 65536 x
    let moved := x.2.setpoint r != set0.getD r 0
    Dev.planDown r bad (if moved then fun m d => d.marginNow m else worst) 65536 x) (ms, d)
  let m0 := fun (m : Nat) (d : Dev) => if d.setpoint (railOf m) = set0.getD (railOf m) 0 then start.getD m 0 else d.marginNow m
  let d := (List.range 16).foldl (fun d m => d.planDom m (m0 m d)) d
  let hurry := (List.range 16).any fun m => decide (d.marginNow m < (d.fld Reg.HEALTH_CFG 16 8 : Int))
  let d := if d.capLowers.isEmpty then d
    else { d with pwr := { d.pwr with capWait := some (d.lt + d.fld Reg.HEALTH_PLAN 8 8 * 60000000000, hurry) } }
  let d := forN 16 (fun m d => d.setF (Reg.HEALTH_MARGIN m) 16 16 (d.fld (Reg.HEALTH_MARGIN m) 0 16)) d
  let d := forN 16 (fun m d => let (v, d) := d.fresh 16; d.wr (Reg.HEALTH_AGE m) v) d
  let d := d.planLife.evt 451 1
  { d with pwr := { d.pwr with planDue := false, planAt := d.rd Reg.HEALTH_HOURS } }

/-- A write of PWR_RAIL_CFG lets the rail change again (R570). -/
def Dev.railCfg (d : Dev) (r : Nat) : Dev := { d with pwr := { d.pwr with stuck := d.pwr.stuck.filter (· != r) } }

end Sys2Proof.Machine
end

