-- ==== Sys2Proof/Machine/Trellis.lean ====
section
/-! DEFINITION. The Trellis: ports, cells, discovery, ids, routing, line time, line beams, handoff, line commits, alarms (20). -/
namespace Sys2Proof.Machine

/-! Ports and cells (R502 to R507). -/

def Dev.trlState (d : Dev) (p : Nat) : Nat := d.fld (Reg.TRL_PORT_STATUS p) 0 2

def Dev.setTrlState (d : Dev) (p st : Nat) : Dev := d.setF (Reg.TRL_PORT_STATUS p) 0 2 st

/-- A member that does not run the machine keeps its ports in HELLO (R535, R540). -/
def Dev.trlHeld (d : Dev) : Bool := d.follows || d.role == 5

def Dev.setTrl (d : Dev) (t : TrlSt) : Dev := { d with trl := t }

/-- The UID of this device. -/
def ownUid : Nat := Config.uid.toNat

/-- TRL_PORT_CFG.COST; 0 acts as 1 (R524). -/
def Dev.portCost (d : Dev) (p : Nat) : Nat := max 1 (d.fld (Reg.TRL_PORT_CFG p) 4 4)

/-- Node id of the peer on a port, if it has one (R524). -/
def Dev.peerId (d : Dev) (p : Nat) : Option Nat :=
  if d.bit (Reg.TRL_PORT_STATUS p) 20 then some (d.fld (Reg.TRL_PORT_STATUS p) 8 12) else none

/-! Routing (R510, R511). -/

/-- The better of two routes through ports: lower COST, then fewer hops, then the lower port (R510). -/
def betterRoute (a b : Nat × Route) : Bool :=
  decide (a.2.cost < b.2.cost) || (a.2.cost == b.2.cost && (decide (a.2.hops < b.2.hops) ||
    (a.2.hops == b.2.hops && decide (a.1 < b.1))))

/-- The best of a list of routes. -/
def bestRoute (l : List (Nat × Route)) : Option (Nat × Route) :=
  l.foldl (fun m r => match m with | none => some r | some x => if betterRoute r x then some r else some x) none

/-- Routes to a destination through UP ports, with each port's own cost and hop (R510). -/
def Dev.routesTo (d : Dev) (dest : Nat) : List (Nat × Route) :=
  (List.range 8).filterMap fun p =>
    if d.trlUp p then
      match aget (d.trlPort p).routes dest with
      | some r => some (p, { r with hops := r.hops + 1, cost := r.cost + d.portCost p })
      | none => none
    else none

/-- The primary next hop of a destination, and its alternate: the best path through another port that does not pass through the primary
next-hop node (R510). -/
def Dev.nextHops (d : Dev) (dest : Nat) : Option (Nat × Route) × Option (Nat × Route) :=
  let l := d.routesTo dest
  match bestRoute l with
  | none => (none, none)
  | some b =>
    let avoid := d.peerId b.1
    let rest := l.filter fun r => r.1 != b.1 && (match avoid with | some n => !r.2.path.contains n || n == dest | none => true)
    (some b, bestRoute rest)

/-- A ROUTE record (R505). -/
def routeBytes (dest : Nat) (withdraw : Bool) (r : Route) : List Nat :=
  leBytes 2 (dest + b2n withdraw * 2 ^ 15) ++ [r.hops, 0] ++ leBytes 2 (min r.cost 65535) ++ [0, 0] ++
    ((r.path ++ List.replicate 32 0).take 32).flatMap (leBytes 2)

/-- The path that this node advertises for a destination (R510): itself, or its best path. -/
def Dev.pathOf (d : Dev) (dest : Nat) : Option Route :=
  if d.trl.idValid ∧ dest = d.nodeId then some ⟨0, 0, []⟩ else (d.nextHops dest).1.map Prod.snd

/-- The ROUTE record of a destination leaves on a port. -/
def Dev.routeOut (d : Dev) (p dest : Nat) : Dev :=
  let q := d.trlPort p
  let own := d.nodeId
  let rec_ := match d.pathOf dest with
    | some r => routeBytes dest false { r with path := own :: r.path }
    | none => routeBytes dest true default
  (d.setTrlPort p { q with rtAt := aset q.rtAt dest (some d.lt) }).cellTx p ⟨0, 4, 1, 0, own, 0, false, false, rec_, d.lt⟩

/-- Send the ROUTE record of a destination on a port, at most once per 10 µs: one too early waits (R510). -/
def Dev.sendRoute (d : Dev) (p dest : Nat) : Dev :=
  let q := d.trlPort p
  match aget q.rtAt dest with
  | some t => if d.lt < t + 10000 then
      (if q.rtDue.contains dest then d else d.setTrlPort p { q with rtDue := q.rtDue ++ [dest] }) else d.routeOut p dest
  | none => d.routeOut p dest

/-- Send the ROUTE record of a destination on every UP port (R510). -/
def Dev.floodRoute (d : Dev) (dest : Nat) : Dev :=
  forN 8 (fun p d => if d.trlUp p then d.sendRoute p dest else d) d

/-- ROUTE records that have waited 10 µs since the last one of their destination on port `p` (R510). -/
def Dev.routesDue (d : Dev) (p : Nat) : Dev :=
  let q := d.trlPort p
  let now := fun (n : Nat) => decide (tget q.rtAt n + 10000 ≤ d.lt)
  (q.rtDue.filter now).foldl (fun d n => d.sendRoute p n) (d.setTrlPort p { q with rtDue := q.rtDue.filter fun n => !now n })

/-- Cells held for a destination go out once a next hop has returned (R511). -/
def Dev.unhold (d : Dev) (dest : Nat) : Dev :=
  if tget d.trl.prim dest = 0 ∧ tget d.trl.alt dest = 0 then d
  else
    let mine := fun (c : Cell) => c.dst == dest
    (d.trl.held.filter mine).foldl (fun d c => d.cellRoute c) { d with trl := { d.trl with held := d.trl.held.filter fun c => !mine c } }

/-- Work out a destination's next hops again, tell the neighbours of a change, and send what was held (R510, R511). -/
def Dev.reroute (d : Dev) (dest : Nat) : Dev :=
  let (b, a) := d.nextHops dest
  let code := fun (o : Option (Nat × Route)) => match o with | some r => r.1 + 1 | none => 0
  let path := b.map Prod.snd
  let was := aget d.trl.adv dest
  let d := { d with trl := { d.trl with prim := tput d.trl.prim dest (code b), alt := tput d.trl.alt dest (code a),
                                        adv := aset d.trl.adv dest path } }
  (if was = path then d else d.floodRoute dest).unhold dest

/-- Destinations that some port knows. -/
def Dev.destinations (d : Dev) : List Nat :=
  ((List.range 8).flatMap fun p => (d.trlPort p).routes.map (·.1)).foldl (fun a n => if a.contains n then a else a ++ [n]) []

/-- Advertise everything on a port that has come UP (R510). -/
def Dev.advertise (d : Dev) (p : Nat) : Dev :=
  let d := if d.trl.idValid then d.sendRoute p d.nodeId else d
  d.destinations.foldl (fun d dest => if (d.pathOf dest).isSome then d.sendRoute p dest else d) d

/-! Discovery and ids (R508, R509). -/

/-- Take a node id (R509). -/
def Dev.takeId (d : Dev) (id : Nat) : Dev :=
  if d.trl.idValid ∧ d.nodeId = id then d
  else
    let d := { d with nodeId := id % 4096, trl := { d.trl with idValid := true } }
    (d.evt 306 8).floodRoute (id % 4096)

/-- Drop the node id. -/
def Dev.dropId (d : Dev) : Dev :=
  if d.trl.idValid then ({ d with nodeId := 0, trl := { d.trl with idValid := false } }).floodRoute d.nodeId else d

/-- The id that the root gives a UID: the preferred one if no other UID holds it, else the lowest free (R509). -/
def Dev.grantFor (d : Dev) (uid : Nat) (pref : Option Nat) : Nat :=
  let free := fun (i : Nat) => match aget d.trl.uids i with | some u => u == uid | none => !(d.trl.idValid && i == d.nodeId && uid != ownUid)
  match pref with
  | some i => if free i then i else ((List.range 4096).find? free).getD 0
  | none => match d.trl.uids.find? fun p => p.2 == uid with
    | some p => p.1
    | none => ((List.range 4096).find? free).getD 0

/-- The root keeps the UID of an id (R509). -/
def Dev.noteUid (d : Dev) (id uid : Nat) : Dev := { d with trl := { d.trl with uids := aset d.trl.uids id (some uid) } }

/-- TRL_CFG.EN. -/
def Dev.trlOn (d : Dev) : Bool := d.bit Reg.TRL_CFG 0

/-- This node is the root (R508). -/
def Dev.isRoot (d : Dev) : Bool := d.trlOn && d.trl.root == ownUid

/-- The preferred id that TRL_NODE asks for (R509). -/
def Dev.prefId (d : Dev) : Option Nat := if d.bit Reg.TRL_NODE 31 then some (d.fld Reg.TRL_NODE 0 12) else none

/-- A node in AUTO mode without an id takes one as root, or sends ID_REQ up the tree (R509). -/
def Dev.wantId (d : Dev) : Dev :=
  if !d.trlOn || d.bit Reg.TRL_CFG 1 || d.trl.idValid || d.trlHeld then d
  else if d.isRoot then
    let id := d.grantFor ownUid d.prefId
    (d.noteUid id ownUid).takeId id
  else match d.trl.parent with
    | none => d
    | some p =>
      let w := match d.prefId with | some i => i + 2 ^ 15 | none => 0
      d.cellTx p ⟨0, 4, 2, 0, 0, 0, false, false, leBytes 8 ownUid ++ leBytes 2 w ++ [0, 0], d.lt⟩

/-- The master of line time is lost to a node in FABRIC mode (R579): alarm LT_LOST, whose subject is the master. Its node id is the one the
root's UID held (log 44). -/
def Dev.ltLost (d : Dev) (oldRoot : Nat) : Dev :=
  let subj := match d.trl.uids.find? fun p => p.2 == oldRoot with | some p => p.1 | none => 0
  d.almReport subj 0x15 1 (2 ^ (d.nodeId % 64)) d.lt 0 d.nodeId false

/-- The root, the parent port and the tree ports, from what the peers say (R508). -/
def Dev.trlTopology (d : Dev) : Dev :=
  let up := (List.range 8).filter fun p => d.trlUp p
  let root := if d.trlOn then up.foldl (fun m p => min m (d.trlPort p).rootSeen) ownUid else 0
  let cand := up.filter fun p => (d.trlPort p).rootSeen == root && decide ((d.trlPort p).hopsSeen < 32)
  let better := fun (p q : Nat) =>
    decide ((d.trlPort p).hopsSeen < (d.trlPort q).hopsSeen) || ((d.trlPort p).hopsSeen == (d.trlPort q).hopsSeen &&
      decide (d.rd (Reg.TRL_PORT_UID p) < d.rd (Reg.TRL_PORT_UID q)))
  let par := if root = ownUid ∨ root = 0 then none
    else cand.foldl (fun m p => match m with | none => some p | some q => if better p q then some p else some q) none
  let hops := match par with | some p => (d.trlPort p).hopsSeen + 1 | none => 0
  let puid := match par with | some p => d.rd (Reg.TRL_PORT_UID p) | none => 0
  let was := d.trl.root
  let t := { d.trl with root := root, rootHops := hops, parent := par, parentUid := puid }
  let t := if was = root then t else { t with sync := 0 }
  let d := (d.setTrl t).wr Reg.TRL_ROOT_UID root
  let d := forN 8 (fun p d =>
    let tree := d.trlUp p && (par == some p || (d.trlPort p).parentSeen == ownUid)
    (d.setF (Reg.TRL_PORT_STATUS p) 2 1 (b2n tree)).setF (Reg.TRL_PORT_STATUS p) 3 1 (b2n (par == some p))) d
  let d := if was ≠ root ∧ root ≠ 0 ∧ was ≠ 0 then d.evt 306 32 else d
  let gone := decide (was ≠ 0 ∧ was ≠ ownUid) && (root == 0 || decide (was < root))
  let d := if gone && d.bit Reg.BEAM_LT_CTRL 0 then d.ltLost was else d
  d.wantId

/-- The id of this node is also another UID's (R509): the higher UID drops it. -/
def Dev.dupId (d : Dev) (uid : Nat) : Dev :=
  let d := (d.evt 306 16).alarm 0x07 d.nodeId
  if uid < ownUid then d.dropId.wantId else d

/-! Cells in and out. -/

/-- ACK of a cell: the window of the port up to it is released (R506). -/
def Dev.cellAck (d : Dev) (p ack : Nat) : Dev :=
  let q := d.trlPort p
  let keep := q.window.filter fun c => !((ack + 65536 - c.seq) % 65536 < 32768)
  (d.setTrlPort p { q with window := keep }).cellPump p

/-- Send a cell toward its destination, or on the tree (R507, R510). -/
def Dev.forward (d : Dev) (h : CellHdr) (cls sub : Nat) (bs : List Nat) : Dev :=
  let c : Cell := ⟨0, cls, sub, h.dst.toNat, h.src.toNat, h.hops.toNat + 1, h.tree, h.alt, bs, d.lt⟩
  if 32 ≤ h.hops.toNat then (d.inc Reg.TRL_HOP_DROP).evt 306 8192
  else if h.tree then d.cellFlood c (some h.port.val)
  else d.cellRoute c

/-- The cell that a header and a payload make (R503). -/
def cellOf (h : CellHdr) (cls sub : Nat) (bs : List Nat) : Cell :=
  ⟨h.seq.toNat, cls, sub, h.dst.toNat, h.src.toNat, h.hops.toNat, h.tree, h.alt, bs, 0⟩

/-- A cell is good: its check sequence, its LEN and its SUB (R503). -/
def cellGood (h : CellHdr) (cls sub : Nat) (bs : List Nat) : Bool :=
  h.ok && bs.length % 4 == 0 && decide (bs.length ≤ 256) &&
    (cellOf h cls sub bs).octets h.ack.toNat == ((cellOf h cls sub bs).octets h.ack.toNat).take (12 + bs.length) ++ leBytes 4 h.fcs.toNat

/-- A cell arrives (R503, R506, R507): it is counted and discarded when bad or out of sequence, its ACK is taken, and it is handled here by
`f` or forwarded by `fwd`. `near` cells concern the neighbour alone. -/
def Dev.cellIn (d : Dev) (h : CellHdr) (cls sub : Nat) (bs : List Nat) (near : Bool) (fwd f : Dev → Dev) : Dev :=
  let p := h.port.val
  if d.trlState p < 2 then d
  else if !cellGood h cls sub bs then d.inc (Reg.TRL_PORT_CRC p)
  else if d.trlState p = 2 ∧ !near then d
  else
    let d := d.cellAck p h.ack.toNat
    let q := d.trlPort p
    if relClass cls && h.seq.toNat != q.rxNext then d
    else
      let d := if relClass cls then d.setTrlPort p { q with rxNext := (q.rxNext + 1) % 65536 } else d
      if near then f d
      else if h.tree then f (fwd d)
      else if d.trl.idValid ∧ d.nodeId = h.dst.toNat then f d
      else fwd d

/-- The usual cell: forwarded as it is. -/
def Dev.cellAt (d : Dev) (h : CellHdr) (cls sub : Nat) (bs : List Nat) (f : Dev → Dev) : Dev :=
  d.cellIn h cls sub bs false (fun d => d.forward h cls sub bs) f

/-- TRELLIS_LANE_LOCK (R502). -/
def Dev.trlLock (d : Dev) (p : Nat) : Dev :=
  if d.trlState p = 1 then
    (d.setTrlPort p { d.trlPort p with hellos := 0 }).setF (Reg.TRL_PORT_STATUS p) 4 4 15 |>.setTrlState p 2
  else d

/-- Failover of a port that has left UP (R511). -/
def Dev.failover (d : Dev) (p : Nat) : Dev :=
  let lost := (d.trl.prim.filter fun x => x.2 == p + 1).map (·.1)
  let q := d.trlPort p
  let old := (q.window ++ q.waiting).filter fun c => !c.tree
  let d := d.setTrlPort p { (default : TrlPort) with bytes := q.bytes }
  let moved := lost.filter fun n => tget d.trl.alt n != 0 && tget d.trl.alt n != p + 1
  let all := d.destinations.foldl (fun a n => if a.contains n then a else a ++ [n]) lost
  let d := all.foldl (fun d n => d.reroute n) d
  let d := if moved.isEmpty then d else (d.addSat Reg.TRL_FAILOVERS moved.length).evt 306 4
  old.foldl (fun d c => d.cellRoute { c with alt := true }) d

/-- A port leaves HELLO or UP: it knows of no peer then (R502, R511, R524). -/
def Dev.trlLeave (d : Dev) (p st : Nat) : Dev :=
  let was := d.trlState p
  let d := (d.wr (Reg.TRL_PORT_STATUS p) (st + if st = 2 then 0xF0 else 0)).wr (Reg.TRL_PORT_UID p) 0
  if was = 3 then (((d.evt 306 2).inc (Reg.TRL_PORT_DOWN p)).failover p).trlTopology
  else d.setTrlPort p default

/-- PORT_DOWN (R502). -/
def Dev.portDown (d : Dev) (p : Nat) : Dev := if d.trlState p < 2 then d else d.trlLeave p 1

/-- TRL_PORT_CFG.EN was committed (R502). -/
def Dev.trlPortChanged (d : Dev) (p : Nat) : Dev :=
  if d.bit (Reg.TRL_PORT_CFG p) 0 then (if d.trlState p = 0 then d.setTrlState p 1 else d)
  else if d.trlState p = 0 then d else d.trlLeave p 0

/-- TRL_CFG or TRL_NODE was committed (R509). -/
def Dev.trlCfgChanged (d : Dev) : Dev :=
  let d := if !d.trlOn then d.dropId
    else if d.bit Reg.TRL_CFG 1 && !d.trlHeld then d.takeId (d.fld Reg.TRL_NODE 0 12)
    else d
  d.trlTopology

/-- Every port that is UP returns to HELLO (R535, R540). -/
def Dev.trlToHello (d : Dev) : Dev :=
  (forN 8 (fun p d => if d.trlUp p then d.trlLeave p 2 else d) d).trlTopology

/-- HELLO (R502, R508, R509). -/
def Dev.hello (d : Dev) (h : CellHdr) (bs : List Nat) : Dev :=
  d.cellIn h 4 0 bs true (fun d => d) fun d =>
    let p := h.port.val
    let uid := leAt bs 0 8
    let id := leAt bs 16 2
    let q := { d.trlPort p with rootSeen := leAt bs 8 8, hopsSeen := bits (leAt bs 18 1) 0 6, parentSeen := leAt bs 24 8 }
    let q := { q with hellos := if uid ≠ ownUid then q.hellos + 1 else 0 }
    let d := (d.setTrlPort p q).wr (Reg.TRL_PORT_UID p) uid
    let d := (d.setF (Reg.TRL_PORT_STATUS p) 20 1 (id / 2 ^ 15)).setF (Reg.TRL_PORT_STATUS p) 8 12 id
    let rise := d.trlState p = 2 ∧ 2 ≤ q.hellos ∧ !d.trlHeld
    let d := if rise then (d.setTrlState p 3).evt 306 1 else d
    let d := d.trlTopology
    let d := if rise then d.advertise p else d
    if tb id 15 && uid != ownUid then
      let d := if d.isRoot && (aget d.trl.uids (id % 4096)).isNone then d.noteUid (id % 4096) uid else d
      if d.trl.idValid && d.nodeId == id % 4096 then d.dupId uid else d
    else d

/-- ROUTE (R510): each record is stored or withdrawn, and its destination routed again. -/
def Dev.route (d : Dev) (h : CellHdr) (bs : List Nat) : Dev :=
  d.cellIn h 4 1 bs true (fun d => d) fun d =>
    let p := h.port.val
    if !d.trlUp p then d
    else
      (List.range (bs.length / 72)).foldl (fun d i =>
        let r := bs.drop (72 * i)
        let dest := leAt r 0 2 % 4096
        let hops := leAt r 2 1
        let path := ((List.range 32).map fun j => leAt r (8 + 2 * j) 2 % 4096).take (hops + 1)
        let bad := (d.trl.idValid && (path.contains d.nodeId || dest == d.nodeId)) || decide (32 < hops + 1)
        let q := d.trlPort p
        let v : Option Route := if tb (leAt r 0 2) 15 then none else some ⟨hops, leAt r 4 2, path⟩
        if bad && v.isSome then d
        else (d.setTrlPort p { q with routes := aset q.routes dest v }).reroute dest) d

/-- Send a grant to a requester whose request came in on port `p` (R509). -/
def Dev.sendGrant (d : Dev) (p uid id : Nat) : Dev :=
  d.cellTx p ⟨0, 4, 3, 0, d.nodeId, 0, false, false, leBytes 8 uid ++ leBytes 2 (id + 2 ^ 15) ++ [0, 0], d.lt⟩

/-- ID_REQ (R509): granted by the root, else passed up the tree. -/
def Dev.idReq (d : Dev) (h : CellHdr) (bs : List Nat) : Dev :=
  d.cellIn h 4 2 bs true (fun d => d) fun d =>
    let p := h.port.val
    let uid := leAt bs 0 8
    let w := leAt bs 8 2
    if d.isRoot then
      let id := d.grantFor uid (if tb w 15 then some (w % 4096) else none)
      (d.noteUid id uid).sendGrant p uid id
    else match d.trl.parent with
      | none => d
      | some q =>
        let d := { d with trl := { d.trl with asked := aset d.trl.asked uid (some p) } }
        d.cellTx q ⟨0, 4, 2, 0, 0, h.hops.toNat + 1, false, false, bs, d.lt⟩

/-- ID_GRANT (R509): taken, or passed down the path that the request took. -/
def Dev.idGrant (d : Dev) (h : CellHdr) (bs : List Nat) : Dev :=
  d.cellIn h 4 3 bs true (fun d => d) fun d =>
    let uid := leAt bs 0 8
    let id := leAt bs 8 2
    if uid = ownUid then (if tb id 15 && !d.bit Reg.TRL_CFG 1 then d.takeId (id % 4096) else d)
    else match aget d.trl.asked uid with
      | some p => ({ d with trl := { d.trl with asked := aset d.trl.asked uid none } }).sendGrant p uid (id % 4096)
      | none => d

/-- CELL_REPLAY (R506): unacknowledged cells, the oldest of them older than 1 µs, are sent again in order. -/
def Dev.cellReplay (d : Dev) (p : Nat) : Dev :=
  let q := d.trlPort p
  match q.window with
  | [] => d
  | c :: _ =>
    if d.lt < c.at0 + 1000 || !d.trlUp p then d
    else
      let w := q.window.map fun c => { c with at0 := d.lt }
      w.foldl (fun d c => d.portSend p c) ((d.setTrlPort p { q with window := w }).inc (Reg.TRL_PORT_REPLAY p))

/-- Fields of an ALARM payload (R522). -/
def almPayload (subject fclass count bitmap first last detail reporter : Nat) (summary : Bool) : List Nat :=
  leBytes 2 subject ++ leBytes 2 fclass ++ leBytes 4 count ++ leBytes 8 bitmap ++ leBytes 8 first ++ leBytes 8 last ++
    leBytes 4 detail ++ leBytes 2 reporter ++ [b2n summary, 0]

/-- An alarm cell's report reaches this node's merge table (R581). -/
def Dev.almCell (d : Dev) (bs : List Nat) (held : Bool) : Dev :=
  d.almReport (leAt bs 0 2 % 4096) (leAt bs 2 2) (leAt bs 4 4) (leAt bs 8 8) (leAt bs 16 8) (leAt bs 32 4) (leAt bs 36 2 % 4096) held

/-- UNREACHABLE_HOLD_EXPIRY (R511): the oldest held cell has waited 1 ms. -/
def Dev.holdExpiry (d : Dev) : Dev :=
  match d.trl.held with
  | [] => d
  | c :: t =>
    if d.lt < c.at0 + 1000000 then d
    else
      let d := { d with trl := { d.trl with held := t } }
      if tget d.trl.prim c.dst != 0 || tget d.trl.alt c.dst != 0 then d.cellRoute c
      else if c.cls = 1 then d.almCell c.payload true else d

/-! Line time and line beams (R512 to R514). -/

/-- The node sends SYNC to its parent in FABRIC mode, every 10 µs (R512). -/
def Dev.syncSend (d : Dev) : Dev :=
  match d.trl.parent with
  | some p =>
    if d.bit Reg.BEAM_LT_CTRL 0 && decide (d.trl.syncAt ≤ d.lt) then
      (d.setTrl { d.trl with syncAt := d.lt + 10000 }).cellTx p ⟨0, 0, 0, 0, d.nodeId, 0, false, false, leBytes 8 d.lt, d.lt⟩
    else d
  | none => d

/-- SYNC: sent (no cell), or received and answered (R512). -/
def Dev.sync (d : Dev) (rx : Option (CellHdr × List Nat)) : Dev :=
  match rx with
  | none => d.syncSend
  | some (h, bs) =>
    d.cellIn h 0 0 bs true (fun d => d) fun d =>
      d.cellTx h.port.val ⟨0, 0, 1, 0, d.nodeId, 0, false, false, leBytes 8 (leAt bs 0 8) ++ leBytes 8 d.lt ++ leBytes 8 d.lt, d.lt⟩

/-- The offset and delay of an exchange (R512): the counter's rate is corrected, or stepped at the first lock (R57). `follow` says that
corrections apply. -/
def Dev.ltExchange (d : Dev) (t1 t2 t3 : Nat) (follow step : Bool) : Nat × Int × Dev :=
  let delay : Int := (((d.lt : Int) - t1) - ((t3 : Int) - t2)) / 2
  let ofs : Int := (t2 : Int) - t1 - delay
  let d := if !follow then d
    else if step then { d with lt := ((d.lt : Int) + ofs).toNat % 2 ^ 64 }
    else { d with tick := { d.tick with ltAdj := ofs * 100000 } }
  (delay.toNat, ofs, d)

/-- SYNC_REPLY (R57, R512): link delay, offset, and the correction; a node holds its rate until three exchanges with a new parent. -/
def Dev.syncReply (d : Dev) (h : CellHdr) (bs : List Nat) : Dev :=
  d.cellIn h 0 1 bs true (fun d => d) fun d =>
    let p := h.port.val
    if d.trl.parent ≠ some p ∨ !d.bit Reg.BEAM_LT_CTRL 0 ∨ d.follows then d
    else
      let n := d.trl.sync + 1
      let allOff := (List.range 8).all fun b => (d.beam b).mode == .off
      let first := !d.tick.firstLock
      let follow := decide (3 ≤ n) || first
      let step := first && d.bit Reg.BEAM_LT_CTRL 1 && allOff
      let (delay, ofs, d) := d.ltExchange (leAt bs 0 8) (leAt bs 8 8) (leAt bs 16 8) follow step
      let hops := d.trl.rootHops
      let bound : Int := 2 + hops
      let lock := step || (decide (-bound ≤ ofs) && decide (ofs ≤ bound))
      let d := { d with trl := { d.trl with sync := n }, tick := { d.tick with firstLock := d.tick.firstLock || lock } }
      let d := ((d.wr (Reg.TRL_PORT_DELAY p) (min delay 65535)).wr Reg.BEAM_LT_OFS (tw 32 ofs)).setF Reg.BEAM_LT_STATUS 0 1 (b2n lock)
      d.setF Reg.BEAM_LT_STATUS 2 6 hops

/-- LBEAM (R513): an exported line beam whose period has passed is flooded. -/
def Dev.lbeamSend (d : Dev) (k : Nat) : Dev :=
  let e := d.rd (Reg.TRL_LB_EXP k)
  if !tb e 31 || decide (d.lt < tget d.trl.lbNext k) then d
  else
    let d := { d with trl := { d.trl with lbNext := tput d.trl.lbNext k (d.lt + max 1000 (d.fld Reg.TRL_LB_PERIOD 0 16)) } }
    let r := d.record (bits e 0 3) 0
    d.cellFlood ⟨0, 0, 2, 0, d.nodeId, 0, true, false, [k, 0, 0, 0] ++ r.bytes, d.lt⟩ none

/-- LBEAM_RECEIVE (R514): the record of the exporter with the lowest node id feeds the line beam. A node that has sent none for twice the longest
period exports the line beam no longer (DEDUCED, log 106). -/
def Dev.lbeamIn (d : Dev) (h : CellHdr) (bs : List Nat) : Dev :=
  d.cellAt h 0 2 bs fun d =>
    let k := leAt bs 0 1 % 64
    let src := h.src.toNat
    let r := recOfBytes (bs.drop 4)
    let have_ := aget d.trl.lbeam k
    let other := match have_ with | some (n, _, t) => n != src && decide (d.lt < t + 2 * 65535) | none => false
    let d := if other then d.evt 306 1024 else d
    let lower := match have_ with | some (n, _) => !other || decide (src ≤ n) | none => true
    if !lower then d
    else
      let d := { d with trl := { d.trl with lbeam := aset d.trl.lbeam k (some (src, r, d.lt)) } }
      let d := d.takeRecord (16 + k) (max 1000 (d.fld Reg.TRL_LB_PERIOD 0 16)) r
      forN 8 (fun b d =>
        if d.fld (Reg.BEAM_CTRL b) 1 3 == 2 && d.fld (Reg.BEAM_SRC_SEL b) 0 6 == k then
          d.setBeam b { d.beam b with lossTicks := 0 }
        else d) d

/-! Item handoff (R181, R517 to R519, R540). -/

/-- Send a cell of a handoff once the standby, if there is one, has the step (R540). -/
def Dev.hoSend (d : Dev) (step slot txn node : Nat) (rec_ : List Nat) (sub : Nat) (bs : List Nat) : Dev :=
  if !d.feeds then d.cellSend 3 sub node bs
  else
    let g := d.grf.gseq
    let d := d.graftTx 9 ([step, 0] ++ leBytes 2 slot ++ leBytes 4 txn ++ leBytes 2 node ++ [0, 0] ++ rec_)
    if d.paired then { d with grf := { d.grf with await := d.grf.await ++ [(g, 3, sub, node, bs)] } }
    else d.cellSend 3 sub node bs

/-- An item whose handoff failed is LIVE again (R181, R519). -/
def Dev.hoBack (d : Dev) (slot id : Nat) : Dev :=
  let i := d.item slot
  if i.state = 2 ∧ i.id = id then ((d.setItem slot { i with state := 1 }).evt 98 2048).raise 101 id else d

def Dev.dropOffer (d : Dev) (o : Offer) : Dev := { d with trl := { d.trl with offers := d.trl.offers.filter (· != o) } }

/-- ACTION_HANDOFF (R181, R205, R206, R509, R517). -/
def Dev.actHandoff (d : Dev) (s slot : Nat) : Dev :=
  let arg := d.rd (Reg.STN_ARG s)
  let named := d.trl.idValid && ((d.item slot).id / 2 ^ 20 != 0 || d.nodeId == 0)
  let live := d.actLive
  d.act s slot 8 (fun e => named && live e) fun e t d =>
    let i := d.item slot
    let d := d.setItem slot { i with state := 2 }
    if 256 ≤ d.trl.offers.length then d.hoBack slot i.id
    else
      let txn := d.trl.txn
      let node := bits arg 0 12
      let o : Offer := ⟨txn, node, slot, e.id, d.lt, none, false⟩
      let d := { d with trl := { d.trl with txn := (txn + 1) % 2 ^ 32, offers := d.trl.offers ++ [o] } }
      d.hoSend 1 slot txn node (List.replicate 64 0) 0
        (leBytes 4 txn ++ [bits arg 12 4, 0, 0, 0] ++ leBytes 8 t ++ (d.item slot).bytes)

/-- A REFUSE of an offer. -/
def Dev.refuseOffer (d : Dev) (node txn id cause : Nat) : Dev :=
  ((d.inc Reg.TRL_HO_REFUSED).evt 306 64).cellSend 3 2 node (leBytes 4 txn ++ leBytes 4 id ++ [cause, 0, 0, 0])

/-- The record that an offer reserves (R178, R518). -/
def Dev.offerRecord (d : Dev) (ch tA : Nat) (i : Item) : Item :=
  let cfg := d.rd (Reg.TRL_HIN_CFG ch)
  let b := bits cfg 20 3
  let (l, _, _) := d.posAt b tA
  let l := (l - sx 32 (d.rd (Reg.TRL_HIN_DIST ch)) * 2 ^ 32) % modL (d.fpf b)
  let len := i.len * d.rd (Reg.TRL_HIN_SCALE ch) / 65536 % 2 ^ 32
  let v := i.verdict ||| (if i.vpend ≠ 0 then 32 else 0) ||| (if i.printing then 8 else 0) ||| 128
  let i := { i with state := 1, vpend := 0, measuring := false, printing := false, origin := 3, beam := b }
  { i with lane := if tb cfg 29 then bits cfg 24 5 else i.lane, pos := posOf (d.fpf b) l, len := len, verdict := v }

/-- OFFER at the downstream node (R518); a repeated one is not taken twice (R506). With ITEM_CTRL.EN = 0 no slot may be taken, so the offer is refused as
FULL; a record reserved before is sown all the same (R192; DESIGN CHOICE, log 93). -/
def Dev.offer (d : Dev) (h : CellHdr) (bs : List Nat) : Dev :=
  d.cellAt h 3 0 bs fun d =>
    let txn := leAt bs 0 4
    let ch := leAt bs 4 1 % 16
    let tA := leAt bs 8 8
    let i := itemOfBytes (bs.drop 16)
    let node := h.src.toNat
    let cfg := d.rd (Reg.TRL_HIN_CFG ch)
    if d.trl.seenTxn.contains (node, txn) then d
    else
      let d := { d with trl := { d.trl with seenTxn := (d.trl.seenTxn ++ [(node, txn)]) } }
      if !tb cfg 31 then d.refuseOffer node txn i.id 1
      else if !tb cfg 30 && bits cfg 0 12 != node then d.refuseOffer node txn i.id 2
      else
        let (slot, d') := if d.bit Reg.ITEM_CTRL 0 then d.takeSlot false else (none, d.inc Reg.ITEM_SOW_DROP)
        match slot with
        | none => d'.refuseOffer node txn i.id 3
        | some n =>
          if (d.beam (bits cfg 20 3)).mode ≠ .run then d.refuseOffer node txn i.id 4
          else if tA + d.fld Reg.TRL_HO_AGE 0 16 * 1000 < d.lt then d.refuseOffer node txn i.id 5
          else if 64 ≤ d.trl.resv.length then d.refuseOffer node txn i.id 6
          else
            let r := d'.offerRecord ch tA i
            let d := { d' with trl := { d'.trl with resv := d'.trl.resv ++ [(⟨txn, node, n, i.id, d'.lt, some r, false⟩ : Offer)] } }
            d.hoSend 2 n txn node r.bytes 1 (leBytes 4 txn ++ leBytes 4 i.id)

def Dev.findOffer (d : Dev) (node txn : Nat) : Option Offer := d.trl.offers.find? fun o => o.txn == txn && o.node == node

def Dev.findResv (d : Dev) (node txn : Nat) : Option Offer := d.trl.resv.find? fun o => o.txn == txn && o.node == node

/-- ACCEPT upstream (R519): the item is harvested with reason HANDOFF and DONE is sent. -/
def Dev.hoAccept (d : Dev) (h : CellHdr) (bs : List Nat) : Dev :=
  d.cellAt h 3 1 bs fun d =>
    match d.findOffer h.src.toNat (leAt bs 0 4) with
    | none => d
    | some o =>
      let d := d.dropOffer o
      let i := d.item o.slot
      if i.state ≠ 2 ∨ i.id ≠ o.id then d.cellSend 3 4 o.node (leBytes 4 o.txn ++ leBytes 4 o.id)
      else
        let d := (d.harvest o.slot 2 true).inc Reg.TRL_HO_OUT
        d.hoSend 3 o.slot o.txn o.node (List.replicate 64 0) 3 (leBytes 4 o.txn ++ leBytes 4 o.id)

/-- REFUSE upstream (R519). -/
def Dev.hoRefuse (d : Dev) (h : CellHdr) (bs : List Nat) : Dev :=
  d.cellAt h 3 2 bs fun d =>
    match d.findOffer h.src.toNat (leAt bs 0 4) with
    | none => d
    | some o => (d.dropOffer o).hoBack o.slot o.id

/-- Sow a reserved record (R172, R519). -/
def Dev.sowReserved (d : Dev) (o : Offer) : Dev :=
  let d := { d with trl := { d.trl with resv := d.trl.resv.filter (· != o) } }
  match o.record with
  | none => d
  | some r =>
    let d := (d.setItem o.slot r).verdictSummary o.slot
    let d := if o.recovered then (d.setVerdict o.slot 256).inc Reg.GRF_RECOVERED else d
    (((d.listIn r.beam o.slot).touchCheck o.slot).lateEntry o.slot).inc Reg.TRL_HO_IN

/-- DONE downstream (R519). -/
def Dev.hoDone (d : Dev) (h : CellHdr) (bs : List Nat) : Dev :=
  d.cellAt h 3 3 bs fun d =>
    match d.findResv h.src.toNat (leAt bs 0 4) with
    | none => d
    | some o => d.sowReserved o

/-- Release a reservation and its slot. -/
def Dev.dropResv (d : Dev) (o : Offer) : Dev :=
  let d := { d with trl := { d.trl with resv := d.trl.resv.filter (· != o) } }
  { d with items := { d.items with freed := d.items.freed ++ [o.slot] } }

/-- ABORT downstream (R519). -/
def Dev.hoAbort (d : Dev) (h : CellHdr) (bs : List Nat) : Dev :=
  d.cellAt h 3 4 bs fun d =>
    match d.findResv h.src.toNat (leAt bs 0 4) with
    | none => d
    | some o => d.dropResv o

/-- TRL_HO_TMO: the oldest offer without an answer for TRL_HO_TMO µs is aborted (R519). -/
def Dev.hoTmo (d : Dev) : Dev :=
  match d.trl.offers with
  | [] => d
  | o :: _ =>
    if d.lt < o.at0 + max 1 (d.fld Reg.TRL_HO_TMO 0 16) * 1000 then d
    else ((d.dropOffer o).cellSend 3 4 o.node (leBytes 4 o.txn ++ leBytes 4 o.id)).hoBack o.slot o.id

/-- HO_LOST: the oldest reservation with neither DONE nor ABORT for TRL_HO_HOLD ms is released (R519). -/
def Dev.hoLost (d : Dev) : Dev :=
  match d.trl.resv with
  | [] => d
  | o :: _ =>
    if d.lt < o.at0 + max 1 (d.fld Reg.TRL_HO_HOLD 0 16) * 1000000 then d
    else (((d.dropResv o).evt 306 128).inc Reg.TRL_HO_LOST).alarm 0x05 o.id

/-! Line commits (R520, R521). -/

/-- The armed line commit of this node with an LCID. -/
def Dev.lcGroup (d : Dev) (lcid : Nat) : Option Nat :=
  (List.range 8).find? fun g => let q := d.grp g; q.mode == .armed && q.fabric && d.armedCsn g == lcid

/-- Answer a line-commit initiator: 1 READY, 2 REFUSE, 5 RESULT. -/
def Dev.lcAnswer (d : Dev) (sub node : Nat) (bs : List Nat) : Dev := d.cellSend 2 sub node bs

/-- The local group of a line commit fails (R520). -/
def Dev.lcFail (d : Dev) (g : Nat) : Dev :=
  (((d.abortMsgs g).inc Reg.COMMIT_RETIRED).failGrp g).evt 306 256

/-- ABORT to every peer of a line commit, and the local group fails (R520). -/
def Dev.lcAbortAll (d : Dev) (g lcid : Nat) : Dev :=
  let d := (d.grp g).peers.foldl (fun d n => d.cellSend 2 4 n (leBytes 4 lcid)) d
  (d.lcFail g).setF (Reg.TRL_LC_STATUS g) 16 3 3

/-- PREPARE at a peer (R521): a repeated one is discarded (R506). -/
def Dev.prepare (d : Dev) (h : CellHdr) (bs : List Nat) : Dev :=
  d.cellAt h 2 0 bs fun d =>
    let lcid := leAt bs 0 4
    let g := leAt bs 4 1 % 8
    let t := leAt bs 8 8
    let node := h.src.toNat
    let q := d.grp g
    if d.trl.seenLc.contains (node, lcid) then d
    else
      let d := { d with trl := { d.trl with seenLc := d.trl.seenLc ++ [(node, lcid)] } }
      let cause := if !d.bit (Reg.COMMIT_GRP_CTRL g) 8 then 1 else if q.mode = .pending ∨ q.mode = .armed then 2
        else if q.why ≠ 0 then 3 else if t ≤ d.lt then 4 else 0
      if cause ≠ 0 then d.lcAnswer 2 node (leBytes 4 lcid ++ [cause, 0, 0, 0])
      else
        let q := { d.goGrp q 29 with bnd := 4, fabric := false, ltTarget := t, lineMoved := false }
        let q := { q with peer := true, peerTxn := lcid, peerFrom := node }
        (({ d with commit := { d.commit with order := d.commit.order + 1 } }).setGrp g q).lcAnswer 1 node (leBytes 4 lcid)

/-- READY at the initiator (R520). -/
def Dev.lcReady (d : Dev) (h : CellHdr) (bs : List Nat) : Dev :=
  d.cellAt h 2 1 bs fun d =>
    match d.lcGroup (leAt bs 0 4) with
    | none => d
    | some g =>
      let q := d.grp g
      let n := h.src.toNat
      if q.ready.contains n || !q.peers.contains n then d
      else (d.setGrp g { q with ready := q.ready ++ [n] }).setF (Reg.TRL_LC_STATUS g) 0 5 (q.ready.length + 1)

/-- LC_REFUSE at the initiator: the commit is aborted everywhere (R520, R521). -/
def Dev.lcRefuse (d : Dev) (h : CellHdr) (bs : List Nat) : Dev :=
  d.cellAt h 2 2 bs fun d =>
    match d.lcGroup (leAt bs 0 4) with
    | none => d
    | some g =>
      let d := if (d.grp g).refusedBy.isEmpty then d.setF (Reg.TRL_LC_STATUS g) 20 12 h.src.toNat else d
      d.lcAbortAll g (leAt bs 0 4)

/-- CONFIRM_POINT of group `g` (R520): CONFIRM if every peer answered READY and the arm deadline, 150 ns before the apply point, has not passed
(R90, R93); else ABORT. -/
def Dev.confirmPoint (d : Dev) (g : Nat) : Dev :=
  let q := d.grp g
  let lead := max 2 (d.fld (Reg.TRL_LC_CFG g) 8 8) * 1000
  if q.mode ≠ .armed ∨ !q.fabric ∨ q.peers.isEmpty ∨ q.confirmed ∨ d.lt + lead < q.applyLt then d
  else
    let lcid := d.armedCsn g
    if q.ready.length == q.peers.length && decide (d.lt + 150 ≤ q.applyLt) then
      let d := q.peers.foldl (fun d n => d.cellSend 2 3 n (leBytes 4 lcid)) d
      (d.setGrp g { q with confirmed := true }).setF (Reg.TRL_LC_STATUS g) 16 3 2
    else d.lcAbortAll g lcid

/-- The peer group that a line commit of another node has triggered. -/
def Dev.peerGroup (d : Dev) (node lcid : Nat) : Option Nat :=
  (List.range 8).find? fun g => let q := d.grp g
    q.peer && q.peerFrom == node && q.peerTxn == lcid && (q.mode == .armed || q.mode == .pending)

/-- CONFIRM at a peer: it counts if it comes at least 300 ns before the apply point (R521). -/
def Dev.lcConfirm (d : Dev) (h : CellHdr) (bs : List Nat) : Dev :=
  d.cellAt h 2 3 bs fun d =>
    match d.peerGroup h.src.toNat (leAt bs 0 4) with
    | none => d
    | some g =>
      let q := d.grp g
      if d.lt + 300 ≤ q.ltTarget then d.setGrp g { q with confirmed := true } else d

/-- A peer group returns to OPEN with RESULT FAILED, and the initiator hears of it (R521). -/
def Dev.peerFail (d : Dev) (g : Nat) : Dev :=
  let q := d.grp g
  let csn := if q.mode = .armed then d.armedCsn g else 0
  let d := if q.mode = .armed then (d.abortMsgs g).inc Reg.COMMIT_RETIRED else d
  (d.failGrp g).lcAnswer 5 q.peerFrom (leBytes 4 q.peerTxn ++ leBytes 4 csn ++ [2, 0, 0, 0])

/-- LC_ABORT at a peer (R521). -/
def Dev.lcAbort (d : Dev) (h : CellHdr) (bs : List Nat) : Dev :=
  d.cellAt h 2 4 bs fun d =>
    match d.peerGroup h.src.toNat (leAt bs 0 4) with
    | none => d
    | some g => d.peerFail g

/-- LC_SPLIT of group `g`: neither CONFIRM nor ABORT by 300 ns before the apply point (R521). -/
def Dev.lcSplit (d : Dev) (g : Nat) : Dev :=
  let q := d.grp g
  if !q.peer || q.confirmed || !(q.mode == .armed || q.mode == .pending) || decide (d.lt + 300 < q.ltTarget) then d
  else ((d.peerFail g).evt 306 512).alarm 0x08 q.peerTxn

/-- LC_RESULT at the initiator (R520, R525): a peer's first one counts (R506); with the last peer's the commit is DONE. -/
def Dev.lcResult (d : Dev) (h : CellHdr) (bs : List Nat) : Dev :=
  d.cellAt h 2 5 bs fun d =>
    match (List.range 8).find? fun g => d.fld (Reg.TRL_LC_STATUS g) 16 3 != 0 && d.armedCsn g == leAt bs 0 4 with
    | none => d
    | some g =>
      let q := d.grp g
      let node := h.src.toNat
      if q.results.contains node || !q.peers.contains node then d
      else
        let l := q.results ++ [node]
        let d := d.setGrp g { q with results := l }
        let d := if leAt bs 8 1 = 1 then d.setF (Reg.TRL_LC_STATUS g) 8 5 (d.fld (Reg.TRL_LC_STATUS g) 8 5 + 1) else d
        if l.length = q.peers.length then d.setF (Reg.TRL_LC_STATUS g) 16 3 4 else d

/-! Alarms (R522, R523). -/

/-- Forward an alarm cell through the merge table (R522). -/
def Dev.almForward (d : Dev) (h : CellHdr) (bs : List Nat) : Dev :=
  let dst := h.dst.toNat
  let subject := leAt bs 0 2 % 4096
  let fclass := leAt bs 2 2
  match d.trl.merge.find? fun m => m.dst == dst && m.subject == subject && m.fclass == fclass with
  | some m =>
    let m' := { m with count := min (m.count + leAt bs 4 4) 0xFFFFFFFF, bitmap := m.bitmap ||| leAt bs 8 8, merged := true }
    let m' := { m' with firstLt := if m.merged then min m.firstLt (leAt bs 16 8) else leAt bs 16 8, lastLt := max m.lastLt (leAt bs 24 8) }
    let m' := if m.merged then m' else { m' with detail := leAt bs 32 4, reporter := leAt bs 36 2 }
    ({ d with trl := { d.trl with merge := d.trl.merge.map fun x => if x == m then m' else x } }).inc Reg.TRL_ALM_MERGED
  | none =>
    let d := d.forward h 1 0 bs
    if 128 ≤ d.trl.merge.length then (d.inc Reg.TRL_ALM_UNMERGED).evt 306 4096
    else
      let m : AlmWin := ⟨dst, subject, fclass, 0, 0, 0, 0, 0, 0, d.lt + 1000000, false⟩
      { d with trl := { d.trl with merge := d.trl.merge ++ [m] } }

/-- ALARM (R522, R577): taken by a collector, forwarded by any other node. -/
def Dev.alarmCell (d : Dev) (h : CellHdr) (bs : List Nat) : Dev :=
  d.cellIn h 1 0 bs false (fun d => d.almForward h bs) fun d => if d.bit Reg.LOG_CFG 1 then d.almCell bs false else d

/-- ALARM_WINDOW_END (R522): the window that has ended sends its totals, if anything was merged. -/
def Dev.almWindowEnd (d : Dev) : Dev :=
  match d.trl.merge.find? fun m => m.ends ≤ d.lt with
  | none => d
  | some m =>
    let d := { d with trl := { d.trl with merge := d.trl.merge.filter (· != m) } }
    if m.merged then
      d.cellSend 1 0 m.dst (almPayload m.subject m.fclass m.count m.bitmap m.firstLt m.lastLt m.detail m.reporter true)
    else d

/-- A HELLO cell on port `p` (R502, R505, R508). -/
def Dev.helloSend (d : Dev) (p : Nat) : Dev :=
  let id := if d.trl.idValid then d.nodeId + 2 ^ 15 else 0
  d.cellTx p ⟨0, 4, 0, 0, d.nodeId, 0, false, false, leBytes 8 ownUid ++ leBytes 8 d.trl.root ++ leBytes 2 id ++ [d.trl.rootHops, 0, 0, 0, 0, 0] ++
    leBytes 8 d.trl.parentUid, d.lt⟩

/-- What the Trellis ports do in a beam cycle: records that have waited leave, and a port in HELLO or UP that would be silent for 1 µs sends HELLO
(R502, R510). -/
def Dev.trlCycle (d : Dev) : Dev :=
  forN 8 (fun p d =>
    if d.trlState p < 2 then d
    else
      let d := if (d.trlPort p).rtDue.isEmpty then d else d.routesDue p
      if d.lt < (d.trlPort p).sentAt + 997 then d else d.helloSend p) d

/-- The transmit load of a port over the millisecond that has ended, per mille: a byte takes 80 ps (R501, R503, R524). -/
def loadOf (bytes : Nat) : Nat := min 1000 (bytes * 2 / 25 / 1000)

/-- TRL_PORT_LOAD at the end of a millisecond (R524). -/
def Dev.trlLoad (d : Dev) : Dev :=
  forN 8 (fun p d =>
    let q := d.trlPort p
    (if q.bytes = 0 then d else d.setTrlPort p { q with bytes := 0 }).wr (Reg.TRL_PORT_LOAD p) (loadOf q.bytes)) d

/-- TRL_STATUS (R525). -/
def Dev.trlStatus (d : Dev) : Nat :=
  let up := (List.range 8).foldl (fun a p => if d.trlUp p then a + 2 ^ p else a) 0
  (if d.trl.idValid then d.nodeId + 2 ^ 12 else 0) + b2n d.isRoot * 2 ^ 13 + up * 2 ^ 16 + d.trl.rootHops % 64 * 2 ^ 24

/-- TRL_RT_DATA (R525). -/
def Dev.rtData (d : Dev) : Nat :=
  let (b, a) := d.nextHops (d.fld Reg.TRL_RT_SEL 0 12)
  (match b with | some r => r.1 + 8 + min r.2.hops 63 * 2 ^ 8 + min r.2.cost 65535 * 2 ^ 16 | none => 0) +
    (match a with | some r => r.1 * 16 + 128 | none => 0)

end Sys2Proof.Machine
end

