-- ==== Sys2Proof/Machine/Log.lean ====
section
/-! DEFINITION. The LOG block's commands: alarms to the paths, the log tail and its rings, traces and credits (R577 to R590, R624). -/
namespace Sys2Proof.Machine

/-! Paths and credits. -/

/-- A station address in the order of the wire. -/
def macBytes (m : Nat) : List Nat := (leBytes 6 m).reverse

/-- Where the frames of path 1 go (R624). -/
def Dev.ethPeer (d : Dev) : Option Nat :=
  let p := d.fld Reg.HOST_ETH_PEER 0 48
  let q := if p = 0 then d.host.lastEth else p
  if q = 0 || !d.bit Reg.HOST_CTRL 1 || !d.bit Reg.HOST_STATUS 8 then none else some q

/-- Send a management Ethernet frame: OP, STATUS, LEN, TAG, ADDR, and its data (R621, R622). -/
def Dev.ethFrame (d : Dev) (dst op status len tag addr : Nat) (data : List Nat) : Dev :=
  d.emit (.eth (macBytes dst ++ macBytes (d.fld Reg.HOST_ETH_MAC 0 48) ++ [0x88, 0xB5, op, status] ++ leBytes 2 len ++ leBytes 4 tag
    ++ leBytes 8 addr ++ leBytes 8 0 ++ data))

/-- LOG_ALM_HOLD in ns (R590). -/
def Dev.almHold (d : Dev) : Nat := max 1 (d.fld Reg.LOG_ALM_HOLD 0 16) * 1000

/-- The entry is pending on a path that carries it: enabled, or path 2 for a HELD one (R581). -/
def Dev.almPends (d : Dev) (p : Nat) (a : Alm) : Bool := tget a.pend p && (d.logPath p || (a.held && p == 2))

/-- The hold of an entry on a path is over (R582). -/
def Dev.almHeldOff (d : Dev) (p : Nat) (a : Alm) : Bool := tget a.written p == 0 || decide (tget a.written p - 1 + d.almHold ≤ d.lt)

/-- Reserves of a path in bytes per ms (R589). -/
def Dev.resAlm (d : Dev) (p : Nat) : Nat := 64 * d.fld (Reg.LOG_PATH_ALM p) 0 16

def Dev.resLog (d : Dev) (p : Nat) : Nat := 64 * d.fld (Reg.LOG_PATH_LOG p) 0 16

def Dev.resTrc (d : Dev) (p : Nat) : Nat := 64 * d.fld (Reg.LOG_PATH_TRC p) 0 16

/-- Alarm credits that logs and traces may spend: none while an alarm could use them (R589). -/
def Dev.spareAlm (d : Dev) (p : Nat) : Nat :=
  if d.log.alm.any fun e => d.almPends p e.2 && d.almHeldOff p e.2 then 0 else d.resAlm p - tget d.log.spentA p

/-- Whether a path has a log record to read (R586). -/
def Dev.logWaits (d : Dev) (p : Nat) : Bool := d.logPath p && decide (tget d.log.next p < d.log.tail.length)

/-- Bytes that the logs of a path may still send in this millisecond (R589). -/
def Dev.logCredit (d : Dev) (p : Nat) : Nat := d.resLog p + d.spareAlm p - tget d.log.spentL p

/-- Bytes that the traces of a path may still send in this millisecond (R589). -/
def Dev.trcCredit (d : Dev) (p : Nat) : Nat :=
  d.resTrc p + (if d.logWaits p then 0 else d.logCredit p) - tget d.log.spentT p

/-- The collector has a next hop (R511). -/
def Dev.collectorUp (d : Dev) : Bool :=
  let c := d.fld Reg.LOG_CFG 16 12
  d.trl.idValid && (tget d.trl.prim c != 0 || tget d.trl.alt c != 0)

/-! Alarms. -/

def Dev.setAlm (d : Dev) (i : Nat) (a : Option Alm) : Dev :=
  let t := aset d.log.alm i a
  ({ d with log := { d.log with alm := t } }).wr Reg.LOG_ALM_USED (almUsed t)

/-- An entry has been written to a path (R582). -/
def Dev.almWritten (d : Dev) (p i : Nat) (a : Alm) : Dev :=
  let a := { a with new := tput a.new p 0, pend := tput a.pend p false, written := tput a.written p (d.lt + 1) }
  let d := d.setAlm i (some a)
  { d with log := { d.log with spentA := tput d.log.spentA p (tget d.log.spentA p + 32) } }

/-- ALARM_ENTRY_WRITE: a pending entry goes to path 0, 1 or 2 (R582). A write that fails clears nothing. -/
def Dev.almPathWrite (d : Dev) (p i : Nat) : Dev :=
  match aget d.log.alm i with
  | none => d
  | some a =>
    if !d.almPends p a || !d.almHeldOff p a || decide (d.resAlm p < tget d.log.spentA p + 32) then d
    else if p = 0 then
      let k := clampN 4 16 (d.fld Reg.LOG_ARING_CFG 0 5)
      let w := d.fld Reg.LOG_ARING_WR 0 17
      let full := 2 ^ k ≤ (w + 2 ^ 17 - d.fld Reg.LOG_ARING_RD 0 17) % 2 ^ 17
      let at_ := d.fld Reg.LOG_ARING_BASE 0 48 + 32 * (w % 2 ^ k)
      if full || !d.hasRange at_ 32 then d
      else (((d.engineWrite at_ (a.bytes 0)).wr Reg.LOG_ARING_WR ((w + 1) % 2 ^ 17)).evt 452 2).almWritten 0 i a
    else if p = 1 then
      match d.ethPeer with
      | none => d
      | some m => (d.ethFrame m 5 0 32 0 0 (a.bytes 1)).almWritten 1 i a
    else if d.collectorUp then
      (d.cellSend 1 0 (d.fld Reg.LOG_CFG 16 12)
        (almPayload a.subject a.fclass (tget a.new 2) a.bitmap a.firstLt a.lastLt a.detail a.reporter (tget a.written 2 != 0))).almWritten 2 i a
    else d

/-- Nothing of an entry waits on an enabled path (R583). -/
def Dev.almQuiet (d : Dev) (a : Alm) : Bool :=
  [0, 1, 2].all fun p => !d.almPends p a && (!d.logPath p || tget a.new p == 0)

/-- LOG_ALM_ACK (R583). -/
def Dev.almAck (d : Dev) (i : Nat) : Dev :=
  match aget d.log.alm i with
  | none => d
  | some a => if d.almQuiet a then d.setAlm i none else d

/-- AUTO_ACK (R583). -/
def Dev.autoAck (d : Dev) (i : Nat) : Dev :=
  match aget d.log.alm i with
  | none => d
  | some a =>
    let all := [0, 1, 2].all fun p => !d.logPath p || tget a.written p != 0
    if d.bit Reg.LOG_CFG 3 && d.almQuiet a && all && decide (a.lastLt + 10 * d.almHold ≤ d.lt) then d.setAlm i none else d

/-- LOG_ALM_RAISE (R579, R590). -/
def Dev.almRaise (d : Dev) (src v : Nat) : Dev :=
  let c := bits v 0 16
  if 0x40 ≤ c ∧ c ≤ 0x7F then
    d.almReport (bits v 16 12) c 1 (2 ^ (d.nodeId % 64)) d.lt (tget d.log.put (4 * src)) d.nodeId false
  else d

/-! The log. -/

/-- LOG_PUT_D0 to D2 of a source (R584). -/
def Dev.logWord (d : Dev) (src i v : Nat) : Dev := { d with log := { d.log with put := tput d.log.put (4 * src + i) (v % 2 ^ 32) } }

/-- LOG_PUT (R584). -/
def Dev.logPutReg (d : Dev) (src v : Nat) : Dev :=
  let w := fun (i : Nat) => tget d.log.put (4 * src + i)
  d.logPut 0 (bits v 16 3) src (bits v 0 16) (w 0) (w 1) (w 2)

/-- The next record that a path reads: of a GAP, what that path has missed (R586). -/
def Dev.tailRec (d : Dev) (p i : Nat) : Option LogRec :=
  let n := tget d.log.next p + i
  (d.log.tail[n]?).map fun r =>
    let k := tget d.log.skip p
    if n = 0 ∧ r.kind = 1 then { r with d0 := r.d0 - k, d1 := (r.d1 + k) % 2 ^ 32 } else r

/-- Records that every enabled path has taken leave the tail (R584, R586). -/
def Dev.tailTrim (d : Dev) : Dev :=
  match ([0, 1, 2].filter d.logPath).map (fun p => tget d.log.next p) with
  | [] => d
  | n :: t =>
    let m := t.foldl min n
    if m = 0 then d
    else
      let next := [0, 1, 2].foldl (fun a p => tput a p (tget a p - m)) d.log.next
      { d with log := { d.log with tail := d.log.tail.drop m, next := next, skip := [] } }

/-- A path has taken `k` records. -/
def Dev.tailTook (d : Dev) (p k : Nat) : Dev :=
  let lg := d.log
  let lg := { lg with next := tput lg.next p (tget lg.next p + k), skip := tput lg.skip p 0, spentL := tput lg.spentL p (tget lg.spentL p + 32 * k) }
  ({ d with log := lg }).tailTrim

/-- Exponent of the log ring (R590). -/
def Dev.ringK (d : Dev) : Nat := clampN 12 30 (d.fld Reg.LOG_RING_CFG 0 5)

/-- Address of record `n` of the log ring (R584). -/
def Dev.ringAt (d : Dev) (n : Nat) : Nat :=
  let k := d.ringK
  d.fld Reg.LOG_RING_BASE 0 48 / 2 ^ k * 2 ^ k + 32 * (n % 2 ^ (k - 5))

/-- Make room in a full ring (R585). -/
def Dev.ringGap (d : Dev) : Dev :=
  let rd := d.rd Reg.LOG_RING_RD
  let r0 := d.memRead (d.ringAt rd) 32
  let r1 := d.memRead (d.ringAt (rd + 1)) 32
  let gap := leAt r0 13 1 / 16 == 1
  let c := if gap then min (leAt r0 20 4 + 1) 0xFFFFFFFF else 2
  let s := if gap then leAt r0 24 4 else leAt r0 8 4
  let bs := r1.take 12 ++ leBytes 2 (leAt r1 12 2 % 4096 + 4096) ++ [0, 32, 0, 0, 0, 0] ++ leBytes 4 c ++ leBytes 4 s ++ leBytes 4 0
  ((d.engineWrite (d.ringAt (rd + 1)) bs).wr Reg.LOG_RING_RD ((rd + 1) % 2 ^ 32)).logLost (if gap then 1 else 2)

/-- One record into the log ring (R584, R585). -/
def Dev.ringPut (d : Dev) (r : LogRec) : Dev :=
  let full := (d.rd Reg.LOG_RING_WR + 2 ^ 32 - d.rd Reg.LOG_RING_RD) % 2 ^ 32 = 2 ^ (d.ringK - 5)
  let d := if full then d.ringGap else d
  let w := d.rd Reg.LOG_RING_WR
  (d.engineWrite (d.ringAt w) r.bytes).wr Reg.LOG_RING_WR ((w + 1) % 2 ^ 32)

/-- LOG_TAIL_DRAIN: a path reads the tail in order within its credits: a record into the ring, a frame of up to 32, or a cell of up to 8
(R578, R584, R586, R624). -/
def Dev.tailDrain (d : Dev) (p : Nat) : Dev :=
  if !d.logWaits p || decide (d.logCredit p < 32) then d
  else
    let k := min (if p = 0 then 1 else if p = 1 then 32 else 8) (d.logCredit p / 32)
    let rs := (List.range k).filterMap fun i => d.tailRec p i
    let bs := (rs.map LogRec.bytes).flatten
    if p = 0 then
      match rs with
      | r :: _ => if d.hasRange (d.ringAt (d.rd Reg.LOG_RING_WR)) 32 then (d.ringPut r).tailTook 0 1 else d
      | [] => d
    else if p = 1 then
      match d.ethPeer with
      | some m => (d.ethFrame m 4 0 bs.length 0 0 bs).tailTook 1 rs.length
      | none => d
    else if d.collectorUp then (d.cellSend 6 0 (d.fld Reg.LOG_CFG 16 12) bs).tailTook 2 rs.length
    else d

/-- LOG_RING_RD: forward only, and not past WR (R585). -/
def Dev.logRingRd (d : Dev) (v : Nat) : Dev :=
  let rd := d.rd Reg.LOG_RING_RD
  let step := (v % 2 ^ 32 + 2 ^ 32 - rd) % 2 ^ 32
  if step ≠ 0 ∧ step ≤ (d.rd Reg.LOG_RING_WR + 2 ^ 32 - rd) % 2 ^ 32 then d.wr Reg.LOG_RING_RD (v % 2 ^ 32) else d

/-- A write of a ring's read count, ignored if the ring would then hold more than it can (R185). -/
def Dev.ringRead (d : Dev) (rd wr_ w k v : Nat) : Dev :=
  if (d.rd wr_ % 2 ^ w + 2 ^ w - v % 2 ^ w) % 2 ^ w ≤ 2 ^ k then d.wr rd (v % 2 ^ w) else d

def Dev.tringK (d : Dev) : Nat := clampN 4 20 (d.fld Reg.LOG_TRING_CFG 0 5)

/-- LOG_TRING_RD (R587, R185). -/
def Dev.logTringRd (d : Dev) (v : Nat) : Dev := d.ringRead Reg.LOG_TRING_RD Reg.LOG_TRING_WR 21 d.tringK v

/-- LOG_ARING_RD, likewise. -/
def Dev.logAringRd (d : Dev) (v : Nat) : Dev :=
  d.ringRead Reg.LOG_ARING_RD Reg.LOG_ARING_WR 17 (clampN 4 16 (d.fld Reg.LOG_ARING_CFG 0 5)) v

/-! Traces. -/

def Dev.trcDrop (d : Dev) : Dev := (d.inc Reg.LOG_TRC_DROP).evt 452 32

/-- One record into the trace ring; a full ring drops it (R587). -/
def Dev.tringPut (d : Dev) (r : TraceRec) : Dev :=
  let w := d.fld Reg.LOG_TRING_WR 0 21
  let k := d.tringK
  if 2 ^ k ≤ (w + 2 ^ 21 - d.fld Reg.LOG_TRING_RD 0 21) % 2 ^ 21 then d.trcDrop
  else (d.engineWrite (d.fld Reg.LOG_TRING_BASE 0 48 + 16 * (w % 2 ^ k)) r.bytes).wr Reg.LOG_TRING_WR ((w + 1) % 2 ^ 21)

/-- Send what a path's trace buffer holds, within its credits (R587, R589, R624). -/
def Dev.tracePump (d : Dev) (p : Nat) : Dev :=
  let buf := tget d.log.buf p
  let rs := buf.take (min (if p = 2 then 16 else 64) (d.trcCredit p / 16))
  let n := rs.length
  let took := fun (d : Dev) => { d with log := { d.log with buf := tput d.log.buf p (buf.drop n), spentT := tput d.log.spentT p (tget d.log.spentT p + 16 * n) } }
  let bs := (rs.map TraceRec.bytes).flatten
  if n = 0 then d
  else if p = 0 then
    if d.hasRange (d.fld Reg.LOG_TRING_BASE 0 48) (16 * 2 ^ d.tringK) then rs.foldl (fun d r => d.tringPut r) (took d) else d
  else if p = 1 then
    match d.ethPeer with
    | some m => took (d.ethFrame m 6 0 bs.length 0 0 bs)
    | none => d
  else if d.collectorUp then took (d.cellSend 7 0 (d.fld Reg.LOG_CFG 16 12) bs)
  else d

/-- A trace record enters the buffers of the paths its point is routed to (R587, R588). -/
def Dev.traceIn (d : Dev) (r : TraceRec) : Dev :=
  forN 3 (fun p d =>
    if d.logPath p && d.bit (Reg.LOG_TRC_CFG r.point) p then
      let d := { d with log := { d.log with offered := tput d.log.offered p (tget d.log.offered p + 16) } }
      let buf := tget d.log.buf p
      if 64 ≤ buf.length then d.trcDrop
      else ({ d with log := { d.log with buf := tput d.log.buf p (buf ++ [r]) } }).tracePump p
    else d) d

/-- The SHIFT in force of a point, never below SHIFT_MIN (R588). -/
def Dev.trcShift (d : Dev) (t : Nat) : Nat := max (tget d.log.shift t) (d.fld (Reg.LOG_TRC_CFG t) 8 4)

/-- LOG_TRC_PUT[t]: every 2^SHIFT-th offer emits a record (R587, R588). -/
def Dev.trcPut (d : Dev) (t v : Nat) : Dev :=
  if !d.bit Reg.LOG_CFG 0 then d
  else
    let n := tget d.log.offers t + 1
    let d := { d with log := { d.log with offers := tput d.log.offers t n } }
    if n % 2 ^ d.trcShift t = 0 then d.traceIn ⟨d.lt % 2 ^ 32, d.nodeId, d.trcShift t, t, n, v⟩ else d

/-- The sampling shifts of the points of a path move by its offers of the last millisecond (R588). -/
def Dev.shiftStep (d : Dev) (p : Nat) : Dev :=
  let n := tget d.log.offered p
  let pts := (List.range 64).filter fun t => d.bit (Reg.LOG_TRC_CFG t) p
  let quiet := if 4 * n < d.resTrc p then tget d.log.quiet p + 1 else 0
  let put := fun (d : Dev) (q : Nat) => { d with log := { d.log with quiet := tput d.log.quiet p q, offered := tput d.log.offered p 0 } }
  let setShift := fun (d : Dev) (t s : Nat) => { d with log := { d.log with shift := tput d.log.shift t s } }
  if d.resTrc p < n then
    let up := pts.filter fun t => d.trcShift t < 15
    let d := up.foldl (fun d t => setShift d t (d.trcShift t + 1)) (put d 0)
    if up.isEmpty then d else d.evt 452 16
  else if quiet = 10 then pts.foldl (fun d t => setShift d t (d.trcShift t - 1)) (put d 0)
  else put d quiet

/-- CREDIT_BOUNDARY: a new millisecond of line time (R588, R589). -/
def Dev.creditBoundary (d : Dev) : Dev :=
  let m := d.lt / 1000000
  if m = d.log.ms then d
  else
    let d := forN 3 (fun p d => if d.logPath p then d.shiftStep p else d) d
    let d := { d with log := { d.log with ms := m, spentA := [], spentL := [], spentT := [] } }
    forN 3 (fun p d => if d.logPath p then d.tracePump p else d) d

/-- The log record that 32 bytes spell (R578). -/
def recOf (bs : List Nat) : LogRec :=
  ⟨leAt bs 0 8, leAt bs 8 4, leAt bs 12 2 % 4096, leAt bs 12 2 / 4096, leAt bs 14 1 % 8, leAt bs 15 1 % 64, leAt bs 16 2, leAt bs 20 4,
    leAt bs 24 4, leAt bs 28 4⟩

/-- The trace record that 16 bytes spell (R578). -/
def traceOf (bs : List Nat) : TraceRec :=
  ⟨leAt bs 0 4, leAt bs 4 2 % 4096, leAt bs 4 2 / 4096, leAt bs 6 1 % 64, leAt bs 7 1, leAt bs 8 8⟩

/-- LOG_TRACE_CELL: a class 6 or 7 cell of log or trace records; a collector takes the records as its own (R577, R578). -/
def Dev.logTraceCell (d : Dev) (h : CellHdr) (trace : Bool) (bs : List Nat) : Dev :=
  d.cellAt h (if trace then 7 else 6) 0 bs fun d =>
    if !d.bit Reg.LOG_CFG 1 || !d.bit Reg.LOG_CFG 0 then d
    else if trace then forN (bs.length / 16) (fun i d => d.traceIn (traceOf ((bs.drop (16 * i)).take 16))) d
    else forN (bs.length / 32) (fun i d => d.logPush (recOf ((bs.drop (32 * i)).take 32))) d

/-- LOG_TRC_CFG[t] with its SHIFT (R590). -/
def Dev.trcCfgView (d : Dev) (t : Nat) : Nat := putBits (d.rd (Reg.LOG_TRC_CFG t)) 16 4 (d.trcShift t)

end Sys2Proof.Machine
end

