-- ==== Sys2Proof/Machine/Apply.lean ====
section
/-! DEFINITION. What a change of the active copy of staged registers does, by a commit or by a sequencer entry (R652), and the apply of a
commit in every domain it touches (R86 to R96, R110 to R114). -/
namespace Sys2Proof.Machine

/-- Numbers below `n` of the units of `size` bytes from `lo` that hold one of the registers `ks`. -/
def unitsOf (ks : List Nat) (lo size n : Nat) : List Nat :=
  (ks.filterMap fun k => if lo ≤ k ∧ k < lo + size * n then some ((k - lo) / size) else none).eraseDups

/-- Registers among `ks` whose value differs from that in `old`. -/
def Dev.changedOf (d old : Dev) (ks : List Nat) : List Nat := ks.filter fun k => d.rd k != old.rd k

/-- A beam's registers changed: source, scale and gears (R39, R50 to R54), and with the scale the beam-die sequencer, cams, items and stations
(R116, R148, R158, R182, R213). The image-die sequencer learns of it from the broadcast. -/
def Dev.beamHook (d old : Dev) (b : Nat) : Dev :=
  let d := d.beamCfg b (old.rd (Reg.BEAM_CTRL b)) (old.rd (Reg.BEAM_SRC_SEL b)) (old.rd (Reg.BEAM_RATIO b)) (old.fld (Reg.BEAM_FPF b) 0 13)
  if old.fpf b = d.fpf b then d
  else
    let d := (((d.camFpf b).itemFpf b).stnFpf b).trigFpf b
    d.seqReposition 0 b (d.beam b).l

/-- A committed BEAM_FPF was clamped (R70). -/
def Dev.clampHook (d : Dev) (ks : List Nat) : Dev :=
  forN 8 (fun b d =>
    let raw := d.fld (Reg.BEAM_FPF b) 0 13
    if ks.contains (Reg.BEAM_FPF b) && (decide (raw < 16) || decide (4096 < raw)) then d.evt (80 + b) 128 else d) d

/-- BEAM_TICK_PERIOD or BEAM_TICK_ALIGN was written (R59, R60). -/
def Dev.tickHook (d : Dev) (ks : List Nat) (t0 : Nat) : Dev :=
  if ks.contains Reg.BEAM_TICK_PERIOD || ks.contains Reg.BEAM_TICK_ALIGN then
    let p := d.fld Reg.BEAM_TICK_PERIOD 0 8
    let d := if ks.contains Reg.BEAM_TICK_PERIOD && (decide (p < 4) || decide (250 < p)) then forN 8 (fun b d => d.evt (80 + b) 128) d else d
    d.tickRealign t0 (ks.contains Reg.BEAM_TICK_LOAD)
  else d

/-- SEQ_CTRL changed: a new bank or a first enable positions both sides anew, and SWAP is set (R117, R125). The beam's position at the apply point is taken
in the apply cycle, for a crossing past the boundary by what is left of the step: new entries between the two execute in the next field (DESIGN
CHOICE, log 79). -/
def Dev.seqHook (d old : Dev) (b : Nat) : Dev :=
  let o := old.rd (Reg.SEQ_CTRL b)
  let n := d.rd (Reg.SEQ_CTRL b)
  let d := if o % 4 ≠ n % 4 then d.evt (88 + b) 64 else d
  if tb o 1 != tb n 1 || (!tb o 0 && tb n 0) then
    (d.seqReposition 0 b (d.beam b).l).seqReposition 1 b (d.estAt 1 b d.lt)
  else d

/-- INTC_PIN_CFG[n] changed: a pin level source takes the accepted level; one that is a level source no longer is not asserted (R318, R321). -/
def Dev.pinCfgHook (d : Dev) (n : Nat) : Dev :=
  let k := if n < 64 then 208 + n else 272 + (n - 64)
  let acc := (d.pin (inPin n)).acc
  let b := d.fld (Reg.INTC_SRC_CFG k) 4 3
  let pos := d.stampPos b d.lt
  let q := d.irq k
  match d.fld (Reg.INTC_PIN_CFG n) 12 3 with
  | 4 => d.levelAt k acc 0 b d.lt pos
  | 5 => d.levelAt k (!acc) 0 b d.lt pos
  | _ =>
    if q.cause || q.latch then
      d.setIrq k { q with cause := false, latch := false, lpay := 0, st := if q.st = 1 then 0 else q.st, pay := if q.st = 1 then 0 else q.pay }
    else d

/-- The display's link wakes when a commit claims a COMP register of its source pipe (R459). -/
def Dev.psrHook (d : Dev) (p : Nat) : Dev :=
  if outOf (d.rd (Reg.COMP_OUT p)) == (1, 2) && d.bit (Reg.DISP_PSR 2) 2 then d.psrWake 2 else d

/-- Every effect that the rules give to the change of registers `ks`, at apply line time `t0`; `old` is the device before (R652). -/
def Dev.regHooks (d old : Dev) (ks : List Nat) (t0 : Nat) : Dev :=
  let ch := d.changedOf old ks
  let run := fun (l : List Nat) (f : Dev → Nat → Dev) (d : Dev) => l.foldl f d
  let units := unitsOf ch
  let d := run (units 0x30000010000 0x1000 8) (fun d b => d.beamHook old b) d
  let d := run ((unitsOf ks 0x30000010000 0x1000 8).filter fun b => ks.contains (Reg.BEAM_INDEX b)) (fun d b => d.indexArm b) d
  let d := if (units 0x30000010000 0x1000 8).isEmpty then d else d.gearCheck old
  let d := (d.clampHook ks).tickHook ks t0
  let d := run (units 0x30000020000 0x1000 8) (fun d b => d.seqHook old b) d
  let d := run (units (Reg.CAM_BED 0) 32 8) (fun d b => d.bedChanged old b) d
  let corr := (units (scrollReg 0 0) 16 1024).filter fun c => ch.contains (scrollReg c 2)
  let d := run corr (fun d c => d.corrRamp c (old.corrScroll c (old.beam (old.chanBeam c)).l)) d
  let d := if ch.any fun k => k / 0x10000 == Reg.CAM_CHAN_CFG 0 / 0x10000 then forN 8 (fun b d => d.switchAnew b) d else d
  let d := if ch.contains Reg.ITEM_RECIPE_GEN then d.genChanged (old.rd Reg.ITEM_RECIPE_GEN) t0 else d
  let d := run (units (Reg.STN_CFG 0) 64 512) (fun d s => d.stnChanged s) d
  let d := run ((units (Reg.DRV_CFG 0) 512 64).filter fun p => ch.contains (Reg.DRV_CFG p)) (fun d p => d.drvChanged p (old.rd (Reg.DRV_CFG p))) d
  let tmrs := units (Reg.TMR_CTRL 0) 64 32
  let d := run tmrs (fun d n => d.tmrChanged n (old.rd (Reg.TMR_CTRL n)) (ch.contains (Reg.TMR_SRC n))) d
  let pins := units (Reg.PIN_CFG 0) 4 248
  let d := run (pins ++ (tmrs.map (128 + ·)).filter fun i => !pins.contains i) (fun d i => d.pinChanged old i) d
  let d := run (units (Reg.INTC_SRC_CFG 0) 8 512) (fun d k => d.srcCfgChanged k) d
  let d := run (units (Reg.INTC_PIN_CFG 0) 4 96) (fun d n => d.pinCfgHook n) d
  let cams := (units (Reg.CAMIN_CFG 0) 0x1000 16).filter fun p => ch.any fun k =>
    k / 0x1000 == Reg.CAMIN_CFG p / 0x1000 && [0, 4, 8, 0x18, 0x1C, 0x24, 0x30, 0x38].contains (k % 0x1000)
  let d := run cams (fun d p => d.camRestart p) d
  let pipes := unitsOf ks (Reg.COMP_CTRL 0) 0x1000 8
  let d := run pipes (fun d p => d.psrHook p) d
  let ports := units (Reg.RASTER_CFG 0) 0x1000 8
  let d := run (if pipes.isEmpty then ports else List.range 8) (fun d n => d.rasChanged n) d
  let d := run (units (Reg.DISP_CFG 0) 0x1000 3) (fun d p => d.dispChanged p) d
  let d := if ch.contains Reg.AUD_BANK then d.audSelChanged t0 else d
  let d := if (units 0x30000090000 0x1000 1).isEmpty then d else d.audChanged ch
  let d := run (units (Reg.TRL_PORT_CFG 0) 0x1000 8) (fun d p => d.trlPortChanged p) d
  let d := if ch.contains Reg.TRL_CFG || ch.contains Reg.TRL_NODE then d.trlCfgChanged else d
  run (units (Reg.CLK_CLUS_SEL 0) 16 6) (fun d c => (d.evt 450 1).tmrClkChanged c) d

/-- Swap values into the active copies, with all that follows (R89, R652). -/
def Dev.applyVals (d : Dev) (vals : List (Nat × Word)) (t0 : Nat) : Dev :=
  (vals.foldl (fun d p => d.swapIn p.1 p.2.toNat) d).regHooks d (vals.map (·.1)) t0

/-! Sequencer entries. -/

/-- A due entry executes on its side: it writes its target, or is skipped for a bad one (R110, R111); `x.2` gathers the registers written. -/
def Dev.entryApply (die b : Nat) (x : Dev × List Nat) (e : SeqEnt) : Dev × List Nat :=
  let d := x.1
  if !d.seqMay die b e then x
  else match seqTarget e.w1 with
    | none => (d.seqSkip b 4, x.2)
    | some a =>
      match regFind a with
      | none => (d.seqSkip b 4, x.2)
      | some (r, k) =>
        let sh := 2 ^ (8 * (a - k))
        let v := mergeMask (d.rd k) (e.w2 * sh) ((e.w3 * sh) &&& (if srcRegReserved k then 0 else r.cmt))
        ((d.swapIn k (BitVec.ofNat 64 v).toNat).seqRan die b e, x.2 ++ [k])

/-- The entries of one side that the last beam cycle made due, as one unit: all are written, and then act together (R120). -/
def Dev.sideFlush (d : Dev) (die b : Nat) (due : List SeqEnt) : Dev :=
  if due.isEmpty then d
  else
    let d := d.setSide die b { d.side die b with due := [] }
    if die = 1 && (d.dataOff || !d.bit (Reg.SEQ_STATUS b) 25) then d
    else
      let x := due.foldl (Dev.entryApply die b) (d, [])
      x.1.regHooks d x.2 d.lt

/-- The due entries of a die's sides (R87, R120). -/
def Dev.dieFlush (d : Dev) (die : Nat) : Dev := forN 8 (fun b d => d.sideFlush die b (d.side die b).due) d

/-- The entries that the last beam cycle made due on both dies (R87). -/
def Dev.entriesFlush (d : Dev) : Dev := (d.dieFlush 0).dieFlush 1

/-- The corrections of the channels whose beam crossed a field boundary forward in the last beam cycle, once for that crossing (R145, R146). -/
def Dev.corrFlush (d : Dev) : Dev :=
  forN 8 (fun b d =>
    let s := d.beam b
    if s.corrDone || !(s.crossings.any fun c => c.2 && c.1 % (d.fpf b * 4096) == 0) then d
    else (d.corrDue b).foldl (fun d c => d.corrApply c) (d.setBeam b { s with corrDone := true })) d

/-! Commits. -/

def Dev.setRemote (d : Dev) (l : List RArm) : Dev := { d with commit := { d.commit with remote := l } }

def Dev.findArm (d : Dev) (dom g : Nat) : Option RArm := d.commit.remote.find? fun r => r.dom == dom && r.grp == g

/-- A remote domain swaps, keeping an undo copy (R89, R90). -/
def Dev.remoteSwap (d : Dev) (r : RArm) (t0 : Nat) : Dev :=
  let undo := r.vals.map fun p => (p.1, BitVec.ofNat 64 (d.rd p.1))
  let keep := d.commit.remote.filter (· != r)
  (d.setRemote (keep ++ [{ r with swapped := true, undo := undo }])).applyVals r.vals t0

/-- The remote domain that sent ACK has come to its own view of the apply point, and no retrain began since (R89, R90). -/
def Dev.remoteDue (d : Dev) (r : RArm) : Bool :=
  r.acked && !r.swapped && !r.retrained && (d.grp r.grp).mode == .armed && d.armedCsn r.grp == r.csn &&
    (match d.aheadNs r.grp r.dom with | some n => decide (n ≤ 0) | none => false)

/-- Put into a list ordered by CSN (R86, R88). -/
def csnInsert {α : Type} (csn : α → Nat) (l : List α) (x : α) : List α :=
  let before := l.takeWhile fun y => csnBefore (csn y) (csn x)
  before ++ [x] ++ l.drop before.length

/-- REMOTE_SWAP: a domain swaps at its own view of the apply point (R89): after the sequencer entries of the crossing, and after the commits of
lower CSN whose apply point has come there too (R87). -/
def Dev.remoteSwapDue (d : Dev) (dom g : Nat) : Dev :=
  match d.findArm dom g with
  | none => d
  | some r =>
    if !d.remoteDue r then d
    else
      let due := (d.commit.remote.filter fun x => x.dom == dom && d.remoteDue x && (x == r || csnBefore x.csn r.csn)).foldl (csnInsert RArm.csn) []
      due.foldl (fun d x => d.remoteSwap x d.lt) (d.dieFlush (if dom = 1 then 1 else 0))

/-- ABORT_RECEIVE: a domain that has swapped restores its undo copy (R91). -/
def Dev.abortReceive (d : Dev) (dom g csn : Nat) : Dev :=
  match d.findArm dom g with
  | none => d
  | some r =>
    if r.csn ≠ csn then d
    else
      let d := d.setRemote (d.commit.remote.filter (· != r))
      if r.swapped then d.applyVals r.undo d.lt else d

/-- The apply of an armed group whose conditions hold (R85, R89, R94, R96, R521): every domain swaps, SWAP is sent, the claims are
released, the outcome is recorded and reported. -/
def Dev.applyNow (d : Dev) (g : Nat) : Dev :=
  let q := d.grp g
  let csn := d.armedCsn g
  let line := (q.bnd == 1 || q.bnd == 4 || q.bnd == 0) || q.lineMoved
  let t0 := if line then q.applyLt else d.lt
  let doms := d.remoteDoms g
  let near := (d.claimsOf g).filter fun p => domOf p.1 == 0
  let arms := doms.filterMap fun m => d.findArm m g
  let ours := isMarker g && d.commit.snapOpen && g == d.commit.snapGrp
  let d := (d.release g).setGrp g (if isMarker g then default
    else { q with mode := .empty, result := 1, slipRun := 0, lineMoved := false, peer := false, srcs := [] })
  let d := if ours then ({ d with commit := { d.commit with snapMarked := true, snapReady := true } }).wr Reg.COMMIT_SNAP_LT t0
    else if isMarker g then d
    else (d.wr (Reg.COMMIT_GRP_APPLY_LT g) t0).wr (Reg.COMMIT_GRP_CSN g) csn
  let d := (d.applyVals near t0).wr Reg.COMMIT_CSN csn
  let d := arms.foldl (fun d r => if r.swapped then d else d.remoteSwap r t0) d
  let d := doms.foldl (fun d m => d.commitMsg m 0 2 g csn []) d
  let d := d.replicate 3 (leBytes 4 csn ++ [1, 0, 0, 0])
  let d := if q.peer then d.lcAnswer 5 q.peerFrom (leBytes 4 q.peerTxn ++ leBytes 4 csn ++ [1, 0, 0, 0]) else d
  let d := d.evt 96 1
  if ours then d.unstall true else d

/-- The armed groups whose apply point has come, in CSN order (R86). -/
def Dev.dueGroups (d : Dev) : List Nat := (d.grpKeys.filter fun g => d.applyDue g).foldl (csnInsert d.armedCsn) []

/-- A group whose apply point has come: those of lower CSN that are still armed are withdrawn (R88); then it applies, slips or fails (R90, R93, R520,
R521). -/
def Dev.applyOne (d : Dev) (g : Nat) : Dev :=
  let q := d.grp g
  if q.mode ≠ .armed then d
  else
    let d := (d.lowerArmed g).foldl (fun d h => d.withdraw h) d
    if q.fabric && !q.peers.isEmpty && !q.confirmed then d.lcFail g
    else if q.peer && !q.confirmed then d.lcSplit g
    else if d.applyOk g then d.applyNow g
    else d.slip g

/-- COMMIT_APPLY of group `g`: at its apply point come first the sequencer entries of the crossing and the corrections, then the commits of that
moment in CSN order up to this one (R86, R87). -/
def Dev.applyGroup (d : Dev) (g : Nat) : Dev :=
  if !d.applyDue g then d
  else
    let due := d.dueGroups
    (due.takeWhile (· != g) ++ [g]).foldl (fun d h => d.applyOne h) d.entriesFlush.corrFlush

end Sys2Proof.Machine
end

