-- ==== Sys2Proof/Machine/Graft.lean ====
section
/-! DEFINITION. Graft pairing (21): ports and frames, roles, the standby's replicated state, takeover and joining. -/
namespace Sys2Proof.Machine

def Dev.setGrf (d : Dev) (g : GrfSt) : Dev := { d with grf := g }

/-! Ports (R527 to R529). -/

/-- A port changes state; GRF_STATUS.PORTS follows (R527, R549). -/
def Dev.grfPortTo (d : Dev) (p st : Nat) : Dev :=
  let was := d.grfState p
  let d := (d.setF (Reg.GRF_PORT_STATUS p) 0 2 st).setF Reg.GRF_STATUS (6 + p) 1 (b2n (st == 3))
  let d := d.setF (Reg.GRF_PORT_STATUS p) 4 4 (if 2 ≤ st then 15 else 0)
  let d := d.setGrf { d.grf with hellos := tput d.grf.hellos p 0 }
  if was = 3 ∧ st ≠ 3 then (d.inc (Reg.GRF_PORT_DOWN p)).evt 307 128 else d

/-- GRAFT_LANE_LOCK: the lanes of a port in TRAIN are locked and aligned (R527). -/
def Dev.grfLock (d : Dev) (p : Nat) : Dev := if d.grfState p = 1 then d.grfPortTo p 2 else d

/-- GRAFT_PORT_LOSS: the port returns to TRAIN (R527). -/
def Dev.grfLoss (d : Dev) (p : Nat) : Dev := if 2 ≤ d.grfState p then d.grfPortTo p 1 else d

/-- A write of GRF_PORT_CFG[p] (R527, R548). -/
def Dev.grfPortCfg (d : Dev) (p : Nat) : Dev :=
  let on := d.bit (Reg.GRF_PORT_CFG p) 0
  if on ∧ d.grfState p = 0 then d.grfPortTo p 1 else if !on ∧ d.grfState p ≠ 0 then d.grfPortTo p 0 else d

/-- Release the handoff cells that wait for frames up to a GSEQ, or all of them (R540). -/
def Dev.grfRelease (d : Dev) (upTo : Option Nat) : Dev :=
  let done := fun (a : Nat × Nat × Nat × Nat × List Nat) => match upTo with | none => true | some n => !csnBefore n a.1
  let out := d.grf.await.filter done
  let d := d.setGrf { d.grf with await := d.grf.await.filter fun a => !done a }
  out.foldl (fun d a => d.cellSend a.2.1 a.2.2.1 a.2.2.2.1 a.2.2.2.2) d

/-- An acknowledgement: frames up to it are kept no longer (R529). -/
def Dev.grfAck (d : Dev) (ack : Nat) : Dev :=
  (d.setGrf { d.grf with sentF := d.grf.sentF.filter fun f => csnBefore ack f.1 }).grfRelease (some ack)

/-- GRAFT_RESEND: frames not acknowledged within 2 µs are sent again, in order (R529). -/
def Dev.grfResend (d : Dev) : Dev :=
  let old := d.grf.sentF.filter fun f => f.2.2.2 + 2000 ≤ d.lt
  if old.isEmpty ∨ (d.grfState 0 ≠ 3 ∧ d.grfState 1 ≠ 3) then d
  else
    let d := d.setGrf { d.grf with sentF := d.grf.sentF.map fun f => if f.2.2.2 + 2000 ≤ d.lt then (f.1, f.2.1, f.2.2.1, d.lt) else f }
    let d := forN 2 (fun p d => if d.grfState p = 3 then d.inc (Reg.GRF_PORT_REPLAY p) else d) d
    old.foldl (fun d f => d.grfOut f.2.1 f.1 f.2.2.1) d

/-! Roles (R532 to R535). -/

/-- Frames of drive ports not yet sent, of the tick that begins at a boundary, carry the role and epoch that hold from that boundary (R230, R535, R544). -/
def Dev.drvRole (d : Dev) (t : Nat) : Dev :=
  forN 64 (fun p d =>
    match (d.dport p).frame with
    | some (k, tn, f) => if t ≤ tn then d.setDport p { d.dport p with frame := some (k, tn, d.frameRole (f.headD 0 % 16) ++ f.drop 5) } else d
    | none => d) d

/-- Change the role: the STN and CAM_TRIG pins and the Trellis ports follow (R535, R540, R544). -/
def Dev.toRole (d : Dev) (r : Nat) : Dev :=
  let was := d.role
  let held := fun (x : Nat) => 3 ≤ x
  let d := (d.setF Reg.GRF_STATUS 0 3 r).setF Reg.GRF_STATUS 3 1 0
  let d := if held r && !held was then (d.rolePins true).trlToHello else if !held r && held was then d.rolePins false else d
  let d := if (r = 3 ∨ r = 4) ∧ d.trl.idValid then d.dropId else d
  if !held r && held was && d.trlOn then d.trlCfgChanged else d

/-- A later epoch than the peer's last known and its own (R533). -/
def Dev.nextEpoch (d : Dev) : Nat :=
  let own := (d.rd Reg.GRF_EPOCH + 1) % 2 ^ 32
  let peer := (d.grf.peerEpoch + 1) % 2 ^ 32
  if csnBefore own peer then peer else own

/-- Become ACTIVE (R533, R534). -/
def Dev.becomeActive (d : Dev) : Dev :=
  let d := d.wr Reg.GRF_EPOCH d.nextEpoch
  let d := d.setGrf { d.grf with pairEnds := 0, missed := 0, takeAt := none, deposeAt := none, copied := false, c0 := 0 }
  d.toRole 2

/-- Enter SEEKING (R534). -/
def Dev.seek (d : Dev) : Dev :=
  let ends := d.lt + max 1 (d.fld Reg.GRF_PAIR_TMO 0 16) * 1000000
  let d := d.setGrf { d.grf with pairEnds := ends, missed := 0, takeAt := none, deposeAt := none, units := [], setKeys := [], furrows := [],
                                 commits := [], steps := [], caps := [], cut := [], joinDone := false, tickLoad := false }
  d.toRole 1

/-- Start a join: JOINING and JOIN_REQ (R547). -/
def Dev.joinStart (d : Dev) : Dev :=
  let d := d.setGrf { d.grf with pairEnds := 0, missed := 0, takeAt := none, deposeAt := none, units := [], setKeys := [], furrows := [],
                                 commits := [], steps := [], caps := [], cut := [], joinDone := false, tickLoad := false, c0 := 0 }
  ((d.toRole 3).wr Reg.GRF_JOIN_PROG 0).graftTx 0xA []

/-- A join is abandoned (R543). -/
def Dev.joinFail (d : Dev) : Dev := d.seek.evt 307 64

/-- A STANDBY member leaves synchronisation and joins anew; a JOINING member abandons its join (R529, R543). -/
def Dev.grfLose (d : Dev) : Dev :=
  if d.role = 4 then (((d.evt 307 4).alarm 0x0A 0).inc Reg.GRF_SYNC_LOSS).joinStart
  else if d.role = 3 then d.joinFail
  else d

/-- An ACTIVE member has no synchronised standby any more: its peer has role `r` now, and what waited for it goes on (R540, R543, R547). -/
def Dev.standbyLost (d : Dev) (r : Nat) : Dev :=
  let d := d.setGrf { d.grf with peerRole := r, missed := 0, copied := false, c0 := 0 }
  let d := { d with items := { d.items with dirty := [] } }
  (d.setF Reg.GRF_STATUS 3 1 0).grfRelease none

/-- An ACTIVE member stops sending to its standby (R542, R543). -/
def Dev.standbyGone (d : Dev) (r : Nat) : Dev := (d.setGrf { d.grf with sentF := [] }).standbyLost r

/-- A write of GRF_CFG from `old`: the enable takes effect (R534, R549). A DEPOSED member stays so (R535). -/
def Dev.grfCfg (d : Dev) (old : Nat) : Dev :=
  let on := d.bit Reg.GRF_CFG 31
  if d.role = 5 then d
  else if on ∧ !tb old 31 then d.seek
  else if !on ∧ tb old 31 then (d.standbyGone 0).toRole 0
  else d

/-- GRF_CTRL.JOIN: a join from SEEKING, or out of DEPOSED (R535, R549). -/
def Dev.grfJoin (d : Dev) : Dev := if d.role = 1 ∨ d.role = 5 then d.joinStart else d

/-- GRF_CTRL.LEAVE (R549). A DEPOSED member stays so (R535). -/
def Dev.grfLeave (d : Dev) : Dev :=
  if d.role = 0 ∨ d.role = 5 then d
  else
    let d := d.standbyGone 0
    (d.setGrf { d.grf with pairEnds := 0, takeAt := none, deposeAt := none, commits := [], units := [] }).toRole 0

/-- GRF_CTRL.TAKEOVER: at the first tick boundary 2 µs or more from now (R543). -/
def Dev.grfTakeover (d : Dev) : Dev :=
  if d.role ≠ 4 then d
  else
    let t0 := d.lt + 2000
    let n := d.tick.next
    let t := if t0 ≤ n then n else n + (t0 - n + d.tickNs - 1) / d.tickNs * d.tickNs
    d.setGrf { d.grf with takeAt := some t }

/-- DEPOSED: the boundary has come at which an ACTIVE member that saw a later epoch is deposed (R535). -/
def Dev.depose (d : Dev) : Dev :=
  match d.grf.deposeAt with
  | none => d
  | some t =>
    if d.lt < t then d
    else
      let d := d.setGrf { d.grf with deposeAt := none }
      if d.role ≠ 2 then d
      else
        let d := ((d.standbyGone d.grf.peerRole).toRole 5).drvRole t
        let d := { d with stn := { d.stn with sched := [], rel := [] } }
        (d.evt 307 16).alarm 0x0C 0

/-- PAIR_TIMEOUT: no peer has answered in GRF_PAIR_TMO (R534). -/
def Dev.pairTimeout (d : Dev) : Dev :=
  if d.role ≠ 1 ∨ d.grf.pairEnds = 0 ∨ d.lt < d.grf.pairEnds then d
  else
    let d := d.setGrf { d.grf with pairEnds := 0 }
    if d.fld Reg.GRF_CFG 28 2 = 1 then d.becomeActive else d.alarm 0x09 0

/-! The replicated store (R536 to R540). -/

/-- The 256-byte unit of an address has come by COPY, or this member is not JOINING (R547). -/
def Dev.unitHere (d : Dev) (a : Nat) : Bool := d.role != 3 || d.grf.units.contains (a / 256)

/-- Slot `s` takes a record as the other member has it (R538): its place in the beam lists and among the free slots follows. -/
def Dev.slotPut (d : Dev) (s : Nat) (r : Item) : Dev :=
  let old := d.item s
  let r := if r.state = 1 ∨ r.state = 2 then r else default
  let d := if old.state ≠ 0 then d.listOut old.beam s else d
  let gap := (List.range (s + 1 - d.items.fresh)).map (d.items.fresh + ·)
  let freed := (d.items.freed ++ gap).filter (· != s)
  let d := d.setItem s r
  let used := decide (r.state ≠ 0)
  let was := decide (old.state ≠ 0) || !gap.isEmpty
  let it := if used then { d.items with freed := freed, fresh := max d.items.fresh (s + 1) }
    else if was && decide (s < d.items.fresh) then { d.items with freed := freed ++ [s] }
    else d.items
  let d := { d with items := { it with dls := it.dls.filter fun e => e.slot != s } }
  let d := if used then d.listIn r.beam s else d
  let keep := fun (h : HoStep) => h.slot != s ||
    (if h.step = 2 then !used else decide (r.state = 2) || !(h.step = 3 || r.state = 1))
  d.setGrf { d.grf with steps := d.grf.steps.filter keep }

/-- A replicated write of memory (R530, R536): the item store by records, everything else by bytes. -/
def Dev.repWrite (d : Dev) (a : Nat) (bs : List Nat) : Dev :=
  match regionOf a with
  | .items => forN (bs.length / 64) (fun i d => d.slotPut ((a - itemBase) / 64 + i) (itemOfBytes ((bs.drop (64 * i)).take 64))) d
  | _ => d.localWrite 24 a bs

/-- The device address of a replicated register offset and space (R530). -/
def repAddr (w : Nat) : Nat :=
  bits w 0 30 + (match bits w 30 2 with | 0 => 0x30000000000 | 1 => 0x30100000000 | _ => 0x3FF00000000)

/-- Replicated entries, eight bytes each, as registers and values; the entries of a 64-bit register make one value (R530). -/
def repVals : Nat → List Nat → Tab Word → Tab Word
  | 0, _, t => t
  | n + 1, bs, t =>
    if bs.length < 8 then t
    else
      let a := repAddr (leAt bs 0 4)
      let v := leAt bs 4 4
      let t := match regFind a with
        | none => t
        | some (_, k) =>
          let old := ((aget t k).getD 0).toNat
          aset t k (some (BitVec.ofNat 64 (if a = k then old / 2 ^ 32 * 2 ^ 32 + v else old % 2 ^ 32 + v * 2 ^ 32)))
      repVals n (bs.drop 8) t

/-- The predicted ns to a replicated commit's apply point in this member's view; none if its beam does not move toward it (R537). -/
def Dev.repAhead (d : Dev) (c : RepCommit) : Option Int :=
  if c.bnd = 2 ∨ c.bnd = 3 then
    let s := d.beam c.beam
    if 0 < s.v then some (distL (d.fpf c.beam) s.l ((c.apply : Int) * 2 ^ 32) * velNs / s.v) else none
  else some ((c.apply : Int) - d.lt)

/-- GRAFT_COMMIT: a replicated commit is armed, or came too late (R537). -/
def Dev.repCommit (d : Dev) (bs : List Nat) : Dev :=
  let n := leAt bs 6 2
  let c : RepCommit := ⟨leAt bs 0 4, leAt bs 4 1, leAt bs 5 1 % 8, leAt bs 8 8, repVals n (bs.drop 16) [], [], false⟩
  if !d.follows then d
  else
    let d := (d.wr Reg.GRF_CSN c.csn).setGrf { d.grf with highCsn := c.csn }
    match d.repAhead c with
    | some x => if x < 150 then d.grfLose else d.setGrf { d.grf with commits := d.grf.commits ++ [c] }
    | none => d.setGrf { d.grf with commits := d.grf.commits ++ [c] }

def sameCsn (a b : RepCommit) : Bool := a.csn == b.csn && a.apply == b.apply && a.beam == b.beam && a.vals == b.vals

/-- Swap a replicated commit in (R537). CSN 0 stands for a correction that applies at a crossing (R147) and has no result. -/
def Dev.repSwap (d : Dev) (c : RepCommit) : Dev :=
  let undo := c.vals.map fun p => (p.1, BitVec.ofNat 64 (d.rd p.1))
  let rest := d.grf.commits.filter fun x => !sameCsn x c
  let later := d.role == 3 && csnBefore d.grf.c0 c.csn
  let keys := if later then d.grf.setKeys ++ c.vals.map (·.1) else d.grf.setKeys
  let d := d.setGrf { d.grf with setKeys := keys, commits := if c.csn = 0 then rest else rest ++ [{ c with swapped := true, undo := undo }] }
  let d := d.applyVals c.vals (if c.bnd = 2 ∨ c.bnd = 3 then d.lt else c.apply)
  if c.csn = 0 then d else d.wr Reg.COMMIT_CSN c.csn

/-- The replicated commits whose apply point has come swap, in the order in which they came; before them the corrections of the crossing (R147, R537). -/
def Dev.repDue (d : Dev) : Dev :=
  ((d.grf.commits.filter fun c => c.csn == 0) ++ d.grf.commits.filter fun c => c.csn != 0).foldl (fun d c =>
    let due := if c.bnd = 2 ∨ c.bnd = 3 then (d.beam c.beam).crossings.contains (c.apply, true) else decide (c.apply ≤ d.lt)
    if !c.swapped && due && d.follows then d.repSwap c else d) d

/-- CRESULT (R530, R537). -/
def Dev.cresult (d : Dev) (bs : List Nat) : Dev :=
  match d.grf.commits.find? fun c => c.csn == leAt bs 0 4 with
  | none => d
  | some c =>
    let drop := fun (d : Dev) => d.setGrf { d.grf with commits := d.grf.commits.filter fun x => x.csn != c.csn }
    if leAt bs 4 1 = 1 then drop (if c.swapped then d else d.repSwap c)
    else
      let d := drop d
      if c.swapped then d.applyVals c.undo d.lt else d

/-- JOINING is over: the join data and a record of every enabled beam have come (R547). -/
def Dev.joinCheck (d : Dev) : Dev :=
  let all := (List.range 8).all fun b => !d.bit (Reg.BEAM_CTRL b) 0 || d.grf.furrows.contains b
  if d.role = 3 ∧ d.grf.joinDone ∧ all then
    let d := (d.toRole 4).setF Reg.GRF_STATUS 3 1 1
    ((d.setGrf { d.grf with units := [], setKeys := [], furrows := [], missed := 0 }).wr Reg.GRF_JOIN_PROG 1000).evt 307 2
  else d

/-- The entries of a FURROW record (R538). -/
def Dev.furrowEntries (d : Dev) (b : Nat) : Nat → List Nat → Dev
  | 0, _ => d
  | n + 1, bs =>
    let x := leAt bs 2 2
    match bs.headD 3 with
    | 0 =>
      let d := if d.unitHere (itemBase + 64 * x) then d.slotPut x (itemOfBytes (bs.drop 4)) else d
      d.furrowEntries b n (bs.drop 68)
    | 1 =>
      let f := d.fpf b * 4096
      let dots := ((d.beam b).l / 2 ^ 32).toNat
      let at_ := (dots / f + 1) * f % modNat (d.fpf b)
      let c : RepCommit := ⟨0, 3, b, at_, [(scrollReg (x % 1024) 2, BitVec.ofNat 64 (leAt bs 4 4))], [], false⟩
      (d.setGrf { d.grf with commits := d.grf.commits ++ [c] }).furrowEntries b n (bs.drop 8)
    | 2 =>
      let c := x % 1024
      let d := if tb (leAt bs 1 1) 0 then (if (tget d.cam.armed c).isEmpty then d.camOverride c else d)
        else d.setArmed c []
      d.furrowEntries b n (bs.drop 4)
    | _ => d

/-- Time in ns since this member's beam stood at a crossing (R538). -/
def Dev.furrowAge (d : Dev) (b dots : Nat) : Nat :=
  let s := d.beam b
  if 0 < s.v then (distL (d.fpf b) ((dots : Int) * 2 ^ 32) s.l * velNs / s.v).toNat else 0

/-- FURROW (R538). -/
def Dev.furrow (d : Dev) (bs : List Nat) : Dev :=
  if !d.follows then d
  else
    let b := leAt bs 0 1 % 8
    let cut := leAt bs 24 8
    let d := d.furrowEntries b (leAt bs 2 2) (bs.drop 32)
    let d := (d.wr Reg.ITEM_SEQ_NEXT (leAt bs 16 4)).wr (Reg.ITEM_PJOB b) (leAt bs 20 4)
    let mine := fun (n : Nat) => d.fld (Reg.ITEM_SOW_CFG n) 13 3 == b
    let caps := d.grf.caps.map fun p => if mine p.1 then (p.1, p.2.filter fun c => cut < c.1) else p
    let age := d.furrowAge b (leAt bs 8 8)
    let d := d.setGrf { d.grf with cut := tput d.grf.cut b cut, caps := caps.filter fun p => !p.2.isEmpty,
                                   furrows := if d.role = 3 && !d.grf.furrows.contains b then d.grf.furrows ++ [b] else d.grf.furrows }
    (d.wr Reg.GRF_LAG (max (d.rd Reg.GRF_LAG) (min age 0xFFFFFFFF))).joinCheck

/-- MEMWR (R536, R547). -/
def Dev.memwr (d : Dev) (bs : List Nat) : Dev :=
  let a := leAt bs 0 6
  if d.follows && d.unitHere a then d.repWrite a (bs.drop 8) else d

/-- BEAM: the standby beam is corrected to the other member's (R541): key 24 on of the estimates holds the difference to absorb. -/
def Dev.graftBeam (d : Dev) (bs : List Nat) : Dev :=
  if !d.follows then d
  else
    let b := leAt bs 0 1 % 8
    let r := recOfBytes (bs.drop 4)
    let s := d.beam b
    let x := r.at d.lt
    let diff := distL (d.fpf b) s.l x
    let small := decide (-(64 * dotUnit) ≤ diff) && decide (diff ≤ 64 * dotUnit) && !r.jump
    let e : Est := ⟨true, r, if small then diff else 0, d.lt, s.l, 0⟩
    let d := { d with est := tput d.est (24 + b) e }
    let mode := if s.mode = .off then BeamMode.off else if r.stale then .stale else if r.hold then .hold else .run
    let d := d.setBeam b { s with mode := mode, corrK := 0, corrTot := 0, corrCarry := 0 }
    if small then d else d.jumpTo b x

/-- The part of the difference that a follower's beam absorbs in this beam cycle (R65, R541). -/
def Dev.graftAbsorb (d : Dev) (b : Nat) : Dev :=
  let e := tget d.est (24 + b)
  if !d.follows || !e.got || e.e = 0 then d
  else
    let dt := min 1000 (d.lt - e.at0)
    let was := min 1000 (d.lt - 4 - e.at0)
    let add := e.e * (dt : Int) / 1000 - e.e * (was : Int) / 1000
    let s := d.beam b
    d.setBeam b { s with corrCarry := s.corrCarry + add }

/-- SYNC and SYNC_REPLY between the members (R541): sent every 10 µs, answered, or taken with the arithmetic of R512. -/
def Dev.graftSyncSend (d : Dev) : Dev :=
  if d.follows && decide (d.grf.syncs ≤ d.lt) then (d.setGrf { d.grf with syncs := d.lt + 10000 }).graftTx 7 (leBytes 8 d.lt) else d

def Dev.graftSyncIn (d : Dev) (bs : List Nat) : Dev :=
  if d.role = 2 then d.graftTx 8 (leBytes 8 (leAt bs 0 8) ++ leBytes 8 d.lt ++ leBytes 8 d.lt) else d

def Dev.graftSyncReply (d : Dev) (bs : List Nat) : Dev :=
  if !d.follows then d
  else
    let allOff := (List.range 8).all fun b => (d.beam b).mode == .off
    let step := !d.tick.firstLock && allOff
    let (_, ofs, d) := d.ltExchange (leAt bs 0 8) (leAt bs 8 8) (leAt bs 16 8) true step
    let lock := step || (decide (-2 ≤ ofs) && decide (ofs ≤ 2))
    let d := { d with tick := { d.tick with firstLock := d.tick.firstLock || lock } }
    (d.wr Reg.BEAM_LT_OFS (tw 32 ofs)).setF Reg.BEAM_LT_STATUS 0 1 (b2n lock)

/-- HANDOFF: a handoff step of the ACTIVE member is held (R540). -/
def Dev.graftHandoff (d : Dev) (bs : List Nat) : Dev :=
  if !d.follows then d
  else
    let st := leAt bs 0 1
    let h : HoStep := ⟨st, leAt bs 2 2, leAt bs 4 4, leAt bs 8 2 % 4096, if st = 2 then some (itemOfBytes (bs.drop 12)) else none⟩
    d.setGrf { d.grf with steps := d.grf.steps ++ [h] }

/-! Joining (R547). -/

/-- Addresses of every register of an array. -/
def dimKeys : List (Nat × Nat) → Nat → List Nat
  | [], a => [a]
  | (n, s) :: ds, a => (List.range n).flatMap fun i => dimKeys ds (a + i * s)

/-- Every register with CMT fields. -/
def cmtKeys : List Nat :=
  regBlocks.flatMap fun b => b.2.flatMap fun r => if r.cmt = 0 then [] else dimKeys r.dims r.base

/-- The ranges that a join copies, as first 256-byte unit and number of units, in address order (R547). -/
def Dev.joinRanges (d : Dev) : List (Nat × Nat) :=
  let fixed := [(itemBase, 0x400000), (0x20003000000, 0x400000), (0x20003400000, 0x100000), (0x20003500000, 0x100000)]
  let own := (List.range 4).filterMap fun r =>
    let l := d.rd (Reg.GRF_MIRROR_SIZE r) / 4096 * 4096
    let a := d.fld (Reg.GRF_MIRROR_BASE r) 12 36 * 4096
    if l ≠ 0 && d.hasRange a l then some (a, l) else none
  let put := fun (acc : List (Nat × Nat)) (x : Nat × Nat) =>
    let lo := acc.takeWhile fun y => y.1 ≤ x.1
    lo ++ [x] ++ acc.drop lo.length
  ((own.foldl put fixed).map fun x => (x.1 / 256, x.2 / 256))

/-- JOIN_REQ: accepted with a snapshot from source 24, unless another member, one with another UID, is JOINING or STANDBY (R547). The member that is fed
already may ask again: its join starts anew. -/
def Dev.joinReq (d : Dev) : Dev :=
  let fed := d.grf.peerRole = 3 ∨ d.grf.peerRole = 4
  if d.role ≠ 2 ∨ (fed ∧ d.grf.fedUid ≠ d.grf.peerUid) then d
  else
    let d := if fed then d.standbyLost 3 else d
    let d := if fed && d.commit.snapOpen && d.commit.snapOwner == 24 then d.snapClose else d
    let was := d.commit.snapOpen || d.freeMarker.isNone
    let d := d.snapOpenBy 24
    if was then (if fed then d.setGrf { d.grf with peerRole := 1 } else d)
    else
      let d := { d with items := { d.items with dirty := [] } }
      d.setGrf { d.grf with peerRole := 3, fedUid := d.grf.peerUid, c0 := 0, copied := false, missed := 0 }

/-- The ACTIVE member's part of a join as far as it can go now: JOIN_ACK once the snapshot has its CSN, the copy, REGIMG and JOIN_DONE
once it is ready; a snapshot that has closed before then fails the join (R547). -/
def Dev.joinRun (d : Dev) : Dev :=
  if d.role ≠ 2 ∨ d.grf.peerRole ≠ 3 ∨ d.grf.copied then d
  else if !d.commit.snapOpen ∨ d.commit.snapOwner ≠ 24 then (d.standbyGone 1).evt 307 64
  else
    let csn := d.rd Reg.COMMIT_SNAP_CSN
    let given := (d.grp d.commit.snapGrp).mode == .armed || d.commit.snapMarked
    let d := if d.grf.c0 = 0 && given then (d.setGrf { d.grf with c0 := csn }).graftTx 0xB (leBytes 4 csn) else d
    if !d.commit.snapReady || d.grf.c0 = 0 then d
    else
      let d := d.joinRanges.foldl (fun d r => forN r.2 (fun i d =>
        let a := (r.1 + i) * 256
        d.graftOne 0xC (leBytes 8 a ++ d.localRead a 256)) d) d
      let last := (d.grf.gseq + 2 ^ 32 - 1) % 2 ^ 32
      let d := d.graftTx 0xD (repEntries (cmtKeys.map fun k => (k, BitVec.ofNat 64 (d.snapVal k))))
      let d := d.snapClose
      ((d.setGrf { d.grf with copied := true }).wr Reg.GRF_JOIN_PROG 1000).graftTx 0xE (leBytes 4 last)

/-- JOIN_ACK (R547). -/
def Dev.joinAck (d : Dev) (bs : List Nat) : Dev := if d.role = 3 then d.setGrf { d.grf with c0 := leAt bs 0 4 } else d

/-- COPY: one unit of the join copy, and the progress (R547, R549). -/
def Dev.graftCopy (d : Dev) (bs : List Nat) : Dev :=
  if d.role ≠ 3 then d
  else
    let a := leAt bs 0 6
    let d := d.repWrite a (bs.drop 8)
    let units := if d.grf.units.contains (a / 256) then d.grf.units else d.grf.units ++ [a / 256]
    let total := (d.joinRanges.map (·.2)).sum
    (d.setGrf { d.grf with units := units }).wr Reg.GRF_JOIN_PROG (min 1000 (units.length * 1000 / total))

/-- REGIMG: registers of the snapshot, but those that a later commit has set (R547). -/
def Dev.regimg (d : Dev) (bs : List Nat) : Dev :=
  if d.role ≠ 3 then d
  else
    let vals := (repVals (bs.length / 8) bs []).filter fun p => !d.grf.setKeys.contains p.1
    d.applyVals vals d.lt

/-- JOIN_DONE (R547). -/
def Dev.joinDone (d : Dev) : Dev := if d.role = 3 then (d.setGrf { d.grf with joinDone := true }).joinCheck else d

/-! Heartbeats (R530, R542, R543). -/

/-- Deadline of a heartbeat after its boundary, in ns (R542). -/
def Dev.hbDeadline (d : Dev) : Nat :=
  let x := max 1 (d.fld Reg.GRF_HB_DL 0 8) * 1000
  if d.tickNs ≤ x then d.tickNs - 1000 else x

/-- Send a HEARTBEAT. Byte 21, which R530 leaves unassigned, carries ROLE_REQ, which R534 has the peer know (DESIGN CHOICE, log 106). -/
def Dev.hbSend (d : Dev) : Dev :=
  d.graftOne 1 (leBytes 4 (d.rd Reg.BEAM_TICK_NUM) ++ [0, 0, 0, 0] ++ leBytes 8 d.tick.start ++
    leBytes 4 (d.rd Reg.COMMIT_CSN) ++ [d.role, d.fld Reg.GRF_CFG 28 2, 0, 0] ++ leBytes 8 ownUid)

/-- The heartbeat of a tick boundary is sent (R536). -/
def Dev.heartbeat (d : Dev) : Dev := if d.bit Reg.GRF_CFG 31 then d.hbSend else d

/-- A Graft port in HELLO or UP that would be silent for 1 µs has a HEARTBEAT sent (R502, R527). -/
def Dev.grfCycle (d : Dev) : Dev :=
  if (List.range 2).any fun p => decide (2 ≤ d.grfState p) && decide (tget d.grf.txAt p + 997 ≤ d.lt) then d.hbSend else d

/-- GRF_PORT_LOAD at the end of a millisecond (R548). -/
def Dev.grfLoad (d : Dev) : Dev :=
  let b := d.grf.bytes
  forN 2 (fun p d => d.wr (Reg.GRF_PORT_LOAD p) (loadOf (tget b p))) (d.setGrf { d.grf with bytes := [] })

/-- A HEARTBEAT is seen on a port, whatever its turn: the peer's UID, the port's way to UP, and the tick it speaks for (R527, R542). -/
def Dev.hbSee (d : Dev) (p gseq epoch : Nat) (bs : List Nat) : Dev :=
  let uid := leAt bs 24 8
  let want := d.rd Reg.GRF_PEER_UID
  let d := d.wr Reg.GRF_PEER_SEEN uid
  if uid = ownUid ∨ (want ≠ 0 ∧ uid ≠ want) then d.evt 307 256
  else
    let n := d.rd Reg.BEAM_TICK_NUM
    let tick := leAt bs 0 4
    let inTime := tick ≠ n || decide (d.lt ≤ d.tick.start + d.hbDeadline)
    let g := { d.grf with peerEpoch := epoch, peerUid := uid }
    let d := d.setGrf (if inTime then { g with hbTick := tick, missed := 0 } else g)
    if d.grfState p ≠ 2 then d
    else if tget d.grf.hellos p = 0 then d.setGrf { d.grf with hellos := tput d.grf.hellos p 1 }
    else
      let first := d.grfState 0 ≠ 3 && d.grfState 1 ≠ 3
      let d := d.grfPortTo p 3
      let d := if first then d.evt 307 1 else d
      if first && !d.follows then d.setGrf { d.grf with rxNext := gseq, early := [], part := [] } else d

/-- Two members in SEEKING settle which becomes ACTIVE (R534). -/
def Dev.settle (d : Dev) (req : Nat) : Dev :=
  let mine := d.fld Reg.GRF_CFG 28 2 == 1
  let first := if mine == (req == 1) then decide (ownUid < d.grf.peerUid) else mine
  if first then d.becomeActive else d

/-- A HEARTBEAT takes its turn (R530, R534, R535, R547). -/
def Dev.hbTake (d : Dev) (bs : List Nat) : Dev :=
  let r := leAt bs 20 1 % 8
  let fed := fun (x : Nat) => x == 3 || x == 4
  let old := d.grf.peerRole
  let d := if d.role ≠ 2 then d.setGrf { d.grf with peerRole := r }
    else if !fed r then (if fed old then d.standbyGone r else d.setGrf { d.grf with peerRole := r })
    else if r = 3 ∧ old = 4 then d.standbyLost 3
    else if r = 4 ∧ old = 3 ∧ d.grf.copied then d.setGrf { d.grf with peerRole := 4 }
    else d
  match d.role with
  | 1 => if r = 2 then d.joinStart else if r = 1 then d.settle (bits (leAt bs 21 1) 0 2) else d
  | 2 =>
    if r = 2 && csnBefore (d.rd Reg.GRF_EPOCH) d.grf.peerEpoch then d.deposeSoon
    else if r = 4 && d.grf.peerRole = 4 && !d.bit Reg.GRF_STATUS 3 && d.grf.copied then (d.setF Reg.GRF_STATUS 3 1 1).evt 307 2
    else d
  | 3 =>
    if d.grf.tickLoad then d
    else
      let at_ := realignAt d.lt (d.rd Reg.BEAM_TICK_ALIGN) d.tickNs
      let num := (leAt bs 0 4 + (at_ - leAt bs 8 8) / d.tickNs) % 2 ^ 32
      let d := d.setGrf { d.grf with tickLoad := true }
      { d with tick := { d.tick with next := at_, realign := some (at_, some num) } }
  | _ => d

/-- HEARTBEAT_MISSED: the heartbeat of this tick has not come by its deadline (R542, R543). -/
def Dev.hbMissed (d : Dev) : Dev :=
  let waits := d.follows || d.feeds
  if !waits || d.grf.hbSeen || decide (d.lt < d.tick.start + d.hbDeadline) then d
  else
    let d := d.setGrf { d.grf with hbSeen := true }
    if d.grf.hbTick = d.rd Reg.BEAM_TICK_NUM then d
    else
      let n := d.grf.missed + 1
      let d := d.setGrf { d.grf with missed := n }
      if n < 2 then d
      else
        let d := (d.setGrf { d.grf with missed := 0 }).evt 307 32
        match d.role with
        | 4 => if d.bit Reg.GRF_CFG 30 then d.setGrf { d.grf with takeAt := some d.tick.next } else d.alarm 0x09 0
        | 3 => d.joinFail
        | _ => (d.standbyGone 0).alarm 0x09 0

/-! Takeover (R544, R545). -/

/-- The marks that a takeover gives one item (R545). -/
def Dev.recoverItem (d : Dev) (s : Nat) : Dev :=
  let i := d.item s
  let m := 256 + (if i.vpend ≠ 0 then 32 else 0) + (if i.printing then 8 else 0)
  ((d.setItem s { i with vpend := 0, printing := false }).setVerdict s m).inc Reg.GRF_RECOVERED

/-- An OUTBOUND item at a takeover (R545). -/
def Dev.recoverOutbound (d : Dev) (s : Nat) : Dev :=
  match d.grf.steps.find? fun h => h.step == 3 && h.slot == s with
  | some _ => d.harvest s 2 true
  | none =>
    match d.grf.steps.find? fun h => h.step == 1 && h.slot == s with
    | some h => { d with trl := { d.trl with offers := d.trl.offers ++ [(⟨h.txn, h.peer, s, (d.item s).id, d.lt, none, false⟩ : Offer)] } }
    | none => d

/-- A RESERVE that no FURROW record has sown stays open (R545). -/
def Dev.recoverReserve (d : Dev) (h : HoStep) : Dev :=
  match h.step, h.record with
  | 2, some r =>
    let gap := (List.range (h.slot + 1 - d.items.fresh)).map (d.items.fresh + ·)
    let it := { d.items with freed := (d.items.freed ++ gap).filter (· != h.slot), fresh := max d.items.fresh (h.slot + 1) }
    { d with items := it, trl := { d.trl with resv := d.trl.resv ++ [(⟨h.txn, h.peer, h.slot, r.id, d.lt, some r, true⟩ : Offer)] } }
  | _, _ => d

/-- The held captures, in order of their times: time, pin, level (R545). -/
def Dev.heldCaptures (d : Dev) : List (Nat × Nat × Bool) :=
  let all := d.grf.caps.flatMap fun p => (p.2.filter fun c => tget d.grf.cut (d.fld (Reg.ITEM_SOW_CFG p.1) 13 3) < c.1).map fun c =>
    (c.1, p.1, c.2.1 == 1)
  all.foldl (fun acc x => let lo := acc.takeWhile fun y => y.1 ≤ x.1; lo ++ [x] ++ acc.drop lo.length) []

/-- The rebuild of the items (R545). -/
def Dev.rebuild (d : Dev) : Dev :=
  let seq := (d.fld Reg.ITEM_SEQ_NEXT 0 20 + 4096) % 2 ^ 20
  let d := d.wr Reg.ITEM_SEQ_NEXT (if seq = 0 then 1 else seq)
  let d := forN 8 (fun b d => d.wr (Reg.ITEM_PJOB b) ((d.rd (Reg.ITEM_PJOB b) + 64 * d.fld (Reg.ITEM_PJOB_CFG b) 0 16) % 2 ^ 32)) d
  let slots := (d.items.store.filter fun p => p.2.state != 0).map (·.1)
  let d := slots.foldl (fun d s => d.recoverItem s) d
  let d := slots.foldl (fun d s => if (d.item s).state = 2 then d.recoverOutbound s else d) d
  let d := d.grf.steps.foldl (fun d h => d.recoverReserve h) d
  let d := d.heldCaptures.foldl (fun d c =>
    match d.sowCapture c.2.1 c.1 c.2.2 with
    | (some s, d) => (d.setVerdict s 256).inc Reg.GRF_RECOVERED
    | (none, d) => d) d
  d.setGrf { d.grf with steps := [], caps := [], cut := [] }

/-- TAKEOVER at its boundary (R544). -/
def Dev.takeover (d : Dev) : Dev :=
  match d.grf.takeAt with
  | none => d
  | some t =>
    if d.lt < t ∨ d.role ≠ 4 then d
    else
      let high := d.grf.highCsn
      let commits := d.grf.commits
      let d := (d.becomeActive.wr Reg.GRF_TAKEOVER_LT t).inc Reg.GRF_TAKEOVERS
      let d := commits.foldr (fun c d => if c.swapped then d.applyVals c.undo d.lt else d) d
      let next := (high + 65536) % 2 ^ 32
      let d := d.wr Reg.COMMIT_NEXT_CSN (if next = 0 then 1 else next)
      let d := (d.setGrf { d.grf with commits := [], peerRole := 0, sentF := [], await := [] }).rebuild
      let d := forN 512 (fun s d => d.stnAnew s) d
      let d := d.drvRole t
      let d := if d.trlOn then (d.takeId (d.fld Reg.TRL_NODE 0 12)).trlTopology else d
      (d.evt 307 8).alarm 0x0B 0

/-! What the ACTIVE member sends at its own events (R536, R538). -/

/-- CUT: the line time up to which every capture of the beam's sow sensors is reflected (R538). -/
def Dev.furrowCut (d : Dev) (b : Nat) : Nat :=
  (List.range 64).foldl (fun t n =>
    if d.bit (Reg.ITEM_SOW_CFG n) 16 && d.fld (Reg.ITEM_SOW_CFG n) 13 3 == b then
      match (d.pin (inPin n)).runs with
      | (te, _) :: _ => min t (te - 1)
      | [] => t
    else t) d.lt

/-- The CORR entries of a crossing: the words that the next crossing applies, if it is a field boundary (R147, R538). -/
def Dev.furrowCorr (d : Dev) (b dots : Nat) : List (List Nat) :=
  if (dots / 4096 + 1) % d.fpf b ≠ 0 then []
  else (d.corrDue b).map fun c => [1, 0] ++ leBytes 2 c ++ leBytes 4 (d.corrWord c).1

/-- The FURROW record of a forward crossing of beam `b` at a dot (R538). -/
def Dev.furrowSend (d : Dev) (b dots : Nat) : Dev :=
  if !d.feeds then d
  else
    let mine := d.items.dirty.filter fun k => k / 65536 == b
    let slots := mine.map fun k => [0, 0] ++ leBytes 2 (k % 65536) ++ (d.item (k % 65536)).bytes
    let ovr := ((d.chansOn 0 1024).filter fun c => d.chanBeam c == b && d.bit (Reg.CAM_CHAN_OVR c) 24).map fun c =>
      [2, b2n (!(tget d.cam.armed c).isEmpty)] ++ leBytes 2 c
    let ents := slots ++ d.furrowCorr b dots ++ ovr
    let head := [b, 0] ++ leBytes 2 ents.length ++ [0, 0, 0, 0] ++ leBytes 8 dots ++ leBytes 4 (d.rd Reg.ITEM_SEQ_NEXT) ++
      leBytes 4 (d.rd (Reg.ITEM_PJOB b)) ++ leBytes 8 (d.furrowCut b)
    let d := { d with items := { d.items with dirty := d.items.dirty.filter fun k => k / 65536 != b } }
    d.graftTx 4 (head ++ ents.flatten)

/-- The BEAM frames of every enabled beam (R536). -/
def Dev.beamFrames (d : Dev) : Dev :=
  if !d.feeds then d
  else forN 8 (fun b d =>
    if d.bit (Reg.BEAM_CTRL b) 0 then
      d.graftTx 6 ([b, 0, 0, 0] ++ ((d.beam b).hist.head?.getD (d.record b 0)).bytes)
    else d) d

/-! Frames that arrive (R528 to R530). -/

/-- A record of a TYPE takes its effect (R530). -/
def Dev.grfDo (d : Dev) (ty : Nat) (bs : List Nat) : Dev :=
  match ty with
  | 1 => d.hbTake bs
  | 2 => d.repCommit bs
  | 3 => d.cresult bs
  | 4 => d.furrow bs
  | 5 => d.memwr bs
  | 6 => d.graftBeam bs
  | 7 => d.graftSyncIn bs
  | 8 => d.graftSyncReply bs
  | 9 => d.graftHandoff bs
  | 10 => d.joinReq
  | 11 => d.joinAck bs
  | 12 => d.graftCopy bs
  | 13 => d.regimg bs
  | 14 => d.joinDone
  | _ => d

/-- A frame takes its turn: a continued record waits for its next frame (R528, R529). -/
def Dev.grfDeliver (d : Dev) (ty : Nat) (bs : List Nat) : Dev :=
  let t := ty % 256
  let all := tget d.grf.part t ++ bs
  let next := (d.grf.rxNext + 1) % 2 ^ 32
  let d := d.setGrf { d.grf with rxNext := next, part := tput d.grf.part t (if 256 ≤ ty then all else []) }
  if 256 ≤ ty then d else d.grfDo t all

/-- Frames that came early take their turns. -/
def Dev.grfPump (d : Dev) : Nat → Dev
  | 0 => d
  | n + 1 =>
    match aget d.grf.early d.grf.rxNext with
    | none => d
    | some (ty, bs) => ((d.setGrf { d.grf with early := aset d.grf.early d.grf.rxNext none }).grfDeliver ty bs).grfPump n

/-- A frame in the order of GSEQ (R529): once, in turn, held while it is early; a gap of 4,096 frames cannot be filled. -/
def Dev.grfOrder (d : Dev) (seq ty : Nat) (bs : List Nat) : Dev :=
  let ahead := (seq + 2 ^ 32 - d.grf.rxNext % 2 ^ 32) % 2 ^ 32
  if 2 ^ 31 ≤ ahead then d
  else if ahead = 0 then let d := d.grfDeliver ty bs; d.grfPump (d.grf.early.length + 1)
  else if 4096 ≤ ahead then ((d.setGrf { d.grf with rxNext := seq, early := [], part := [] }).grfLose).grfDeliver ty bs
  else if (aget d.grf.early seq).isSome then d
  else d.setGrf { d.grf with early := aset d.grf.early seq (some (ty, bs)) }

/-- A frame is good: its check sequence, its LEN and its TYPE (R528). -/
def frameGood (h : FrameHdr) (ty : Nat) (bs : List Nat) : Bool :=
  let octets := frameOctets (ty + b2n h.more * 256) h.gseq.toNat h.ack.toNat h.epoch.toNat bs
  h.ok && bs.length % 4 == 0 && decide (bs.length ≤ 1024) && octets == octets.take (16 + bs.length) ++ leBytes 4 h.fcs.toNat

/-- A Graft frame arrives on a port (R527 to R530). -/
def Dev.frameIn (d : Dev) (h : FrameHdr) (ty : Nat) (bs : List Nat) : Dev :=
  let p := h.port.val
  if d.grfState p < 2 then d
  else if !frameGood h ty bs then d.inc (Reg.GRF_PORT_CRC p)
  else if d.grfState p = 3 ∨ ty = 1 then
    let d := (d.grfAck h.ack.toNat).setGrf { (d.grfAck h.ack.toNat).grf with peerEpoch := h.epoch.toNat }
    let d := if ty = 1 then d.hbSee p h.gseq.toNat h.epoch.toNat bs else d
    if d.grfState p = 3 then d.grfOrder h.gseq.toNat (ty + b2n h.more * 256) bs else d
  else d

end Sys2Proof.Machine
end

