-- ==== Sys2Proof/Machine/Crypto.lean ====
section
/-! DEFINITION. SHA-256, HMAC-SHA-256 and the verification of ECDSA signatures over P-256, which the spec names without defining them
(24 R595, R600, R601). PRESUMED from FIPS 180-4, FIPS 198-1 and FIPS 186-4 (log 61). -/
namespace Sys2Proof.Machine

/-- The 64 round constants of SHA-256 (FIPS 180-4), eight to a number, the first of the eight in its highest 32 bits. -/
def shaConst : List Nat :=
  [0x428A2F9871374491B5C0FBCFE9B5DBA53956C25B59F111F1923F82A4AB1C5ED5,
   0xD807AA9812835B01243185BE550C7DC372BE5D7480DEB1FE9BDC06A7C19BF174,
   0xE49B69C1EFBE47860FC19DC6240CA1CC2DE92C6F4A7484AA5CB0A9DC76F988DA,
   0x983E5152A831C66DB00327C8BF597FC7C6E00BF3D5A7914706CA635114292967,
   0x27B70A852E1B21384D2C6DFC53380D13650A7354766A0ABB81C2C92E92722C85,
   0xA2BFE8A1A81A664BC24B8B70C76C51A3D192E819D6990624F40E3585106AA070,
   0x19A4C1161E376C082748774C34B0BCB5391C0CB34ED8AA4A5B9CCA4F682E6FF3,
   0x748F82EE78A5636F84C878148CC7020890BEFFFAA4506CEBBEF9A3F7C67178F2]

/-- The eight words that SHA-256 keeps and that a round works on, first word first. -/
structure Sha where
  a : BitVec 32
  b : BitVec 32
  c : BitVec 32
  d : BitVec 32
  e : BitVec 32
  f : BitVec 32
  g : BitVec 32
  h : BitVec 32

/-- Eight words from a number of 256 bits. -/
def Sha.ofNat (v : Nat) : Sha :=
  let w (i : Nat) : BitVec 32 := BitVec.ofNat 32 (v / 2 ^ (32 * (7 - i)))
  ⟨w 0, w 1, w 2, w 3, w 4, w 5, w 6, w 7⟩

/-- The hash value before the first block. -/
def Sha.start : Sha := Sha.ofNat 0x6A09E667BB67AE853C6EF372A54FF53A510E527F9B05688C1F83D9AB5BE0CD19

/-- Word by word sum. -/
def Sha.plus (x y : Sha) : Sha := ⟨x.a + y.a, x.b + y.b, x.c + y.c, x.d + y.d, x.e + y.e, x.f + y.f, x.g + y.g, x.h + y.h⟩

/-- Big-endian number of a byte string. -/
def beNum (bs : List Nat) : Nat := bs.foldl (fun a b => a * 256 + b % 256) 0

/-- `n` big-endian bytes of a number. -/
def beBytes (n v : Nat) : List Nat := (leBytes n v).reverse

/-- The eight words as numbers. -/
def Sha.words (x : Sha) : List Nat := [x.a, x.b, x.c, x.d, x.e, x.f, x.g, x.h].map BitVec.toNat

/-- Exclusive or of a word turned right by each of some amounts, and of `z`: every mixing function of SHA-256. -/
def shaMix (z x : BitVec 32) (turns : List Nat) : BitVec 32 := turns.foldl (fun y n => y ^^^ x.rotateRight n) z

/-- The sixteen words of a block that the next rounds take, oldest first, moved on by one round. -/
def shaSlide (win : List (BitVec 32)) : List (BitVec 32) :=
  let at_ (k : Nat) : BitVec 32 := win.getD k 0
  win.drop 1 ++ [at_ 0 + shaMix (at_ 1 >>> 3) (at_ 1) [18, 7] + at_ 9 + shaMix (at_ 14 >>> 10) (at_ 14) [19, 17]]

/-- A round with its constant and word added up: where `e` has a one the choice is `f`, else `g`; the majority is that of `a`, `b` and `c`. -/
def Sha.round (x : Sha) (kw : BitVec 32) : Sha :=
  let choice := x.g ^^^ (x.e &&& (x.f ^^^ x.g))
  let majority := (x.b &&& x.c) ||| (x.a &&& (x.b ||| x.c))
  let t := kw + x.h + choice + shaMix 0 x.e [25, 11, 6]
  ⟨t + majority + shaMix 0 x.a [22, 13, 2], x.a, x.b, x.c, t + x.d, x.e, x.f, x.g⟩

/-- The rounds from number 64 less the given one on. -/
def shaRounds : Nat → List (BitVec 32) → Sha → Sha
  | 0, _, x => x
  | n + 1, win, x => shaRounds n (shaSlide win) (x.round (BitVec.ofNat 32 (shaConst.getD ((63 - n) / 8) 0 / 2 ^ (32 * (n % 8))) + win.headD 0))

/-- The hash value after one block of 64 bytes. -/
def shaBlock (x : Sha) (block : Nat → Nat) : Sha :=
  x.plus (shaRounds 64 ((List.range 16).map fun i => BitVec.ofNat 32 (beNum ((List.range 4).map fun k => block (4 * i + k)))) x)

/-- The hash value of a byte string, which is followed by a one bit, zeros, and its length in bits at the end of a block. -/
def shaOf (m : List Nat) : Sha :=
  let blocks := (m.length + 72) / 64
  let tail := beBytes 8 (8 * m.length)
  let padded (i : Nat) : Nat :=
    if i < m.length then m.getD i 0 else if i = m.length then 0x80 else if i + 8 < 64 * blocks then 0 else tail.getD (i + 8 - 64 * blocks) 0
  (List.range blocks).foldl (fun x n => shaBlock x fun k => padded (64 * n + k)) Sha.start

/-- SHA-256 of a byte string: 32 bytes. -/
def sha256 (m : List Nat) : List Nat := (shaOf m).words.flatMap (beBytes 4)

/-- HMAC-SHA-256 with a key of at most 64 bytes. -/
def hmacSha256 (key m : List Nat) : List Nat :=
  let k := key ++ List.replicate (64 - key.length) 0
  sha256 (k.map (· ^^^ 0x5C) ++ sha256 (k.map (· ^^^ 0x36) ++ m))

def p256p : Nat := 0xFFFFFFFF00000001000000000000000000000000FFFFFFFFFFFFFFFFFFFFFFFF
def p256n : Nat := 0xFFFFFFFF00000000FFFFFFFFFFFFFFFFBCE6FAADA7179E84F3B9CAC2FC632551
def p256b : Nat := 0x5AC635D8AA3A93E7B3EBBD55769886BC651D06B0CC53B0F63BCE3C3E27D2604B
def p256g : Nat × Nat :=
  (0x6B17D1F2E12C4247F8BCE6E563A440F277037D812DEB33A0F4A13945D898C296,
   0x4FE342E2FE1A7F9B8EE7EB4A7C0F9E162BCE33576B315ECECBB6406837BF51F5)

/-- `b` to a power of at most `k` bits, modulo `m`: square and multiply from the lowest bit. -/
def powMod (m : Nat) : Nat → Nat → Nat → Nat → Nat
  | 0, _, _, acc => acc
  | k + 1, b, e, acc => powMod m k (b * b % m) (e / 2) (if e % 2 = 1 then acc * b % m else acc)

/-- Inverse modulo a prime of at most 256 bits. -/
def invMod (m x : Nat) : Nat := powMod m 256 (x % m) (m - 2) 1

/-- Sum of two points of P-256; none is the point at infinity. -/
def p256add : Option (Nat × Nat) → Option (Nat × Nat) → Option (Nat × Nat)
  | none, q => q
  | p, none => p
  | some (x1, y1), some (x2, y2) =>
    if x1 = x2 && (y1 + y2) % p256p = 0 then none
    else
      let l := if x1 = x2 then (3 * x1 * x1 + (p256p - 3)) * invMod p256p (2 * y1) % p256p
        else (y2 + p256p - y1) * invMod p256p (x2 + p256p - x1) % p256p
      let x3 := (l * l + 2 * p256p - x1 - x2) % p256p
      some (x3, (l * (x1 + p256p - x3) + p256p - y1) % p256p)

/-- `k` times a point, for `k` of at most `n` bits. -/
def p256mul : Nat → Nat → Option (Nat × Nat) → Option (Nat × Nat) → Option (Nat × Nat)
  | 0, _, _, acc => acc
  | n + 1, k, q, acc => p256mul n (k / 2) (p256add q q) (if k % 2 = 1 then p256add acc q else acc)

/-- The signature (r, s) over the hash `z` verifies under the public key (x, y). -/
def ecdsaVerify (x y z r s : Nat) : Bool :=
  let on := x < p256p && y < p256p && (y * y) % p256p == (x * x * x + (p256p - 3) * x + p256b) % p256p
  if on && 0 < r && r < p256n && 0 < s && s < p256n then
    let w := invMod p256n s
    let pt := p256add (p256mul 256 (z * w % p256n) (some p256g) none) (p256mul 256 (r * w % p256n) (some (x, y)) none)
    match pt with
    | some (px, _) => px % p256n == r
    | none => false
  else false

end Sys2Proof.Machine
end

