-- ==== Sys2Proof/Machine/Otp.lean ====
section
/-! DEFINITION. The OTP store, its programming, and the views of the security state (24 R591 to R599, R614). -/
namespace Sys2Proof.Machine

def Dev.setSec (d : Dev) (s : SecSt) : Dev := { d with sec := s }

/-- Bits set in the low `n` bits of a number. -/
def ones : Nat → Nat → Nat
  | 0, _ => 0
  | n + 1, v => v % 2 + ones n (v / 2)

/-- A field that is programmed once holds a value whose check bits match (R597, R598): 0 to 3 PK_HASH, 7 PWD_HASH, 8 OEM_KEY. -/
def SecSt.programmed (s : SecSt) (f : Nat) : Bool :=
  !s.spoiled.contains f &&
    (if f < 4 then !(tget s.pk f).isEmpty else if f = 7 then !s.pwd.isEmpty else if f = 8 then !s.oem.isEmpty else false)

/-- Content of a once-programmed field, as read (R598). -/
def SecSt.field (s : SecSt) (f : Nat) : List Nat :=
  if s.programmed f then (if f < 4 then tget s.pk f else if f = 7 then s.pwd else s.oem) else []

/-- PK_HASH slot `k` counts as revoked (R597, R598). -/
def SecSt.revoked (s : SecSt) (k : Nat) : Bool := tb s.revoke k || s.spoiled.contains k

/-- A slot that is valid and not revoked (R614). -/
def SecSt.pkOk (s : SecSt) (k : Nat) : Bool := s.programmed k && !s.revoked k

def SecSt.pkSet (s : SecSt) : Bool := (List.range 4).any s.pkOk

/-- The LOCK fuse is set (R598). -/
def SecSt.lockSet (s : SecSt) : Bool := decide (2 ≤ ones 8 s.lock)

/-- The ROLLBACK count (R597). -/
def SecSt.rollbackCount (s : SecSt) : Nat := ones 64 s.rollback

/-- Back-off left, in ns (R596). -/
def Dev.secBackoff (d : Dev) : Nat := d.sec.backAt - d.lt

/-- SEC_STATE (R614); STATE itself stands in the register file. -/
def Dev.secState (d : Dev) : Nat :=
  let s := d.sec
  d.fld Reg.SEC_STATE 0 2 + b2n (s.programmed 7) * 2 ^ 4 + b2n (s.programmed 8) * 2 ^ 5 + b2n s.pkSet * 2 ^ 6 +
    min 15 s.fails * 2 ^ 8 + b2n (decide (16 ≤ s.fails)) * 2 ^ 12 + b2n (decide (0 < d.secBackoff) || decide (16 ≤ s.fails)) * 2 ^ 13

/-- SEC_OTP_CHK (R614). -/
def SecSt.otpChk (s : SecSt) : Nat :=
  (List.range 9).foldl (fun a f =>
    let on := if f = 4 then s.revoke != 0 else if f = 5 then s.rollback != 0 else if f = 6 then s.bootCfg != 0 else s.programmed f
    a + b2n on * 2 ^ f) 0

/-- SEC_OTP_RDATA[i] of the selected field (R597, R614). -/
def Dev.otpRdata (d : Dev) (i : Nat) : Nat :=
  let s := d.sec
  let f := d.fld Reg.SEC_OTP_SEL 0 4
  if f < 4 then leAt (s.field f) (4 * i) 4
  else if f = 4 then (if i = 0 then s.revoke else 0)
  else if f = 5 then (if i = 0 then s.rollbackCount else 0)
  else if f = 6 then (if i = 0 then s.bootCfg else 0) else 0

/-- Change STATE; a change to LOCKED closes every DBG_EN and sets SEC_EVT.LOCKED (R591, R593, R614). -/
def Dev.secTo (d : Dev) (st : Nat) : Dev :=
  let d := d.setF Reg.SEC_STATE 0 2 st
  if st = 1 then (forN 24 (fun c d => d.setF (Reg.CORECTL_CTRL c) 8 1 0) d).evt 453 64 else d

/-- The session of an UNLOCKED device ends (R591, R608). -/
def Dev.secEnd (d : Dev) : Dev := if d.fld Reg.SEC_STATE 0 2 = 2 then d.secTo 1 else d

/-- The fields that a programming gives: the whole of a once-programmed field, further bits of the others (R597 to R599). A field whose
check bits were spoiled may or may not match afterwards (log 62). -/
def Dev.fuseSet (d : Dev) (f : Nat) (bs : List Nat) : Dev :=
  let s := d.sec
  if f = 4 then d.setSec { s with revoke := (s.revoke ||| leNum bs) % 16 }
  else if f = 5 then d.setSec { s with rollback := (s.rollback ||| leAt bs 0 8) % 2 ^ 64 }
  else if f = 6 then d.setSec { s with bootCfg := (s.bootCfg ||| leAt bs 0 1) % 256 }
  else
    let was := s.spoiled.contains f
    let d := d.setSec (if f < 4 then { s with pk := tput s.pk f bs } else if f = 7 then { s with pwd := bs } else { s with oem := bs })
    if was then
      let (x, d) := d.fresh 1
      if x = 1 then d.setSec { d.sec with spoiled := d.sec.spoiled.filter (· != f) } else d
    else d

/-- FUSE_PROGRAM_DONE: the programming in progress has completed (R593, R599). -/
def Dev.fuseDone (d : Dev) : Dev :=
  match d.sec.busy with
  | none => d
  | some (f, bs) =>
    let d := (d.setSec { d.sec with busy := none }).wr Reg.SEC_RESULT 0
    if f = 9 then ((d.setSec { d.sec with lock := 255 }).wr Reg.ID_LOCK 1).secTo 1 else d.fuseSet f bs

/-- A power-on reset breaks off a programming (R598): LOCK fuses set so far are free; a once-programmed field has check bits that do not
match; further bits read set or clear (log 62). -/
def Dev.fuseBroken (d : Dev) : Dev :=
  match d.sec.busy with
  | none => d
  | some (f, bs) =>
    let s := { d.sec with busy := none }
    let (x, d) := d.fresh 64
    if f = 9 then d.setSec { s with lock := s.lock ||| x % 256 }
    else if f = 4 ∨ f = 5 ∨ f = 6 then (d.setSec s).fuseSet f (leBytes 8 (x &&& leNum bs))
    else (d.setSec { s with spoiled := if s.spoiled.contains f then s.spoiled else s.spoiled ++ [f] })

end Sys2Proof.Machine
end

