-- ==== Sys2Proof/Machine/Reset.lean ====
section
/-! DEFINITION. The reset classes (24 R607 to R613), with what they do to commits (03 R104) and to the blocks of each plane (01 R28, R32). -/
namespace Sys2Proof.Machine

/-- The reset is recorded in RST_CAUSE and RST_COUNT (R608). -/
def Dev.rstNote (d : Dev) (bit : Nat) : Dev := (d.orBits Reg.RST_CAUSE (2 ^ bit)).inc Reg.RST_COUNT

/-- The wait of R610 for the flits and frames of commits on their way: at most 2 µs, a free value (log 1). -/
def Dev.rstHold (d : Dev) : Dev :=
  if d.grpKeys.any fun g => (d.grp g).mode == .armed then
    let (x, d) := d.fresh 16
    d.wr Reg.RST_HOLD_MAX (max (d.rd Reg.RST_HOLD_MAX) (x % 2001))
  else d

/-- An ARMED commit is aborted in every remote domain: a domain that has swapped restores its undo copy before the reset completes (R610). -/
def Dev.rstAbort (d : Dev) (g : Nat) : Dev :=
  let csn := d.armedCsn g
  let q := d.grp g
  let d := d.abortMsgs g
  let d := if q.fabric && !q.confirmed then q.peers.foldl (fun d n => d.cellSend 2 4 n (leBytes 4 csn)) d else d
  (d.commit.remote.filter fun r => r.grp == g && r.csn == csn).foldl (fun d r => d.abortReceive r.dom g csn) d

/-- The commits of a reset control plane (R104, R610, R611): those ARMED are aborted, all are discarded, and the snapshot closes. COMMIT_NEXT_CSN
keeps its value. -/
def Dev.rstCommits (d : Dev) : Dev :=
  let d := d.grpKeys.foldl (fun d g => if (d.grp g).mode = .armed then d.rstAbort g else d) d.snapClose
  { d with commit := default }

/-- A data plane that stops returns an ARMED commit that touches it to PENDING without a slip (R32, R611). -/
def Dev.dataHeld (d : Dev) : Dev :=
  d.grpKeys.foldl (fun d g =>
    let q := d.grp g
    if q.mode = .armed ∧ (d.remoteDoms g).contains 1 then
      (d.rstAbort g).setGrp g { q with mode := .pending, acks := [], retrained := false, doms := [] }
    else d) d

/-- A data-plane reset also closes the snapshot (R104). -/
def Dev.rstHeld (d : Dev) : Dev := d.snapClose.dataHeld

/-- What the meeting points do before the step `f`, if it powers the data plane down (R32): its commits are held, and items under print are
given PRINT_FAULT. -/
def Dev.planeDown (d : Dev) (f : Dev → Dev) : Dev :=
  if d.domOn 66 && !(f d).domOn 66 then f d.dataHeld.printsLost else f d

/-- The control plane returns to its reset contents (R16, R32, R341, R608); Flagar's own priority stack stays. -/
def Dev.clearControl (d : Dev) : Dev :=
  let d := d.rstCommits
  let d := d.dropRegs fun r => inBlocks controlBlocks r || corectlHigh ≤ r
  let keep := fun {α : Type} (t : Tab α) => t.filter fun p => p.1 == 24
  let d := { d with items := default, tmr := [], camin := d.camin,
                    intc := { (default : IntcSt) with prio := keep d.intc.prio, payload := keep d.intc.payload, thrGap := keep d.intc.thrGap },
                    cores := keep d.cores,
                    trl := { d.trl with offers := [], resv := [] } }
  let d := forN 24 (fun c d => d.setCore c (d.coreInit c)) d
  d.clearEngines.clearPins.refreshAll

/-- A training that a reset stops starts again when the reset ends (R486, R612). -/
def Dev.retrainDram (d : Dev) : Dev := if d.fld Reg.MEMC_STATUS 0 2 = 1 then d.memcTrain else d

/-- A VERIFY under way is abandoned (R612). -/
def Dev.verifyDrop (d : Dev) : Dev :=
  if d.sec.verify.isSome then (d.setSec { d.sec with verify := none }).setF Reg.SEC_RESULT 31 1 0 else d

/-- Graft seeks its peer again after every reset but a CORE reset (R534); only a reset that resets the control plane ends DEPOSED (R535). -/
def Dev.rstSeek (d : Dev) (control : Bool) : Dev :=
  if d.role = 5 ∧ !control then d
  else if d.bit Reg.GRF_CFG 31 then d.seek
  else if d.role = 5 then d.toRole 0
  else d

/-- What every reset but a power-on reset does first and last (R599, R608, R610, R612, R534). Resets 5 to 7 leave the control plane as it is. -/
def Dev.rstFrame (d : Dev) (bit : Nat) (f : Dev → Dev) : Dev :=
  (f ((d.fuseDone.rstHold).verifyDrop.rstNote bit)).retrainDram.rstSeek (!(5 ≤ bit && bit ≤ 7))

/-- Registers of the management plane whose content is the present state of the hardware, not a setting: the read-only ones of PWR, CLK and
HEALTH, the security state with the code ranges, and the boot report (log 63). -/
def mgmtLive (k : Nat) : Bool :=
  (match regRow k with | some r => r.rw == 0 && r.w1c == 0 && r.rc == 0 && r.wo == 0 | none => false) &&
    ([0x3FF0001, 0x3FF0002, 0x3FF0003].contains (k / 0x10000) || k == Reg.SEC_STATE || (0x3FF00050100 ≤ k && k < 0x3FF00050300) ||
      k == Reg.RST_STATUS || k == Reg.RST_BOOT || k == Reg.RST_BOOT_TIME || k / 0x10000 == 0x3FF0007)

/-- The management plane's registers and supervisors at their reset contents (R32, R608): but for the last temperatures, which a trip still
needs (R565); the log tail, the merge table and the records
of ageing are kept. The Trellis node goes down with its configuration. -/
def Dev.clearMgmt (d : Dev) (all : Bool) : Dev :=
  let d := d.secEnd
  let d := d.dropRegs fun r => inBlocks mgmtBlocks r && (all || !mgmtLive r) && r != Reg.SEC_STATE && r != Reg.ID_LOCK &&
    !(0x3FF00030040 ≤ r && r < 0x3FF000300A0)
  let d := { d with trl := { (default : TrlSt) with offers := d.trl.offers, resv := d.trl.resv, txn := d.trl.txn }, grf := default, host := default,
                    log := { (default : LogSt) with alm := d.log.alm, tail := d.log.tail, next := d.log.next, skip := d.log.skip },
                    pwr := { d.pwr with capWait := none, woke := [], refused := [] } }
  let d := d.setSec { d.sec with nonceAt := 0 }
  forN 8 (fun b d => d.beamReeval b) d.refreshAll

/-- Both ends of the Stem start anew, in the state of a full retrain that has begun or, before Flagar starts it, down (R28, R608). -/
def Dev.stemRestart (d : Dev) (train : Bool) : Dev :=
  let st := fun (d : Dev) (die : Nat) =>
    (d.wr (stemReg die Reg.STEM_STATUS) (b2n train)).setStem die { (default : StemSt) with retrain := if train then 2 else 0 }
  { st (st d 0) 1 with dataStop := true }

/-- Flagar restarts from its image, the next one if there is one, if the body in management SRAM still has its hash; else it
stays stopped (R602, R608; log 64). -/
def Dev.flagarRestart (d : Dev) : Dev :=
  let d := match d.sec.next with
    | some n =>
      let d := match d.sec.flagar with
        | some o => (d.wr (Reg.SEC_CODE o.range) 0).wr (Reg.SEC_CODE_LEN o.range) 0
        | none => d
      d.setSec { d.sec with flagar := some n, next := none }
    | none => d
  let d := (d.setCore 24 (d.coreInit 24)).setStack 24 []
  match d.sec.flagar with
  | none => d
  | some i => if sha256 (d.load i.load i.len) = i.hash then d.coreStart 24 i.entry i.ssp else d

/-- CONTROL PLANE reset. -/
def Dev.rstControl (d : Dev) : Dev := d.rstFrame 4 Dev.clearControl

/-- The data plane's part of a reset that leaves the Stem as it is. -/
def Dev.dataAgain (d : Dev) : Dev := ({ d.clearData with dataStop := false }).memcTrain

/-- DATA PLANE reset (R32, R104, R608, R611). While a training that ended in STEM_DOWN holds the data plane in reset, it stays there (R28). -/
def Dev.rstData (d : Dev) : Dev :=
  d.rstFrame 5 fun d => if d.dataStop then d.snapClose else d.rstHeld.dataAgain

/-- STEM_DOWN (R28): the data plane is taken through a reset, from which it recovers as from a PLANE reset; one that the training of a reset holds
in reset stays there and is not reset again. -/
def Dev.rstStemDown (d : Dev) : Dev :=
  if d.dataStop then d else d.rstFrame 7 fun d => d.rstHeld.dataAgain

/-- MANAGEMENT PLANE reset (R32, R608). -/
def Dev.rstMgmt (d : Dev) : Dev := d.rstFrame 6 fun d => (d.clearMgmt false).flagarRestart

/-- DEVICE reset (R608). -/
def Dev.rstDevice (d : Dev) : Dev :=
  d.rstFrame 3 fun d => ((d.clearControl).clearData.stemRestart true).secEnd

/-- PIN reset, or a thermal trip's (R607, R608): the boot sequencer starts again. -/
def Dev.rstPin (d : Dev) (bit : Nat) : Dev :=
  d.rstFrame bit fun d =>
    let d := (((d.clearControl).clearData).clearMgmt true).stemRestart false
    let d := (d.setCore 24 (d.coreInit 24)).setStack 24 []
    let d := { d with pwr := { (default : PwrSt) with fit := d.pwr.fit, slack := d.pwr.slack, trip := d.pwr.trip, ms := d.pwr.ms }, cloche := false }
    d.setSec { d.sec with flagar := none, next := none, verify := none }

/-- A write of RST_CTRL by HOST or Flagar (R607): the requested classes, the widest alone where it covers the others. -/
def Dev.rstCtrl (d : Dev) (src v : Nat) : Dev :=
  if (src ≠ 24 ∧ src ≠ 25) ∨ bits v 24 8 ≠ 0xA5 then d
  else
    let d := if tb v 0 then d.rstDevice
      else
        let d := if tb v 1 then d.rstControl else d
        if tb v 2 then d.rstData else d
    if tb v 3 then d.rstMgmt else d

end Sys2Proof.Machine
end

