-- ==== Sys2Proof/Machine/Sec.lean ====
section
/-! DEFINITION. Unlocking, program images, code ranges and the boot sequence (24 R593 to R606). -/
namespace Sys2Proof.Machine

/-- The words of SEC_DATA as bytes. -/
def Dev.secData (d : Dev) (n : Nat) : List Nat :=
  ((List.range 8).flatMap fun i => leBytes 4 (d.rd (Reg.SEC_DATA i))).take n

def Dev.secResult (d : Dev) (r : Nat) : Dev := d.wr Reg.SEC_RESULT r

/-- An attempt that may not start now is refused (R596): none if it may. -/
def Dev.attemptRefused (d : Dev) : Option Dev :=
  if 16 ≤ d.sec.fails then some ((d.secResult 5).evt 453 4)
  else if 0 < d.secBackoff then some ((d.secResult 4).evt 453 4) else none

/-- The outcome of an attempt (R595, R596). -/
def Dev.attempt (d : Dev) (ok : Bool) (bad : Nat) : Dev :=
  if ok then
    let d := (d.setSec { d.sec with fails := 0, backAt := 0 }).secResult 0
    (if d.locked then d.secTo 2 else d).evt 453 1
  else
    let n := d.sec.fails + 1
    let back := if n < 16 then d.lt + 100000000 * 2 ^ (n - 1) else d.sec.backAt
    (((d.setSec { d.sec with fails := n, backAt := back }).inc Reg.SEC_FAILS_TOTAL).secResult bad).evt 453 2

/-- PASSWORD (R595, R596). -/
def Dev.secPassword (d : Dev) : Dev :=
  match d.attemptRefused with
  | some r => r
  | none => d.attempt (d.sec.programmed 7 && sha256 (d.secData 16) == d.sec.field 7) 2

/-- CHALLENGE (R595): a nonce from the random number generator, alive for 60 s. -/
def Dev.secChallenge (d : Dev) : Dev :=
  let (x, d) := d.fresh 128
  let d := forN 4 (fun i d => d.wr (Reg.SEC_NONCE i) (bits x (32 * i) 32)) d
  (d.setSec { d.sec with nonceAt := d.lt + 60000000000 }).secResult 0

/-- The message that a response authenticates (R595). -/
def Dev.nonceMsg (d : Dev) : List Nat :=
  ((List.range 4).flatMap fun i => leBytes 4 (d.rd (Reg.SEC_NONCE i))) ++ leBytes 8 Config.uid.toNat

/-- RESPOND (R595, R596): a nonce serves one response. -/
def Dev.secRespond (d : Dev) : Dev :=
  if d.sec.nonceAt ≤ d.lt then d.secResult 6
  else
    let d := d.setSec { d.sec with nonceAt := 0 }
    match d.attemptRefused with
    | some r => r
    | none => d.attempt (d.sec.programmed 8 && hmacSha256 (d.sec.field 8) d.nonceMsg == d.secData 32) 3

/-- Something is being programmed, verified or answered: RESULT.BUSY. -/
def Dev.secStart (d : Dev) : Dev := d.secResult (2 ^ 31)

/-- LOCK (R593). -/
def Dev.secLock (d : Dev) : Dev :=
  if d.fld Reg.SEC_STATE 0 2 ≠ 0 then d
  else if d.sec.programmed 7 && d.sec.programmed 8 && d.sec.pkSet then (d.setSec { d.sec with busy := some (9, []) }).secStart
  else d.secResult 7

/-- OTP_PROG (R592, R599); one that may not be made ends with DENIED. -/
def Dev.otpProg (d : Dev) : Dev :=
  let f := d.fld Reg.SEC_OTP_SEL 0 4
  let st := d.fld Reg.SEC_STATE 0 2
  if 8 < f || (st = 2 && (f = 7 || f = 8)) || (d.sec.programmed f) then d.secResult 12
  else (d.setSec { d.sec with busy := some (f, d.secData 32) }).secStart

/-- Base and size of the memory of an image's target kind that holds its LOAD address (R600, R601). -/
def imgMemory (target load : Nat) : Option (Nat × Nat) :=
  match target, regionOf load with
  | 0, .msram => some (0x3FE00000000, 0x100000)
  | 1, .coreMem c => some (0x20000000000 + c * 0x40000, 0x40000)
  | 2, .ssram => some (0x20001000000, 0x200000)
  | _, _ => none

/-- LOAD of an image header, and its length. -/
def imgLoad (h : List Nat) : Nat := leAt h 16 6
def imgLen (h : List Nat) : Nat := leAt h 24 4

/-- The header checks of R601; KEYSLOT and VERSION outside their ranges are taken with them. -/
def imgHeaderOk (h : List Nat) : Bool :=
  leAt h 0 4 == 0x4D495747 && leAt h 4 2 == 1 && leAt h 6 1 ≤ 2 && leAt h 7 1 ≤ 3 && leAt h 8 4 ≤ 64 &&
    ((h.drop 40).take 24).all (· == 0) && ((h.drop 224).take 32).all (· == 0) &&
    (match imgMemory (leAt h 6 1) (imgLoad h) with
      | some (lo, n) => imgLoad h + imgLen h ≤ lo + n
      | none => false)

/-- Bytes of the image at an address: its header, and its body if the header admits one. They are read once (R602). -/
def Dev.imgRead (d : Dev) (a : Nat) : List Nat :=
  let h := if d.hasRange a 256 then d.memRead a 256 else []
  let n := imgLen h
  if imgHeaderOk h && n ≠ 0 && d.hasRange (a + 256) n then h ++ d.memRead (a + 256) n else h

/-- The result of verifying an image (R592, R601): 0 accepted, with whether it is UNVERIFIED. -/
def Dev.imgVerify (d : Dev) (img : List Nat) : Nat × Bool :=
  let h := img.take 256
  let body := (img.drop 256).take (imgLen h)
  let s := d.sec
  let k := leAt h 7 1
  if !imgHeaderOk h || body.length ≠ imgLen h then (11, false)
  else if d.fld Reg.SEC_STATE 0 2 = 0 && !(List.range 4).any (fun i => s.programmed i) then (0, true)
  else if !s.pkOk k || sha256 ((h.drop 64).take 64) != s.field k then (10, false)
  else if leAt h 8 4 < s.rollbackCount then (9, false)
  else
    let be := fun i n => beNum ((h.drop i).take n)
    if !ecdsaVerify (be 64 32) (be 96 32) (beNum (sha256 (h.take 160))) (be 160 32) (be 192 32) then (8, false)
    else if sha256 body != (h.drop 128).take 32 then (8, false)
    else (0, false)

/-- The lowest free code range. -/
def Dev.freeCode (d : Dev) : Option Nat := (List.range 32).find? fun r => d.rd (Reg.SEC_CODE_LEN r) == 0

/-- An accepted image is loaded (R601 to R603): the body is copied and registered as range `r`, and ADVANCE raises ROLLBACK. -/
def Dev.imgTake (d : Dev) (img : List Nat) (r : Nat) (unverified : Bool) : Dev :=
  let h := img.take 256
  let n := imgLen h
  let v := leAt h 8 4
  let d := d.memWrite 24 (imgLoad h) ((img.drop 256).take n)
  let d := (d.wr (Reg.SEC_CODE r) (imgLoad h)).wr (Reg.SEC_CODE_LEN r) n
  let d := d.wr Reg.SEC_IMG_STATUS (leAt h 7 1 + v * 2 ^ 8 + b2n unverified * 2 ^ 16)
  if tb (leAt h 36 4) 1 && !unverified then d.setSec { d.sec with rollback := d.sec.rollback ||| (2 ^ v - 1) } else d

/-- What Flagar does with the cores of a TARGET 1 or 2 image (R602). -/
def Dev.imgCores (d : Dev) (h : List Nat) : Dev :=
  forN 24 (fun c d =>
    if tb (leAt h 12 4) c then
      let d := (d.wr (Reg.CORECTL_BOOT c) (leAt h 28 4 / 2 * 2)).wr (Reg.CORECTL_BOOT_SP c) (leAt h 32 4)
      let d := if (d.core c).mode != .reset then d.coreReset c else d
      if tb (leAt h 36 4) 0 then d.coreRelease c else d
    else d) d

/-- Flagar's image as a header gives it. -/
def imgFlagar (h : List Nat) (r : Nat) : FlagarImg :=
  { entry := leAt h 28 4, ssp := leAt h 32 4, load := imgLoad h, len := imgLen h, hash := (h.drop 128).take 32, range := r }

/-- A VERIFY ends with a failure (R602). -/
def Dev.imgBad (d : Dev) (r : Nat) : Dev := (d.secResult r).evt 453 16

/-- An image that has been read is verified and loaded (R601 to R603). -/
def Dev.imgLoadAll (d : Dev) (img : List Nat) : Dev :=
  let h := img.take 256
  let v := d.imgVerify img
  if v.1 ≠ 0 then d.imgBad v.1
  else
    match d.freeCode with
    | none => d.imgBad 12
    | some r =>
      if leAt h 6 1 = 0 && d.codeHit (imgLoad h) (imgLen h) then d.imgBad 12
      else
        let d := ((d.imgTake img r v.2).secResult 0).evt 453 8
        if leAt h 6 1 ≠ 0 then d.imgCores h
        else
          let d := d.setSec { d.sec with next := some (imgFlagar h r) }
          if tb (leAt h 36 4) 0 then d.rstMgmt else d

/-- VERIFY (R602): the image is read into the SEC engine. -/
def Dev.secVerify (d : Dev) : Dev :=
  (d.setSec { d.sec with verify := some (d.imgRead (d.fld Reg.SEC_IMG_ADDR 0 48)) }).secStart

/-- Bytes that an image takes in a package (R600). -/
def imgSpan (h : List Nat) : Nat := 256 + (imgLen h + 255) / 256 * 256

/-- The images of a package after the first `n` bytes, ended by a MAGIC of 0 (R605). -/
def imgsFrom : Nat → List Nat → List (List Nat)
  | 0, _ => []
  | k + 1, bs =>
    if bs.length < 256 || leAt bs 0 4 = 0 then []
    else bs.take (256 + imgLen bs) :: imgsFrom k (bs.drop (imgSpan bs))

/-- The first image of a boot package: its result under R601, with TARGET 0 (R604). -/
def Dev.bootCheck (d : Dev) (pkg : List Nat) : Nat × Bool :=
  let img := pkg.take (256 + imgLen pkg)
  if leAt pkg 6 1 ≠ 0 then (11, false) else d.imgVerify img

/-- Flagar sets READY once it has trained the Stem and DRAM (R604). -/
def Dev.bootReady (d : Dev) : Dev :=
  if d.fld Reg.RST_STATUS 1 3 = 4 ∧ !d.bit Reg.RST_STATUS 0 then (d.setF Reg.RST_STATUS 0 1 1).evt 454 1 else d

/-- Phase 4 and Flagar's bring-up (R604, R575): Flagar runs, the clocks have locked, the remaining images are loaded, the Stem trains. The time
to phase 4 is a free value (log 1). -/
def Dev.bootGo (d : Dev) (pkg : List Nat) (unverified : Bool) : Dev :=
  let img := pkg.take (256 + imgLen pkg)
  let d := d.imgTake img 0 unverified
  let i := imgFlagar img 0
  let d := (d.setSec { d.sec with flagar := some i, next := none }).setF Reg.RST_STATUS 1 3 4
  let (t, d) := d.fresh 16
  let d := ((d.wr Reg.RST_BOOT_TIME (t % 8001)).setF Reg.RST_BOOT 16 7 (leAt img 8 4)).coreStart 24 i.entry i.ssp
  let d := d.wr Reg.CLK_STATUS 0x10FFF
  let d := (imgsFrom 8192 (pkg.drop (imgSpan pkg))).foldl (fun d i => d.imgLoadAll i) d
  d.stemRestart true

/-- The shared SRAM receives a package (R604 to R606). -/
def Dev.bootFetch (d : Dev) (pkg : List Nat) : Dev := d.store 0x20001000000 (pkg.take 0x200000)

/-- BOOT: the sequencer's phases 1 to 4 after a POR or PIN reset (R604 to R606): `src` the BOOT_SRC balls, `a` and `b` the packages of the flash. -/
def Dev.boot (d : Dev) (src : Nat) (a b : List Nat) : Dev :=
  if d.sec.flagar.isSome || d.fld Reg.RST_STATUS 1 3 ≠ 0 then d
  else if src = 1 && !tb d.sec.bootCfg 0 then (d.wr Reg.RST_BOOT 1).setF Reg.RST_STATUS 1 3 5
  else
    let d := d.bootFetch a
    let ra := d.bootCheck (a.take 0x200000)
    if ra.1 = 0 then (d.wr Reg.RST_BOOT 0).bootGo (a.take 0x200000) ra.2
    else
      let d := d.bootFetch b
      let rb := d.bootCheck (b.take 0x200000)
      let d := d.wr Reg.RST_BOOT (2 + ra.1 * 2 ^ 4 + rb.1 * 2 ^ 8)
      if rb.1 = 0 then d.bootGo (b.take 0x200000) rb.2
      else (d.setF Reg.RST_STATUS 1 3 (if tb d.sec.bootCfg 1 then 5 else 6)).evt 454 2

/-- A VERIFY in WAIT_HOST continues the boot at phase 3 (R606): `img` has been read from SEC_IMG_ADDR, the rest of the package follows it. -/
def Dev.bootHost (d : Dev) (img : List Nat) : Dev :=
  let v := if leAt img 6 1 ≠ 0 then (11, false) else d.imgVerify img
  if v.1 ≠ 0 then d.imgBad v.1
  else
    let rest := d.load (d.fld Reg.SEC_IMG_ADDR 0 48 + imgSpan img) (0x200000 - imgSpan img)
    let pad := List.replicate (imgSpan img - img.length) 0
    ((d.secResult 0).evt 453 8).bootGo (img ++ pad ++ rest) v.2

/-- VERIFY_COMPLETE (R601, R602, R606). -/
def Dev.verifyDone (d : Dev) : Dev :=
  match d.sec.verify with
  | none => d
  | some img =>
    let d := d.setSec { d.sec with verify := none }
    if d.fld Reg.RST_STATUS 1 3 = 5 then d.bootHost img else d.imgLoadAll img

/-- A command of SEC_CMD that the security state admits (R593 to R602); none while the block is BUSY (log 65). -/
def Dev.secDo (d : Dev) (v : Nat) : Dev :=
  let sure := bits v 16 16 == 0xC10C
  if d.bit Reg.SEC_RESULT 31 then d
  else match v % 16 with
    | 1 => if sure then d.secLock else d
    | 2 => d.secPassword
    | 3 => d.secChallenge
    | 4 => d.secRespond
    | 5 => (if d.fld Reg.SEC_STATE 0 2 = 2 then d.secTo 1 else d).secResult 0
    | 6 => d.secVerify
    | 7 => if sure then d.otpProg else d
    | _ => d

/-- A write of `src` to the SEC register at `k` is admitted (R592, R594). -/
def Dev.secAdmits (d : Dev) (src k v : Nat) : Bool :=
  (src == 24 || src == 25) &&
    (!d.locked || (src == 25 && ((0x3FF00050020 ≤ k && k < 0x3FF00050040) || k == Reg.SEC_IMG_ADDR || k == Reg.SEC_IMG_ADDR + 4 ||
      (k == Reg.SEC_CMD && [2, 3, 4, 6].contains (v % 16)))))

/-- A write of SEC_CMD. -/
def Dev.secCmd (d : Dev) (src v : Nat) : Dev := if d.secAdmits src Reg.SEC_CMD v then d.secDo v else d

end Sys2Proof.Machine
end

