-- ==== Sys2Proof/Machine/Start.lean ====
section
/-! DEFINITION. The state after power-on, the power-on reset, beam stops, the end of a Stem retrain and the thermal trip (01 R24, R25, R28,
22 R565, 24 R604, R607 to R609). -/
namespace Sys2Proof.Machine

/-- The device right after a power-on reset (R16, R104, R235, R608, R653): the first tick boundary stands one period ahead, cores are in RESET
with SSP = CORECTL_BOOT_SP, and the data plane waits for the Stem to train. The OTP store is that of a part not yet provisioned. -/
def Dev.initial : Dev :=
  { (default : Dev) with
    tick := { (default : TickSt) with next := 16000 }
    cores := (List.range 24).map fun c => (c, { (default : Core) with r := { (default : CoreRegs) with ssp := 0x40000 } })
    dataStop := true }

/-- POR (R598, R607, R608): everything but the OTP store returns to the state after power-on; levels that stand on pads stay, the free values
go on, and what has been sent stays sent. -/
def Dev.por (d : Dev) : Dev :=
  let d := d.fuseBroken
  let s : SecSt := { (default : SecSt) with
    lock := d.sec.lock, pwd := d.sec.pwd, oem := d.sec.oem, pk := d.sec.pk, spoiled := d.sec.spoiled, revoke := d.sec.revoke,
    rollback := d.sec.rollback, bootCfg := d.sec.bootCfg }
  let pins := d.pins.map fun p => (p.1, { (default : Pin) with ext := p.2.ext, acc := (p.2.ext).getD false })
  let d := { Dev.initial with free := d.free, sent := d.sent, pins := pins.filter (fun p => p.2 != default), encs := d.encs.map (fun p => (p.1, { p.2 with ill := 0 })), bstopLow := d.bstopLow, sec := s }
  if s.lockSet then (d.wr Reg.ID_LOCK 1).setF Reg.SEC_STATE 0 2 1 else d

/-- BEAM_STOP (R609): a write of RST_BSTOP, or a change of BSTOP_N. -/
def Dev.beamStop (d : Dev) (reg : Option Nat) (pinLow : Bool) : Dev :=
  let was := (List.range 8).filter d.stopped
  let d := match reg with
    | some v => d.wr Reg.RST_BSTOP (v % 2 ^ 9)
    | none => d
  let d := { d with bstopLow := pinLow }
  let d := forN 8 (fun b d => d.beamReeval b) d
  if (List.range 8).any (fun b => d.stopped b && !was.contains b) then d.evt 454 4 else d

/-- Count the end of a retrain at both ends (R29). -/
def Dev.retrainCount (d : Dev) (k : Nat) : Dev := (d.inc k).inc (stemReg 1 k)

/-- Both ends of the Stem show a state, lanes and whether they run degraded; the retrain is over. -/
def Dev.stemState (d : Dev) (st laneB laneI : Nat) (deg : Bool) : Dev :=
  let f := fun (d : Dev) (die lanes : Nat) =>
    (d.wr (stemReg die Reg.STEM_STATUS) (st + b2n deg * 4 + lanes % 256 * 8)).setStem die { d.stemEnd die with retrain := 0, lanes := lanes % 256 }
  f (f d 0 laneB) 1 laneI

/-- The link carries flits again: held ones follow in order, and a data plane held in reset for it is released (R24, R28). -/
def Dev.stemBack (d : Dev) : Dev :=
  let d := (d.stemResume 0).stemResume 1
  if d.dataStop then ({ d with dataStop := false }).memcTrain else d

/-- FAST_RETRAIN_END (R24, R25): the lanes that were in use are locked again. -/
def Dev.fastEnd (d : Dev) (ok : Bool) : Dev :=
  if (d.stemEnd 0).retrain ≠ 1 then d
  else
    let d := d.retrainCount Reg.STEM_FAST_RT
    if ok then (d.stemState 2 (d.stemEnd 0).lanes (d.stemEnd 1).lanes (d.bit Reg.STEM_STATUS 2)).stemBack
    else d.startRetrain 2 255 255

/-- A link that goes down drops the flits it held; the accesses that wait go on waiting, with the lanes as they are (R28, log 66). -/
def Dev.stemDrop (d : Dev) (die : Nat) : Dev :=
  d.setStem die { (default : StemSt) with lanes := (d.stemEnd die).lanes, held := (d.stemEnd die).held }

/-- FULL_RETRAIN_END (R25, R28): `laneB` and `laneI` are the lanes that each die's receiver has locked. Lane n is one lane, whichever
direction fails; more than one failed lane is a failed retrain (log 66). -/
def Dev.fullEnd (d : Dev) (laneB laneI : Nat) : Dev :=
  if (d.stemEnd 0).retrain ≠ 2 then d
  else
    let d := d.retrainCount Reg.STEM_FULL_RT
    let good := ones 8 (laneB &&& laneI)
    let may := d.bit Reg.STEM_CTRL 1 && d.bit (stemReg 1 Reg.STEM_CTRL) 1
    if good = 8 then (d.stemState 2 255 255 false).stemBack
    else if good = 7 && may then ((d.stemState 2 laneB laneI true).alarm 1 0).stemBack
    else ((((d.stemState 0 laneB laneI false).alarm 2 0).stemDrop 0).stemDrop 1).rstStemDown.bootReady

/-- STEM_CTRL written at a die (R29). -/
def Dev.stemCtrl (d : Dev) (die v : Nat) : Dev :=
  let d := d.wr (stemReg die Reg.STEM_CTRL) (b2n (tb v 1) * 2)
  if tb v 2 then d.fullRetrain else if tb v 0 then d.fastRetrain 0 0 else d

/-- The thermal trip: at 120 °C a PIN-class reset starts, and lasts while any sensor is at or above 110 °C (R565). -/
def Dev.thermTrip (d : Dev) : Dev :=
  if d.pwr.trip then (if d.anyHot 110 then d else { d with pwr := { d.pwr with trip := false } })
  else if d.anyHot 120 then
    (({ d with pwr := { d.pwr with trip := true } }).inc Reg.HEALTH_TRIPS).rstPin 2
  else d

/-- THERMAL_SAMPLE (R565, R576): the 10 readings of the beam die, in 1/16 °C. -/
def Dev.thermSample (d : Dev) (ts : List Nat) : Dev :=
  let d := (forN 10 (fun s d => d.thermIn s (ts.getD s 0)) d).thermCool
  d.hoursTick.thermTrip

/-- THERM: a reading of a sensor of the image die (R565, R573). -/
def Dev.thermFlit (d : Dev) (s v : Nat) : Dev := if 10 ≤ s ∧ s < 24 then ((d.thermIn s v).thermCool).thermTrip else d

/-- TRAINED: a training of DRAM has ended, which at boot ends Flagar's bring-up (R486, R604). -/
def Dev.trained (d : Dev) : Dev := d.memcTrained.bootReady

/-- BOOT while no trip holds the device (R565, R604). -/
def Dev.bootRow (d : Dev) (src : Nat) (a b : List Nat) : Dev := if d.pwr.trip then d else d.boot src a b

end Sys2Proof.Machine
end

