-- ==== Sys2Proof/Machine/RegRead.lean ====
section
/-! DEFINITION. Reads of registers: what a LIVE register shows, read side effects, and the views of R74
(00 R8 to R12, 03 R72 to R75, R94, R96). -/
namespace Sys2Proof.Machine

/-- A register or register array whose reading is computed: first address, stride, number, and the value for a reading source and
an index. -/
structure View where
  base : Nat
  stride : Nat
  n : Nat
  get : Dev → Nat → Nat → Nat

/-- Index of a register in an array. -/
def instOf (k base stride n : Nat) : Option Nat :=
  if base ≤ k ∧ (k - base) % stride = 0 ∧ (k - base) / stride < n then some ((k - base) / stride) else none

/-- The first view that holds a register, with the index. -/
def viewFind : List View → Nat → Option (View × Nat)
  | [], _ => none
  | v :: vs, k => match instOf k v.base v.stride v.n with
    | some i => some (v, i)
    | none => viewFind vs k

/-- A reading that the rules leave to the hardware's present load or clocks: a free value (log 1). -/
def freeView (base stride n w : Nat) : View :=
  ⟨base, stride, n, fun d _ i => Config.freeRead d.free (base + i * stride) % 2 ^ w⟩

/-- PWR_RAIL_SET: the setpoint, and READ_VOUT as the rail reports it, a free value (R574, log 1). -/
def Dev.railSet (d : Dev) (r : Nat) : Nat :=
  let k := Reg.PWR_RAIL_SET r
  bits (d.rd k) 0 16 + (if d.bit (Reg.PWR_RAIL_CFG r) 31 then Config.freeRead d.free k % 2 ^ 16 * 2 ^ 16 else 0)

/-- CORECTL instance and offset of a register, if it lies in one (R264, log 3). -/
def coreReg (k : Nat) : Option (Nat × Nat) :=
  let a := if corectlHigh ≤ k then k - corectlHigh else k
  if (corectlHigh ≤ k ∨ k < 0x300000F0000) ∧ 0x300000E0000 ≤ a ∧ a < 0x300000E0000 + 24 * 0x1000 then some ((a - 0x300000E0000) / 0x1000, (a - 0x300000E0000) % 0x1000)
  else none

/-- What a register of CORECTL shows (R261 to R264, R315): debug registers read 0 while the device is LOCKED (R263), and the counters as
captured with PERF_CYCLE. -/
def Dev.coreShows (d : Dev) (k c o : Nat) : Nat :=
  if o = 0x000 then b2n (d.dbgEn c) * 256
  else if o = 0x004 then d.coreStatus c
  else if o = 0x018 then d.dregRead c
  else if d.locked && (o == 0x010 || o == 0x014 || (decide (0x020 ≤ o) && decide (o < 0x040))) then 0
  else if 0x108 ≤ o ∧ o < 0x200 then tget (d.core c).perfCap o
  else d.rd k

/-- Computed readings of the control plane's blocks. -/
def viewsControl : List View := [
  ⟨Reg.BEAM_STATUS 0, 0x1000, 8, fun d _ b => d.beamStatus b⟩,
  ⟨Reg.COMMIT_SRC_GRP 24, 4, 1, fun _ _ _ => 7⟩,
  ⟨Reg.COMMIT_SRC_GRP 0, 4, 32, fun d _ s => d.srcGrp s⟩,
  ⟨Reg.COMMIT_GRP_STATUS 0, 64, 8, fun d _ g => d.grpStatus g⟩,
  ⟨Reg.COMMIT_GRP_CSN 0, 64, 8, fun d _ g => d.grpCsn g⟩,
  ⟨Reg.COMMIT_GRP_CLAIMS 0, 64, 8, fun d _ g => (d.claimsOf g).length⟩,
  ⟨Reg.COMMIT_SNAP_STATUS, 4, 1, fun d _ _ => d.snapStatus⟩,
  ⟨Reg.COMMIT_HOST_REC, 8, 1, fun d _ _ => d.rd Reg.COMMIT_HOST_REC % 2 ^ 32 + d.commit.recHi * 2 ^ 32⟩,
  ⟨Reg.SEQ_STATUS 0, 0x1000, 8, fun d _ b => d.seqStatus b⟩,
  ⟨Reg.CAM_CORR_ACC 0, 32, 1024, fun d _ c => d.corrAcc c⟩,
  ⟨Reg.CAM_BED_STATUS 0, 32, 8, fun d _ b => d.bedStatus b⟩,
  ⟨Reg.CAM_BLEND_W 0, 32, 8, fun d _ b => if (aget d.cam.old b).isSome then (d.blendW b (d.beam b).l).toNat else d.rd (Reg.CAM_BLEND_W b)⟩,
  ⟨Reg.ITEM_STATUS, 4, 1, fun d _ _ => d.itemCount⟩,
  ⟨Reg.ITEM_DL_USED, 4, 1, fun d _ _ => d.items.dls.length⟩,
  ⟨Reg.ITEM_BEAM_LIVE 0, 16, 8, fun d _ b => d.beamLive b⟩,
  ⟨Reg.STN_STATUS 0, 64, 512, fun d _ s => d.stnStatus s⟩,
  ⟨Reg.STN_PIN_STATE 0, 8, 64, fun d _ p => d.stnPinState p⟩,
  ⟨Reg.DRV_PORT_EVT, 8, 1, fun d _ _ => d.drvPortEvt⟩]

/-- Computed readings of the interrupt controller, timers, pins, audio, fabric and host blocks. -/
def viewsEdge : List View := [
  ⟨Reg.INTC_SRC_CFG 511, 8, 1, fun d _ _ => putBits (putBits (d.rd (Reg.INTC_SRC_CFG 511)) 30 2 2) 0 4 0⟩,
  ⟨Reg.INTC_SRC_CFG 480, 8, 16, fun d _ i => putBits (d.rd (Reg.INTC_SRC_CFG (480 + i))) 30 1 0⟩,
  ⟨Reg.INTC_SRC_STATE 0, 8, 512, fun d _ k => d.srcState k⟩,
  ⟨Reg.INTC_SRC_PAYLOAD 0, 8, 512, fun d _ k => (d.irq k).pay⟩,
  ⟨Reg.INTC_CORE_STATE 0, 16, 24, fun d _ c => d.coreIntState c⟩,
  ⟨Reg.INTC_PEND 0, 4, 16, fun d _ w => d.pendWord w⟩,
  ⟨Reg.TMR_STATUS 0, 64, 32, fun d _ n => d.tmrStatus n⟩,
  ⟨Reg.PIN_LEVEL 0, 4, 8, fun d _ b => d.levelWord b⟩,
  ⟨Reg.PIN_OUT 0, 4, 8, fun d _ b => d.latchWord b⟩,
  ⟨Reg.PIN_OE 0, 4, 8, fun d _ b => d.oeWord b⟩,
  ⟨Reg.AUD_STATUS, 4, 1, fun d _ _ => d.audStatus⟩,
  ⟨Reg.AUD_VOICE_ACT, 4, 1, fun d _ _ => d.voiceAct⟩,
  ⟨Reg.DMAB_CH_STATUS 0, 64, 16, fun d _ c => d.dmaStatus 0 c⟩,
  freeView Reg.DMAB_LOAD 4 1 10,
  ⟨Reg.TRL_STATUS, 4, 1, fun d _ _ => d.trlStatus⟩,
  ⟨Reg.TRL_UID, 8, 1, fun _ _ _ => ownUid⟩,
  ⟨Reg.TRL_RT_DATA, 4, 1, fun d _ _ => d.rtData⟩]

/-- Computed readings of the image die's blocks. -/
def viewsImage : List View := [
  ⟨Reg.CAMIN_STATUS 0, 0x1000, 16, fun d _ p => d.camStatus p⟩,
  ⟨Reg.SIEVE_Q_STATUS 0, 0x1000, 4, fun d _ q => d.svStatus q⟩,
  ⟨Reg.SIEVE_Q_LOAD 0, 0x1000, 4, fun d _ q => d.svLoad q⟩,
  ⟨Reg.COMP_STATUS 0, 0x1000, 8, fun d _ p => d.compStatus p⟩,
  ⟨Reg.DRAW_STATUS 0, 0x1000, 2, fun d _ e => d.drawStatus e⟩,
  freeView (Reg.DRAW_LOAD 0) 0x1000 2 10,
  ⟨Reg.RASTER_STATUS 0, 0x1000, 8, fun d _ n => d.rasStatus n⟩,
  freeView Reg.MEMC_LOAD 4 1 10,
  ⟨Reg.DMAI_CH_STATUS 0 0, 64, 16, fun d _ c => d.dmaStatus 1 c⟩,
  ⟨Reg.DMAI_CH_STATUS 1 0, 64, 16, fun d _ c => d.dmaStatus 2 c⟩,
  freeView (Reg.DMAI_LOAD 0) 0x1000 2 10]

/-- Computed readings of the management plane's blocks. -/
def viewsMgmt : List View := [
  ⟨Reg.PWR_STATE, 4, 1, fun d _ _ => d.pwrState⟩,
  freeView Reg.PWR_EST 4 1 16,
  freeView (Reg.PWR_RAIL_I 0) 16 8 16,
  ⟨Reg.PWR_RAIL_SET 0, 16, 8, fun d _ r => d.railSet r⟩,
  freeView Reg.CLK_MON 4 1 32,
  ⟨Reg.LOG_PUT_D0, 4, 3, fun d src i => tget d.log.put (4 * src + i)⟩,
  ⟨Reg.LOG_ALM_USED, 4, 1, fun d _ _ => almUsed d.log.alm⟩,
  ⟨Reg.LOG_TRC_CFG 0, 4, 64, fun d _ t => d.trcCfgView t⟩,
  ⟨Reg.LOG_ALM_ENTRY 0 0, 4, 8192, fun d _ j => d.almWord (j / 8) (j % 8)⟩,
  ⟨Reg.SEC_STATE, 4, 1, fun d _ _ => d.secState⟩,
  ⟨Reg.SEC_BACKOFF, 4, 1, fun d _ _ => (d.secBackoff + 999999) / 1000000⟩,
  ⟨Reg.SEC_OTP_CHK, 4, 1, fun d _ _ => d.sec.otpChk⟩,
  ⟨Reg.SEC_OTP_RDATA 0, 4, 8, fun d _ i => d.otpRdata i⟩,
  ⟨Reg.RST_STATUS, 4, 1, fun d _ _ => putBits (d.rd Reg.RST_STATUS) 4 1 (b2n (d.fld Reg.MEMC_STATUS 0 2 == 1))⟩,
  ⟨Reg.ID_LOCK, 4, 1, fun d _ _ => b2n d.sec.lockSet⟩]

/-- The view that computes a register, by its address range. -/
def viewOf (k : Nat) : Option (View × Nat) :=
  if k < 0x30000080000 then
    match viewFind viewsControl k with
    | some x => some x
    | none => viewFind viewsEdge k
  else if k < 0x30100000000 then viewFind viewsEdge k
  else if k < 0x3FF00000000 then viewFind viewsImage k
  else viewFind viewsMgmt k

/-- What a register shows a reading source (R12, R15), before write-only bits read 0. -/
def Dev.shows (d : Dev) (src k : Nat) : Nat :=
  match coreReg k with
  | some (c, o) => d.coreShows k c o
  | none =>
    if srcRegReserved k then 0
    else match viewOf k with
    | some (v, i) => v.get d src i
    | none => d.rd k

/-- The capture that a full read of a SNAP register's low word makes (R12). -/
def Dev.capture (d : Dev) (k : Nat) : Dev :=
  match coreReg k with
  | some (c, o) => if o = 0x108 then d.perfCapture c else d
  | none =>
    if k = Reg.BEAM_LT then d.wr Reg.BEAM_LT d.lt
    else if k = Reg.COMMIT_HOST_REC then { d with commit := { d.commit with recHi := bits (d.rd k) 32 32 } }
    else if k = Reg.CAM_PROBE then d.wr Reg.CAM_PROBE d.camProbe
    else match instOf k (Reg.BEAM_POS 0) 0x1000 8 with
      | some b => d.posSnapshot b
      | none => match instOf k (Reg.TMR_COUNT 0) 64 32 with
        | some n => d.tmrSnap n
        | none =>
          if Reg.DRV_AX_ACT 0 0 ≤ k ∧ k < Reg.DRV_AX_ACT 0 0 + 64 * 512 then
            let p := (k - Reg.DRV_AX_ACT 0 0) / 512
            match instOf k (Reg.DRV_AX_ACT p 0) 48 8 with
            | some a => d.axCapture p a
            | none => d
          else d

/-- The reading of register `k` with row `r`, whole, or its low or high word (R8, R12): write-only bits read 0. -/
def Dev.regValue (d : Dev) (src : Nat) (r : RegDef) (k : Nat) : Nat := clearMask ((d.capture k).shows src k) r.wo

/-- The high word alone: of a SNAP register, what the last read of the low word captured (R12). -/
def Dev.regHigh (d : Dev) (src : Nat) (r : RegDef) (k : Nat) : Nat := clearMask (d.shows src k) r.wo / 2 ^ 32

/-- The value of a register in a view of R74: active, shadow, snapshot; it has no side effect. -/
def Dev.viewValue (d : Dev) (src view : Nat) (r : RegDef) (k : Nat) : Nat :=
  if r.cmt = 0 ∨ view = 0 then d.regValue src r k
  else mergeMask (d.regValue src r k) (if view = 1 then d.shadow k else d.snapVal k) r.cmt

/-- Clear the RC fields of a word, or of the whole register, that has been read, and re-evaluate the fault source of a core whose
CORECTL_ERR it was (R12, R264). -/
def Dev.readClear (d : Dev) (r : RegDef) (k m : Nat) : Dev :=
  if r.rc &&& m = 0 then d
  else match coreReg k with
    | some (c, o) => if o = 0x04C then (d.coreErrRead c).2 else d.wr k (clearMask (d.rd k) (r.rc &&& m))
    | none => d.wr k (clearMask (d.rd k) (r.rc &&& m))

/-- The side effects of a whole read of word 0 or 1 of a register, or of both, through the active view (R12). -/
def Dev.readEffect (d : Dev) (r : RegDef) (k : Nat) (lo hi : Bool) : Dev :=
  let d := if lo && r.snap != 0 then d.capture k else d
  d.readClear r k ((if lo then 0xFFFFFFFF else 0) + (if hi then 0xFFFFFFFF00000000 else 0))

/-- Word at an aligned address of register space in a view, without effect (R8, R10). -/
def Dev.wordAt (d : Dev) (src view a : Nat) : Nat :=
  match regFind a with
  | none => 0
  | some (r, k) =>
    let key := if corectlHigh ≤ k then k - corectlHigh else k
    if d.domOn (powDomain k) then
      if key = a then d.viewValue src view r k % 2 ^ 32
      else if r.cmt = 0 then d.regHigh src r k else d.viewValue src view r k / 2 ^ 32
    else 0

/-- The active-view address of a register-space address, and its view (R74). -/
def viewBits (a : Nat) : Nat × Nat := (bits a 28 2, putBits a 28 2 0)

/-- OFF_ACCESS (R553). -/
def Dev.offAccess (d : Dev) : Dev := d.evt 449 8

/-- One aligned 32-bit read of register space at `a` (R8, R10, R12, R553): the value, and the device after it. -/
def Dev.regRead4 (d : Dev) (src a : Nat) : Nat × Dev :=
  let (view, p) := viewBits a
  if view = 3 then (0, d)
  else match regFind p with
    | none => (0, d)
    | some (r, k) =>
      let key := if corectlHigh ≤ k then k - corectlHigh else k
      if d.domOn (powDomain k) then
        (d.wordAt src view p, if view = 0 then (d.readEffect r k (key == p) (key != p)).bump else d)
      else (0, d.offAccess)

/-- 8 bytes over two 32-bit registers are two accesses, the lower first (R245). -/
def Dev.regReadTwo (d : Dev) (src a : Nat) : Nat × Dev :=
  let (x, d) := d.regRead4 src a
  let (y, d) := d.regRead4 src (a + 4)
  (x + y * 2 ^ 32, d)

/-- A read of the whole 64-bit register `k` through a view. -/
def Dev.regReadWide (d : Dev) (src view : Nat) (r : RegDef) (k : Nat) : Nat × Dev :=
  if d.domOn (powDomain k) then
    (d.viewValue src view r k, if view = 0 then (d.readEffect r k true true).bump else d)
  else (0, d.offAccess)

/-- A read of 4 or 8 bytes as R245 gives it. -/
def Dev.regReadN (d : Dev) (src a n : Nat) : Nat × Dev :=
  if n = 8 then
    match regFind (viewBits a).2 with
    | some (r, k) =>
      if r.width = 64 ∧ (if corectlHigh ≤ k then k - corectlHigh else k) = (viewBits a).2 ∧ (viewBits a).1 ≠ 3 then
        d.regReadWide src (viewBits a).1 r k
      else d.regReadTwo src a
    | none => d.regReadTwo src a
  else d.regRead4 src a

/-- Bytes of a narrow or unaligned read: no side effect (R9). -/
def Dev.regPeek (d : Dev) (src a n : Nat) : List Nat :=
  (List.range n).map fun i =>
    let (view, p) := viewBits (a + i)
    if view = 3 then 0 else d.wordAt src view (p / 4 * 4) / 2 ^ (8 * (p % 4)) % 256

end Sys2Proof.Machine
end

