-- ==== Sys2Proof/Machine/RegWrite.lean ====
section
/-! DEFINITION. Writes of registers: staging writes, writes that act, and the bus of R245 (00 R8 to R15, 03 R76 to R81, 19 R482,
22 R553). -/
namespace Sys2Proof.Machine

/-- A register or array whose write acts: the source, the index, and the bits written with their mask. -/
structure Act where
  base : Nat
  stride : Nat
  n : Nat
  run : Dev → Nat → Nat → Nat → Nat → Dev

/-- The first action that holds a register, with the index. -/
def actFind : List Act → Nat → Option (Act × Nat)
  | [], _ => none
  | v :: vs, k => match instOf k v.base v.stride v.n with
    | some i => some (v, i)
    | none => actFind vs k

/-- Store the bits of a write that the register's fields keep (R12): RW fields take them, W1C bits written as 1 are cleared. -/
def Dev.storeReg (d : Dev) (k v m : Nat) : Dev :=
  match regRow k with
  | none => d
  | some r =>
    let old := d.rd k
    d.wr k (clearMask (mergeMask old v (r.rw &&& m)) (v &&& r.w1c &&& m))

/-- The level source that an event register or its enable register feeds (R317), among a block's sources from `s` on. -/
def evtAmong (k s n : Nat) : Option Nat :=
  ((List.range n).map (s + ·)).find? fun j => match evtOf j with
    | some (e, en) => e == k || en == k
    | none => false

/-- The level source whose event or enable register is at `k` (R317). -/
def evtSource (k : Nat) : Option Nat :=
  let b := k / 0x10000
  if b = 0x3000000 then evtAmong k 96 1
  else if b = 0x3000001 then evtAmong k 80 8
  else if b = 0x3000002 then evtAmong k 88 8
  else if b = 0x3000003 then evtAmong k 97 1
  else if b = 0x3000004 then evtAmong k 98 5
  else if b = 0x3000005 then evtAmong k 112 64
  else if 0x3000009 ≤ b ∧ b < 0x300000E then evtAmong k 304 5
  else if 0x3010000 ≤ b ∧ b < 0x3010008 then evtAmong k 384 44
  else if 0x3FF0001 ≤ b ∧ b < 0x3FF0007 then evtAmong k 449 6
  else none

/-- Re-evaluate the source of an event register that has been written. -/
def Dev.evtWritten (d : Dev) (k : Nat) : Dev :=
  match evtSource k with
  | some s => d.refresh s
  | none => d

/-- A write of COMMIT_GRP_CTRL (R79 to R81): DISCARD, UNPOISON and GO in that order. -/
def Dev.grpCtrl (d : Dev) (src g v m : Nat) : Dev :=
  let d := d.storeReg (Reg.COMMIT_GRP_CTRL g) v m
  let d := if tb v 17 then d.discard g else d
  let d := if tb v 18 then d.unpoison g else d
  if tb v 16 then d.go g src else d

/-- A write of COMMIT_SNAP_CTRL: CLOSE before OPEN (R95). -/
def Dev.snapCtrl (d : Dev) (src v : Nat) : Dev :=
  let d := if tb v 1 then d.snapClose else d
  if tb v 0 then d.snapOpenBy src else d

/-- COMMIT_SRC_GRP (R78). -/
def Dev.setSrcGrp (d : Dev) (s v : Nat) : Dev :=
  if s = 24 ∨ v % 8 = 7 then d else d.wr (Reg.COMMIT_SRC_GRP s) (v % 8)

/-- The operation of a command; FLUSH_BEAM goes on for some time (R191). -/
def Dev.itemOp (d : Dev) (ch v : Nat) : Dev :=
  let s := bits v 16 16
  match v % 16 with
  | 0 => d.cmdNop ch s
  | 1 => d.cmdSowNow ch (tb v 9)
  | 2 => d.cmdRead ch s
  | 3 => d.cmdWrite ch s
  | 4 => d.cmdSetv ch s
  | 5 => d.cmdClrv ch s
  | 6 => d.cmdHarvest ch s (tb v 10)
  | 7 => d.cmdMoveNow ch s
  | _ => d.cmdResult ch s 3

/-- A write of ITEM_CMD[ch] (R190, R191): while the channel is BUSY it is ignored and sets OVERRUN. The operation takes place in the beam cycle of the
write, and the channel stays BUSY for a free number of cycles up to 32 (log 20). -/
def Dev.itemCmd (d : Dev) (ch v : Nat) : Dev :=
  if (aget d.items.chans ch).isSome then d.orBits (Reg.ITEM_CMD_STATUS ch) 256
  else if v % 16 = 8 then d.cmdFlush ch (bits v 16 16)
  else
    let (x, d) := (d.itemOp ch v).fresh 6
    d.cmdBusy ch ⟨min x 32, 0, []⟩

/-- INTC_Q_RD[q]: ignored if the ring would hold more than 2^K records (R337). -/
def Dev.intcQRd (d : Dev) (q v : Nat) : Dev :=
  let v := v % 2 ^ 17
  let n := (d.rd (Reg.INTC_Q_WR q) + 2 ^ 17 - v) % 2 ^ 17
  if 2 ^ d.qK q < n then d else (d.wr (Reg.INTC_Q_RD q) v).queueLevel q

/-- HOST_VEC_EOI (R620). -/
def Dev.vecEoi (d : Dev) (v : Nat) : Dev :=
  if !d.bit Reg.HOST_VEC_SERV v then d
  else
    let d := d.wr Reg.HOST_VEC_SERV (clearMask (d.rd Reg.HOST_VEC_SERV) (2 ^ v))
    let k := d.fld (Reg.HOST_VEC_SRC v) 0 9
    let s := d.irq k
    if tget d.host.again v || (d.isLevel k && (s.cause || s.latch)) then
      ({ d with host := { d.host with pend := tput d.host.pend v true } }).vecSend v
    else d

/-- HOST_MDIO: a transfer starts unless one is under way (R621, R627). -/
def Dev.mdioWrite (d : Dev) (v : Nat) : Dev :=
  if d.bit Reg.HOST_MDIO 31 then d
  else (d.wr Reg.HOST_MDIO (v % 2 ^ 27 + 2 ^ 31)).emit (.mdio [bits v 21 5, bits v 16 5, b2n (tb v 26), bits v 0 16])

/-- DISP_PSR[p] (R459), reserved on ports 0 and 1 (R461). -/
def Dev.psrCtrl (d : Dev) (p v m : Nat) : Dev :=
  if p ≠ 2 then d
  else
    let d := d.storeReg (Reg.DISP_PSR p) v m
    let d := if tb v 4 then d.psrEnter else d
    if tb v 5 then d.psrExit else d

/-- GRF_CTRL: JOIN, LEAVE, TAKEOVER (R549). -/
def Dev.grfCtrl (d : Dev) (v : Nat) : Dev :=
  let d := if tb v 0 then d.grfJoin else d
  let d := if tb v 1 then d.grfLeave else d
  if tb v 2 then d.grfTakeover else d

/-- PWR_STATE_REQ (R555). -/
def Dev.stateReq (d : Dev) (v : Nat) : Dev :=
  match v % 8 with
  | 0 => d.pwrRun
  | 2 => d.lowRequest 2
  | 3 => d.lowRequest 3
  | _ => d

/-- A 64-bit write-only register that acts: each write acts at once with the word it leaves out as last written (log 67). -/
def Dev.wideAct (d : Dev) (k v m : Nat) (f : Dev → Nat → Dev) : Dev :=
  let x := mergeMask (d.rd k) v m
  f (d.wr k x) x

/-- Writes that act in the control plane's blocks. -/
def actsControl : List Act := [
  ⟨Reg.COMMIT_SRC_GRP 0, 4, 32, fun d _ s v _ => d.setSrcGrp s v⟩,
  ⟨Reg.COMMIT_GRP_CTRL 0, 64, 8, fun d src g v m => d.grpCtrl src g v m⟩,
  ⟨Reg.COMMIT_SNAP_CTRL, 4, 1, fun d src _ v _ => d.snapCtrl src v⟩,
  ⟨Reg.BEAM_LT_CTRL, 4, 1, fun d _ _ v m => (d.storeReg Reg.BEAM_LT_CTRL v m).ltCtrl (d.bit Reg.BEAM_LT_CTRL 0)⟩,
  ⟨Reg.BEAM_LT_SET, 8, 1, fun d _ _ v m => d.wideAct Reg.BEAM_LT_SET v m Dev.ltSet⟩,
  ⟨Reg.CAM_CORR_IN 0, 32, 1024, fun d _ c v _ => d.corrIn c v⟩,
  ⟨Reg.CAM_OVR_REQ, 4, 1, fun d _ _ v _ => d.camOverride (bits v 0 10)⟩,
  ⟨Reg.ITEM_SEQ_NEXT, 4, 1, fun d _ _ v _ => d.wr Reg.ITEM_SEQ_NEXT (if v % 2 ^ 20 = 0 then 1 else v % 2 ^ 20)⟩,
  ⟨Reg.ITEM_HRING_RD, 4, 1, fun d _ _ v _ => d.hringRd v⟩,
  ⟨Reg.ITEM_CMD 0, 256, 8, fun d _ ch v _ => d.itemCmd ch v⟩]

/-- Writes that act in the interrupt controller, timers, audio, fabric and host blocks. -/
def actsEdge : List Act := [
  ⟨Reg.INTC_Q_RD 0, 32, 16, fun d _ q v _ => d.intcQRd q v⟩,
  ⟨Reg.INTC_RAISE, 4, 1, fun d _ _ v _ => d.intcRaise (bits v 0 9)⟩,
  ⟨Reg.TMR_LOAD 0, 64, 32, fun d _ n v _ => d.tmrLoad n v⟩,
  ⟨Reg.TMR_RELOAD 0, 64, 32, fun d _ n v _ => d.tmrPreload n 0 v⟩,
  ⟨Reg.TMR_CMP0 0, 64, 32, fun d _ n v _ => d.tmrPreload n 1 v⟩,
  ⟨Reg.TMR_CMP1 0, 64, 32, fun d _ n v _ => d.tmrPreload n 2 v⟩,
  ⟨Reg.AUD_KEY_ON, 4, 1, fun d _ _ v _ => d.keyOn v⟩,
  ⟨Reg.AUD_KEY_OFF, 4, 1, fun d _ _ v _ => d.keyOff v⟩,
  ⟨Reg.AUD_IN_SRC 0 0, 4, 96, fun d _ i v m => (d.storeReg (Reg.AUD_IN_SRC 0 i) v m).audCode 0⟩,
  ⟨Reg.AUD_IN_SRC 1 0, 4, 96, fun d _ i v m => (d.storeReg (Reg.AUD_IN_SRC 1 i) v m).audCode 1⟩,
  ⟨Reg.AUD_OUT_DST 0 0, 4, 48, fun d _ o v m => (d.storeReg (Reg.AUD_OUT_DST 0 o) v m).audCode 0⟩,
  ⟨Reg.AUD_OUT_DST 1 0, 4, 48, fun d _ o v m => (d.storeReg (Reg.AUD_OUT_DST 1 o) v m).audCode 1⟩,
  ⟨Reg.DMAB_CH_WR 0, 64, 16, fun d _ c v _ => d.dmaChWr 0 c v⟩,
  ⟨Reg.DMAB_CH_CTRL 0, 64, 16, fun d _ c v _ => if tb v 0 then d.dmaResume 0 c else d⟩,
  ⟨Reg.TRL_EXP_BASE 0, 32, 8, fun d src w v m => if src = 25 then d.storeReg (Reg.TRL_EXP_BASE w) v m else d⟩,
  ⟨Reg.TRL_EXP_OFS 0, 32, 8, fun d src w v m => if src = 25 then d.storeReg (Reg.TRL_EXP_OFS w) v m else d⟩,
  ⟨Reg.TRL_EXP_CFG 0, 32, 8, fun d src w v m => if src = 25 then d.storeReg (Reg.TRL_EXP_CFG w) v m else d⟩,
  ⟨Reg.GRF_PORT_CFG 0, 0x1000, 2, fun d _ p v m => (d.storeReg (Reg.GRF_PORT_CFG p) v m).grfPortCfg p⟩,
  ⟨Reg.GRF_CFG, 4, 1, fun d _ _ v m => (d.storeReg Reg.GRF_CFG v m).grfCfg (d.rd Reg.GRF_CFG)⟩,
  ⟨Reg.GRF_CTRL, 4, 1, fun d _ _ v _ => d.grfCtrl v⟩,
  ⟨Reg.HOST_MDIO, 4, 1, fun d _ _ v _ => d.mdioWrite v⟩,
  ⟨Reg.HOST_VEC_EOI, 4, 1, fun d _ _ v _ => d.vecEoi (bits v 0 5)⟩,
  ⟨Reg.STEM_CTRL, 4, 1, fun d _ _ v _ => d.stemCtrl 0 v⟩]

/-- Writes that act in the image die's blocks. -/
def actsImage : List Act := [
  ⟨Reg.CAMIN_I2C_CMD 0, 0x1000, 16, fun d _ p v _ => d.i2cCmd p v⟩,
  ⟨Reg.SIEVE_RR_RD, 4, 1, fun d _ _ v _ => d.rrRd v⟩,
  ⟨Reg.COMP_TLOAD 0, 0x1000, 8, fun d _ p v _ => d.compTload p v⟩,
  ⟨Reg.COMP_GO 0, 0x1000, 8, fun d _ p v _ => d.compGo p v⟩,
  ⟨Reg.DRAW_CTRL 0, 0x1000, 2, fun d _ e v _ => d.drawCtrl e v⟩,
  ⟨Reg.DRAW_Q_BASE 0, 0x1000, 2, fun d _ e v m => d.drawQCfg e fun d => d.storeReg (Reg.DRAW_Q_BASE e) v m⟩,
  ⟨Reg.DRAW_Q_CFG 0, 0x1000, 2, fun d _ e v m => d.drawQCfg e fun d => d.storeReg (Reg.DRAW_Q_CFG e) v m⟩,
  ⟨Reg.DRAW_Q_WR 0, 0x1000, 2, fun d _ e v _ => d.drawQWr e v⟩,
  ⟨Reg.RASTER_TLOAD 0, 0x1000, 8, fun d _ n v _ => d.rasTload n v⟩,
  ⟨Reg.DISP_PSR 0, 0x1000, 3, fun d _ p v m => d.psrCtrl p v m⟩,
  ⟨Reg.DISP_SU 0, 0x1000, 3, fun d _ p v _ => d.dispSu p v⟩,
  ⟨Reg.DISP_AUX_CMD 0, 0x1000, 3, fun d _ p v _ => d.auxCmd p v⟩,
  ⟨Reg.MEMC_CTRL, 4, 1, fun d _ _ v _ => if tb v 0 then d.memcTrain else d⟩,
  ⟨Reg.DMAI_CH_WR 0 0, 64, 16, fun d _ c v _ => d.dmaChWr 1 c v⟩,
  ⟨Reg.DMAI_CH_WR 1 0, 64, 16, fun d _ c v _ => d.dmaChWr 2 c v⟩,
  ⟨Reg.DMAI_CH_CTRL 0 0, 64, 16, fun d _ c v _ => if tb v 0 then d.dmaResume 1 c else d⟩,
  ⟨Reg.DMAI_CH_CTRL 1 0, 64, 16, fun d _ c v _ => if tb v 0 then d.dmaResume 2 c else d⟩,
  ⟨Reg.STEMI_CTRL, 4, 1, fun d _ _ v _ => d.stemCtrl 1 v⟩]

/-- A write of a register of SEC (R592, R594): SEC_DATA keeps what is written, SEC_CMD acts. -/
def Dev.secWrite (d : Dev) (src k v m : Nat) : Dev :=
  if !d.secAdmits src k v then d
  else if k = Reg.SEC_CMD then d.secCmd src v
  else if Reg.SEC_DATA 0 ≤ k ∧ k < Reg.SEC_DATA 0 + 32 then d.wr k v
  else d.storeReg k v m

/-- Writes that act in the management plane's blocks. -/
def actsMgmt : List Act := [
  ⟨Reg.PWR_STATE_REQ, 4, 1, fun d _ _ v _ => d.stateReq v⟩,
  ⟨Reg.PWR_DOM_REQ 0, 4, 3, fun d _ w v _ => d.pwrDomReq w v⟩,
  ⟨Reg.HEALTH_CTRL, 4, 1, fun d _ _ v _ => if tb v 0 then d.wantPlan else d⟩,
  ⟨Reg.PWR_RAIL_CFG 0, 16, 8, fun d _ r v m => (d.storeReg (Reg.PWR_RAIL_CFG r) v m).railCfg r⟩,
  ⟨Reg.LOG_PUT_D0, 4, 3, fun d src i v _ => d.logWord src i v⟩,
  ⟨Reg.LOG_PUT, 4, 1, fun d src _ v _ => d.logPutReg src v⟩,
  ⟨Reg.LOG_ALM_RAISE, 4, 1, fun d src _ v _ => d.almRaise src v⟩,
  ⟨Reg.LOG_ALM_ACK, 4, 1, fun d _ _ v _ => d.almAck (bits v 0 10)⟩,
  ⟨Reg.LOG_RING_RD, 4, 1, fun d _ _ v _ => d.logRingRd v⟩,
  ⟨Reg.LOG_ARING_RD, 4, 1, fun d _ _ v _ => d.logAringRd v⟩,
  ⟨Reg.LOG_TRING_RD, 4, 1, fun d _ _ v _ => d.logTringRd v⟩,
  ⟨Reg.LOG_TRC_PUT 0, 8, 64, fun d _ t v m => d.wideAct (Reg.LOG_TRC_PUT t) v m fun d x => d.trcPut t x⟩,
  ⟨Reg.RST_CTRL, 4, 1, fun d src _ v _ => d.rstCtrl src v⟩,
  ⟨Reg.RST_BSTOP, 4, 1, fun d _ _ v _ => d.beamStop (some v) d.bstopLow⟩]

/-- The action of a write, by the register's address range. -/
def actOf (k : Nat) : Option (Act × Nat) :=
  if k < 0x30000050000 then actFind actsControl k
  else if k < 0x30100000000 then actFind actsEdge k
  else if k < 0x3FF00000000 then actFind actsImage k
  else actFind actsMgmt k

/-- A write of a CORECTL register (R261 to R264): while the device is LOCKED the debug registers ignore it, and BOOT and BOOT_SP take
Flagar's alone. -/
def Dev.coreWrite (d : Dev) (src k c o v m : Nat) : Dev :=
  if o = 0x000 then d.coreCtrl c v src
  else if o = 0x008 ∨ o = 0x00C then if d.locked && src != 24 then d else d.storeReg k v m
  else if o = 0x010 then d.dpcWrite c v
  else if o = 0x018 then d.dregWrite c v
  else if o = 0x014 ∨ (0x020 ≤ o ∧ o < 0x040) then if d.locked then d else d.storeReg k v m
  else if o = 0x100 then d.perfCtrl c v
  else d.storeReg k v m

/-- A write to a register with no CMT field (R12, R15): `v` holds the bits written in place, `m` the word or words written. -/
def Dev.regAct (d : Dev) (src k v m : Nat) : Dev :=
  match coreReg k with
  | some (c, o) => d.coreWrite src k c o v m
  | none =>
    if 0x3FF00050000 ≤ k ∧ k < 0x3FF00060000 then (d.secWrite src k v m).evtWritten k
    else match actOf k with
      | some (a, i) => a.run d src i v m
      | none => (d.storeReg k v m).evtWritten k

/-- A staging write (R76) with the fields of the register that act at once: RESUME of BEAM_CTRL (R54) and FLUSH of ITEM_CTRL (R192). A
write of CLK_CLUS_SEL by any source but Flagar is ignored (R561). -/
def Dev.regStage (d : Dev) (src k v m cmt : Nat) : Dev :=
  if (instOf k (Reg.CLK_CLUS_SEL 0) 16 6).isSome && src != 24 then d
  else if srcRegReserved k then d
  else
    let (taken, d) := d.stage src k v (m &&& cmt)
    if !taken then d
    else match instOf k (Reg.BEAM_CTRL 0) 0x1000 8 with
      | some b => if tb v 8 && (d.beam b).mode == .stale then d.resume b else d
      | none => if k = Reg.ITEM_CTRL ∧ tb v 1 then d.flushAll else d

/-- A write of a whole register, or of one word of a 64-bit one, through the active or shadow view (R74, R76, R553). -/
def Dev.regPut (d : Dev) (src : Nat) (r : RegDef) (k v m : Nat) : Dev :=
  if d.domOn (powDomain k) then
    if r.cmt ≠ 0 then d.regStage src k v m r.cmt else d.regAct src k v m
  else
    let d := if r.cmt ≠ 0 then d.poison (d.srcGrp src) 1 else d
    d.offAccess

/-- One aligned 32-bit write of register space (R8, R10, R74). -/
def Dev.regWrite4 (d : Dev) (src a v : Nat) : Dev :=
  let (view, p) := viewBits a
  if 2 ≤ view then d
  else match regFind p with
    | none => d
    | some (r, k) =>
      let key := if corectlHigh ≤ k then k - corectlHigh else k
      if key = p then d.regPut src r k (v % 2 ^ 32) 0xFFFFFFFF
      else d.regPut src r k (v % 2 ^ 32 * 2 ^ 32) 0xFFFFFFFF00000000

/-- A write of 4 or 8 bytes as R245 gives it: 8 bytes over two 32-bit registers are two writes, the lower first. -/
def Dev.regWriteN (d : Dev) (src a n v : Nat) : Dev :=
  if n = 8 then
    let (view, p) := viewBits a
    match regFind p with
    | some (r, k) =>
      let key := if corectlHigh ≤ k then k - corectlHigh else k
      if r.width = 64 ∧ key = p then
        if 2 ≤ view then d else d.regPut src r k (v % 2 ^ 64) 0xFFFFFFFFFFFFFFFF
      else (d.regWrite4 src a v).regWrite4 src (a + 4) (v / 2 ^ 32)
    | none => d.regWrite4 src (a + 4) (v / 2 ^ 32)
  else d.regWrite4 src a v

end Sys2Proof.Machine
end

