-- ==== Sys2Proof/Machine/Bus.lean ====
section
/-! DEFINITION. Accesses of a source to the device address space: memory, registers, this node's and other nodes' export windows
(19 R481 to R483, 09 R245, 20 R515, R516, 22 R553, 03 R94). -/
namespace Sys2Proof.Machine

/-- What an access finds. -/
inductive Acc
  | wait
  | noTarget
  | remote (node off : Nat)
  | ok (bytes : List Nat)
deriving DecidableEq, Repr

/-- The address lies in memory whose power domain is off (R551, R553). -/
def Dev.memOff (d : Dev) (a : Nat) : Bool :=
  match regionOf a with
  | .isram => !d.domOn (if a < 0x10001000000 then 64 else 65)
  | .coreMem c => !d.domOn (7 + c / 4)
  | .ssram => !d.domOn 16
  | .items => !d.domOn 14
  | .tiles | .maps | .lists => !d.domOn 15
  | _ => false

/-- An access that found no target; one to memory whose domain is off sets OFF_ACCESS (R553). -/
def Dev.noTarget (d : Dev) (a : Nat) : Dev := if d.memOff a then d.offAccess else d

/-- A read of a source through the snapshot view has to wait for READY, for the bound of R94 from its own beginning (R94). -/
def Dev.snapStalls (d : Dev) (src a : Nat) : Bool :=
  d.commit.snapOpen && !d.commit.snapReady && bits a 28 2 == 2 &&
    (match regFind (viewBits a).2 with
     | some (r, _) => r.cmt != 0
     | none => false) &&
    !(d.commit.stalled.any fun r => !r.own && r.src == src && r.key == (viewBits a).2 && decide (r.at0 + d.stallBound ≤ d.lt))

def Dev.setStalled (d : Dev) (l : List Stall) : Dev := { d with commit := { d.commit with stalled := l } }

/-- A read that its requester tries again begins to wait (R94). -/
def Dev.stallNote (d : Dev) (src a : Nat) : Dev :=
  let k := (viewBits a).2
  if d.commit.stalled.any fun r => !r.own && r.src == src && r.key == k then d
  else d.setStalled (d.commit.stalled ++ [⟨src, k, d.lt, false⟩])

/-- A read through the snapshot view has returned. -/
def Dev.stallDone (d : Dev) (src a : Nat) : Dev :=
  if bits a 28 2 = 2 then d.setStalled (d.commit.stalled.filter fun r => r.own || r.src != src || r.key != (viewBits a).2) else d

/-- The requester gives up the read `e` stands for, but tries it again: what stays of it is that it waits (R94). -/
def Dev.keepStall (d e : Dev) : Dev := d.setStalled e.commit.stalled

/-- An aligned access of 4 or 8 bytes. -/
def aligned (a n : Nat) : Bool := (n == 4 && a % 4 == 0) || (n == 8 && a % 8 == 0)

/-- A read of `n` bytes at a local address (R9, R245, R482). -/
def Dev.localAcc (d : Dev) (src x n : Nat) : Acc × Dev :=
  if isRegSpace x then
    if crosses src x && !d.stemUp then (.wait, d)
    else if d.snapStalls src x then (.wait, d.stallNote src x)
    else if aligned x n then
      let (v, d) := (d.stallDone src x).regReadN src x n
      (.ok (leBytes n v), d)
    else (.ok (d.regPeek src x n), d.stallDone src x)
  else if !d.hasRange x n then (.noTarget, d.noTarget x)
  else if crosses src x && !d.stemUp then (.wait, d)
  else (.ok (d.localRead x n), d)

/-- A read of `n` bytes at `a` by a source (R245, R482, R516, R9). -/
def Dev.busRead (d : Dev) (src a n : Nat) : Acc × Dev :=
  match regionOf a with
  | .window m =>
    if !d.ownWindow m then (.remote m (a % 2 ^ 32), d)
    else match d.throughWindow a n false with
      | some x => d.localAcc src x n
      | none => (.noTarget, d)
  | _ => d.localAcc src a n

/-- On the standby of a pair, writes of the HOST source are discarded and counted (R92). -/
def Dev.standbyDrops (d : Dev) (src : Nat) : Bool := src == 25 && d.role == 4

/-- A write of bytes at `a` by a source (R245, R482, R516, R9): a narrower or unaligned write to register space is discarded, and a write
through this node's own export space that no window admits is counted there. A write that the standby drops has no target (R92; log 86). -/
def Dev.busWrite (d : Dev) (src a : Nat) (bs : List Nat) : Acc × Dev :=
  let put := fun (x : Nat) (d : Dev) =>
    if isRegSpace x then
      if crosses src x && !d.stemUp then (Acc.wait, d)
      else if aligned x bs.length then (Acc.ok [], d.regWriteN src x bs.length (leNum bs))
      else (Acc.ok [], d)
    else if !d.localTarget x || !d.localTarget (x + (bs.length - 1)) then (Acc.noTarget, d.noTarget x)
    else if crosses src x && !d.stemUp then (Acc.wait, d)
    else (Acc.ok [], d.localWrite src x bs)
  if d.standbyDrops src then (.noTarget, d)
  else match regionOf a with
  | .window m =>
    if !d.ownWindow m then (.ok [], d.windowSend m a bs)
    else match d.throughWindow a bs.length true with
      | some x => put x d
      | none => (.ok [], d.winDeny)
  | _ => put a d

/-- A RD_REQ for the bytes that a read still lacks, under a tag of its own (R505, R516): at most 248, so that the answer fits a cell (log 106). -/
def Dev.readAsk (d : Dev) (r : ExpRead) : Dev :=
  let tag := d.trl.readTag
  let r := { r with tag := tag, at0 := d.lt }
  let a := r.addr + r.got.length
  ({ d with trl := { d.trl with reads := d.trl.reads ++ [r], readTag := (tag + 1) % 2 ^ 32 } }).cellSend 5 0 ((a - 0x100000000000) / 2 ^ 32)
    (leBytes 4 tag ++ leBytes 4 (a % 2 ^ 32) ++ leBytes 2 (min 248 (r.len - r.got.length)) ++ [0, 0])

/-- Ask another node for a read of its export space at `a` (R516). -/
def Dev.readSend (d : Dev) (src a n : Nat) : Dev := d.readAsk ⟨0, src, a, n, 0, []⟩

/-- Count an access of R619 without a target. -/
def Dev.hostNt (d : Dev) : Dev := (d.inc Reg.HOST_NT).evt 308 1

/-- An access that finds the Stem without flits waits at its end of it, and is performed in order when the link carries flits again (R24). -/
def Dev.hold (d : Dev) (h : HeldAcc) : Dev :=
  let die := if h.src = 27 ∨ h.src = 28 then 1 else 0
  let s := d.stemEnd die
  d.setStem die { s with held := s.held ++ [h] }

/-- A command that writes for a source (R9, R24, R92, R619). -/
def Dev.writeRow (d : Dev) (src a : Nat) (bs : List Nat) : Dev :=
  match d.busWrite src a bs with
  | (.wait, d) => d.hold ⟨true, src, a, bs, d.commit.order⟩
  | (.noTarget, d) => if src = 25 then d.hostNt else d
  | (_, d) => d

/-- A command that reads for a source: the value leaves the block as an event (source, address, value). A read that has to wait returns by itself:
one through the snapshot view when the snapshot is READY, closes or its bound passes (R94), one behind the Stem when the link is up (R24). -/
def Dev.readRow (d : Dev) (src a n : Nat) : Dev :=
  match d.busRead src a n with
  | (.ok bs, d) => d.emit (.event 4 [src, a, leNum bs])
  | (.wait, _) =>
    if crosses src a && !d.stemUp then d.hold ⟨false, src, a, List.replicate n 0, d.commit.order⟩
    else d.setStalled (d.commit.stalled ++ [⟨src, (viewBits a).2, d.lt, true⟩])
  | (.noTarget, d) => if src = 25 then d.hostNt else d
  | (_, d) => d

/-- The accesses that wait behind the Stem are performed, in their order, once the link carries flits (R22, R24). -/
def Dev.heldRun (d : Dev) : Dev :=
  if !d.stemUp then d
  else [0, 1].foldl (fun d die =>
    let s := d.stemEnd die
    s.held.foldl (fun d h => if h.write then d.writeRow h.src h.addr h.bytes else d.readRow h.src h.addr h.bytes.length)
      (d.setStem die { s with held := [] })) d

/-- A REGISTER_WRITE or another command that accesses a register for a source. -/
def Dev.regCommand (d : Dev) (src a n v : Nat) : Dev := d.writeRow src a (leBytes n v)

/-- A read command. -/
def Dev.regReadCommand (d : Dev) (src a n : Nat) : Dev := d.readRow src a n

end Sys2Proof.Machine
end

