-- ==== Sys2Proof/Machine/CoreDecode.lean ====
section
/-! DEFINITION. The encoding of the Alolo instructions (09 R246 to R248, 10 R265 to R267, R290): a decoder that is total on any halfwords and
names the first failing check by its ILLEGAL detail. -/
namespace Sys2Proof.Machine

/-- A halfword as fetched: present, refused with a FETCH detail, or not yet in the instruction cache (R241, R243, R294). -/
inductive Half
  | ok (h : Nat)
  | fault (detail : Nat)
  | miss
deriving DecidableEq, Repr

/-- What an instruction does with an operand (R268): reads it, writes it, both, or takes its address alone. -/
inductive Role | src | dst | rw | ea
deriving DecidableEq, Repr, Inhabited

/-- An operand specifier with its extension halfwords, its role and its operand size in bytes (R246). -/
structure Spec where
  role : Role
  size : Nat
  word : Nat
  ext : List Nat
deriving DecidableEq, Repr, Inhabited

/-- A decoded instruction: `size` in bytes is that of the opcode halfword, `len` the length in bytes. -/
structure Inst where
  op : Nat
  size : Nat
  sub : Nat
  form : Nat
  specs : List Spec
  disp : Nat
  len : Nat
deriving DecidableEq, Repr, Inhabited

/-- What decoding answers; `fault` carries the fetch address that failed. -/
inductive Decoded
  | ok (i : Inst)
  | illegal (detail opnd : Nat)
  | fault (detail addr : Nat)
  | miss
deriving DecidableEq, Repr

/-- The opcode map has the opcode (R290). -/
def opDefined (op : Nat) : Bool :=
  (0x01 ≤ op && op ≤ 0x0E) || (0x10 ≤ op && op ≤ 0x16) || (0x20 ≤ op && op ≤ 0x2C) || (0x30 ≤ op && op ≤ 0x34) ||
  (0x40 ≤ op && op ≤ 0x47) || (0x50 ≤ op && op ≤ 0x54)

/-- The roles of the specifiers of an opcode in a FORM, none where the instruction does not allow it (R271 to R287). -/
def opRoles (op form : Nat) : Option (List Role) :=
  if op ∈ [0x01, 0x02, 0x04, 0x05, 0x06, 0x0B, 0x0C] ∨ 0x50 ≤ op then (if form = 0 then some [] else none)
  else if op = 0x03 then (if form = 0 then some [] else if form = 2 then some [.ea, .src] else none)
  else if op ∈ [0x07, 0x0A, 0x14] then (if form = 1 then some [.src] else none)
  else if op ∈ [0x08, 0x09] then (if form = 1 then some [.ea] else none)
  else if op = 0x15 then (if form = 1 then some [.dst] else none)
  else if op = 0x0D then (if form = 2 then some [.src, .src] else none)
  else if op ∈ [0x0E, 0x40] then (if form = 3 then some [.src, .src, .dst] else none)
  else if op ∈ [0x10, 0x11, 0x12, 0x46] then (if form = 2 then some [.src, .dst] else none)
  else if op = 0x13 then (if form = 2 then some [.ea, .dst] else none)
  else if op = 0x16 then (if form = 2 then some [.rw, .rw] else none)
  else if op ∈ [0x22, 0x23] then (if form = 3 then some [.src, .rw, .rw] else none)
  else if op ∈ [0x24, 0x2C] then (if form = 1 then some [.rw] else if form = 2 then some [.src, .dst] else none)
  else if op = 0x41 then (if form = 3 then some [.src, .src, .rw] else none)
  else if op = 0x47 then (if form = 2 then some [.src, .rw] else none)
  else if form = 2 then some [.src, .rw]
  else if form = 3 then some [.src, .src, .dst] else none

/-- SUB holds a value that the instruction defines (R267). -/
def subOk (op sub : Nat) : Bool :=
  if op = 0x05 ∨ op = 0x06 then true
  else if op = 0x0C then sub < 2
  else if op = 0x0D ∨ op = 0x0E then sub < 8
  else if op = 0x11 ∨ op = 0x12 then sub < 4
  else if op = 0x26 ∨ op = 0x27 ∨ op = 0x40 ∨ op = 0x41 then sub < 2
  else if op = 0x50 ∨ op = 0x51 ∨ op = 0x52 then sub < 8
  else if op = 0x53 ∨ op = 0x54 then true
  else sub = 0

/-- SIZE is one that the instruction allows, as log2 of the bytes; sizeless instructions take 0 (R267, R271, R281, R287). -/
def sizeOk (op form sub sz : Nat) : Bool :=
  if op ∈ [0x01, 0x02, 0x04, 0x05, 0x06, 0x0B, 0x0C] then sz = 0
  else if op = 0x03 then (if form = 0 then sz = 0 else sz = 2)
  else if op = 0x07 ∨ op = 0x0A then sz = 2
  else if op = 0x11 ∨ op = 0x12 then decide (sub < sz)
  else if op = 0x14 ∨ op = 0x15 ∨ op = 0x46 then decide (2 ≤ sz)
  else if op = 0x40 ∨ op = 0x41 ∨ op = 0x53 ∨ op = 0x54 then decide (sz < 3)
  else true

/-- Operand size of specifier `i` (R269, R271, R274, R281). -/
def opndSize (op sub size i : Nat) : Nat :=
  if op = 0x11 ∨ op = 0x12 then (if i = 0 then 2 ^ sub else size)
  else if op = 0x13 then (if i = 0 then size else 4)
  else if op = 0x40 then (if i = 2 then 2 * size else size)
  else if op = 0x41 then (if i = 2 then 8 else size)
  else if op = 0x47 then (if i = 1 then 4 else size)
  else size

def specMode (w : Nat) : Nat := bits w 12 4

/-- Extension halfwords of a specifier (R246). -/
def specExt (w osize : Nat) : Nat :=
  match specMode w with
  | 4 | 12 | 13 => 1
  | 9 => 2
  | 11 => if osize = 8 then 4 else if osize = 4 then 2 else 1
  | _ => 0

/-- The ILLEGAL detail of a specifier before its extension halfwords are looked at, 0 if none (R246, R247, R249, R253, R267); `op` is the
opcode and `i` the specifier's place, since the destination of LEA is a word whatever its SIZE. -/
def specBad (op size i : Nat) (role : Role) (osize w : Nat) : Nat :=
  let m := specMode w
  let res := match m with
    | 1 => bits w 5 7 != 0
    | 2 | 4 | 5 | 6 | 12 => if m = 12 then bits w 0 12 != 0 else bits w 3 9 != 0
    | 3 | 13 => tb w 11
    | 7 => bits w 5 7 != 0
    | 8 => bits w 9 3 != 0
    | 9 | 11 => bits w 0 12 != 0
    | 10 => bits w 8 4 != 0
    | _ => false
  if m = 15 then 2
  else if role = .ea ∧ (m = 1 ∨ m = 10 ∨ m = 11) then 2
  else if res then 3
  else if (role = .dst ∨ role = .rw) ∧ (m = 10 ∨ m = 11) then 4
  else if m = 1 ∧ 29 ≤ bits w 0 5 then 5
  else if m = 1 ∧ !(osize == 4 && (size == 4 || op == 0x13 && i == 1)) then 6
  else if m = 13 ∧ size < 4 then 6
  else if m = 14 ∧ osize ≠ 4 then 6
  else if m = 8 ∧ (bits w 3 5 < 2 ∨ 20 < bits w 3 5 ∨ 2 ^ bits w 3 5 < size) then 8
  else 0

/-- The ILLEGAL detail that the extension halfwords of a specifier add (R246, R248). -/
def extBad (size osize w : Nat) (ext : List Nat) : Nat :=
  let h := ext.getD 0 0
  match specMode w with
  | 11 => if osize = 1 ∧ 256 ≤ h then 3 else 0
  | 13 => if bits h 10 6 ≠ 0 then 3 else if bits h 0 5 + bits h 5 5 + 1 > 8 * size then 8 else 0
  | _ => 0

/-- `n` halfwords from the `k`th on, or what stops the fetch. -/
def getHalves (get : Nat → Half) (addr : Nat → Nat) (k : Nat) : Nat → Decoded ⊕ List Nat
  | 0 => .inr []
  | n + 1 =>
    match get k with
    | .miss => .inl .miss
    | .fault x => .inl (.fault x (addr k))
    | .ok h =>
      match getHalves get addr (k + 1) n with
      | .inl r => .inl r
      | .inr hs => .inr (h :: hs)

/-- The specifiers from place `i` on with their extension halfwords, from halfword `k`, `tail` more halfwords to follow (R265): their list
and the next halfword. An instruction longer than 14 bytes is found before any specifier is checked (R267). -/
def readSpecs (get : Nat → Half) (addr : Nat → Nat) (op sub size tail : Nat) : Nat → Nat → List Role → Decoded ⊕ (List Spec × Nat)
  | _, k, [] => .inr ([], k)
  | i, k, r :: rs =>
    match get k with
    | .miss => .inl .miss
    | .fault x => .inl (.fault x (addr k))
    | .ok w =>
      let os := opndSize op sub size i
      let n := specExt w os
      if 7 < k + 1 + n + rs.length + tail then .inl (.illegal 7 3)
      else match getHalves get addr (k + 1) n with
        | .inl e => .inl e
        | .inr ext =>
          match readSpecs get addr op sub size tail (i + 1) (k + 1 + n) rs with
          | .inl e => .inl e
          | .inr (ss, k') => .inr (⟨r, os, w, ext⟩ :: ss, k')

/-- The first specifier that fails a check: its detail and place. -/
def badSpec (op size : Nat) : Nat → List Spec → Option (Nat × Nat)
  | _, [] => none
  | i, s :: ss =>
    let bad := specBad op size i s.role s.size s.word
    let bad := if bad = 0 then extBad size s.size s.word s.ext else bad
    if bad ≠ 0 then some (bad, i) else badSpec op size (i + 1) ss

/-- The instruction whose halfwords `get` answers; `addr k` is the address of halfword `k` (R265 to R267). -/
def decodeInst (get : Nat → Half) (addr : Nat → Nat) : Decoded :=
  match get 0 with
  | .miss => .miss
  | .fault x => .fault x (addr 0)
  | .ok h =>
    let op := bits h 8 8
    let sz := bits h 6 2
    let form := bits h 4 2
    let sub := bits h 0 4
    let size := 2 ^ sz
    if !opDefined op then .illegal 1 3
    else match opRoles op form with
      | none => .illegal 1 3
      | some roles =>
        if !subOk op sub then .illegal 3 3
        else if !sizeOk op form sub sz then .illegal 6 3
        else
          let tail := if op = 0x0D then 1 else 0
          match readSpecs get addr op sub size tail 0 1 roles with
          | .inl r => r
          | .inr (ss, k) =>
            match getHalves get addr k tail with
            | .inl r => r
            | .inr ds =>
              match badSpec op size 0 ss with
              | some (bad, i) => .illegal bad i
              | none => .ok ⟨op, size, sub, form, ss, ds.getD 0 0, 2 * (k + tail)⟩

/-- The opcode of the instruction, if its first halfword is there. -/
def opcodeOf (get : Nat → Half) : Option Nat :=
  match get 0 with
  | .ok h => some (bits h 8 8)
  | _ => none

end Sys2Proof.Machine
end

