-- ==== Sys2Proof/Machine/CoreMem.lean ====
section
/-! DEFINITION. What a core sees of memory (09 R238 to R245, R250, R257, R258, 11 R293, R294, R301 to R304, 12 R342, 22 R550): the address
view with its checks, the private regions, loads with the store buffer over them, stores, and fetching. Core 24 is Flagar. -/
namespace Sys2Proof.Machine

/-- Ranges of the core address view (R239, R550). -/
inductive CoreView | loc | ctl | pins | shared | win (n : Nat) | none
deriving DecidableEq, Repr

/-- The range that holds a core address (R239, R550). -/
def coreView (c a : Nat) : CoreView :=
  if 0x80000000 ≤ a then .win (a / 0x10000000 % 8)
  else if c = 24 then
    if a < 0x100000 then .loc else if a < 0x110000 then .ctl else if 0x200000 ≤ a ∧ a < 0x400000 then .shared else .none
  else if a < 0x40000 then .loc
  else if a < 0x50000 then .ctl
  else if a < 0x51000 then .pins
  else if 0x100000 ≤ a ∧ a < 0x300000 then .shared
  else .none

/-- Device address of a core's local memory (R238, R550). -/
def localBase (c : Nat) : Nat := if c = 24 then 0x3FE00000000 else 0x20000000000 + c * 0x40000

/-- Size of a core's local memory. -/
def localSize (c : Nat) : Nat := if c = 24 then 0x100000 else 0x40000

/-- Where places of the private regions are numbered from, past every device address. -/
def privBase : Nat := 2 ^ 48

/-- The place that an address of the view names: a device address, or a private place at its R258 or R257 offset (R238, R242, R550). -/
def corePlace (c : Nat) (r : CoreRegs) (a : Nat) : Nat :=
  match coreView c a with
  | .loc => localBase c + a
  | .ctl => privBase + 0x40000 + a % 0x10000
  | .pins => privBase + a
  | .shared => 0x20001000000 + (a - if c = 24 then 0x200000 else 0x100000)
  | .win n => bits (tget r.gp (20 + n)) 12 20 * 2 ^ 28 + a % 2 ^ 28
  | .none => 0

/-- The access is a far read (R299). -/
def farView (v : CoreView) : Bool := v != .loc

/-- Alignment of an access (R245, R250). -/
def accessAligned (c : Nat) (r : CoreRegs) (a n : Nat) : Bool :=
  match coreView c a with
  | .ctl => (n == 4 && a % 4 == 0) || (n == 8 && (a % 0x10000 == 0x1000 || a % 0x10000 == 0x1008 || a % 0x10000 == 0x1018))
  | .pins => n == 4 && a % 4 == 0
  | .win w =>
    if tb (tget r.gp (20 + w)) 0 && isRegSpace (corePlace c r a) then (n == 4 || n == 8) && a % n == 0 else true
  | _ => true

/-- The exception of a data access but for NO_TARGET: vector and detail; ALIGN comes first (R239, R240, R243, R250, R254). -/
def accessBad (c : Nat) (r : CoreRegs) (a n : Nat) (write : Bool) : Option (Nat × Nat) :=
  let v := coreView c a
  if !accessAligned c r a n then some (4, 0)
  else if v = .none ∨ coreView c ((a + (n - 1)) % 2 ^ 32) = .none then some (5, 1)
  else if coreView c ((a + (n - 1)) % 2 ^ 32) ≠ v then some (5, 7)
  else match v with
    | .win w =>
      let g := tget r.gp (20 + w)
      if !tb g 0 then some (5, 2)
      else if r.user && !tb g 1 then some (5, 3)
      else if write && tb g 2 then some (5, 4) else none
    | _ => none

/-- An access of user mode to a private region that it may not make (R251). -/
def accessPriv (c : Nat) (r : CoreRegs) (a : Nat) : Bool :=
  r.user && (match coreView c a with | .ctl => true | .pins => !r.upin | _ => false)

/-- Entry `i` from the bottom of a core's priority stack (R342). -/
def Dev.stackWord (d : Dev) (c i : Nat) : Nat :=
  match (d.priStack c).reverse[i]? with
  | some e => e.src + e.level * 2 ^ 16 + b2n e.spurious * 2 ^ 31
  | none => 0

/-- CORE_CLAIM as core `c` reads it; Flagar's interface is its own (R342, R550). -/
def Dev.coreClaim (d : Dev) (c : Nat) : Nat × Dev :=
  if c < 24 then d.claim c
  else match d.priStack c with
    | [] => (0x3FF, d)
    | e :: t => (e.src, d.setStack c ({ e with claimed := true } :: t))

/-- A completion by core `c`; Flagar's interface is its own (R328, R329, R550). -/
def Dev.coreComplete (d : Dev) (c k : Nat) : Dev :=
  if c < 24 then d.complete c k
  else match d.priStack c with
    | [] => d
    | e :: t => if e.src = k then d.setStack c t else d

/-- CORE_CYCLE (R258). -/
def Core.cycles (x : Core) : Nat := x.cycle / 1000 % 2 ^ 64

/-- A read of `n` bytes of the private core control region at offset `o` (R258, R342). -/
def Dev.ctlRead (d : Dev) (c o n : Nat) : Nat × Dev :=
  let x := d.core c
  let cmp := x.cmp.getD (2 ^ 64 - 1)
  if n = 8 then
    if o = 0x1000 then (x.cycles, d.setCore c { x with cycleHi := x.cycles / 2 ^ 32 })
    else if o = 0x1008 then (cmp, d)
    else (d.lt % 2 ^ 64, d.setCore c { x with ltHi := d.lt / 2 ^ 32 % 2 ^ 32 })
  else match o with
    | 0x0 => d.coreClaim c
    | 0x8 => (tget d.intc.payload c, d)
    | 0xC => ((x.thrNew.map (·.1)).getD (d.thr c), d)
    | 0x10 => ((d.priStack c).length, d)
    | 0x1000 => (x.cycles % 2 ^ 32, d.setCore c { x with cycleHi := x.cycles / 2 ^ 32 })
    | 0x1004 => (x.cycleHi, d)
    | 0x1008 => (cmp % 2 ^ 32, d)
    | 0x100C => (cmp / 2 ^ 32, d)
    | 0x1010 => (x.tctrl, d)
    | 0x1018 => (d.lt % 2 ^ 32, d.setCore c { x with ltHi := d.lt / 2 ^ 32 % 2 ^ 32 })
    | 0x101C => (x.ltHi, d)
    | 0x1020 => (x.faddr, d)
    | _ => (if 0x40 ≤ o ∧ o < 0x80 then d.stackWord c ((o - 0x40) / 4) else 0, d)

/-- A write of `n` bytes of the private core control region at offset `o` (R258, R342). -/
def Dev.ctlWrite (d : Dev) (c o n v : Nat) : Dev :=
  let x := d.core c
  let cmp := x.cmp.getD (2 ^ 64 - 1)
  let setCmp := fun (w : Nat) => d.setCore c { x with cmp := if w = 2 ^ 64 - 1 then none else some w }
  if o = 0x4 then d.coreComplete c (v % 512)
  else if o = 0xC then d.setCore c { x with thrNew := some (min 16 (v % 32), 3) }
  else if o = 0x1008 then setCmp (if n = 8 then v % 2 ^ 64 else putBits cmp 0 32 v)
  else if o = 0x100C then setCmp (putBits cmp 32 32 v)
  else if o = 0x1010 then d.setCore c { x with tctrl := v % 4 }
  else d

/-- A read of the private pin port at offset `o` (R257). -/
def Dev.pinRead (d : Dev) (o : Nat) : Nat :=
  let b := o / 0x20
  if 8 ≤ b then 0
  else if o % 0x20 < 0x10 then d.latchWord b
  else if o % 0x20 = 0x10 then d.levelWord b else 0

/-- A write of the private pin port at offset `o` (R257). -/
def Dev.pinWrite (d : Dev) (c o v : Nat) : Dev :=
  let b := o / 0x20
  if 8 ≤ b then d
  else match o % 0x20 with
    | 0x0 => d.ppOut c b v
    | 0x4 => d.ppSetBits c b v
    | 0x8 => d.ppClrBits c b v
    | 0xC => d.ppTglBits c b v
    | _ => d

/-- The target whose accesses are performed in issue order (R97, R304): one memory or one register block. -/
def placeTarget (k : Nat) : Nat :=
  if privBase + 0x50000 ≤ k then 38
  else if privBase ≤ k then 37
  else if isRegSpace k then 2 ^ 40 + (viewBits k).2 / 0x10000
  else match regionOf k with
    | .dram => 0
    | .isram => 1
    | .coreMem c => 2 + c
    | .ssram => 30
    | .items => 31
    | .tiles => 32
    | .maps => 33
    | .lists => 34
    | .msram => 35
    | .window m => 2 ^ 20 + m
    | _ => 36

/-- The writes that stand in a store buffer, oldest first: place and bytes (R303). -/
def sbWrites (sb : List SbEnt) : List (Nat × List Nat) :=
  sb.foldl (fun l e =>
    match l.getLast? with
    | some (a, bs) => if e.half && a + bs.length == e.addr then l.dropLast ++ [(a, bs ++ e.bytes)] else l ++ [(e.addr, e.bytes)]
    | none => [(e.addr, e.bytes)]) []

/-- A read of `n` bytes of memory at a place finds only part of its bytes in the youngest buffered write that touches it, or the bytes of two writes:
it waits until that write is performed (R301). A write not yet released is the push of the JSR in whose slot the read stands, which
cannot be performed first: the read takes its bytes (DESIGN CHOICE, log 87). -/
def sbPartial (sb : List SbEnt) (k n : Nat) : Bool :=
  match (sbWrites (sb.filter (·.released))).reverse.find? fun w => decide (w.1 < k + n) && decide (k < w.1 + w.2.length) with
  | some w => !(decide (w.1 ≤ k) && decide (k + n ≤ w.1 + w.2.length))
  | none => false

/-- Bytes at a place with the buffered stores over them, the youngest last (R301). -/
def sbOverlay (sb : List SbEnt) (k : Nat) (bs : List Nat) : List Nat :=
  (List.range bs.length).map fun i =>
    sb.foldl (fun v e => if e.addr ≤ k + i ∧ k + i < e.addr + e.bytes.length then e.bytes.getD (k + i - e.addr) 0 else v) (bs.getD i 0)

/-- A read of device space waits for an older write of the core to the same block (R301). -/
def sbHolds (sb : List SbEnt) (k : Nat) : Bool :=
  (privBase ≤ k || isRegSpace k) && sb.any fun e => placeTarget e.addr == placeTarget k

/-- A read of a core at a place (R245, R299, R301, R516): another node's answer is used once it has come, and a refused one is no target. -/
def Dev.coreLoad (d : Dev) (c k n : Nat) : Acc × Dev :=
  let x := d.core c
  if sbHolds x.sb k || (decide (k < privBase) && !isRegSpace k && sbPartial x.sb k n) then (.wait, d)
  else if privBase + 0x50000 ≤ k then (.ok (leBytes 4 (d.pinRead (k - privBase - 0x50000))), d)
  else if privBase ≤ k then
    let (v, d) := d.ctlRead c (k - privBase - 0x40000) n
    (.ok (leBytes n v), d)
  else match d.busRead c k n with
    | (.remote _ _, _) =>
      (match x.far.find? (·.1 == k) with
       | some (_, some []) => (.noTarget, d)
       | some (_, some bs) => (.ok (sbOverlay x.sb k ((bs ++ List.replicate n 0).take n)), d)
       | _ => (.wait, d))
    | (.ok bs, d) => (.ok (if isRegSpace k then bs else sbOverlay x.sb k bs), d)
    | r => r

/-- The read of a place finds no target (R245). -/
def Dev.noReadTarget (d : Dev) (c k n : Nat) : Bool :=
  if privBase ≤ k then false
  else match (d.busRead c k n).1 with
    | .noTarget => true
    | .remote _ _ => (d.core c).far.any fun f => f.1 == k && f.2 == some []
    | _ => false

/-- Store-buffer entries of a write: at most 8 bytes inside one aligned 8-byte unit each (R303). -/
def sbSplit (k : Nat) (bs : List Nat) : List SbEnt :=
  if k % 8 + bs.length ≤ 8 then [⟨k, bs, false, 0, false⟩]
  else [⟨k, bs.take (8 - k % 8), false, 0, false⟩, ⟨k + (8 - k % 8), bs.drop (8 - k % 8), false, 0, true⟩]

/-- A place in the core's bench. -/
def isBench (c k : Nat) : Bool := decide (localBase c ≤ k) && decide (k < localBase c + 0x1000)

/-- An entry leaves the buffer when its instruction retires: the bench and the private pin port (R257, R303). -/
def sbDirect (c k : Nat) : Bool := isBench c k || decide (privBase + 0x50000 ≤ k)

/-- Perform a store at its target; none while it has to wait (R245, R304). -/
def Dev.sbPerform (d : Dev) (c : Nat) (e : SbEnt) : Option Dev :=
  if privBase + 0x50000 ≤ e.addr then some (d.pinWrite c (e.addr - privBase - 0x50000) (leNum e.bytes))
  else if privBase ≤ e.addr then some (d.ctlWrite c (e.addr - privBase - 0x40000) e.bytes.length (leNum e.bytes))
  else match d.busWrite c e.addr e.bytes with
    | (.wait, _) => none
    | (.noTarget, d) => some (if c < 24 then d.coreWerr c else d)
    | (_, d) => some d

/-- Release stores: those of the bench and the pin port are performed now, the others wait in the buffer (R303). -/
def Dev.sbRelease (d : Dev) (c : Nat) : Dev :=
  let x := d.core c
  let now := x.sb.filter fun e => !e.released && sbDirect c e.addr
  let rest := (x.sb.filter fun e => e.released || !sbDirect c e.addr).map fun e => if e.released then e else { e with released := true, ord := d.commit.order }
  now.foldl (fun d e => (d.sbPerform c e).getD d) (d.setCore c { x with sb := rest })

/-- The released entry `i` drains: it is performed if no earlier entry has the same target (R304, R613). -/
def Dev.sbDrain (d : Dev) (c i : Nat) : Dev :=
  let x := d.core c
  match x.sb[i]? with
  | some e =>
    if !e.released || (x.sb.take i).any fun o => placeTarget o.addr == placeTarget e.addr then d
    else match d.sbPerform c e with
      | some d => (d.setCore c { d.core c with sb := (d.core c).sb.eraseIdx i }).coreDrained c
      | none => d
  | none => d

/-- A core's own memory at a local address, with its buffered stores over it (R255). -/
def Dev.localNum (d : Dev) (c a n : Nat) : Nat :=
  leNum (sbOverlay (d.core c).sb (localBase c + a) (d.localRead (localBase c + a) n))

/-- A fetch at a device address is refused: no memory, no target, or while the device is LOCKED outside every code range (R241, R603). -/
def Dev.fetchDenied (d : Dev) (k : Nat) : Bool :=
  isRegSpace k || regionOf k == .none || (d.locked && !d.codeHit k 2)

/-- The 64 bytes of a core's cached line (R294). -/
def Core.cached (x : Core) (line dev : Nat) : Option (List Nat) :=
  match (tget x.icache (line % 64)).find? fun e => e.1 == line && e.2.1 == dev with
  | some e => some e.2.2
  | none => none

/-- One halfword of code at core address `a` (R241, R243, R293, R294, R550, R603). -/
def Dev.fetchHalf (d : Dev) (c a : Nat) : Half :=
  let x := d.core c
  let k := corePlace c x.r a
  let cached :=
    if d.fetchDenied k || x.far.any (fun f => f.1 == k / 64 * 64 && f.2 == some []) then Half.fault 6
    else match x.cached (a / 64) (k / 64) with
      | some bs => .ok (leAt bs (a % 64) 2)
      | none =>
        match regionOf k, d.throughWindow k 2 false with
        | .window m, some _ => if d.ownWindow m && !d.hasRange k 2 then .fault 6 else .miss
        | _, some _ => if d.hasRange k 2 then .miss else .fault 6
        | _, none => .fault 6
  match coreView c a with
  | .loc => if d.fetchDenied k || !d.localTarget k then .fault 6 else .ok (d.num k 2)
  | .shared => cached
  | .win n =>
    let g := tget x.r.gp (20 + n)
    if !tb g 0 then .fault 2 else if x.r.user && !tb g 1 then .fault 3 else if !tb g 3 then .fault 5 else cached
  | _ => .fault 1

/-- The instruction at core address `a` (R241, R265). -/
def Dev.instAt (d : Dev) (c a : Nat) : Decoded :=
  decodeInst (fun k => d.fetchHalf c ((a + 2 * k) % 2 ^ 32)) (fun k => (a + 2 * k) % 2 ^ 32)

/-- The cache lines that hold `n` bytes of code at `a` become the most recent of their sets (R294). -/
def Core.touchLines (x : Core) (c a n : Nat) : Core :=
  if coreView c a = .loc then x
  else
    let one := fun (ic : Tab (List (Nat × Nat × List Nat))) (line : Nat) =>
      let hit := fun (e : Nat × Nat × List Nat) => e.1 == line && e.2.1 == corePlace c x.r (line * 64) / 64
      tmod ic (line % 64) fun l => l.filter hit ++ l.filter fun e => !hit e
    let ic := one x.icache (a / 64)
    let e := (a + (n - 1)) % 2 ^ 32 / 64
    { x with icache := if e = a / 64 then ic else one ic e }

/-- Fill a line at core address `a` with the bytes of its device line, in place of the least recent of four (R294). -/
def Dev.lineFill (d : Dev) (c a : Nat) (bs : List Nat) : Dev :=
  let x := d.core c
  let line := a / 64
  let dev := corePlace c x.r a / 64
  let set := ((line, dev, bs) :: (tget x.icache (line % 64)).filter (fun e => !(e.1 == line && e.2.1 == dev))).take 4
  (d.setCore c { x with icache := tput x.icache (line % 64) set }).perfAdd c 0x130 1

/-- IFLUSH over `n` bytes from core address `a` (R279). -/
def Dev.flushLines (d : Dev) (c a n : Nat) : Dev :=
  let x := d.core c
  let hit := fun (line : Nat) =>
    decide (n ≠ 0) && (decide (line * 64 < a + n) && decide (a < line * 64 + 64) || decide (line * 64 + 2 ^ 32 < a + n))
  d.setCore c { x with icache := (x.icache.map fun p => (p.1, p.2.filter fun e => !hit e.1)).filter fun p => !p.2.isEmpty }

end Sys2Proof.Machine
end

