-- ==== Sys2Proof/Machine/CoreExec.lean ====
section
/-! DEFINITION. How a core executes one instruction, up to its result (09 R246 to R249, R251, R254, 10 R268 to R289, 11 R301, R306): the
operands, their checks in order, the reads, and what each operation computes. -/
namespace Sys2Proof.Machine

/-- What an operand turned out to be (R246). -/
inductive OpndKind | reg | imm | mem | field | none14
deriving DecidableEq, Repr

/-- An evaluated operand: `n` is the register (absolute, R237) or the effective address, `n0` the register number as written, `val` the value
captured, `uses` the registers that formed the address. -/
structure Opnd where
  kind : OpndKind
  n : Nat
  n0 : Nat
  val : Nat
  size : Nat
  pos : Nat
  width : Nat
  uses : List Nat
deriving DecidableEq, Repr

/-- An access of an instruction in the order of its checks; `idx` is ECX.OPND (R252). -/
structure Access where
  idx : Nat
  o : Opnd
  rd : Bool
  wr : Bool
deriving DecidableEq, Repr

/-- A register's own number: SSP is 32 and USP 33, whichever name reaches it (R237). -/
def absReg (r : CoreRegs) (n : Nat) : Nat :=
  if n = 7 then (if r.user then 33 else 32) else if n = 28 then (if r.user then 32 else 33) else n

/-- Write a register by its own number. -/
def CoreRegs.setAbs (r : CoreRegs) (n v : Nat) : CoreRegs :=
  if n = 32 then { r with ssp := v % 2 ^ 32 } else if n = 33 then { r with usp := v % 2 ^ 32 } else r.set n v

/-- A 32-bit sum with a signed offset. -/
def addr32 (a : Nat) (i : Int) : Nat := tw 32 ((a : Int) + i)

/-- The pointer after a circular step (R247). -/
def circStep (p size k : Nat) (back : Bool) : Nat :=
  let m := 2 ^ k
  p / m * m + addr32 p (if back then -(size : Int) else size) % m

def memOpnd (n size : Nat) (uses : List Nat) : Opnd := ⟨.mem, n % 2 ^ 32, 0, 0, size, 0, 0, uses⟩

/-- Evaluate a specifier: the operand and the registers with its pointer update (R246 to R249). `pc` is the instruction's address and `size`
the size of its opcode halfword. -/
def evalSpec (c pri pc size : Nat) (s : Spec) (r : CoreRegs) : Opnd × CoreRegs :=
  let w := s.word
  let p := bits w 0 3
  let pv := r.get pri p
  let u := if p = 7 then [16, absReg r p] else [p]
  let e0 := s.ext.getD 0 0
  match specMode w with
  | 0 => (memOpnd (bits w 0 12) s.size [], r)
  | 1 => let n := bits w 0 5
         (⟨.reg, absReg r n, n, r.get pri n, 4, 0, 0, if n = 7 ∨ n = 28 then [16] else []⟩, r)
  | 2 => (memOpnd pv s.size u, r)
  | 3 => (memOpnd (addr32 pv (sx 8 (bits w 3 8))) s.size u, r)
  | 4 => (memOpnd (addr32 pv (sx 16 e0)) s.size u, r)
  | 5 => (memOpnd pv s.size u, r.set p (addr32 pv size))
  | 6 => let a := addr32 pv (-(size : Int))
         (memOpnd a s.size u, r.set p a)
  | 7 => let x := 8 + bits w 3 2
         (memOpnd (addr32 pv (sx 32 (r.get pri x) * size)) s.size (x :: u), r)
  | 8 => let q := circStep pv size (bits w 3 5) (tb w 8)
         (memOpnd (if tb w 8 then q else pv) s.size u, r.set p q)
  | 9 => (memOpnd (e0 * 2 ^ 16 + s.ext.getD 1 0) s.size [], r)
  | 10 => (⟨.imm, 0, 0, tw (8 * s.size) (sx 8 (bits w 0 8)), s.size, 0, 0, []⟩, r)
  | 11 => (⟨.imm, 0, 0, s.ext.foldl (fun v h => v * 2 ^ 16 + h) 0 % 2 ^ (8 * s.size), s.size, 0, 0, []⟩, r)
  | 12 => (memOpnd (addr32 pc (sx 16 e0)) s.size [], r)
  | 13 => (⟨.field, addr32 pv (sx 8 (bits w 3 8)), 0, 0, size, bits e0 0 5, bits e0 5 5 + 1, u⟩, r)
  | _ => (⟨if c = 24 then .none14 else .mem, 0x50000 + bits w 0 12, 0, 0, s.size, 0, 0, []⟩, r)

/-- Evaluate the specifiers in order (R249). -/
def evalSpecs (c pri pc size : Nat) : Nat → List Spec → CoreRegs → List Access × CoreRegs
  | _, [], r => ([], r)
  | i, s :: ss, r =>
    let (o, r) := evalSpec c pri pc size s r
    let (l, r) := evalSpecs c pri pc size (i + 1) ss r
    (⟨i, o, s.role == .src || s.role == .rw, s.role == .dst || s.role == .rw⟩ :: l, r)

/-- An implicit access of the stack pointer in force, which PSW.S selects (R237, R302). -/
def stackAcc (r : CoreRegs) (a size : Nat) (write : Bool) : Access :=
  ⟨3, memOpnd a size [16, absReg r 7], !write, write⟩

/-- The accesses of an instruction in order, and the registers after its pointer updates (R249, R271, R276, R287). -/
def planOf (c pri : Nat) (i : Inst) (r : CoreRegs) : List Access × CoreRegs :=
  let sp := r.get pri 7
  let ev := evalSpecs c pri r.pc i.size 0 i.specs
  let blk := fun (reg : Nat) (write : Bool) => (⟨3, memOpnd (r.get pri reg) i.size [12, reg], !write, write⟩ : Access)
  if i.op = 0x14 then
    let (l, r) := ev r
    let a := addr32 (r.get pri 7) (-(i.size : Int))
    (l ++ [stackAcc r a i.size true], r.set 7 a)
  else if i.op = 0x15 then
    let (l, r') := ev (r.set 7 (sp + i.size))
    (stackAcc r sp i.size false :: l, r')
  else if i.op = 0x09 then
    let a := addr32 sp (-4)
    let (l, r') := ev (r.set 7 a)
    (stackAcc r a 4 true :: l, r')
  else if i.op = 0x0B then ([stackAcc r sp 4 false], r.set 7 (sp + 4))
  else if i.op = 0x0C then ([stackAcc r sp 4 false, stackAcc r (addr32 sp 4) 4 false], r.set 7 (sp + 8))
  else if 0x50 ≤ i.op then
    if tget r.gp 12 = 0 then ([], r)
    else if i.op = 0x50 then ([blk 13 false, blk 14 true], r)
    else if i.op = 0x51 then ([blk 14 true], r)
    else if i.op = 0x52 then ([blk 13 false, blk 14 false], r)
    else ([blk 13 false], r)
  else ev r

/-- An exception to raise: vector, detail, operand, write, and the address for CORE_FADDR (R252, R253). -/
structure Exc where
  vec : Nat
  detail : Nat
  opnd : Nat
  wr : Bool
  faddr : Option Nat
deriving DecidableEq, Repr

/-- The access reaches memory, the private regions or a device. -/
def Access.isMem (a : Access) : Bool := (a.o.kind == .mem || a.o.kind == .field) && (a.rd || a.wr)

/-- The access reads: a bit field that is written is read with it (R248). -/
def Access.reads (a : Access) : Bool := a.isMem && (a.rd || a.o.kind == .field)

/-- The PRIVILEGE exception of an access in user mode (R235, R251). -/
def Access.priv (c : Nat) (r : CoreRegs) (a : Access) : Option Exc :=
  if a.o.kind = .reg ∧ r.user ∧ (17 ≤ a.o.n0 ∨ (a.o.n0 = 16 ∧ a.wr)) then some ⟨3, 2, a.idx, a.wr, none⟩
  else if a.isMem && accessPriv c r a.o.n then some ⟨3, 3, a.idx, a.wr && !a.rd, none⟩ else none

/-- The ALIGN or BUS exception of an access (R243, R245, R250, R254). -/
def Dev.accExc (d : Dev) (c : Nat) (r : CoreRegs) (a : Access) : Option Exc :=
  let bad := fun (w : Bool) => (accessBad c r a.o.n a.o.size w).map fun p => (⟨p.1, p.2, a.idx, w, some a.o.n⟩ : Exc)
  if a.o.kind = .none14 ∧ (a.rd ∨ a.wr) then some ⟨5, 1, a.idx, !a.rd, some a.o.n⟩
  else if !a.isMem then none
  else
    let first := if a.reads then
        (match bad false with
         | some e => some e
         | none => if d.noReadTarget c (corePlace c r a.o.n) a.o.size then some ⟨5, 6, a.idx, false, some a.o.n⟩ else none)
      else none
    match first with
    | some e => some e
    | none => if a.wr then bad true else none

/-- The first exception of a list of accesses. -/
def firstExc (f : Access → Option Exc) : List Access → Option Exc
  | [] => none
  | a :: l => match f a with
    | some e => some e
    | none => firstExc f l

/-- The destination that a pending long result occupies overlaps an access of `n` bytes at place `k`. -/
def LongOp.overlapsMem (l : LongOp) (k n : Nat) : Bool :=
  match l.dest with
  | .mem a s => decide (a < k + n) && decide (k < a + s)
  | .field a s _ _ => decide (a < k + n) && decide (k < a + s)
  | .reg _ => false

/-- A pending long result goes to the register. -/
def LongOp.isReg (l : LongOp) (n : Nat) : Bool := l.dest == .reg n

/-- The access waits for a pending long result (R283, R306); the accumulator of a MAC does not wait for a MAC on the same address (R285). -/
def Access.waits (c : Nat) (r : CoreRegs) (long : List LongOp) (mac : Bool) (a : Access) : Bool :=
  let win := match coreView c a.o.n with | .win n => [20 + n] | _ => []
  let regs := a.o.uses ++ (if a.o.kind = .reg then [a.o.n] else if a.isMem then win else [])
  long.any fun l =>
    regs.any l.isReg ||
    (a.isMem && l.overlapsMem (corePlace c r a.o.n) a.o.size &&
      !(mac && l.mac && a.rd && a.wr && l.dest == .mem (corePlace c r a.o.n) 8))

/-- Registers that an instruction uses or changes beside its operands, for which it waits too (R276, R287, R302, R306): the block-repeat registers,
even when BRC holds 0, and EPC and PSW of RTI. -/
def Inst.alsoUses (i : Inst) : List Nat :=
  match i.op with
  | 0x0C => [16, 17]
  | 0x50 | 0x52 => [12, 13, 14]
  | 0x51 => [12, 14, 15]
  | 0x53 | 0x54 => [12, 13, 15]
  | _ => []

/-- Value of the operand in a unit read. -/
def Opnd.value (o : Opnd) (u : Nat) : Nat :=
  match o.kind with
  | .field => bits u o.pos o.width
  | .mem => u
  | _ => o.val

/-- Read what the accesses read, in order; none if one of them has to wait. -/
def Dev.readAll (d : Dev) (c : Nat) (r : CoreRegs) (long : List LongOp) : List Access → Option (List Nat × Dev)
  | [] => some ([], d)
  | a :: l =>
    if a.reads then
      let k := corePlace c r a.o.n
      match d.coreLoad c k a.o.size with
      | (.wait, _) => none
      | (.ok bs, d) =>
        let chained := (long.filter fun m => m.mac && m.dest == .mem k 8).getLast?.map (·.val)
        (match d.readAll c r long l with
         | none => none
         | some (us, d) => some (chained.getD (leNum bs) :: us, d))
      | (_, d) =>
        (match d.readAll c r long l with
         | none => none
         | some (us, d) => some (0 :: us, d))
    else match d.readAll c r long l with
      | none => none
      | some (us, d) => some (0 :: us, d)

/-- The values that an operation reads, in order. -/
def readValues : List Access → List Nat → List Nat
  | a :: l, u :: us => if a.rd then a.o.value u :: readValues l us else readValues l us
  | _, _ => []

/-- Store-buffer entries and registers that an operation's results give, in order: results go to the accesses that write, after `es`; a bit-field
keeps the rest of its unit as an earlier result has left it (R248, R268). -/
def writeResults (c : Nat) (r0 : CoreRegs) : List Access → List Nat → List Nat → List SbEnt → CoreRegs → List SbEnt × CoreRegs
  | a :: l, u :: us, vs, es, r =>
    if a.wr then
      match vs with
      | v :: vs =>
        let k := corePlace c r0 a.o.n
        match a.o.kind with
        | .reg => writeResults c r0 l us vs es (r.setAbs a.o.n v)
        | .field =>
          let old := leNum (sbOverlay es k (leBytes a.o.size u))
          writeResults c r0 l us vs (es ++ sbSplit k (leBytes a.o.size (putBits old a.o.pos a.o.width v))) r
        | _ => writeResults c r0 l us vs (es ++ sbSplit k (leBytes a.o.size v)) r
      | [] => (es, r)
    else writeResults c r0 l us vs es r
  | _, _, _, es, r => (es, r)

/-- The conditions of CB and SET (R275). -/
def condHolds (sub w a b : Nat) : Bool :=
  match sub with
  | 0 => a == b
  | 1 => a != b
  | 2 => decide (sx w a < sx w b)
  | 3 => decide (sx w a ≤ sx w b)
  | 4 => decide (a < b)
  | 5 => decide (a ≤ b)
  | 6 => (a &&& b) != 0
  | _ => (a &&& b) == 0

/-- Shifts and rotates by the count in bits 5:0 (R273). -/
def shiftOp (op w a b : Nat) : Nat :=
  let n := b % 64
  let k := n % w
  match op with
  | 0x30 => if n < w then a * 2 ^ n % 2 ^ w else 0
  | 0x31 => if n < w then a / 2 ^ n else 0
  | 0x32 => tw w (sx w a / (2 ^ min n w : Nat))
  | 0x33 => (a * 2 ^ k + a / 2 ^ (w - k)) % 2 ^ w
  | _ => (a / 2 ^ k + a * 2 ^ (w - k)) % 2 ^ w

/-- Two-operand operations of R272: `a op b` at `w` bits. -/
def binOp (op sub w a b : Nat) : Nat :=
  let less := if sub = 1 then decide (a < b) else decide (sx w a < sx w b)
  match op with
  | 0x20 => (a + b) % 2 ^ w
  | 0x21 => (a + 2 ^ w - b) % 2 ^ w
  | 0x25 => a * b % 2 ^ w
  | 0x26 => if less then a else b
  | 0x27 => if less then b else a
  | 0x28 => a &&& b
  | 0x29 => a ||| b
  | 0x2A => a ^^^ b
  | 0x2B => clearMask a b
  | 0x0E => b2n (condHolds sub w a b)
  | _ => shiftOp op w a b

/-- Division and remainder, truncated toward zero (R282). -/
def divOp (op w a b : Nat) : Nat :=
  match op with
  | 0x42 => tw w (Int.tdiv (sx w a) (sx w b))
  | 0x43 => a / b
  | 0x44 => tw w (Int.tmod (sx w a) (sx w b))
  | _ => a % b

/-- The low product of two operands, signed or unsigned, at `w2` bits (R281). -/
def mulWide (sub w w2 a b : Nat) : Nat := if sub = 1 then a * b % 2 ^ w2 else tw w2 (sx w a * sx w b)

/-- Integer square root of a 64-bit number, bit by bit (R281). -/
def isqrt (n : Nat) : Nat :=
  (List.range 32).foldl (fun x k => let y := x + 2 ^ (31 - k); if y * y ≤ n then y else x) 0

/-- Results of an instruction in the order of its destinations, from the values read in order (R271 to R275, R281 to R285). -/
def opResults (i : Inst) (vs : List Nat) : List Nat :=
  let w := 8 * i.size
  let x := vs.getD 0 0
  let y := vs.getD 1 0
  let z := vs.getD 2 0
  let a := if i.form = 2 then y else x
  let b := if i.form = 2 then x else y
  match i.op with
  | 0x10 | 0x14 | 0x15 => [x]
  | 0x11 => [x % 2 ^ (8 * 2 ^ i.sub)]
  | 0x12 => [tw w (sx (8 * 2 ^ i.sub) x)]
  | 0x16 => [y, x]
  | 0x22 => [(y + x + z % 2) % 2 ^ w, (y + x + z % 2) / 2 ^ w]
  | 0x23 => [tw w ((y : Int) - x - (z % 2 : Nat)), b2n (decide (y < x + z % 2))]
  | 0x24 => [tw w (-(x : Int))]
  | 0x2C => [2 ^ w - 1 - x]
  | 0x40 => [mulWide i.sub w (2 * w) x y]
  | 0x41 => [(z + mulWide i.sub w 64 x y) % 2 ^ 64]
  | 0x42 | 0x43 | 0x44 | 0x45 => [divOp i.op w a b]
  | 0x46 => [isqrt x]
  | 0x47 => [crc32cRaw y (leBytes i.size x)]
  | _ => [binOp i.op i.sub w a b]

/-- The instruction goes to the long-operation unit (R281). -/
def isLong (op : Nat) : Bool := 0x40 ≤ op && op < 0x48

/-- A divide by zero (R253, R281). -/
def divZero (i : Inst) (vs : List Nat) : Bool :=
  0x42 ≤ i.op && i.op ≤ 0x45 && vs.getD (if i.form = 2 then 0 else 1) 0 == 0

/-- A watchpoint is hit by an access (R262, R264). -/
def Dev.wpHit (d : Dev) (c a n : Nat) (write : Bool) : Bool :=
  d.dbgEn c && (List.range 2).any fun k =>
    let cfg := d.rd (Reg.CORECTL_WP_CFG c k)
    let at0 := d.rd (Reg.CORECTL_WP c k)
    let way := bits cfg 1 2
    tb cfg 0 && (way == 0 || way == 3 || (way == 2) == write) &&
      (List.range ((a + n - 1) / 8 + 1 - a / 8)).any fun j =>
        (((a / 8 + j) % 2 ^ 29) ^^^ (at0 / 8)) &&& (cfg / 8) == 0

/-- A watchpoint is hit by one of the accesses. -/
def Dev.wpHits (d : Dev) (c : Nat) (l : List Access) : Bool :=
  c < 24 && l.any fun a => a.isMem && ((a.reads && d.wpHit c a.o.n a.o.size false) || (a.wr && d.wpHit c a.o.n a.o.size true))

end Sys2Proof.Machine
end

