-- ==== Sys2Proof/Machine/CorePred.lean ====
section
/-! DEFINITION. Prediction of control transfers and its counters (11 R307 to R312, R315). -/
namespace Sys2Proof.Machine

/-- A gshare counter; the table holds it exclusive-or 1, so that the reset value 0b01 is not listed (R307). -/
def Core.counter (x : Core) (i : Nat) : Nat := tget x.pht i ^^^ 1

/-- The BTB entry of the address `pc`: kind and target (R308). -/
def Core.btbHit (x : Core) (pc : Nat) : Option (Nat × Nat) := ((tget x.btb (bits pc 1 6)).find? (·.1 == bits pc 7 25)).map (·.2)

/-- Index of the counter of a CB at `pc` (R307). -/
def Core.phtIndex (x : Core) (pc : Nat) : Nat := bits pc 1 12 ^^^ x.hist

/-- Where IF1 goes after the transfer at `pc` and its slot, by the kind that the BTB holds; none: on in sequence (R307 to R309). -/
def Core.guess (x : Core) (pc : Nat) : Option Nat :=
  match x.btbHit pc with
  | some (kind, t) =>
    if kind = 0 ∧ x.counter (x.phtIndex pc) < 2 then none else if kind = 4 then some (x.ras.headD t) else some t
  | none => none

/-- The fetch of `n` bytes at `a` in IF1 makes the cache lines and the BTB entry that it hits the most recent of their sets (R294, R308). -/
def Core.fetchUse (x : Core) (c a n : Nat) : Core :=
  let y := x.touchLines c a n
  { y with btb := tmod y.btb (bits a 1 6) fun l => l.filter (·.1 == bits a 7 25) ++ l.filter (·.1 != bits a 7 25) }

/-- A control transfer of kind `kind` at `pc` resolves in EX (R307 to R310): the predictor as it then stands, and whether the prediction was
wrong. `target` is none for a CB that was not taken. A right prediction keeps what IF1 did with history and return stack, a wrong one leaves the
transfer's own effect; the push of a JSR follows with its slot (R309). -/
def Core.resolve (x : Core) (pc kind : Nat) (target : Option Nat) : Core × Bool :=
  let set := bits pc 1 6
  let tag := bits pc 7 25
  let hit := x.btbHit pc
  let wrong := x.guess pc != target
  let l := (tget x.btb set).filter (·.1 != tag)
  let old := (tget x.btb set).filter (·.1 == tag)
  let l := match target, hit with
    | some t, none => ((tag, kind, t) :: l).take 4
    | some t, some e => if e.2 = t then old ++ l else (tag, kind, t) :: l
    | none, _ => old ++ l
  let pops := if wrong then kind == 4 else hit.any (·.1 == 4)
  let gi := x.phtIndex pc
  let n := x.counter gi
  let y := { x with btb := tput x.btb set l, ras := if pops then x.ras.drop 1 else x.ras }
  if kind = 0 then
    let n := if target.isSome then min 3 (n + 1) else n - 1
    ({ y with pht := tput x.pht gi (n ^^^ 1), hist := (x.hist * 2 + b2n target.isSome) % 2 ^ 12 }, wrong)
  else (y, wrong)

/-- Up to `n` instructions are fetched from `a` on that never issue, the second of them at `tgt` if there is one: they leave the replacement order
of what they hit, and nothing else (R308, R312). -/
def Dev.strayWalk (d : Dev) (c : Nat) : Nat → Nat → Option Nat → Core → Core
  | 0, _, _, x => x
  | n + 1, a, tgt, x =>
    match d.instAt c a with
    | .ok i =>
      d.strayWalk c n (tgt.getD (addr32 a i.len)) (if tgt.isSome then none else x.guess a) (x.fetchUse c a i.len)
    | _ => x

/-- The path that a wrong prediction fetches after the slot at `a`, up to five instructions of it, of which a free value says how many (R311, R312,
log 1): it goes to `guess`, or on in sequence. -/
def Dev.wrongPath (d : Dev) (c a : Nat) (guess : Option Nat) : Dev :=
  let (v, d) := d.fresh 3
  d.setCore c (d.strayWalk c (min 6 v) a guess (d.core c))

end Sys2Proof.Machine
end

