-- ==== Sys2Proof/Machine/CoreOps.lean ====
section
/-! DEFINITION. Retirement, exceptions, halts and the rows of the Alolo core (09 R252 to R256, R261, R262, 10 R276 to R288, 11 R299, R304). -/
namespace Sys2Proof.Machine

/-- The core's cluster has power; Flagar is always on (R551). -/
def Dev.coreOn (d : Dev) (c : Nat) : Bool := c == 24 || d.domOn (1 + c / 4)

/-- A halt with its cause, at once or when every pending long result is written (R261, R283). -/
def Dev.haltNow (d : Dev) (c why : Nat) : Dev :=
  let x := d.core c
  if x.long.isEmpty then d.coreStop c why
  else
    let d := d.coreAbandon c
    d.setCore c { d.core c with halting := true, why := why }

/-- Push a word of an entry frame to local memory as a released store, or straight to the bench (R255, R303). -/
def Dev.pushWord (d : Dev) (c a v : Nat) : Dev :=
  let e : SbEnt := ⟨localBase c + a, leBytes 4 v, true, d.commit.order, false⟩
  if isBench c e.addr then (d.sbPerform c e).getD d else d.setCore c { d.core c with sb := (d.core c).sb ++ [e] }

/-- An entry that fails is a double fault (R256). -/
def Dev.doubleFault (d : Dev) (c ecx epc : Nat) : Dev :=
  let x := d.core c
  let d := d.setCore c { x with mode := .faultHalt, phase := .none, stepping := false, halting := false }
  if c < 24 then ((d.wr (Reg.CORECTL_FAULT c) ecx).wr (Reg.CORECTL_FAULT_PC c) epc).coreFaultSrc c else d

/-- VBR bits 31:18 are 0, so that a vector can be fetched (R253). -/
def CoreRegs.vbrOk (r : CoreRegs) : Bool := tget r.gp 19 < 2 ^ 18

/-- The frame of an entry can be pushed (R256). -/
def CoreRegs.sspOk (r : CoreRegs) (c : Nat) : Bool :=
  let sp := addr32 r.ssp (-8)
  sp % 4 == 0 && decide (sp + 8 ≤ localSize c)

/-- An entry has to wait for two free entries of the store buffer, as an instruction that writes does (R303; log 87). -/
def Dev.entryWaits (d : Dev) (c : Nat) : Bool :=
  let x := (d.core c).abandon
  x.r.sspOk c && x.r.vbrOk && decide (0x1000 < x.r.ssp) && decide (6 < x.sb.length)

/-- Handler address of a vector (R241, R253). -/
def Dev.vector (d : Dev) (c v : Nat) : Nat :=
  d.localNum c (tget (d.core c).r.gp 19 / 4096 * 4096 + 4 * v) 4 / 2 * 2

/-- The sequence of an entry (R255, R256, R327): the frame of `epc` and `psw`, supervisor mode, ECX if `ecx` gives it, and the handler of
vector `v`. The unretired work of the core has been abandoned. -/
def Dev.enter (d : Dev) (c v epc psw : Nat) (ecx : Option Nat) : Dev :=
  let x := d.core c
  let sp := addr32 x.r.ssp (-8)
  if !x.r.sspOk c ∨ !x.r.vbrOk then d.doubleFault c (ecx.getD (tget x.r.gp 18)) epc
  else
    let d := (d.pushWord c (sp + 4) psw).pushWord c sp epc
    let r := { x.r with user := false, trace := false, ssp := sp }
    let r := r.set 17 epc
    let r := match ecx with | some e => r.set 18 e | none => r
    let d := d.setCore c { d.core c with r := r, mode := .run, phase := .none }
    let d := d.setCore c { d.core c with r := { r with pc := d.vector c v } }
    d.perfAdd c 0x148 1

/-- An exception entry (R252, R255); a core in a STEP then halts (R261). -/
def Dev.excEnter (d : Dev) (c : Nat) (e : Exc) (slot : Bool) (epc : Nat) : Dev :=
  let x := d.core c
  let d := match e.faddr with
    | some a => d.setCore c { x with faddr := a % 2 ^ 32 }
    | none => d
  let ecx := e.detail * 2 ^ 16 + e.opnd * 2 ^ 10 + b2n e.wr * 2 ^ 9 + b2n slot * 2 ^ 8 + e.vec
  let d := d.enter c e.vec epc (x.r.psw (d.pri c)) (some ecx)
  if (d.core c).mode == .faultHalt then d
  else
    let d := if c < 24 then d.inc (Reg.CORECTL_EXC_CNT c) else d
    if x.stepping then d.haltNow c 2 else d

/-- An exception of the instruction at the core's PC: it and the transfer whose slot it is are abandoned (R254). -/
def Dev.coreExc (d : Dev) (c : Nat) (e : Exc) : Dev :=
  if d.entryWaits c then d
  else
    let s := (d.core c).slot.isSome
    let d := d.coreAbandon c
    d.excEnter c e s (d.core c).r.pc

/-- What follows retirement: TRACE, then a watchpoint's halt or the end of a STEP (R254, R261, R262). -/
def Dev.afterRetire (d : Dev) (c : Nat) (trace hit : Bool) : Dev :=
  let d := if trace then d.excEnter c ⟨9, 0, 3, false, none⟩ false (d.core c).r.pc else d
  let x := d.core c
  if x.mode != .run && x.mode != .wait then d
  else if hit && !x.halting then d.haltNow c 4
  else if x.stepping then d.haltNow c 2 else d

/-- The entry at the top of the priority stack is out of sight of the slot of an RTI with C = 1, whose completion comes first; the completion itself is
made when the pair retires, so that an abandoned pair leaves no trace (R249, R276, R278). -/
def Dev.hideTop (d : Dev) (c : Nat) : Dev :=
  match d.priStack c, (d.core c).slot with
  | e :: t, some s => (d.setStack c t).setCore c { d.core c with slot := some { s with popped := some e } }
  | _, _ => d

/-- Completion by RTI with C = 1 of the source that was at the top of the stack (R276, R328, R329). -/
def Dev.completeTop (d : Dev) (c : Nat) (popped : Option PriEnt) : Dev :=
  match popped with
  | none => d.coreComplete c 0
  | some e => (d.setStack c (e :: d.priStack c)).coreComplete c e.src

/-- The instruction at the PC retires with registers `r`, followed by `next`; a delay slot retires with its transfer (R254, R277, R292, R303). -/
def Dev.retire (d : Dev) (c : Nat) (r : CoreRegs) (len : Nat) (hit : Bool) : Dev :=
  let pc := (d.core c).r.pc
  let t0 := (d.core c).r.trace
  let x := { d.core c with farWait := false, far := [] }
  let next := addr32 pc len
  match x.slot with
  | none =>
    let d := d.perfAdd c 0x110 1
    let x := { x with perf := (d.core c).perf, r := { r with pc := next }, phase := .none }
    ((d.setCore c x).sbRelease c).afterRetire c t0 hit
  | some s =>
    let d := (d.perfAdd c 0x110 2).perfAdd c 0x128 1
    let r := { r with pc := (s.target.getD next) % 2 ^ 32 / 2 * 2 }
    let r := match s.psw with | some v => r.setPsw v | none => r
    let ph := if s.kind = 5 then Phase.exiting s.undo.ssp (tget s.undo.gp 17) (s.undo.psw 0) else Phase.none
    let d := d.setCore c { x with perf := (d.core c).perf, r := r, slot := none, phase := ph }
    let d := d.sbRelease c
    let d := if s.complete then d.completeTop c s.popped else d
    d.afterRetire c s.undo.trace (hit || s.hit)

/-- The opcodes that a delay slot may not hold (R277). -/
def slotForbidden (op : Nat) : Bool :=
  op == 0x04 || op == 0x05 || op == 0x06 || (0x08 ≤ op && op ≤ 0x0D) || 0x50 ≤ op

/-- A PENDING direct source may be accepted by core `c` (R322): its LEVEL is below E, the core is a target, and IE is 1. -/
def Dev.eligible (d : Dev) (c k : Nat) : Bool :=
  let x := d.core c
  let s := d.irq k
  s.st == 1 && !s.taken && d.srcEn k && !d.srcQueued k && !srcReserved k && x.r.ie && d.bit (Reg.INTC_SRC_TGT k) c &&
    decide (d.srcLevel k < min (d.pri c) (d.thr c)) && (x.mode == .run || x.mode == .wait) && d.coreOn c

/-- Flagar's own interface presents an asserted source of 448 to 454 that it has not accepted yet (R550). -/
def Dev.flagEligible (d : Dev) (k : Nat) : Bool :=
  let x := d.core 24
  decide (448 ≤ k) && decide (k ≤ 454) && ((d.irq k).cause || (d.irq k).latch) && x.r.ie &&
    !(d.priStack 24).any (fun e => e.src == k) && decide (d.srcLevel k < min (d.pri 24) (d.thr 24)) &&
    (x.mode == .run || x.mode == .wait)

/-- The core to which a source of lowest-priority routing is presented: the largest E, then the lowest number (R325). -/
def Dev.routed (d : Dev) (k : Nat) : Option Nat :=
  ((List.range 24).filter (d.eligible · k)).foldl (fun b c =>
    match b with
    | some e => if min (d.pri e) (d.thr e) < min (d.pri c) (d.thr c) then some c else b
    | none => some c) none

/-- The sources presented to core `c` (R324, R325, R550). -/
def Dev.presented (d : Dev) (c : Nat) : List Nat :=
  if c = 24 then ((List.range 7).map (448 + ·)).filter d.flagEligible
  else (d.intc.srcs.map (·.1)).filter fun k =>
    d.eligible c k && (d.bit (Reg.INTC_SRC_CFG k) 29 || d.routed k == some c)

/-- The presented source that ranks first: the lowest LEVEL, then the lowest number (R326). -/
def Dev.rankFirst (d : Dev) (c : Nat) : Option Nat :=
  (d.presented c).foldl (fun b k =>
    match b with
    | some e => if d.srcLevel k < d.srcLevel e then some k else b
    | none => some k) none

/-- Accept source `k` on core `c`: its priority entry, and for lowest-priority routing the source is taken (R325, R327). -/
def Dev.accept (d : Dev) (c k : Nat) (stack : List PriEnt) : Dev :=
  let d := d.setStack c (⟨k, d.srcLevel k, false, false⟩ :: stack)
  if c < 24 && !d.bit (Reg.INTC_SRC_CFG k) 29 then d.setIrq k { d.irq k with taken := true } else d

/-- INTERRUPT_ENTRY (R327, R330 to R335): source `k` ranks first on core `c` and is accepted. `early` says that it was presented in cycles 1 to
9 of the entry under way, which it then takes over, or in exit cycles 1 to 6, which makes a chained entry; one presented later waits for the
next retirement. -/
def Dev.interruptEntry (d : Dev) (c k : Nat) (early : Bool) : Dev :=
  let a := if (d.core c).phase = .none then d.coreAbandon c else d
  let x := a.core c
  if a.rankFirst c ≠ some k ∨ x.halting ∨ x.draining.isSome ∨ (x.phase = .none ∧ a.entryWaits c) then d
  else match x.phase with
    | .entered a =>
      if !early then d
      else
        let d := if c < 24 then d.setIrq a { d.irq a with taken := false } else d
        let d := d.accept c k ((d.priStack c).drop 1)
        let d := d.setCore c { d.core c with phase := .entered k }
        d.setCore c { d.core c with r := { (d.core c).r with pc := d.vector c (32 + k) } }
    | .exiting ssp epc psw =>
      if !early then d
      else
        let d := d.accept c k (d.priStack c)
        let r := ({ x.r with ssp := ssp }.setPsw psw).set 17 epc
        let d := d.setCore c { d.core c with r := { r with user := false, trace := false }, mode := .run, phase := .entered k }
        if !r.vbrOk then d.doubleFault c (tget r.gp 18) x.r.pc
        else
          let d := d.perfAdd c 0x148 1
          d.setCore c { d.core c with r := { (d.core c).r with pc := d.vector c (32 + k) } }
    | .none =>
      let psw := x.r.psw (a.pri c)
      let d := a.accept c k (a.priStack c)
      let d := d.enter c (32 + k) x.r.pc psw none
      let x := d.core c
      if x.mode == .run then d.setCore c { x with phase := .entered k } else d

/-- One element of a block-repeat instruction with what it read (R286 to R288): the registers after it, its results, and whether the
instruction is done. -/
def blockElem (i : Inst) (vs : List Nat) (r : CoreRegs) : CoreRegs × List Nat × Bool :=
  let w := 8 * i.size
  let x := vs.getD 0 0
  let y := vs.getD 1 0
  let st := fun (n : Nat) (fix : Nat) (r : CoreRegs) =>
    if tb i.sub fix then r else r.set n (addr32 (tget r.gp n) (if tb i.sub 0 then -(i.size : Int) else i.size))
  let cnt := fun (r : CoreRegs) => r.set 12 (tget r.gp 12 - 1)
  let brv := tget r.gp 15
  let val := if i.size = 8 then brv * (2 ^ 32 + 1) else brv % 2 ^ w
  let ended := fun (r : CoreRegs) => tget r.gp 12 == 0
  match i.op with
  | 0x50 => let r := cnt (st 14 2 (st 13 1 r)); (r, [x], ended r)
  | 0x51 => let r := cnt (st 14 2 r); (r, [val], ended r)
  | 0x52 => if x ≠ y then (r, [], true) else let r := cnt (st 14 2 (st 13 1 r)); (r, [], ended r)
  | 0x53 => if (x == val) != tb i.sub 3 then (r, [], true) else let r := cnt (st 13 1 r); (r, [], ended r)
  | _ =>
    let r := r.set 15 (addr32 brv (if tb i.sub 3 then sx w x else x))
    let r := cnt (st 13 1 r); (r, [], ended r)

/-- One element of a block-repeat instruction retires (R288): its store is released and the registers show the progress; the last one
completes the instruction. A stop of CMPS or SCNS performs no element. -/
def Dev.blockRetire (d : Dev) (c : Nat) (i : Inst) (r0 r : CoreRegs) (done stop hit : Bool) : Dev :=
  let d := if stop then d else d.perfAdd c 0x120 1
  if done then d.retire c { r with pc := r0.pc } i.len hit
  else
    let x := d.core c
    let d := (d.setCore c { x with r := { r with pc := r0.pc }, farWait := false, far := [], phase := .none }).sbRelease c
    if hit then d.haltNow c 4 else d

/-- Where a control transfer goes, from the values it read and its address (R275, R276); none for a CB that does not branch. -/
def transferTarget (i : Inst) (acc : List Access) (vs : List Nat) (pc : Nat) : Option Nat :=
  let ea := match acc.getLast? with | some a => a.o.n | none => 0
  match i.op with
  | 0x0D => if condHolds i.sub (8 * i.size) (vs.getD 0 0) (vs.getD 1 0) then some (addr32 pc (sx 16 i.disp) / 2 * 2) else none
  | 0x08 | 0x09 => some (ea / 2 * 2)
  | _ => some (vs.getD 0 0 / 2 * 2)

/-- Kind of a control transfer as the predictor names it: 0 CB, 1 J, 2 JSR, 3 JR, 4 RTS, 5 RTI. -/
def transferKind (op : Nat) : Option Nat :=
  match op with
  | 0x0D => some 0 | 0x08 => some 1 | 0x09 => some 2 | 0x0A => some 3 | 0x0B => some 4 | 0x0C => some 5 | _ => none

/-- A control transfer issues and resolves (R276, R277, R307 to R310): its effects are in force for its slot, and retire with it. A JSR pushes its return
address when its slot is fetched, which gives the slot's length. -/
def Dev.controlTransfer (d : Dev) (c : Nat) (i : Inst) (kind : Nat) (acc : List Access) (vs : List Nat) (r0 r : CoreRegs) (hit : Bool) : Dev :=
  let next := addr32 r0.pc i.len
  let r := if kind = 5 then r.set 17 (vs.getD 0 0) else r
  let target := transferTarget i acc vs r0.pc
  let x := d.core c
  let link := if kind = 2 then acc.head?.map fun a => corePlace c r0 a.o.n else none
  let psw := if kind = 5 then some (vs.getD 1 0) else none
  let slot : Slot := ⟨target, r0.pc, r0, kind, hit, psw, kind == 5 && tb i.sub 0, none, link, x.hist, x.ras⟩
  let (y, wrong) := if kind = 5 then (x, false) else x.resolve r0.pc kind target
  let d := d.setCore c { y with r := { r with pc := next }, farWait := false, far := [], phase := .none, slot := some slot }
  let d := if wrong then (d.perfAdd c 0x12C 1).wrongPath c next (x.guess r0.pc) else d
  if slot.complete then d.hideTop c else d

/-- The slot of a JSR, of `len` bytes, has been fetched: the JSR's return address enters the store buffer and the return stack (R276, R309). -/
def Dev.linkPush (d : Dev) (c len : Nat) : Dev :=
  let x := d.core c
  match x.slot with
  | some s =>
    (match s.link with
     | some k =>
       let ret := addr32 x.r.pc len
       d.setCore c { x with
         sb := x.sb ++ sbSplit k (leBytes 4 ret), slot := some { s with link := none }, ras := (ret :: x.ras).take 16 }
     | none => d)
  | none => d

/-- The slot of a JSR waits for room in the store buffer (R303). -/
def Core.linkFull (x : Core) : Bool :=
  match x.slot.bind (·.link) with
  | some k => decide (8 < x.sb.length + (sbSplit k (leBytes 4 0)).length)
  | none => false

/-- The long-operation unit accepts an instruction (R283); `u` is the unit that its destination was read from. -/
def Dev.longAccept (d : Dev) (c : Nat) (i : Inst) (acc : List Access) (u v : Nat) (r : CoreRegs) (hit : Bool) : Dev :=
  let x := d.core c
  match acc.getLast? with
  | none => d
  | some a =>
    let k := corePlace c x.r a.o.n
    let dest := match a.o.kind with
      | .reg => Dest.reg a.o.n
      | .field => .field k a.o.size a.o.pos a.o.width
      | _ => .mem k a.o.size
    (d.setCore c { x with long := x.long ++ [⟨dest, v, a.o.size, i.op == 0x41, u⟩] }).retire c r i.len hit

/-- What an instruction does once its operands are read (R271 to R288): `us` are the units read, `r` the registers after pointer updates; none
while it has to wait for the store buffer, the long-operation unit or a fetch. -/
def Dev.perform (d : Dev) (c : Nat) (i : Inst) (acc : List Access) (us : List Nat) (r : CoreRegs) : Option Dev :=
  let x := d.core c
  let r0 := x.r
  let vs := readValues acc us
  let hit := d.wpHits c acc
  let put := fun (res : List Nat) (r : CoreRegs) =>
    let (es, r) := writeResults c r0 acc us res [] r
    (d.setCore c { x with sb := x.sb ++ es }, r)
  let traces := match x.slot with | some s => s.undo.trace | none => r0.trace
  let full := decide ((if traces then 6 else 8) < x.sb.length + ((writeResults c r0 acc us (List.replicate 2 0) [] r).1.length))
  let write := fun (res : List Nat) =>
    if full then none
    else
      let (d, r) := put res r
      some (d.retire c r i.len hit)
  match transferKind i.op with
  | some kind => if kind = 2 && full then none else some (d.controlTransfer c i kind acc vs r0 r hit)
  | none =>
    if traces && full then none else
    if 0x50 ≤ i.op then
      if tget r0.gp 12 = 0 then some (d.retire c r i.len false)
      else if full then none
      else
        let (r, res, done) := blockElem i vs r
        let (d, r) := put res r
        some (d.blockRetire c i r0 r done (tget r.gp 12 == tget r0.gp 12) hit)
    else if isLong i.op then
      if divZero i vs then some (d.coreExc c ⟨7, 0, 3, false, none⟩)
      else if 4 ≤ x.long.length then none
      else some (d.longAccept c i acc (us.getLast?.getD 0) ((opResults i vs).headD 0) r hit)
    else match i.op with
      | 0x01 => some (d.retire c r i.len false)
      -- In the slot of a JSR the FENCE does not wait for the JSR's push, which is released only when the pair retires (DESIGN CHOICE, log 88).
      | 0x02 => if x.long.isEmpty && x.sb.all (fun e => !e.released) then some (d.retire c r i.len false) else none
      | 0x03 =>
        let d := if i.form = 0 then d.setCore c { x with icache := [] }
          else d.flushLines c ((acc.head?.map (·.o.n)).getD 0) (vs.getD 0 0)
        some (d.retire c r i.len hit)
      | 0x04 =>
        let sleeps := r0.ie && (d.presented c).isEmpty
        some ((if sleeps then d.setCore c { x with mode := .wait } else d).retire c r i.len false)
      | 0x05 => some (if c < 24 && d.dbgEn c then d.haltNow c 5 else d.coreExc c ⟨8, 0, 3, false, none⟩)
      | 0x06 =>
        if d.entryWaits c then none
        else
          let d := d.setCore c { x.abandon with r := { r0 with pc := addr32 r0.pc i.len } }
          some ((d.perfAdd c 0x110 1).excEnter c ⟨16 + i.sub, 0, 3, false, none⟩ false (addr32 r0.pc i.len))
      | 0x07 => some ((d.coreComplete c (vs.getD 0 0 % 512)).retire c r i.len hit)
      | 0x13 => write [(acc.head?.map (·.o.n)).getD 0]
      | _ => write (opResults i vs)

/-- Requests of the far reads that lie in another node's export space (R516). -/
def Dev.farAsk (d : Dev) (c : Nat) (r : CoreRegs) : List Access → Dev
  | [] => d
  | a :: l =>
    let k := corePlace c r a.o.n
    let d := if a.reads && decide (k < privBase) then
        (match (d.busRead c k a.o.size).1 with
         | .remote _ _ =>
           if (d.core c).far.any (·.1 == k) then d
           else (d.setCore c { d.core c with far := (d.core c).far ++ [(k, none)] }).readSend c k a.o.size
         | _ => d)
      else d
    d.farAsk c r l

/-- Reads that wait for the snapshot are noted, so that their bound counts from now (R94). -/
def Dev.stallAsk (d : Dev) (c : Nat) (r : CoreRegs) : List Access → Dev
  | [] => d
  | a :: l =>
    let k := corePlace c r a.o.n
    let d := if a.reads && decide (k < privBase) then
        (match d.busRead c k a.o.size with
         | (.wait, e) => d.keepStall e
         | _ => d)
      else d
    d.stallAsk c r l

/-- An instruction at the PC issues with its operands (R249, R251, R254, R299): the checks in their order, then the waits, then the reads.
`back` says that the data of its far reads has returned. -/
def Dev.issue (d : Dev) (c : Nat) (i : Inst) (back : Bool) : Dev :=
  let x := d.core c
  let (acc, r) := planOf c (d.pri c) i x.r
  if x.slot.isSome && slotForbidden i.op then d.coreExc c ⟨2, 0, 3, false, none⟩
  else if x.r.user && (i.op == 0x0C || i.op == 0x04 || i.op == 0x07) then d.coreExc c ⟨3, 1, 3, false, none⟩
  else match firstExc (Access.priv c x.r) acc with
    | some e => d.coreExc c e
    | none =>
      match firstExc (d.accExc c x.r) acc with
      | some e => d.coreExc c e
      | none =>
        if acc.any (Access.waits c x.r x.long (i.op == 0x41)) || i.alsoUses.any (fun n => x.long.any (·.isReg n)) then d
        else if acc.any (fun a => a.reads && farView (coreView c a.o.n)) && !back then
          if x.farWait then d else (d.setCore c { x with farWait := true }).farAsk c x.r acc
        else match d.readAll c x.r x.long acc with
          | none => d.stallAsk c x.r acc
          | some (us, e) => (e.perform c i acc us r).getD d

/-- The first breakpoint that matches the PC (R262). -/
def Dev.ibpHit (d : Dev) (c : Nat) : Bool :=
  let x := d.core c
  c < 24 && !x.stepping && d.dbgEn c && (List.range 4).any fun k =>
    let v := d.rd (Reg.CORECTL_IBP c k)
    tb v 0 && v / 2 == x.r.pc / 2

/-- A core that can execute (R259, R261). -/
def Dev.executes (d : Dev) (c : Nat) : Bool :=
  let x := d.core c
  x.mode == .run && !x.halting && x.draining.isNone && d.coreOn c

/-- The fetch of `n` bytes at the PC (R294, R308). -/
def Dev.fetched (d : Dev) (c n : Nat) : Dev := d.setCore c ((d.core c).fetchUse c (d.core c).r.pc n)

/-- The instruction `i` at the PC, which has been fetched, goes on: a breakpoint halts the core first (R262), and the push of a JSR whose slot it is
comes before it (R276). `back` says that its far reads have returned. -/
def Dev.goesOn (d : Dev) (c : Nat) (i : Inst) (back : Bool) : Dev :=
  let d := d.fetched c i.len
  if !back && d.ibpHit c then d.haltNow c 3
  else if (d.core c).linkFull then d
  else (d.linkPush c i.len).issue c i back

/-- The instruction at the PC of core `c` executes if it has opcode `op` (R262, R267): a fetch that fails or an encoding that is not one raises its
exception. -/
def Dev.opRow (d : Dev) (c op : Nat) : Dev :=
  let x := d.core c
  if !d.executes c then d
  else match d.instAt c x.r.pc with
    | .miss => d
    | .fault t a => (d.fetched c 2).coreExc c ⟨6, t, 3, false, some a⟩
    | .illegal t n =>
      if opcodeOf (fun k => d.fetchHalf c ((x.r.pc + 2 * k) % 2 ^ 32)) ≠ some op then d
      else if d.ibpHit c then (d.fetched c 2).haltNow c 3 else (d.fetched c 2).coreExc c ⟨1, t, n, false, none⟩
    | .ok i => if i.op ≠ op then d else d.goesOn c i false

/-- RESERVED_OPCODE: an opcode or field that is not one raises ILLEGAL (R267). -/
def Dev.reservedOp (d : Dev) (c : Nat) : Dev :=
  let x := d.core c
  if !d.executes c then d
  else match d.instAt c x.r.pc with
    | .illegal t n => if d.ibpHit c then (d.fetched c 2).haltNow c 3 else (d.fetched c 2).coreExc c ⟨1, t, n, false, none⟩
    | _ => d

/-- FAR_READ_RETURN: the waiting instruction proceeds with its data (R299). -/
def Dev.farReturn (d : Dev) (c : Nat) : Dev :=
  let x := d.core c
  if !d.executes c || !x.farWait then d
  else match d.instAt c x.r.pc with
    | .ok i => d.goesOn c i true
    | _ => d

/-- The unit of a bit-field destination when its result is written (R248, R283): memory as it stands under the core's own stores, anything else as it
was read when the operation was accepted. -/
def Dev.unitNow (d : Dev) (c k n was : Nat) : Nat :=
  match regionOf k with
  | .window _ | .none => was
  | _ => if privBase ≤ k || isRegSpace k || !d.hasRange k n then was else leNum (sbOverlay (d.core c).sb k (d.localRead k n))

/-- The bytes that a completed long operation writes to memory, and their place. -/
def Dev.longBytes (d : Dev) (c : Nat) (l : LongOp) : Option (Nat × List Nat) :=
  match l.dest with
  | .reg _ => none
  | .mem k n => some (k, leBytes n l.val)
  | .field k n pos w => some (k, leBytes n (putBits (d.unitNow c k n l.unit) pos w l.val))

/-- LONG_OPERATION_COMPLETE of the pending operation `i`: its result is written as one write of the whole destination, after those accepted
before it with a destination that overlaps, and once the store buffer has room; a halt that waits for it takes effect (R283, R303). -/
def Dev.longComplete (d : Dev) (c i : Nat) : Dev :=
  let x := d.core c
  match x.long[i]? with
  | none => d
  | some l =>
    let clash := (x.long.take i).any fun o =>
      match l.dest with
      | .reg n => o.isReg n
      | .mem a s => o.overlapsMem a s
      | .field a s _ _ => o.overlapsMem a s
    let es := match d.longBytes c l with | some (k, bs) => sbSplit k bs | none => []
    if clash || (!es.isEmpty && decide (8 < x.sb.length + es.length)) then d
    else
      let x := { x with long := x.long.eraseIdx i }
      let d := match l.dest with
        | .reg n =>
          let sl := x.slot.map fun s => { s with undo := s.undo.setAbs n l.val }
          d.setCore c { x with r := x.r.setAbs n l.val, slot := sl }
        | _ => es.foldl (fun (d : Dev) e =>
          if sbDirect c e.addr then (d.sbPerform c e).getD d
          else d.setCore c { d.core c with sb := (d.core c).sb ++ [{ e with released := true, ord := d.commit.order }] }) (d.setCore c x)
      let x := d.core c
      if x.halting && x.long.isEmpty then d.coreStop c x.why else d

/-- The address of the first halfword that the core waits for in its instruction cache (R294): every transfer before it has resolved. -/
def Dev.missAt (d : Dev) (c : Nat) : Option Nat :=
  let pc := (d.core c).r.pc
  match d.instAt c pc with
  | .miss => ((List.range 7).map fun k => (pc + 2 * k) % 2 ^ 32).find? fun b => d.fetchHalf c b == .miss
  | _ => none

/-- ICACHE_LINE_FILL: the line that the core's fetch misses is filled (R294); a line of another node's export space is asked for first (R516). -/
def Dev.icacheFill (d : Dev) (c : Nat) : Dev :=
  let x := d.core c
  if !d.executes c then d
  else match d.missAt c with
    | none => d
    | some a =>
      let k := corePlace c x.r a / 64 * 64
      match d.busRead c k 64 with
      | (.ok bs, d) => d.lineFill c a bs
      | (.remote _ _, _) =>
        (match x.far.find? (·.1 == k) with
         | some (_, some (b :: bs)) =>
           let d := d.lineFill c a ((b :: bs ++ List.replicate 64 0).take 64)
           d.setCore c { d.core c with far := (d.core c).far.filter (·.1 != k) }
         | some _ => d
         | none => (d.setCore c { x with far := x.far ++ [(k, none)] }).readSend c k 64)
      | _ => d

/-- The answer to a core's read of another node's export space (R516); no bytes say that it was refused. -/
def Dev.farAnswer (d : Dev) (c k : Nat) (bs : List Nat) : Dev :=
  let x := d.core c
  d.setCore c { x with far := x.far.map fun f => if f.1 = k ∧ f.2 = none then (k, some bs) else f }

/-- CORE_TIMER_MATCH: CORE_CYCLE has stepped to CORE_CMP, and the core's timer source is raised (R258, R317). -/
def Dev.timerMatch (d : Dev) (c : Nat) : Dev :=
  let x := d.core c
  if x.hit then (d.setCore c { x with hit := false }).raise (24 + c) 0 else d

/-- A threshold written to CORE_THR is in force 3 core cycles later (R322). -/
def Dev.thrStep (d : Dev) (c n : Nat) : Dev :=
  let x := d.core c
  match x.thrNew with
  | none => d
  | some (v, k) =>
    if n < k then d.setCore c { x with thrNew := some (v, k - n) }
    else { d.setCore c { x with thrNew := none } with intc := { d.intc with thrGap := tput d.intc.thrGap c (16 - v) } }

/-- Thousandths of a cycle that a cluster's clock gives in the time of `n`, `slow` of them stretched by one eighth (R566), and those left to stretch. -/
def stretched (slow n : Nat) : Nat × Nat :=
  if n * 8 < slow * 9 then (n * 8 / 9, slow - n * 8 / 9) else (slow + (n - slow * 9 / 8), 0)

/-- CORE_CYCLE moves on by `n` thousandths of a core cycle: not in RESET, and not in HALT under FREEZE; passing CORE_CMP with CMP_EN is a match
(R258). -/
def Dev.coreCycles (d : Dev) (c n : Nat) : Dev :=
  let x := d.core c
  if x.mode == .reset || (x.mode == .halt && tb x.tctrl 1) || !d.coreOn c then d
  else
    let (n, slow) := stretched x.slow n
    let y := { x with cycle := (x.cycle + n) % (1000 * 2 ^ 64), slow := slow }
    let cmp := x.cmp.getD (2 ^ 64 - 1)
    let steps := (x.cycle % 1000 + n) / 1000
    let gap := (cmp + 2 ^ 64 - x.cycles) % 2 ^ 64
    let y := if tb x.tctrl 0 && decide (0 < gap) && decide (gap ≤ steps) then { y with hit := true } else y
    ((d.setCore c y).thrStep c steps).perfCycles c steps

end Sys2Proof.Machine
end

