-- ==== Sys2Proof/Machine/Host.lean ====
section
/-! DEFINITION. The host interfaces: PCIe accesses through the BARs, the Ethernet mailbox, their order and timeouts (25, 03 R99, R101). -/
namespace Sys2Proof.Machine

/-- Places of BAR0 and BAR2 among the addresses of waiting accesses; a mailbox request holds a device address (R618). -/
def bar0Base : Nat := 2 ^ 48

def bar2Base : Nat := 2 ^ 49

/-- The host's writes that the device takes before Flagar runs: the package's place in the shared SRAM and what R594 admits (R606). -/
def Dev.hostAdmits (d : Dev) (a v : Nat) : Bool :=
  d.fld Reg.RST_STATUS 1 3 == 4 ||
    (match regionOf a with
     | .ssram => true
     | _ =>
       let p := (viewBits a).2
       p == Reg.SEC_IMG_ADDR || p == Reg.SEC_IMG_ADDR + 4 || (Reg.SEC_DATA 0 ≤ p && p < Reg.SEC_DATA 0 + 32) ||
         (p == Reg.SEC_CMD && d.secAdmits 25 Reg.SEC_CMD v))

/-- The device address of a waiting access through the window in force now; none through a window that does not admit it (R618, R619). -/
def Dev.hostPlace (d : Dev) (h : HostAcc) : Option Nat :=
  if bar2Base ≤ h.addr then
    let o := h.addr - bar2Base
    let w := o / 2 ^ 30 % 4
    let cfg := d.rd (Reg.HOST_WIN_CFG w)
    if tb cfg 0 && !(h.write && tb cfg 1) then some (d.fld (Reg.HOST_WIN_BASE w) 30 18 * 2 ^ 30 + o % 2 ^ 30) else none
  else if bar0Base ≤ h.addr then some (if h.addr < bar0Base + 0x10000 then 0x300000D0000 + (h.addr - bar0Base) else h.addr)
  else some h.addr

/-- Dword `i` of the MSI-X table as read: the mask bits are held inverted (R618). -/
def Dev.msixWord (d : Dev) (i : Nat) : Nat := if i % 4 = 3 then tget d.host.msix i ^^^ 1 else tget d.host.msix i

/-- A byte of BAR0 past the HOST block (R618); none where nothing lies. -/
def Dev.bar0Byte (d : Dev) (o : Nat) : Option Nat :=
  if o < 0x10200 then some (bits (d.msixWord ((o - 0x10000) / 4)) (8 * (o % 4)) 8)
  else if 0x11000 ≤ o ∧ o < 0x11008 then
    some ((List.range 8).foldl (fun a j => let v := (o - 0x11000) * 8 + j
                                          if v < 32 ∧ tget d.host.pend v then a + 2 ^ j else a) 0)
  else none

/-- Write a byte of the MSI-X table (R618). -/
def Dev.msixPut (d : Dev) (o b : Nat) : Dev :=
  if o < 0x10000 ∨ 0x10200 ≤ o then d
  else
    let i := (o - 0x10000) / 4
    let v := putBits (d.msixWord i) (8 * (o % 4)) 8 b
    { d with host := { d.host with msix := tput d.host.msix i (if i % 4 = 3 then v ^^^ 1 else v) } }

/-- Cut a range at the boundaries of 32-bit words. -/
def wordPieces (a : Nat) (bs : List Nat) : List (Nat × List Nat) :=
  (List.range ((a + bs.length + 3) / 4 - a / 4)).map fun i =>
    let lo := max a ((a / 4 + i) * 4)
    let hi := min (a + bs.length) ((a / 4 + i + 1) * 4)
    (lo, (bs.drop (lo - a)).take (hi - lo))

/-- The accesses of register space that a range makes (R9, R623): an aligned access of 4 or 8 bytes is one, unless the requester goes by 32-bit
words; any other whole number of aligned words is one access a word; a range that starts or stops partway through a word is one access,
which R9 discards or lets read without a side effect. -/
def regPieces (words : Bool) (a : Nat) (bs : List Nat) : List (Nat × List Nat) :=
  if a % 4 ≠ 0 ∨ bs.length % 4 ≠ 0 ∨ (!words && aligned a bs.length) then [(a, bs)] else wordPieces a bs

/-- The pieces in which an access is made: register space under R9, the mailbox by words (R623), memory whole. -/
def Dev.hostPieces (d : Dev) (eth : Bool) (a : Nat) (bs : List Nat) : List (Nat × List Nat) :=
  if isRegSpace ((d.throughWindow a 1 false).getD 0) then regPieces eth a bs else [(a, bs)]

/-- Perform a host write (R9, R99, R619): none while it has to wait; otherwise whether it found a target. -/
def Dev.hostStore (d : Dev) (eth : Bool) (a : Nat) (bs : List Nat) : Option (Bool × Dev) :=
  if bar0Base ≤ a then
    let o := a - bar0Base
    let d := (List.range bs.length).foldl (fun d i => d.msixPut (o + i) (bs.getD i 0)) d
    some ((d.bar0Byte o).isSome, forN 32 (fun v d => d.vecSend v) d)
  else (d.hostPieces eth a bs).foldl (fun o p => o.bind fun x =>
    if !x.2.hostAdmits p.1 (leNum p.2) then some x
    else match x.2.busWrite 25 p.1 p.2 with
    | (.wait, _) => none
    | (.noTarget, d) => some (false, d)
    | (_, d) => some (x.1, d)) (some (true, d))

/-- What a host read finds (R9, R619). -/
def Dev.hostFetch (d : Dev) (eth : Bool) (a n : Nat) : Acc × Dev :=
  if bar0Base ≤ a then
    let bs := (List.range n).map fun i => d.bar0Byte (a - bar0Base + i)
    (if bs.all (·.isSome) then .ok (bs.map (·.getD 0)) else .noTarget, d)
  else (d.hostPieces eth a (List.replicate n 0)).foldl (fun (x : Acc × Dev) p =>
    match x.1 with
    | .ok bs =>
      (match x.2.busRead 25 p.1 p.2.length with
       | (.ok cs, d) => (.ok (bs ++ cs), d)
       | r => r)
    | _ => x) (.ok [], d)

/-- Send a RESP (R622, R623): `body` is what follows its TAG. -/
def Dev.ethResp (d : Dev) (peer status len tag : Nat) (body : List Nat) : Dev :=
  d.emit (.eth (macBytes peer ++ macBytes (d.fld Reg.HOST_ETH_MAC 0 48) ++ [0x88, 0xB5, 3, status] ++ leBytes 2 len ++ leBytes 4 tag ++ body))

/-- Answer a mailbox request, and keep the answer with its tag among the last 16 (R623). The ADDR that a RESP carries is a free value (log 1). -/
def Dev.ethAnswer (d : Dev) (peer tag status : Nat) (data : List Nat) : Dev :=
  let (a, d) := d.fresh 48
  let body := leBytes 8 a ++ leBytes 8 0 ++ data
  let d := d.ethResp peer status data.length tag body
  let keep := (d.host.kept.filter (·.1 != tag)) ++ [(tag, status, body)]
  { d with host := { d.host with kept := keep.drop (keep.length - 16) } }

/-- A host access ends: `data` none says that it found no target (R619). A mailbox access holds its TAG and the requester's address. -/
def Dev.hostDone (d : Dev) (h : HostAcc) (data : Option (List Nat)) : Dev :=
  let d := if data.isNone then d.hostNt else d
  if h.eth then
    let tag := h.tag % 2 ^ 32
    let peer := h.tag / 2 ^ 32
    match data with
    | some bs => d.ethAnswer peer tag 0 bs
    | none =>
      if h.write then d.ethAnswer peer tag 1 []
      else
        let (v, d) := d.fresh (8 * h.size)
        d.ethAnswer peer tag 1 (leBytes h.size v)
  else if h.write then d
  else d.emit (.completion h.tag (data.getD (List.replicate h.size 0xFF)))

/-- Where the order of the waiting accesses stands: a write that later accesses wait for, a mailbox request under way, the targets of accesses
not yet performed, and the accesses that go on waiting. -/
structure HostScan where
  d : Dev
  write : Bool
  eth : Bool
  targets : List Nat
  left : List HostAcc

/-- Try one waiting access after those before it (R97, R99, R623). -/
def HostScan.one (x : HostScan) (h : HostAcc) : HostScan :=
  let d := x.d
  let tgt := match d.hostPlace h with | some a => placeTargetOf a | none => 2 ^ 50
  let keep := fun (x : HostScan) (h : HostAcc) =>
    { x with
      write := x.write || (h.write && !h.abandoned), eth := x.eth || (h.eth && !h.abandoned), targets := x.targets ++ [tgt], left := x.left ++ [h] }
  if x.targets.contains tgt || (!h.abandoned && (x.write || (h.eth && x.eth))) then keep x h
  else match d.hostPlace h with
    | none => { x with d := d.hostDone h none }
    | some a =>
      if h.write then
        match d.hostStore h.eth a h.bytes with
        | none => keep x h
        | some (ok, e) => { x with d := if h.abandoned then e else e.hostDone h (if ok then some [] else none) }
      else match d.hostFetch h.eth a h.size with
        | (.ok bs, e) => { x with d := e.hostDone h (some bs) }
        | (.noTarget, e) => { x with d := e.hostDone h none }
        | (.remote _ _, _) =>
          if h.sent then keep x h else keep { x with d := d.readSend 25 a h.size } { h with sent := true }
        | (.wait, e) => keep { x with d := d.keepStall e } h
where
  /-- The target whose accesses are performed in order (R97): one memory or one register block. -/
  placeTargetOf (a : Nat) : Nat :=
    if isRegSpace a then 2 ^ 40 + (viewBits a).2 / 0x10000
    else match regionOf a with
      | .coreMem c => 0x20000000000 + c
      | .window m => 2 ^ 44 + m
      | .dram => 0
      | .isram => 1
      | _ => a / 0x100000

/-- Perform what can be performed of the waiting host accesses, in order (R99). -/
def Dev.hostPump (d : Dev) : Dev :=
  if d.host.waiting.isEmpty then d
  else
    let x := d.host.waiting.foldl HostScan.one ⟨{ d with host := { d.host with waiting := [] } }, false, false, [], []⟩
    { x.d with host := { x.d.host with waiting := x.left ++ x.d.host.waiting } }

/-- An access arrives (R99, R619). -/
def Dev.hostArrive (d : Dev) (h : HostAcc) : Dev :=
  let d := if h.write then d.inc (if h.eth then Reg.HOST_WR_ETH else Reg.HOST_WR_PCIE) else d
  ({ d with host := { d.host with waiting := d.host.waiting ++ [h] } }).hostPump

/-- The endpoint and the MAC have power, and the interface is enabled (R551, R627). -/
def Dev.hostIf (d : Dev) (eth : Bool) : Bool := d.domOn 35 && d.bit Reg.HOST_CTRL (b2n eth)

/-- HOST_READ and HOST_WRITE over PCIe at an offset of BAR0 or BAR2 (R617, R618, R619). -/
def Dev.pcieAccess (d : Dev) (write bar0 : Bool) (off size tag : Nat) (bs : List Nat) : Dev :=
  if !d.hostIf false then d
  else
    let a := if bar0 then bar0Base + off % 0x20000 else bar2Base + off
    d.hostArrive ⟨write, false, a, bs, size, tag, d.lt, d.commit.order, false, false⟩

/-- HOST_RD_TMO in ns (R627). -/
def Dev.hostTmo (d : Dev) : Nat := max 1 (d.fld Reg.HOST_RD_TMO 0 16) * 1000

/-- HOST_READ_TIMEOUT: a read without an answer for HOST_RD_TMO completes as no target (R619). -/
def Dev.hostReadTimeout (d : Dev) : Dev :=
  match d.host.waiting.find? fun h => !h.write && decide (h.at0 + d.hostTmo ≤ d.lt) with
  | none => d
  | some h =>
    let d := { d with host := { d.host with waiting := d.host.waiting.erase h } }
    (d.hostDone h none).hostPump

/-- HOST_WRITE_ABANDON: a write not performed for HOST_RD_TMO is abandoned; whether it is performed later is a free value (R99, R619, log 1). -/
def Dev.hostWriteAbandon (d : Dev) : Dev :=
  match d.host.waiting.find? fun h => h.write && !h.abandoned && decide (h.at0 + d.hostTmo ≤ d.lt) with
  | none => d
  | some h =>
    let (b, d) := d.fresh 1
    let l := d.host.waiting.flatMap fun g => if g = h then (if b = 1 then [{ g with abandoned := true }] else []) else [g]
    (({ d with host := { d.host with waiting := l } }).hostDone h none).hostPump

/-- The answer of another node to a host read (R516, R619). -/
def Dev.hostAnswer (d : Dev) (a : Nat) (bs : Option (List Nat)) : Dev :=
  match d.host.waiting.find? fun h => !h.write && h.sent && d.hostPlace h == some a with
  | none => d
  | some h =>
    let d := { d with host := { d.host with waiting := d.host.waiting.erase h } }
    (d.hostDone h (bs.map fun l => (l ++ List.replicate h.size 0).take h.size)).hostPump

/-- The MAC takes a frame (R621). -/
def Dev.ethTakes (d : Dev) (dst src ety : Nat) : Bool :=
  let peer := d.fld Reg.HOST_ETH_PEER 0 48
  dst == d.fld Reg.HOST_ETH_MAC 0 48 && ety == 0x88B5 && (peer == 0 || peer == src)

/-- A request breaks the form of R622 and R623. -/
def mailboxBad (head data : List Nat) : Bool :=
  let op := leAt head 0 1
  let len := leAt head 2 2
  let rsv := leAt head 16 8 != 0
  if op = 1 ∨ op = 2 then
    rsv || len == 0 || 1024 < len || len % 4 != 0 || leAt head 8 8 % 4 != 0 || leAt head 14 2 != 0 ||
      (op == 2 && decide (data.length < len))
  else true

/-- A mailbox request (R621 to R623): READ, WRITE, or one with an unknown OP. -/
def Dev.mailbox (d : Dev) (write : Bool) (dst src ety : Nat) (head data : List Nat) : Dev :=
  let op := leAt head 0 1
  if !d.hostIf true || !d.ethTakes dst src ety then d
  else if (op = 2) ≠ (write = true) ∨ (3 ≤ op ∧ op ≤ 7) then d
  else
    let tag := leAt head 4 4
    let len := leAt head 2 2
    let held := (d.host.waiting.filter fun h => h.eth && !h.abandoned).length
    match d.host.kept.find? (·.1 == tag) with
    | some (_, st, body) => d.ethResp src st (body.length - 16) tag body
    | none =>
      let from_ := fun (d : Dev) => { d with host := { d.host with lastEth := src } }
      if mailboxBad head data then (from_ d).ethAnswer src tag 2 []
      else if 16 ≤ held then
        let (a, d) := d.fresh 48
        (d.ethResp src 3 0 tag (leBytes 8 a ++ leBytes 8 0)).evt 308 8
      else (from_ d).hostArrive
        ⟨write, true, leAt head 8 6, if write then data.take len else [], len, tag + src * 2 ^ 32, d.lt, d.commit.order, false, false⟩

/-- WAKE_FRAME (R625). -/
def Dev.wakeFrame (d : Dev) (dst src ety : Nat) (head : List Nat) : Dev :=
  if d.pwr.low = 3 ∧ d.ethTakes dst src ety ∧ leAt head 0 1 = 7 then d.wakeEvent 2 0 else d

/-- PERST_N: asserted, it resets the link and the configuration space and nothing else; reads under way have no one to complete to (R617). -/
def Dev.perst (d : Dev) (low : Bool) : Dev :=
  if !low then d
  else
    let d := { d with host := { d.host with waiting := d.host.waiting.filter fun h => h.write || h.eth } }
    let was := d.fld Reg.HOST_STATUS 0 2
    let d := d.setF Reg.HOST_STATUS 0 8 0
    (if was = 0 then d else d.evt 308 2).hostPump

/-- PCIE_LINK_CHANGE to a state, width and rate (R627). -/
def Dev.pcieLink (d : Dev) (st width rate : Nat) : Dev :=
  let was := d.fld Reg.HOST_STATUS 0 2
  let d := d.setF Reg.HOST_STATUS 0 8 (if st = 0 then 0 else st + width % 8 * 4 + rate % 8 * 32)
  if was ≠ 0 ∧ st = 0 then d.evt 308 2 else d

/-- ETH_LINK_CHANGE (R627). -/
def Dev.ethLink (d : Dev) (up : Bool) : Dev :=
  let was := d.bit Reg.HOST_STATUS 8
  let d := d.setF Reg.HOST_STATUS 8 1 (b2n up)
  if was && !up then d.evt 308 4 else d

/-- MDIO_DONE: the access ends, a read with its data (R627). -/
def Dev.mdioDone (d : Dev) (v : Nat) : Dev :=
  let m := d.rd Reg.HOST_MDIO
  if !tb m 31 then d
  else d.wr Reg.HOST_MDIO (putBits (if tb m 26 then m else putBits m 0 16 v) 31 1 0)

end Sys2Proof.Machine
end

