-- ==== Sys2Proof/Machine/Cycle.lean ====
section
/-! DEFINITION. What happens in one beam cycle and at a tick boundary, block by block (02 R40, R59, 06 R172, 13 R346, 19 R490, 21 R536). -/
namespace Sys2Proof.Machine

/-- Steps 2 to 5 of R40 for beam `b`, with what its movement makes the sequencers, cams, items, stations and triggers do. -/
def Dev.beamOne (d : Dev) (b : Nat) : Dev :=
  let fpf := d.fpf b
  let d := ((d.graftAbsorb b).gearFollow b).beamAdvance b
  let s := d.beam b
  let mv := s.stepped
  let l0 := (s.l - mv) % modL fpf
  let furrows := modNat fpf / 4096
  let d := (d.seqCycle 0 b).seqCycle 1 b
  let d := d.camCycle b
  let d := if 0 < mv then d.ovrConsume b l0 mv else d
  let d := s.crossings.foldl (fun (d : Dev) (c : Nat × Bool) =>
    d.switchCross b ((c.1 / 4096 + (if c.2 then 0 else furrows - 1)) % furrows) c.2) d
  let d := d.switchHere b
  let d := d.stnCycle b l0 mv
  let d := d.lineTriggers b l0 mv
  { d with items := { d.items with ends := d.items.ends ++ ((s.crossings.filter Prod.snd).map fun c => (b, c.1)) } }

/-- The last steps of a beam cycle of the item engine (R172, R538): the command channels, the deadlines that have passed, and with each forward furrow
crossing of the cycle the class expiries and the FURROW record. The next BEAM_CYCLE takes them first, after all that came in between. -/
def Dev.itemEnd (d : Dev) : Dev :=
  let d := (forN 8 (fun ch d => d.cmdCycle ch) d).deadlinesEnd
  let ends := d.items.ends
  ends.foldl (fun (d : Dev) (c : Nat × Nat) => (d.expire c.1).furrowSend c.1 c.2) { d with items := { d.items with ends := [] } }

/-- The commits due in this beam cycle, after the sequencer entries and corrections of the last one (R40, R86, R87, R537). -/
def Dev.cycleCommits (d : Dev) : Dev :=
  let d := d.entriesFlush.corrFlush
  if d.follows then d.repDue else d.dueGroups.foldl (fun d g => d.applyGroup g) d

/-- Core cycles of a beam cycle: 4 ns at each cluster's clock, and at 400 MHz for Flagar (R258, R316, R550). -/
def Dev.cycleCores (d : Dev) : Dev :=
  (forN 24 (fun c d => d.coreCycles c (d.clusMhz (c / 4) * 4)) d).coreCycles 24 1600

/-- What the fabric links do in a beam cycle that began at `t0` (R502, R524, R527, R548). -/
def Dev.linkCycle (d : Dev) (t0 : Nat) : Dev :=
  let d := d.trlCycle.grfCycle
  if t0 / 1000000 ≠ d.lt / 1000000 then d.trlLoad.grfLoad else d

/-- BEAM_CYCLE (R40, R56): the cycle before ends for the item engine, and line time moves on; with the control engines without power nothing else does
(R551, R556). -/
def Dev.beamCycle (d : Dev) : Dev :=
  let t0 := d.lt
  let d := (if d.domOn 13 then d.itemEnd else d).ltAdvance
  let d := d.linkCycle t0
  if !d.domOn 13 then d.coreCycles 24 1600
  else
    let d := (d.cycleCommits.unstall false).gearLatch
    let d := forN 8 (fun b d => d.beamOne b) d
    let d := d.measureCycle.stnPins
    let d := if t0 / 1000 ≠ d.lt / 1000 then d.beamFrames else d
    let d := (d.joinRun.tmrCycle).padCycle.cycleCores
    let d := if t0 / 1000000 ≠ d.lt / 1000000 then d.stnLoad else d
    d.rasFronts.hostPump.ringPosts

/-- TICK_BOUNDARY: the tick period that BEAM_TICK_PERIOD gives has ended (R59): the heartbeat, the samples, the motion evaluation, timers,
drive frames and DMA credits (R150, R222, R348, R490, R536). -/
def Dev.tickBoundary (d : Dev) : Dev :=
  if d.lt < d.tick.next ∨ !d.domOn 13 then d
  else
    let d := d.tickCore
    let d := (d.setGrf { d.grf with hbSeen := false }).heartbeat
    let d := d.camTick.switchTick.tmrTick
    let d := forN 64 (fun p d => d.drvTick p (d.rd Reg.BEAM_TICK_NUM) d.tick.start) d
    d.dmaTick

/-- COMMIT_APPLY of group `g` (R85 to R90): the commit is due, and applies, slips or fails. -/
def Dev.commitApply (d : Dev) (g : Nat) : Dev := if d.follows then d else (d.applyGroup g).joinRun

end Sys2Proof.Machine
end

