-- ==== Sys2Proof/Machine/DmaRun.lean ====
section
/-! DEFINITION. The descriptors that the DMA engines execute (19 R491 to R496). -/
namespace Sys2Proof.Machine

/-- Progress of a descriptor: the device, bytes written, and whether a source burst, a destination burst had no target (R496). -/
structure DmaRun where
  d : Dev
  n : Nat
  srcNt : Bool
  dstNt : Bool

/-- The source range holds the byte at `a` (R493, R496). -/
def dmaInSource (ws : List Nat) (a : Nat) : Bool :=
  let s := dmaAddr ws 2
  let n := ws.getD 1 0
  let k := bits (ws.getD 0 0) 8 5
  if tb (ws.getD 0 0) 4 then decide (s ≤ a) && decide (a < s + 4)
  else if k = 0 then decide (s ≤ a) && decide (a < s + n)
  else a / 2 ^ k == s / 2 ^ k && decide ((a + 2 ^ k - s % 2 ^ k) % 2 ^ k < n)

/-- Read `m` bytes of the source from byte `j` on, as words or as bytes of bursts (R493, R494); none while the Stem keeps a read waiting. A
read of another node's export space takes free values, or is refused (R516, log 60). -/
def dmaRead (src : Nat) (ws : List Nat) (word : Bool) : Nat → Nat → DmaRun → Option (List Nat × DmaRun)
  | _, 0, x => some ([], x)
  | j, m + 1, x =>
    let a := dmaFrom ws j
    let n := if word then 4 else 1
    if word && j % 4 != 0 then
      (dmaRead src ws word (j + 1) m x)
    else match x.d.busRead src a n with
      | (.wait, _) => none
      | (.ok bs, d) => (dmaRead src ws word (j + 1) m { x with d := d }).map fun p => (bs ++ p.1, p.2)
      | (.noTarget, d) =>
        (dmaRead src ws word (j + 1) m { x with d := d, srcNt := true }).map fun p => (List.replicate n 0 ++ p.1, p.2)
      | (.remote _ _, d) =>
        let d := if j = 0 ∨ a % 64 = 0 ∨ word then d.readSend src a (if word then 4 else 64 - a % 64) else d
        let (v, d) := d.fresh (8 * n)
        let (no, d) := d.fresh 1
        (dmaRead src ws word (j + 1) m { x with d := d, srcNt := x.srcNt || no == 1 }).map fun p =>
          ((if no = 1 then List.replicate n 0 else leBytes n v) ++ p.1, p.2)

/-- Write bytes to the destination from byte `j` on: as words, or as one run inside a burst (R493, R494). -/
def dmaWrite (src : Nat) (ws : List Nat) (word : Bool) (j : Nat) (bs : List Nat) (x : DmaRun) : Option DmaRun :=
  let one := fun (j : Nat) (bs : List Nat) (x : Option DmaRun) => x.bind fun x =>
    match x.d.busWrite src (dmaTo ws j) bs with
    | (.wait, _) => none
    | (.noTarget, d) => some { x with d := d, dstNt := true }
    | (_, d) => some { x with d := d, n := x.n + bs.length }
  if word then
    (List.range (bs.length / 4)).foldl (fun o i => one (j + 4 * i) ((bs.drop (4 * i)).take 4) o) (some x)
  else one j bs (some x)

/-- Bytes `j` on of the destination's burst, with a free value for every byte that also lies in the source range (R496). -/
def dmaSpoil (ws : List Nat) : Nat → List Nat → Dev → List Nat × Dev
  | _, [], d => ([], d)
  | j, b :: bs, d =>
    let (b, d) := if dmaInSource ws (dmaTo ws j) then d.fresh 8 else (b, d)
    let (t, d) := dmaSpoil ws (j + 1) bs d
    (b :: t, d)

/-- Move the descriptor's bytes from `j` on, a burst of the destination at a time (R489, R494). -/
def dmaMove (src : Nat) (ws : List Nat) (fill spoilt : Bool) : Nat → Nat → DmaRun → Option DmaRun
  | 0, _, x => some x
  | fuel + 1, j, x =>
    let len := ws.getD 1 0
    if len ≤ j then some x
    else
      let word := dmaWords ws false
      let m := min (len - j) (if word then 64 else 64 - dmaTo ws j % 64)
      let got := if fill then some ((List.range m).map fun i => leAt (leBytes 4 (ws.getD 2 0) ++ leBytes 4 (ws.getD 3 0)) ((j + i) % 8) 1, x)
        else dmaRead src ws (dmaWords ws true) j m x
      match got with
      | none => none
      | some (bs, x) =>
        let (bs, d) := if spoilt && !fill then dmaSpoil ws j bs x.d else (bs, x.d)
        match dmaWrite src ws word j bs { x with d := d } with
        | none => none
        | some x => dmaMove src ws fill spoilt fuel (j + m) x

/-- An engine has power and is not held in reset (R497, R551). -/
def Dev.dmaPowered (d : Dev) (e : Nat) : Bool := d.domOn (powDomain (dmaBase e)) && (e == 0 || !d.dataOff)

/-- A COPY reads the DRAM line `line` (R488). -/
def dmaReadsLine (ws : List Nat) (line : Nat) : Bool :=
  bits (ws.getD 0 0) 0 4 == 0 && (List.range (ws.getD 1 0)).any fun j => dmaFrom ws j / 64 == line

/-- The selected channel's descriptor runs if its OP is `op`, or is reserved (R490 to R496): every byte moves, and the completion is due.
`ue` is a DRAM line whose read finds an uncorrectable error. A descriptor that the Stem keeps waiting has no effect yet. -/
def Dev.dmaDescRun (d : Dev) (e op : Nat) (ue : Option Nat) : Dev :=
  let q := d.dmaEng e
  if q.busy.isSome || !d.dmaPowered e then d
  else match d.dmaSelect e with
    | none => d
    | some c =>
      let ws := d.dmaDesc e c
      let o := bits (ws.getD 0 0) 0 4
      if o ≠ op ∧ o < 3 then d
      else
        let done := fun (d : Dev) (st n : Nat) =>
          let cred := if d.bit (dmaCh e c 0) 27 then q.credit.filter (· != c) else q.credit
          let busy := some (c, ws, st, n, d.rd (dmaCh e c 0x14) % 2 ^ 17)
          d.setDma e { d.dmaEng e with last := (c + 1) % 16, credit := cred, busy := busy, halt := d.bit (dmaCh e c 0) 30 }
        if dmaBad ws then done d 1 0
        else if o = 2 then done d 0 0
        else
          let bad := match ue with | some l => dmaReadsLine ws l | none => false
          let d' := match ue with | some l => if bad then d.eccError l true else d | none => d
          let spoilt := o == 0 && (List.range (ws.getD 1 0)).any fun j => dmaInSource ws (dmaTo ws j)
          match dmaMove (dmaSrc e) ws (o == 1) spoilt (ws.getD 1 0 / 64 + 2) 0 ⟨d', 0, false, false⟩ with
          | none => d
          | some x => done x.d (if x.srcNt then 2 else if x.dstNt then 3 else if bad then 4 else if spoilt then 5 else 0) x.n

end Sys2Proof.Machine
end

