-- ==== Sys2Proof/Machine/LinkRows.lean ====
section
/-! DEFINITION. Accesses that come over the Stem and the Trellis, and the test access port (01 R20, 20 R505, R515, R516, 26 R642). -/
namespace Sys2Proof.Machine

/-- Base of a die's register space (R481): 0 the beam die, 1 the image die. -/
def dieRegs (die : Nat) : Nat := 0x30000000000 + die * 0x100000000

/-- REGISTER_ACCESS: a type 4 flit at a die performs a read or a write of 4 or 8 bytes there for a source, and its response goes back with the tag
(R20). What the response to a write carries is a free value (log 1). -/
def Dev.regAccess (d : Dev) (die src : Nat) (write : Bool) (tag off n v : Nat) : Dev :=
  let a := dieRegs die + off
  let targ := fun (w : Nat) => w * 2 ^ 41 + 2 ^ 40 + tag * 2 ^ 32 + off
  if write then
    let (p, d) := (d.regWriteN src a n v).fresh (8 * n)
    d.stemSend die 4 (targ 1) (leBytes n p)
  else
    let (x, d) := d.regReadN src a n
    d.stemSend die 4 (targ 0) (leBytes n x)

/-- Source number of accesses from the Trellis (R14). -/
def srcTrellis : Nat := 29

/-- The runs of enabled bytes of a WRITE cell, from byte `j` on: where each starts, and its data (R505). -/
def enabledRuns (en : Nat) (data : List Nat) : List (Nat × List Nat) :=
  (List.range 64).foldl (fun l j =>
    if !tb en j then l
    else
      let b := data.getD j 0
      match l.getLast? with
      | some (s, bs) => if s + bs.length = j then l.dropLast ++ [(s, bs ++ [b])] else l ++ [(j, [b])]
      | none => [(j, [b])]) []

/-- A write of a peer at a local address that a window gave: register space by whole words, memory whole (R9, R516). -/
def Dev.peerStore (d : Dev) (a : Nat) (bs : List Nat) : Dev :=
  if isRegSpace a then
    (if aligned a bs.length then [(a, bs)] else wordPieces a bs).foldl (fun d p =>
      if aligned p.1 p.2.length then d.regWriteN srcTrellis p.1 p.2.length (leNum p.2) else d) d
  else if d.localTarget a then d.localWrite srcTrellis a bs
  else d.noTarget a

/-- The local address behind a window for a peer; a window that leads into export space again admits nothing. -/
def Dev.peerAddr (d : Dev) (peer o n : Nat) (write : Bool) : Option Nat :=
  match d.winAddr peer o n write with
  | some x => (match regionOf x with | .window _ => none | _ => some x)
  | none => none

/-- WRITE (R505, R516): the enabled bytes of an aligned 64-byte unit, or nothing and a count. -/
def Dev.peerWrite (d : Dev) (h : CellHdr) (bs : List Nat) : Dev :=
  d.cellAt h 3 8 bs fun d =>
    match d.peerAddr h.src.toNat (leAt bs 0 4 / 64 * 64) 64 true with
    | none => d.winDeny
    | some x => (enabledRuns (leAt bs 8 8) (bs.drop 16)).foldl (fun d r => d.peerStore (x + r.1) r.2) d

/-- RD_REQ (R505, R516): the bytes, filled up to whole words, or DENIED. A length outside 1 to 256 is DENIED; a read that would have to wait goes
unanswered (log 70). The answer to a read of more than 248 bytes has the LEN that R505 gives it, which R503 calls invalid (log 106). -/
def Dev.peerRead (d : Dev) (h : CellHdr) (bs : List Nat) : Dev :=
  d.cellAt h 5 0 bs fun d =>
    let n := leAt bs 8 2
    let tag := bs.take 4
    let deny := fun (d : Dev) => d.cellSend 5 1 h.src.toNat (tag ++ [1, 0, 0, 0])
    if n = 0 ∨ 256 < n then deny d
    else match d.peerAddr h.src.toNat (leAt bs 4 4) n false with
      | none => deny d
      | some x =>
        match d.busRead srcTrellis x n with
        | (.ok l, d) => d.cellSend 5 1 h.src.toNat (tag ++ [0, 0, 0, 0] ++ l ++ List.replicate ((4 - l.length % 4) % 4) 0)
        | (.noTarget, d) | (.remote _ _, d) => deny d
        | (.wait, d) => d

/-- A waiting read of another node's export space ends (R516): `bs` none says DENIED. -/
def Dev.readEnd (d : Dev) (r : ExpRead) (bs : Option (List Nat)) : Dev :=
  if r.src < 25 then d.farAnswer r.src r.addr (bs.getD [])
  else if r.src = 25 then d.hostAnswer r.addr bs
  else d

/-- The answer to a request of a waiting read (R516): the next request follows while bytes are lacking. -/
def Dev.readAnswer (d : Dev) (tag : Nat) (bs : Option (List Nat)) : Dev :=
  match d.trl.reads.find? fun r => r.tag == tag with
  | none => d
  | some r =>
    let d := { d with trl := { d.trl with reads := d.trl.reads.erase r } }
    match bs with
    | none => d.readEnd r none
    | some l =>
      let got := r.got ++ l.take (min 248 (r.len - r.got.length))
      if got.length < r.len ∧ !l.isEmpty then d.readAsk { r with got := got } else d.readEnd r (some got)

/-- RD_RESP (R505, R516). -/
def Dev.readResp (d : Dev) (h : CellHdr) (bs : List Nat) : Dev :=
  d.cellAt h 5 1 bs fun d =>
    d.readAnswer (leAt bs 0 4) (if leAt bs 4 1 = 0 then some (bs.drop 8) else none)

/-- EXPORT_READ_TIMEOUT: the oldest read without an answer for 100 µs completes as DENIED (R516). -/
def Dev.exportTmo (d : Dev) : Dev :=
  match d.trl.reads.find? fun r => decide (r.at0 + 100000 ≤ d.lt) with
  | none => d
  | some r => d.readAnswer r.tag none

/-- Base of the ID block (R616). -/
def idBlock : Nat := 0x3FF00070000

/-- REG_RD (R505): a word of the ID block, or DENIED. -/
def Dev.idRead (d : Dev) (h : CellHdr) (bs : List Nat) : Dev :=
  d.cellAt h 4 8 bs fun d =>
    let off := leAt bs 4 4
    let tag := bs.take 4
    if off < 0x10000 ∧ off % 4 = 0 then
      let (v, d) := d.regReadN srcTrellis (idBlock + off) 4
      d.cellSend 4 9 h.src.toNat (tag ++ leBytes 4 off ++ [0, 0, 0, 0] ++ leBytes 4 v)
    else d.cellSend 4 9 h.src.toNat (tag ++ leBytes 4 off ++ [1, 0, 0, 0] ++ leBytes 4 0)

/-- REG_RESP (R505): tag, status and value reach whoever asked; the spec gives the device no way to ask, so they leave the block. -/
def Dev.idResp (d : Dev) (h : CellHdr) (bs : List Nat) : Dev :=
  d.cellAt h 4 9 bs fun d => d.emit (.event 6 [h.src.toNat, leAt bs 0 4, leAt bs 8 1, leAt bs 12 4])

/-- Pins of the boundary register that EXTEST drives: every pad that can be driven (R360, R642). -/
def scanPins : List Nat := (List.range 248).filter fun i => !pinInputOnly i

/-- TAP_INSTRUCTION (R592, R642): 0 BYPASS, 1 IDCODE, 2 SAMPLE/PRELOAD, 3 EXTEST with the scan levels, 4 a debug instruction, which acts as
BYPASS while LOCKED. IDCODE shifts out the code and SAMPLE the pad levels. -/
def Dev.tapInstr (d : Dev) (kind levels : Nat) : Dev :=
  let k := if kind = 4 ∧ d.locked then 0 else kind
  let ext := if k = 3 then scanPins.map fun i => (i, tb levels i) else []
  let d := { d with sec := { d.sec with tap := k, extest := ext } }
  if k = 1 then d.emit (.event 7 [0x20964ED3])
  else if k = 2 then d.emit (.event 7 ((List.range 248).map fun i => b2n (d.padLevel i)))
  else d

/-- EVENT_FLIT (R338): at the beam die (0) the source `k` is raised, or takes its level, at the line time it names; at the image die a station
action message arrives, 0 a camera tag and 1 a swath start. -/
def Dev.eventFlit (d : Dev) (die k : Nat) (bs : List Nat) : Dev :=
  if die = 0 then
    let pay := leAt bs 0 4
    let f := leAt bs 4 1
    let t := leAt bs 8 8
    let b := d.fld (Reg.INTC_SRC_CFG k) 4 3
    let pos := d.stampPos b t
    if srcReserved k then d
    else if tb f 1 then d.raiseAt k pay b t pos else d.levelAt k (tb f 0) pay b t pos
  else if k = 0 then d.camTag bs
  else if k = 1 then d.swathStart bs
  else d

/-- SNAPSHOT_VIEW_READ (R94): a read through the snapshot view of the register at `a`; before READY it waits, and returns by itself. -/
def Dev.snapViewRead (d : Dev) (src a n : Nat) : Dev := d.regReadCommand src ((viewBits a).2 + 2 * 2 ^ 28) n

/-- CORE_CLAIM: the source that core `c` claims goes to the core (R324). -/
def Dev.claimRow (d : Dev) (c : Nat) : Dev :=
  let (n, d) := d.coreClaim c
  d.emit (.event 4 [c, 0x40000, n])

/-- CODE_DENY (R603): a write of bytes that touch a code range by a source other than Flagar while the device is LOCKED; any other write of memory
is performed. -/
def Dev.codeWrite (d : Dev) (src a : Nat) (bs : List Nat) : Dev := d.writeRow src a bs

/-- OFF_ACCESS (R553): an access to a register or memory of a domain that is off; one to a domain that is on is performed. -/
def Dev.offRow (d : Dev) (src : Nat) (write : Bool) (a : Nat) (bs : List Nat) : Dev :=
  if write then d.writeRow src a bs else d.regReadCommand src a bs.length

/-- CORECTL_DREG_DATA (R261, R263): written with `v`, or read, by a source. -/
def Dev.dregRow (d : Dev) (src c : Nat) (v : Option Nat) : Dev :=
  let k := Reg.CORECTL_DREG_DATA c
  match v with
  | some v => d.regAct src k v 0xFFFFFFFF
  | none => d.emit (.event 4 [src, k, d.coreShows k c 0x18])

end Sys2Proof.Machine
end

