-- ==== Sys2Proof/Machine/RowOps.lean ====
section
/-! DEFINITION. Events of the opcode table that the passing of time brings, as far as no other file has them (02 R49, R51, R54, 03 R88, R95). -/
namespace Sys2Proof.Machine

/-- BEAM_LOSS_TIMEOUT (R49, R51, R54): a running beam on a LINE or an AXIS source has had neither a record nor an uplink for BEAM_LOSS.TMO ticks. -/
def Dev.lossRow (d : Dev) (b : Nat) : Dev :=
  let s := d.beam b
  let src := d.fld (Reg.BEAM_CTRL b) 1 3
  let tmo := max 1 (d.fld (Reg.BEAM_LOSS b) 0 8)
  if (s.mode = .run ∨ s.mode = .hold) ∧ d.unitOk b ∧ (src = 2 ∨ src = 4) ∧ tmo ≤ s.lossTicks then d.goStale b else d

/-- WITHDRAW (R88): an ARMED FURROW or FIELD commit of group `g` that has not applied in its time. -/
def Dev.withdrawRow (d : Dev) (g : Nat) : Dev := if d.withdrawDue g then d.withdraw g else d

/-- SNAP_TMO (R95): a snapshot that has stayed open for COMMIT_SNAP_TMO µs. -/
def Dev.snapTmo (d : Dev) : Dev :=
  if d.commit.snapOpen && decide (d.commit.snapAt + 1000 * max 1 (d.fld Reg.COMMIT_SNAP_TMO 0 16) ≤ d.lt) then d.snapClose.evt 96 64 else d

/-- The bytes of an operand as numbers. -/
def nats (l : List Byte) : List Nat := l.map BitVec.toNat

end Sys2Proof.Machine
end

