-- ==== Sys2Proof/Machine/StemRows.lean ====
section
/-! DEFINITION. What a Stem flit does that a die has taken, by its TYPE (01 R18, R20, 03 R89, R90, 12 R338, 22 R573). -/
namespace Sys2Proof.Machine

/-- A commit flit (R20): the group is the one whose commit has the flit's CSN (R85), which also tells the flits of a snapshot marker (log 74). The image
die takes ARM, SWAP and ABORT, the beam die ACK. -/
def Dev.commitFlit (d : Dev) (die phase csn : Nat) : Dev :=
  if die = 1 then
    if phase = 0 then
      match d.grpKeys.find? fun g => (d.grp g).mode == .armed && d.armedCsn g == csn with
      | some g => d.armReceive 1 g csn
      | none => d
    else
      match d.commit.remote.find? fun r => r.dom == 1 && r.csn == csn with
      | some r => if phase = 2 then d.swapReceive 1 r.grp csn else if phase = 3 then d.abortReceive 1 r.grp csn else d
      | none => d
  else if phase = 1 then
    match d.grpKeys.find? fun g => (d.grp g).mode == .armed && d.armedCsn g == csn with
    | some g => d.ackReceive g 1 csn
    | none => d
  else d

/-- A register-access flit (R20): a response brings its value to whoever asked, a request is performed at its die. Which source of the other die a
request comes from is not in the flit: it is a free value (log 89). -/
def Dev.accessFlit (d : Dev) (die targ : Nat) (bs : List Nat) : Dev :=
  let off := bits targ 0 32
  let tag := bits targ 32 8
  if tb targ 40 then d.emit (.event 8 [die, tag, off, leNum bs])
  else
    let (x, d) := d.fresh 5
    let src := if die = 0 then 27 + x % 2 else x % 27
    d.regAccess die src (tb targ 41) tag off (if bs.length = 8 then 8 else 4) (leNum bs)

/-- A management flit (R573). A reserved subtype is discarded and counted. -/
def Dev.mgmtTake (d : Dev) (die targ : Nat) (bs : List Nat) : Dev :=
  let n := fun (i k : Nat) => leAt bs i k
  match die, bits targ 36 6 with
  | 1, 0 => d.planeDown fun d => d.domReqFlit (n 0 4)
  | 0, 1 => d.domAck (n 0 4) (n 4 4)
  | 1, 2 => d.monRead (n 0 2) (n 2 1)
  | 0, 3 => d.monData (n 0 2) ((List.range ((bs.length - 4) / 4)).map fun i => n (4 + 4 * i) 4)
  | 0, 4 => d.thermFlit (n 0 2) (n 2 2)
  | 0, 5 => d.droop (n 0 1) (n 4 4)
  | _, t => if 6 ≤ t then d.inc (stemReg die Reg.STEM_CRC_ERR) else d

/-- A memory flit (R20): at the image die one for list memory belongs to the mirror (R118); any other writes its payload from the 64-byte unit on
that it names (log 89). -/
def Dev.memFlit (d : Dev) (die targ : Nat) (bs : List Nat) : Dev :=
  let a := targ * 64
  if die = 1 ∧ regionOf a = .lists then d.mirrorFlit a bs
  else if !isRegSpace a && d.localTarget a then d.localWrite (if die = 0 then 27 else 26) a bs else d

/-- The message of a flit reaches the block it is for (R18, R20). -/
def Dev.stemDeliver (d : Dev) (die : Nat) (f : Flit) : Dev :=
  let t := f.targ
  match f.ty with
  | 0 => if die = 1 then d.takeRecord (8 + bits t 39 3) (d.recPeriod 1) (recOfBytes f.payload) else d
  | 1 => d.commitFlit die (bits t 36 3) (bits t 4 32)
  | 2 => if die = 0 then d.verdictFlit (bits t 26 16) f.payload else d
  | 3 => d.eventFlit die (bits t 33 9) f.payload
  | 4 => d.accessFlit die t f.payload
  | 5 => d.mgmtTake die t f.payload
  | _ => d.memFlit die t f.payload

/-- STEM_FLIT_RECEIVE (R19, R23): a flit arrives at a die; one that is taken is delivered. -/
def Dev.flitReceive (d : Dev) (die : Nat) (bs : List Nat) (lat : Nat) : Dev :=
  match d.flitTake die bs lat with
  | (some f, d) => d.stemDeliver die f
  | (none, d) => d

end Sys2Proof.Machine
end

