-- ==== Sys2Proof/Machine/State.lean ====
section
/-! DEFINITION. The state of the block: the commands that wait, and the device (01 to 26). -/
namespace Sys2Proof.Machine

/-- The state: the commands that wait, first in, first out, and everything the spec gives the device. -/
structure State where
  pending : List Instr
  dev : Dev
deriving DecidableEq, Repr, Inhabited

/-- Stops that the spec describes: none. What the spec calls an error of a command is an event, a count or a status of the device (R10,
R245, R389, R431, R496), and the machine goes on. -/
inductive Fault
deriving DecidableEq, Repr

/-- Commands that the model turns away. -/
inductive Refusal
  /-- A command whose meaning is not written: raised by an arm of `exec` alone, and safe. No arm raises it. -/
  | notModelled (mnemonic : String)
deriving DecidableEq, Repr

/-- The state right after a power-on reset (R16, R608): no command waits. -/
def State.reset : State := { pending := [], dev := Dev.initial }

/-- A command's effect on the device; the queue is the step's. -/
def State.onDev (s : State) (f : Dev → Dev) : State := { s with dev := f s.dev }

end Sys2Proof.Machine
end

