-- ==== Sys2Proof/Machine/ExecBeam.lean ====
section
/-! DEFINITION. Meanings of the beam, time and capture commands (02 R40 to R70). -/
namespace Sys2Proof.Machine

/-- BEAM_CYCLE (R40): in each 4 ns beam cycle the beam engine applies due commits, samples the source, advances L, applies index correction, finds
crossings and publishes to the broadcast. -/
def execBeamCycle (s : State) : Host.Outcome State Fault Refusal :=
  .next (s.onDev fun d => d.beamCycle)

/-- ENCODER_TRANSITION (R45): an accepted A/B transition of an encoder changes BEAM_ENC_COUNT, or counts an illegal transition and sets ENC_ERR. -/
def execEncoderTransition (e : Fin 8) (a b : Bool) (s : State) : Host.Outcome State Fault Refusal :=
  .next (s.onDev fun d => d.encTransition e.val a b)

/-- INDEX_EDGE (R46): A qualified Z edge on a RUN beam records the index error and checks or corrects L under BEAM_INDEX.MODE. -/
def execIndexEdge (e : Fin 8) (level : Bool) (s : State) : Host.Outcome State Fault Refusal :=
  .next (s.onDev fun d => d.zEdge e.val level)

/-- BEAM_LOSS_TIMEOUT (R49): no line-beam record or valid uplink arrives for BEAM_LOSS.TMO ticks, and the beam becomes STALE. -/
def execBeamLossTimeout (b : Fin 8) (s : State) : Host.Outcome State Fault Refusal :=
  .next (s.onDev fun d => d.lossRow b.val)

/-- BEAM_RESUME (R54): A write of 1 to BEAM_CTRL.RESUME takes the beam out of STALE under R52. -/
def execBeamResume (src : Fin 30) (b : Fin 8) (v : BitVec 32) (s : State) : Host.Outcome State Fault Refusal :=
  .next (s.onDev fun d => d.regCommand src.val (Reg.BEAM_CTRL b.val) 4 (v.toNat ||| 256))

/-- TICK_BOUNDARY (R59): A tick period ends; BEAM_TICK_NUM increments and every beam records its tick sample. -/
def execTickBoundary (s : State) : Host.Outcome State Fault Refusal :=
  .next (s.onDev fun d => d.tickBoundary)

/-- BEAM_LT_SET (R58): A write to BEAM_LT_SET sets line time in LOCAL mode while all beams are OFF, or is refused with SET_REFUSED. -/
def execBeamLtSet (src : Fin 30) (v : BitVec 64) (s : State) : Host.Outcome State Fault Refusal :=
  .next (s.onDev fun d => d.regCommand src.val Reg.BEAM_LT_SET 8 v.toNat)

/-- BEAM_BROADCAST (R62): each period the beam engine sends a broadcast record of each beam to the beam-die domains and as type 0 Stem flits to the
image die. -/
def execBeamBroadcast (b : Fin 8) (stem : Bool) (s : State) : Host.Outcome State Fault Refusal :=
  .next (s.onDev fun d => if stem then d.broadcastStem b.val else d.broadcastDie b.val)

/-- BROADCAST_RECORD_RECEIVE (R65): A receiver takes a new broadcast record and absorbs the difference from its estimate or steps to the record. -/
def execBroadcastRecordReceive (image : Bool) (b : Fin 8) (bs : List Byte) (s : State) : Host.Outcome State Fault Refusal :=
  .next (s.onDev fun d => d.takeRecord (8 * b2n image + b.val) (d.recPeriod (b2n image)) (recOfBytes (nats bs)))

/-- PIN_INPUT_CHANGE (R67): A level change on an SNS or AUX pad starts a glitch-filter run at the sampled edge line time. -/
def execPinInputChange (p : Fin 96) (level : Bool) (back : Fin 4) (s : State) : Host.Outcome State Fault Refusal :=
  .next (s.onDev fun d => d.pinInput p.val (d.lt - back.val) level)

/-- PIN_CHANGE_ACCEPTED (R69): A level that stays stable for F + 3 pin-clock cycles is accepted and captured with its position at the edge. -/
def execPinChangeAccepted (p : Fin 96) (s : State) : Host.Outcome State Fault Refusal :=
  .next (s.onDev fun d => d.pinAccept p.val)

/-- BEAM_POS_SNAPSHOT (R70): A read of the low word of BEAM_POS returns the position and captures the high word, line time, velocity and
acceleration. -/
def execBeamPosSnapshot (src : Fin 30) (b : Fin 8) (wide : Bool) (s : State) : Host.Outcome State Fault Refusal :=
  .next (s.onDev fun d => d.regReadCommand src.val (Reg.BEAM_POS b.val) (if wide then 8 else 4))

end Sys2Proof.Machine
end

