-- ==== Sys2Proof/Machine/ExecCam.lean ====
section
/-! DEFINITION. Meanings of the cam commands (05 R145 to R153). -/
namespace Sys2Proof.Machine

/-- SWITCH_EDGE (R152): A switch-channel edge reaches its station output unit at the line time the broadcast estimate reaches the edge, `back` ns before
the engine's line time. -/
def execSwitchEdge (c : Fin 1024) (s : State) : Host.Outcome State Fault Refusal :=
  .next (s.onDev fun d => d.switchPin c.val)

/-- CAM_CORR_IN (R145): A write to CAM_CORR_IN adds a correction to the channel accumulator and count and keeps it as LAST. -/
def execCamCorrIn (src : Fin 30) (c : Fin 1024) (v : BitVec 32) (s : State) : Host.Outcome State Fault Refusal :=
  .next (s.onDev fun d => d.regCommand src.val (Reg.CAM_CORR_IN c.val) 4 v.toNat)

/-- CAM_OVR_REQ (R153): A write of a channel to CAM_OVR_REQ requests an override of its next window occurrence. -/
def execCamOvrReq (src : Fin 30) (c : BitVec 32) (s : State) : Host.Outcome State Fault Refusal :=
  .next (s.onDev fun d => d.regCommand src.val Reg.CAM_OVR_REQ 4 c.toNat)

end Sys2Proof.Machine
end

