-- ==== Sys2Proof/Machine/ExecCamPort.lean ====
section
/-! DEFINITION. Meanings of the camera port commands (14 R367 to R377). -/
namespace Sys2Proof.Machine

/-- CAMERA_TAG (R372): A camera tag arrives at the image die and is queued, or abandoned when BLOCKED or the queue is full. -/
def execCameraTag (bs : List Byte) (s : State) : Host.Outcome State Fault Refusal :=
  .next (s.onDev fun d => d.camTag (nats bs))

/-- FRAME_START (R372): A CSI-2 Frame Start is matched with the oldest fitting tag and a slot, or held for a tag. -/
def execFrameStart (p : Fin 16) (vc : Fin 4) (ecc : Fin 3) (s : State) : Host.Outcome State Fault Refusal :=
  .next (s.onDev fun d => d.frameStart p.val vc.val ecc.val)

/-- LONG_PACKET (R369): A CSI-2 long packet line is stored in the frame's slot, truncated or zero-filled, or discarded. -/
def execLongPacket (p : Fin 16) (vc : Fin 4) (dt : BitVec 6) (ecc : Fin 3) (crcOk : Bool) (ago : BitVec 32) (bs : List Byte) (s : State) : Host.Outcome State Fault Refusal :=
  .next (s.onDev fun d => d.longPacket p.val vc.val dt.toNat ecc.val crcOk ago.toNat (nats bs))

/-- FRAME_END (R377): A Frame End completes a tagged frame, which is flushed and handed to the Sieve. -/
def execFrameEnd (p : Fin 16) (vc : Fin 4) (ecc : Fin 3) (s : State) : Host.Outcome State Fault Refusal :=
  .next (s.onDev fun d => d.frameEnd p.val vc.val ecc.val)

/-- UNTAGGED (R372): A Frame Start held 5 µs without a tag has its frame discarded and counted. -/
def execUntagged (p : Fin 16) (s : State) : Host.Outcome State Fault Refusal :=
  .next (s.onDev fun d => d.camUntagged p.val)

/-- FRAME_TIMEOUT (R372): A frame without Frame End within CAMIN_FS_WIN.FRAME × 10 µs is closed with SHORT. -/
def execFrameTimeout (p : Fin 16) (s : State) : Host.Outcome State Fault Refusal :=
  .next (s.onDev fun d => d.frameTimeout p.val)

/-- NO_FRAME (R372): A queued tag that can no longer match a Frame Start is abandoned with cause NO_FRAME. -/
def execNoFrame (p : Fin 16) (s : State) : Host.Outcome State Fault Refusal :=
  .next (s.onDev fun d => d.camNoFrame p.val)

end Sys2Proof.Machine
end

