-- ==== Sys2Proof/Machine/ExecCommit.lean ====
section
/-! DEFINITION. Meanings of the commit gate's commands (03 R79 to R99). -/
namespace Sys2Proof.Machine

/-- GO (R82): A write of GO issues the group's commit with its boundary, or a null commit, or is refused. -/
def execGo (src : Fin 30) (g : Fin 8) (v : BitVec 32) (s : State) : Host.Outcome State Fault Refusal :=
  .next (s.onDev fun d => d.regCommand src.val (Reg.COMMIT_GRP_CTRL g.val) 4 (v.toNat ||| 0x10000))

/-- DISCARD (R80): A write of DISCARD clears the poison and releases the group's claims, except while ARMED. -/
def execDiscard (src : Fin 30) (g : Fin 8) (v : BitVec 32) (s : State) : Host.Outcome State Fault Refusal :=
  .next (s.onDev fun d => d.regCommand src.val (Reg.COMMIT_GRP_CTRL g.val) 4 (v.toNat ||| 0x20000))

/-- UNPOISON (R79): A write of UNPOISON clears the group's poison and keeps its state and claims. -/
def execUnpoison (src : Fin 30) (g : Fin 8) (v : BitVec 32) (s : State) : Host.Outcome State Fault Refusal :=
  .next (s.onDev fun d => d.regCommand src.val (Reg.COMMIT_GRP_CTRL g.val) 4 (v.toNat ||| 0x40000))

/-- COMMIT_ARM (R85): at the arm point the gate assigns the next CSN and sends ARM to every remote domain the group touches. -/
def execCommitArm (g : BitVec 8) (s : State) : Host.Outcome State Fault Refusal :=
  .next (s.onDev fun d => d.arm g.toNat)

/-- ARM_RECEIVE (R90): A remote domain receives ARM and sends ACK if it arrived at least 150 ns before its view of the apply point. -/
def execArmReceive (dom : Fin 32) (g : BitVec 8) (csn : BitVec 32) (s : State) : Host.Outcome State Fault Refusal :=
  .next (s.onDev fun d => d.armReceive dom.val g.toNat csn.toNat)

/-- ACK_RECEIVE (R90): the gate records the ACK of a remote domain for an ARMED commit. -/
def execAckReceive (g : BitVec 8) (dom : Fin 32) (csn : BitVec 32) (s : State) : Host.Outcome State Fault Refusal :=
  .next (s.onDev fun d => d.ackReceive g.toNat dom.val csn.toNat)

/-- COMMIT_APPLY (R89): at the apply point the gate swaps shadow and active copies of every claimed register and sends SWAP, or the commit slips. -/
def execCommitApply (g : BitVec 8) (s : State) : Host.Outcome State Fault Refusal :=
  .next (s.onDev fun d => d.commitApply g.toNat)

/-- WITHDRAW (R88): an ARMED FURROW or FIELD commit that has not applied within 4 × ARM_LEAD is withdrawn to PENDING with an ABORT. -/
def execWithdraw (g : BitVec 8) (s : State) : Host.Outcome State Fault Refusal :=
  .next (s.onDev fun d => d.withdrawRow g.toNat)

/-- REMOTE_SWAP (R89): A remote domain that sent ACK swaps at the first edge at or after its own view of the apply point, keeping an undo copy. -/
def execRemoteSwap (dom : Fin 32) (g : BitVec 8) (s : State) : Host.Outcome State Fault Refusal :=
  .next (s.onDev fun d => d.remoteSwapDue dom.val g.toNat)

/-- SWAP_RECEIVE (R89): A remote domain receives SWAP and releases its undo copy. -/
def execSwapReceive (dom : Fin 32) (g : BitVec 8) (csn : BitVec 32) (s : State) : Host.Outcome State Fault Refusal :=
  .next (s.onDev fun d => d.swapReceive dom.val g.toNat csn.toNat)

/-- ABORT_RECEIVE (R91): A remote domain receives ABORT and restores its undo copy if it has swapped. -/
def execAbortReceive (dom : Fin 32) (g : BitVec 8) (csn : BitVec 32) (s : State) : Host.Outcome State Fault Refusal :=
  .next (s.onDev fun d => d.abortReceive dom.val g.toNat csn.toNat)

/-- SNAPSHOT_OPEN (R94): A write of COMMIT_SNAP_CTRL.OPEN issues the snapshot marker as a null IMMEDIATE commit touching every domain. -/
def execSnapshotOpen (src : Fin 30) (s : State) : Host.Outcome State Fault Refusal :=
  .next (s.onDev fun d => d.regCommand src.val Reg.COMMIT_SNAP_CTRL 4 1)

/-- SNAPSHOT_CLOSE (R95): A write of COMMIT_SNAP_CTRL.CLOSE closes the open or opening snapshot. -/
def execSnapshotClose (src : Fin 30) (s : State) : Host.Outcome State Fault Refusal :=
  .next (s.onDev fun d => d.regCommand src.val Reg.COMMIT_SNAP_CTRL 4 2)

/-- SNAP_TMO (R95): A snapshot open for COMMIT_SNAP_TMO µs closes itself and sets SNAP_TMO. -/
def execSnapTmo (s : State) : Host.Outcome State Fault Refusal :=
  .next (s.onDev fun d => d.snapTmo)

/-- SNAPSHOT_VIEW_READ (R94): A read through the snapshot view before READY stalls until READY, close or its bound, then returns. -/
def execSnapshotViewRead (src : Fin 30) (a : BitVec 48) (wide : Bool) (s : State) : Host.Outcome State Fault Refusal :=
  .next (s.onDev fun d => d.snapViewRead src.val a.toNat (if wide then 8 else 4))

/-- HOST_WRITE_ABANDON (R99): A host write not performed within HOST_RD_TMO µs is abandoned, counted in HOST_NT and later accesses stop waiting. -/
def execHostWriteAbandon (s : State) : Host.Outcome State Fault Refusal :=
  .next (s.onDev fun d => d.hostWriteAbandon)

end Sys2Proof.Machine
end

