-- ==== Sys2Proof/Machine/ExecCore.lean ====
section
/-! DEFINITION. Meanings of the Alolo instructions and of what happens to a core (09, 10, 11): an instruction of core `c` runs if it is the one at that core's PC (log 31). -/
namespace Sys2Proof.Machine

/-- MOV (R271): instruction MOV copies the source to the destination. -/
def execOpMov (c : Fin 25) (s : State) : Host.Outcome State Fault Refusal :=
  .next (s.onDev fun d => d.opRow c.val 0x10)

/-- ZEXT (R271): instruction ZEXT copies a narrower source zero-extended. -/
def execOpZext (c : Fin 25) (s : State) : Host.Outcome State Fault Refusal :=
  .next (s.onDev fun d => d.opRow c.val 0x11)

/-- SEXT (R271): instruction SEXT copies a narrower source sign-extended. -/
def execOpSext (c : Fin 25) (s : State) : Host.Outcome State Fault Refusal :=
  .next (s.onDev fun d => d.opRow c.val 0x12)

/-- LEA (R271): instruction LEA writes the effective address of its source. -/
def execOpLea (c : Fin 25) (s : State) : Host.Outcome State Fault Refusal :=
  .next (s.onDev fun d => d.opRow c.val 0x13)

/-- PUSH (R271): instruction PUSH decrements P7 and stores the source. -/
def execOpPush (c : Fin 25) (s : State) : Host.Outcome State Fault Refusal :=
  .next (s.onDev fun d => d.opRow c.val 0x14)

/-- POP (R271): instruction POP loads from P7, increments it and writes the destination. -/
def execOpPop (c : Fin 25) (s : State) : Host.Outcome State Fault Refusal :=
  .next (s.onDev fun d => d.opRow c.val 0x15)

/-- XCHG (R271): instruction XCHG exchanges two operands. -/
def execOpXchg (c : Fin 25) (s : State) : Host.Outcome State Fault Refusal :=
  .next (s.onDev fun d => d.opRow c.val 0x16)

/-- ADD (R272): instruction ADD writes a + b. -/
def execOpAdd (c : Fin 25) (s : State) : Host.Outcome State Fault Refusal :=
  .next (s.onDev fun d => d.opRow c.val 0x20)

/-- SUB (R272): instruction SUB writes a − b. -/
def execOpSub (c : Fin 25) (s : State) : Host.Outcome State Fault Refusal :=
  .next (s.onDev fun d => d.opRow c.val 0x21)

/-- ADDX (R274): instruction ADDX adds with carry in and carry out. -/
def execOpAddx (c : Fin 25) (s : State) : Host.Outcome State Fault Refusal :=
  .next (s.onDev fun d => d.opRow c.val 0x22)

/-- SUBX (R274): instruction SUBX subtracts with borrow in and borrow out. -/
def execOpSubx (c : Fin 25) (s : State) : Host.Outcome State Fault Refusal :=
  .next (s.onDev fun d => d.opRow c.val 0x23)

/-- NEG (R272): instruction NEG negates. -/
def execOpNeg (c : Fin 25) (s : State) : Host.Outcome State Fault Refusal :=
  .next (s.onDev fun d => d.opRow c.val 0x24)

/-- MUL (R272): instruction MUL writes the low half of a product. -/
def execOpMul (c : Fin 25) (s : State) : Host.Outcome State Fault Refusal :=
  .next (s.onDev fun d => d.opRow c.val 0x25)

/-- MIN (R272): instruction MIN writes the smaller operand, signed or unsigned. -/
def execOpMin (c : Fin 25) (s : State) : Host.Outcome State Fault Refusal :=
  .next (s.onDev fun d => d.opRow c.val 0x26)

/-- MAX (R272): instruction MAX writes the larger operand, signed or unsigned. -/
def execOpMax (c : Fin 25) (s : State) : Host.Outcome State Fault Refusal :=
  .next (s.onDev fun d => d.opRow c.val 0x27)

/-- AND (R272): instruction AND writes a and b. -/
def execOpAnd (c : Fin 25) (s : State) : Host.Outcome State Fault Refusal :=
  .next (s.onDev fun d => d.opRow c.val 0x28)

/-- OR (R272): instruction OR writes a or b. -/
def execOpOr (c : Fin 25) (s : State) : Host.Outcome State Fault Refusal :=
  .next (s.onDev fun d => d.opRow c.val 0x29)

/-- XOR (R272): instruction XOR writes a xor b. -/
def execOpXor (c : Fin 25) (s : State) : Host.Outcome State Fault Refusal :=
  .next (s.onDev fun d => d.opRow c.val 0x2A)

/-- BIC (R272): instruction BIC writes a and not b. -/
def execOpBic (c : Fin 25) (s : State) : Host.Outcome State Fault Refusal :=
  .next (s.onDev fun d => d.opRow c.val 0x2B)

/-- NOT (R272): instruction NOT writes the complement. -/
def execOpNot (c : Fin 25) (s : State) : Host.Outcome State Fault Refusal :=
  .next (s.onDev fun d => d.opRow c.val 0x2C)

/-- SHL (R273): instruction SHL shifts left. -/
def execOpShl (c : Fin 25) (s : State) : Host.Outcome State Fault Refusal :=
  .next (s.onDev fun d => d.opRow c.val 0x30)

/-- SHR (R273): instruction SHR shifts right logically. -/
def execOpShr (c : Fin 25) (s : State) : Host.Outcome State Fault Refusal :=
  .next (s.onDev fun d => d.opRow c.val 0x31)

/-- SAR (R273): instruction SAR shifts right arithmetically. -/
def execOpSar (c : Fin 25) (s : State) : Host.Outcome State Fault Refusal :=
  .next (s.onDev fun d => d.opRow c.val 0x32)

/-- ROL (R273): instruction ROL rotates left. -/
def execOpRol (c : Fin 25) (s : State) : Host.Outcome State Fault Refusal :=
  .next (s.onDev fun d => d.opRow c.val 0x33)

/-- ROR (R273): instruction ROR rotates right. -/
def execOpRor (c : Fin 25) (s : State) : Host.Outcome State Fault Refusal :=
  .next (s.onDev fun d => d.opRow c.val 0x34)

/-- SET (R275): instruction SET writes 1 if the condition holds, else 0. -/
def execOpSet (c : Fin 25) (s : State) : Host.Outcome State Fault Refusal :=
  .next (s.onDev fun d => d.opRow c.val 0x0E)

/-- CB (R275): instruction CB compares two operands and branches with a delay slot when the condition holds. -/
def execOpCb (c : Fin 25) (s : State) : Host.Outcome State Fault Refusal :=
  .next (s.onDev fun d => d.opRow c.val 0x0D)

/-- J (R276): instruction J jumps to an effective address. -/
def execOpJ (c : Fin 25) (s : State) : Host.Outcome State Fault Refusal :=
  .next (s.onDev fun d => d.opRow c.val 0x08)

/-- JSR (R276): instruction JSR pushes the return address and jumps. -/
def execOpJsr (c : Fin 25) (s : State) : Host.Outcome State Fault Refusal :=
  .next (s.onDev fun d => d.opRow c.val 0x09)

/-- JR (R276): instruction JR jumps to an operand value. -/
def execOpJr (c : Fin 25) (s : State) : Host.Outcome State Fault Refusal :=
  .next (s.onDev fun d => d.opRow c.val 0x0A)

/-- RTS (R276): instruction RTS pops the return address and jumps to it. -/
def execOpRts (c : Fin 25) (s : State) : Host.Outcome State Fault Refusal :=
  .next (s.onDev fun d => d.opRow c.val 0x0B)

/-- RTI (R334): instruction RTI optionally completes the stack-top source and restores EPC and PSW from the stack. -/
def execOpRti (c : Fin 25) (s : State) : Host.Outcome State Fault Refusal :=
  .next (s.onDev fun d => d.opRow c.val 0x0C)

/-- NOP (R278): instruction NOP does nothing. -/
def execOpNop (c : Fin 25) (s : State) : Host.Outcome State Fault Refusal :=
  .next (s.onDev fun d => d.opRow c.val 0x01)

/-- FENCE (R98): instruction FENCE completes once every earlier write is performed and read returned. -/
def execOpFence (c : Fin 25) (s : State) : Host.Outcome State Fault Refusal :=
  .next (s.onDev fun d => d.opRow c.val 0x02)

/-- IFLUSH (R279): instruction IFLUSH invalidates the instruction cache or the lines of a range. -/
def execOpIflush (c : Fin 25) (s : State) : Host.Outcome State Fault Refusal :=
  .next (s.onDev fun d => d.opRow c.val 0x03)

/-- WAIT (R280): instruction WAIT puts the core into the WAIT state unless IE is 0 or an interrupt is presented. -/
def execOpWait (c : Fin 25) (s : State) : Host.Outcome State Fault Refusal :=
  .next (s.onDev fun d => d.opRow c.val 0x04)

/-- BRK (R278): instruction BRK halts the core under DBG_EN or raises BREAK. -/
def execOpBrk (c : Fin 25) (s : State) : Host.Outcome State Fault Refusal :=
  .next (s.onDev fun d => d.opRow c.val 0x05)

/-- TRAP (R278): instruction TRAP enters the exception vector of its trap number. -/
def execOpTrap (c : Fin 25) (s : State) : Host.Outcome State Fault Refusal :=
  .next (s.onDev fun d => d.opRow c.val 0x06)

/-- EOI (R278): instruction EOI writes a source to the completion register. -/
def execOpEoi (c : Fin 25) (s : State) : Host.Outcome State Fault Refusal :=
  .next (s.onDev fun d => d.opRow c.val 0x07)

/-- MULD (R281): long operation MULD writes a double-width product. -/
def execOpMuld (c : Fin 25) (s : State) : Host.Outcome State Fault Refusal :=
  .next (s.onDev fun d => d.opRow c.val 0x40)

/-- MAC (R285): long operation MAC adds a product to a 64-bit accumulator. -/
def execOpMac (c : Fin 25) (s : State) : Host.Outcome State Fault Refusal :=
  .next (s.onDev fun d => d.opRow c.val 0x41)

/-- DIV (R282): long operation DIV divides signed, truncating toward zero. -/
def execOpDiv (c : Fin 25) (s : State) : Host.Outcome State Fault Refusal :=
  .next (s.onDev fun d => d.opRow c.val 0x42)

/-- DIVU (R281): long operation DIVU divides unsigned. -/
def execOpDivu (c : Fin 25) (s : State) : Host.Outcome State Fault Refusal :=
  .next (s.onDev fun d => d.opRow c.val 0x43)

/-- REM (R282): long operation REM gives the signed remainder. -/
def execOpRemS (c : Fin 25) (s : State) : Host.Outcome State Fault Refusal :=
  .next (s.onDev fun d => d.opRow c.val 0x44)

/-- REMU (R281): long operation REMU gives the unsigned remainder. -/
def execOpRemu (c : Fin 25) (s : State) : Host.Outcome State Fault Refusal :=
  .next (s.onDev fun d => d.opRow c.val 0x45)

/-- SQRT (R281): long operation SQRT writes the floor square root. -/
def execOpSqrt (c : Fin 25) (s : State) : Host.Outcome State Fault Refusal :=
  .next (s.onDev fun d => d.opRow c.val 0x46)

/-- CRC32C (R284): long operation CRC32C updates a CRC with the bytes of its source. -/
def execOpCrc32c (c : Fin 25) (s : State) : Host.Outcome State Fault Refusal :=
  .next (s.onDev fun d => d.opRow c.val 0x47)

/-- LONG_OPERATION_COMPLETE (R283): A pending long operation completes and writes its whole destination. -/
def execLongOperationComplete (c : Fin 25) (n : Fin 4) (s : State) : Host.Outcome State Fault Refusal :=
  .next (s.onDev fun d => d.longComplete c.val n.val)

/-- MOVS (R287): block instruction MOVS copies BRC elements from BRS to BRD. -/
def execOpMovs (c : Fin 25) (s : State) : Host.Outcome State Fault Refusal :=
  .next (s.onDev fun d => d.opRow c.val 0x50)

/-- FILS (R287): block instruction FILS fills BRC elements with BRV. -/
def execOpFils (c : Fin 25) (s : State) : Host.Outcome State Fault Refusal :=
  .next (s.onDev fun d => d.opRow c.val 0x51)

/-- CMPS (R287): block instruction CMPS compares elements until one differs. -/
def execOpCmps (c : Fin 25) (s : State) : Host.Outcome State Fault Refusal :=
  .next (s.onDev fun d => d.opRow c.val 0x52)

/-- SCNS (R287): block instruction SCNS scans for an element equal or unequal to BRV. -/
def execOpScns (c : Fin 25) (s : State) : Host.Outcome State Fault Refusal :=
  .next (s.onDev fun d => d.opRow c.val 0x53)

/-- SUMS (R287): block instruction SUMS accumulates elements into BRV. -/
def execOpSums (c : Fin 25) (s : State) : Host.Outcome State Fault Refusal :=
  .next (s.onDev fun d => d.opRow c.val 0x54)

/-- RESERVED_OPCODE (R267): an instruction with a reserved opcode or invalid field raises ILLEGAL. -/
def execReservedOpcode (c : Fin 25) (s : State) : Host.Outcome State Fault Refusal :=
  .next (s.onDev fun d => d.reservedOp c.val)

/-- STORE_BUFFER_DRAIN (R304): A released store-buffer entry drains to its target and is performed, or is discarded for want of a target with WERR
set. -/
def execStoreBufferDrain (c : Fin 25) (n : Fin 8) (s : State) : Host.Outcome State Fault Refusal :=
  .next (s.onDev fun d => d.sbDrain c.val n.val)

/-- FAR_READ_RETURN (R299): the data of a far read returns and the waiting instruction proceeds. -/
def execFarReadReturn (c : Fin 25) (s : State) : Host.Outcome State Fault Refusal :=
  .next (s.onDev fun d => d.farReturn c.val)

/-- ICACHE_LINE_FILL (R294): an instruction-cache miss fills its 64-byte line and fetch resumes. -/
def execIcacheLineFill (c : Fin 25) (s : State) : Host.Outcome State Fault Refusal :=
  .next (s.onDev fun d => d.icacheFill c.val)

/-- PP_OUT (R257): A private-port write to PP_OUT sets the latch of every owned pin of the bank. -/
def execPpOut (c : Fin 24) (bank : Fin 8) (v : BitVec 32) (s : State) : Host.Outcome State Fault Refusal :=
  .next (s.onDev fun d => d.ppOut c.val bank.val v.toNat)

/-- PP_SET (R257): A private-port write to PP_SET sets latches of owned pins. -/
def execPpSet (c : Fin 24) (bank : Fin 8) (v : BitVec 32) (s : State) : Host.Outcome State Fault Refusal :=
  .next (s.onDev fun d => d.ppSetBits c.val bank.val v.toNat)

/-- PP_CLR (R257): A private-port write to PP_CLR clears latches of owned pins. -/
def execPpClr (c : Fin 24) (bank : Fin 8) (v : BitVec 32) (s : State) : Host.Outcome State Fault Refusal :=
  .next (s.onDev fun d => d.ppClrBits c.val bank.val v.toNat)

/-- PP_TGL (R257): A private-port write to PP_TGL inverts latches of owned pins. -/
def execPpTgl (c : Fin 24) (bank : Fin 8) (v : BitVec 32) (s : State) : Host.Outcome State Fault Refusal :=
  .next (s.onDev fun d => d.ppTglBits c.val bank.val v.toNat)

/-- CORE_TIMER_MATCH (R258): CORE_CYCLE steps to CORE_CMP and raises the core's timer source. -/
def execCoreTimerMatch (c : Fin 24) (s : State) : Host.Outcome State Fault Refusal :=
  .next (s.onDev fun d => d.timerMatch c.val)

/-- CORECTL_RESET (R260): A write of RESET performs a CORE reset and holds the core in RESET. -/
def execCorectlReset (src : Fin 30) (c : Fin 24) (s : State) : Host.Outcome State Fault Refusal :=
  .next (s.onDev fun d => d.coreActs c.val 1 src.val)

/-- RELEASE (R260): A write of RELEASE starts a core in RESET at CORECTL_BOOT. -/
def execRelease (src : Fin 30) (c : Fin 24) (s : State) : Host.Outcome State Fault Refusal :=
  .next (s.onDev fun d => d.coreActs c.val 2 src.val)

/-- HALT (R261): A write of HALT halts the core at the next instruction boundary. -/
def execHalt (src : Fin 30) (c : Fin 24) (s : State) : Host.Outcome State Fault Refusal :=
  .next (s.onDev fun d => d.coreActs c.val 4 src.val)

/-- RESUME (R261): A write of RESUME continues a halted core at CORECTL_DPC. -/
def execResume (src : Fin 30) (c : Fin 24) (s : State) : Host.Outcome State Fault Refusal :=
  .next (s.onDev fun d => d.coreActs c.val 8 src.val)

/-- STEP (R261): A write of STEP executes one instruction of a halted core and halts again. -/
def execStep (src : Fin 30) (c : Fin 24) (s : State) : Host.Outcome State Fault Refusal :=
  .next (s.onDev fun d => d.coreActs c.val 16 src.val)

/-- CORECTL_DREG_DATA (R261): an access to CORECTL_DREG_DATA reads or writes the selected register of a halted core. -/
def execCorectlDregData (src : Fin 30) (c : Fin 24) (v : Option (BitVec 32)) (s : State) : Host.Outcome State Fault Refusal :=
  .next (s.onDev fun d => d.dregRow src.val c.val (v.map BitVec.toNat))

end Sys2Proof.Machine
end

