-- ==== Sys2Proof/Machine/ExecDrive.lean ====
section
/-! DEFINITION. Meanings of the drive port commands (08 R223 to R228). -/
namespace Sys2Proof.Machine

/-- DOWNLINK_TRANSMIT (R223): A port sends the downlink of the tick at tₙ + DRV_TXOFS, or drops it as FRAME_OVR. -/
def execDownlinkTransmit (p : Fin 64) (s : State) : Host.Outcome State Fault Refusal :=
  .next (s.onDev fun d => d.downlink p.val)

/-- UPLINK_RECEIVE (R217, R218, R225): code groups arrive at a drive port, the first at line time `start`; a good on-time uplink among them delivers axis
values, inputs and status and updates the link delay. Without a signal the port loses synchronisation. -/
def execUplinkReceive (p : Fin 64) (start : BitVec 64) (signal : Bool) (groups : List (BitVec 10)) (s : State) : Host.Outcome State Fault Refusal :=
  .next (s.onDev fun d => if signal then d.lineIn p.val start.toNat (groups.map BitVec.toNat) else d.lineLost p.val)

/-- UPLINK_MISS (R225): A tick's uplink window closes without a good uplink; DRV_MISS counts it and LOSS_N misses leave UP. -/
def execUplinkMiss (p : Fin 64) (s : State) : Host.Outcome State Fault Refusal :=
  .next (s.onDev fun d => d.uplinkMiss p.val)

/-- DRIVE_SYNC_ACQUIRED (R228): A drive port in SYNC acquires Clause 36 synchronisation and enters PROBE. -/
def execDriveSyncAcquired (p : Fin 64) (s : State) : Host.Outcome State Fault Refusal :=
  .next (s.onDev fun d => d.lineLock p.val)

/-- DRIVE_SYNC_LOSS (R228): A drive port loses Clause 36 synchronisation and returns to SYNC. -/
def execDriveSyncLoss (p : Fin 64) (s : State) : Host.Outcome State Fault Refusal :=
  .next (s.onDev fun d => d.lineLost p.val)

end Sys2Proof.Machine
end

