-- ==== Sys2Proof/Machine/ExecFabric.lean ====
section
/-! DEFINITION. Meanings of the Trellis cells and link events (20 R502 to R522). -/
namespace Sys2Proof.Machine

/-- TRELLIS_LANE_LOCK (R502): A Trellis port in TRAIN gains block lock and alignment on all lanes and enters HELLO. -/
def execTrellisLaneLock (p : Fin 8) (s : State) : Host.Outcome State Fault Refusal :=
  .next (s.onDev fun d => d.trlLock p.val)

/-- PORT_DOWN (R502): A Trellis port loses lock or sees no good cell for 3 µs and returns to TRAIN. -/
def execPortDown (p : Fin 8) (s : State) : Host.Outcome State Fault Refusal :=
  .next (s.onDev fun d => d.portDown p.val)

/-- HELLO (R508): A HELLO cell carries UID, id and root, and drives port UP and tree selection. -/
def execHello (h : CellHdr) (bs : List Byte) (s : State) : Host.Outcome State Fault Refusal :=
  .next (s.onDev fun d => d.hello h (nats bs))

/-- ROUTE (R510): A ROUTE cell updates the primary and alternate next hops of its destinations. -/
def execRoute (h : CellHdr) (bs : List Byte) (s : State) : Host.Outcome State Fault Refusal :=
  .next (s.onDev fun d => d.route h (nats bs))

/-- ID_REQ (R509): an ID_REQ reaches the root, which grants the preferred or lowest free id. -/
def execIdReq (h : CellHdr) (bs : List Byte) (s : State) : Host.Outcome State Fault Refusal :=
  .next (s.onDev fun d => d.idReq h (nats bs))

/-- ID_GRANT (R509): an ID_GRANT gives the requesting node its id. -/
def execIdGrant (h : CellHdr) (bs : List Byte) (s : State) : Host.Outcome State Fault Refusal :=
  .next (s.onDev fun d => d.idGrant h (nats bs))

/-- SYNC (R512): every 10 µs a FABRIC node sends SYNC to its parent, which answers. -/
def execSync (rx : Option CellHdr) (bs : List Byte) (s : State) : Host.Outcome State Fault Refusal :=
  .next (s.onDev fun d => d.sync (rx.map fun h => (h, (nats bs))))

/-- SYNC_REPLY (R512): A SYNC_REPLY gives the node its link delay and offset and it corrects its rate. -/
def execSyncReply (h : CellHdr) (bs : List Byte) (s : State) : Host.Outcome State Fault Refusal :=
  .next (s.onDev fun d => d.syncReply h (nats bs))

/-- LBEAM (R513): every TRL_LB_PERIOD an exporting node floods an LBEAM cell with its beam record. -/
def execLbeam (k : Fin 64) (s : State) : Host.Outcome State Fault Refusal :=
  .next (s.onDev fun d => d.lbeamSend k.val)

/-- LBEAM_RECEIVE (R514): A received LBEAM cell feeds LINE beams following that line beam. -/
def execLbeamReceive (h : CellHdr) (bs : List Byte) (s : State) : Host.Outcome State Fault Refusal :=
  .next (s.onDev fun d => d.lbeamIn h (nats bs))

/-- CELL_REPLAY (R506): an unacknowledged reliable cell older than 1 µs makes the sender resend all in order. -/
def execCellReplay (p : Fin 8) (s : State) : Host.Outcome State Fault Refusal :=
  .next (s.onDev fun d => d.cellReplay p.val)

/-- UNREACHABLE_HOLD_EXPIRY (R511): class 1 to 3 cells held 1 ms for an unreachable destination are sent, discarded or logged. -/
def execUnreachableHoldExpiry (s : State) : Host.Outcome State Fault Refusal :=
  .next (s.onDev fun d => d.holdExpiry)

/-- OFFER (R518): an OFFER arriving downstream is refused with a cause or reserved and answered ACCEPT. -/
def execOffer (h : CellHdr) (bs : List Byte) (s : State) : Host.Outcome State Fault Refusal :=
  .next (s.onDev fun d => d.offer h (nats bs))

/-- ACCEPT (R519): an ACCEPT makes the upstream node harvest the item with reason HANDOFF and send DONE. -/
def execAccept (h : CellHdr) (bs : List Byte) (s : State) : Host.Outcome State Fault Refusal :=
  .next (s.onDev fun d => d.hoAccept h (nats bs))

/-- HANDOFF_REFUSE (R519): A handoff REFUSE returns the item to LIVE and raises HANDOFF_FAIL. -/
def execHandoffRefuse (h : CellHdr) (bs : List Byte) (s : State) : Host.Outcome State Fault Refusal :=
  .next (s.onDev fun d => d.hoRefuse h (nats bs))

/-- HANDOFF_DONE (R519): A DONE makes the downstream node sow the reserved record. -/
def execHandoffDone (h : CellHdr) (bs : List Byte) (s : State) : Host.Outcome State Fault Refusal :=
  .next (s.onDev fun d => d.hoDone h (nats bs))

/-- HANDOFF_ABORT (R519): A handoff ABORT releases the downstream reservation. -/
def execHandoffAbort (h : CellHdr) (bs : List Byte) (s : State) : Host.Outcome State Fault Refusal :=
  .next (s.onDev fun d => d.hoAbort h (nats bs))

/-- TRL_HO_TMO (R519): an OFFER unanswered for TRL_HO_TMO µs is aborted and the item returns to LIVE. -/
def execTrlHoTmo (s : State) : Host.Outcome State Fault Refusal :=
  .next (s.onDev fun d => d.hoTmo)

/-- HO_LOST (R519): A reservation with neither DONE nor ABORT for TRL_HO_HOLD ms is released and HANDOFF_LOST raised. -/
def execHoLost (s : State) : Host.Outcome State Fault Refusal :=
  .next (s.onDev fun d => d.hoLost)

/-- WRITE (R516): A WRITE cell writes a 64-byte unit through an export window, or is discarded and counted. -/
def execWrite (h : CellHdr) (bs : List Byte) (s : State) : Host.Outcome State Fault Refusal :=
  .next (s.onDev fun d => d.peerWrite h (nats bs))

/-- RD_REQ (R516): an RD_REQ reads through an export window and answers with RD_RESP. -/
def execRdReq (h : CellHdr) (bs : List Byte) (s : State) : Host.Outcome State Fault Refusal :=
  .next (s.onDev fun d => d.peerRead h (nats bs))

/-- RD_RESP (R516): an RD_RESP completes a remote export read. -/
def execRdResp (h : CellHdr) (bs : List Byte) (s : State) : Host.Outcome State Fault Refusal :=
  .next (s.onDev fun d => d.readResp h (nats bs))

/-- EXPORT_READ_TIMEOUT (R516): an export read without response for 100 µs completes as DENIED. -/
def execExportReadTimeout (s : State) : Host.Outcome State Fault Refusal :=
  .next (s.onDev fun d => d.exportTmo)

/-- REG_RD (R505): A REG_RD reads the ID block and is answered with REG_RESP. -/
def execRegRd (h : CellHdr) (bs : List Byte) (s : State) : Host.Outcome State Fault Refusal :=
  .next (s.onDev fun d => d.idRead h (nats bs))

/-- REG_RESP (R505): A REG_RESP returns the value of a remote ID-block read. -/
def execRegResp (h : CellHdr) (bs : List Byte) (s : State) : Host.Outcome State Fault Refusal :=
  .next (s.onDev fun d => d.idResp h (nats bs))

/-- PREPARE (R521): A peer receiving PREPARE issues GO on its group and answers READY or REFUSE. -/
def execPrepare (h : CellHdr) (bs : List Byte) (s : State) : Host.Outcome State Fault Refusal :=
  .next (s.onDev fun d => d.prepare h (nats bs))

/-- READY (R520): A READY from a peer is collected by the initiator. -/
def execReady (h : CellHdr) (bs : List Byte) (s : State) : Host.Outcome State Fault Refusal :=
  .next (s.onDev fun d => d.lcReady h (nats bs))

/-- LC_REFUSE (R520): A line-commit REFUSE makes the initiator abort the commit everywhere. -/
def execLcRefuse (h : CellHdr) (bs : List Byte) (s : State) : Host.Outcome State Fault Refusal :=
  .next (s.onDev fun d => d.lcRefuse h (nats bs))

/-- CONFIRM_POINT (R520): at the confirm point the initiator sends CONFIRM or ABORT to every peer. -/
def execConfirmPoint (g : Fin 8) (s : State) : Host.Outcome State Fault Refusal :=
  .next (s.onDev fun d => d.confirmPoint g.val)

/-- CONFIRM (R521): A CONFIRM arriving 300 ns ahead lets the peer group apply. -/
def execConfirm (h : CellHdr) (bs : List Byte) (s : State) : Host.Outcome State Fault Refusal :=
  .next (s.onDev fun d => d.lcConfirm h (nats bs))

/-- LC_ABORT (R521): A line-commit ABORT returns the peer group to OPEN with RESULT FAILED. -/
def execLcAbort (h : CellHdr) (bs : List Byte) (s : State) : Host.Outcome State Fault Refusal :=
  .next (s.onDev fun d => d.lcAbort h (nats bs))

/-- LC_SPLIT (R521): A READY group without CONFIRM or ABORT by the apply point fails and raises LC_SPLIT. -/
def execLcSplit (g : Fin 8) (s : State) : Host.Outcome State Fault Refusal :=
  .next (s.onDev fun d => d.lcSplit g.val)

/-- LC_RESULT (R520): A RESULT cell reports a peer's CSN and outcome to the initiator. -/
def execLcResult (h : CellHdr) (bs : List Byte) (s : State) : Host.Outcome State Fault Refusal :=
  .next (s.onDev fun d => d.lcResult h (nats bs))

/-- ALARM (R522): an ALARM cell is forwarded or merged into the node's merge table. -/
def execAlarm (h : CellHdr) (bs : List Byte) (s : State) : Host.Outcome State Fault Refusal :=
  .next (s.onDev fun d => d.alarmCell h (nats bs))

/-- ALARM_WINDOW_END (R522): A merge entry's 1 ms window ends and a SUMMARY cell with the totals is sent. -/
def execAlarmWindowEnd (s : State) : Host.Outcome State Fault Refusal :=
  .next (s.onDev fun d => d.almWindowEnd)

end Sys2Proof.Machine
end

