-- ==== Sys2Proof/Machine/ExecHostRow.lean ====
section
/-! DEFINITION. Meanings of the host interface commands (25 R617 to R627). -/
namespace Sys2Proof.Machine

/-- HOST_READ (R619): A host read arriving over PCIe or Ethernet completes with data or all ones. -/
def execHostRead (bar0 : Bool) (off : BitVec 32) (size : BitVec 13) (tag : BitVec 16) (s : State) : Host.Outcome State Fault Refusal :=
  .next (s.onDev fun d => d.pcieAccess false bar0 off.toNat size.toNat tag.toNat [])

/-- HOST_WRITE (R619): A host write arriving over PCIe or Ethernet is performed in order or discarded. -/
def execHostWrite (bar0 : Bool) (off : BitVec 32) (bs : List Byte) (s : State) : Host.Outcome State Fault Refusal :=
  .next (s.onDev fun d => d.pcieAccess true bar0 off.toNat bs.length 0 (nats bs))

/-- HOST_READ_TIMEOUT (R619): A host read unanswered within HOST_RD_TMO completes as no target. -/
def execHostReadTimeout (s : State) : Host.Outcome State Fault Refusal :=
  .next (s.onDev fun d => d.hostReadTimeout)

/-- PERST_N (R617): assertion of PERST_N resets the PCIe link and configuration space only. -/
def execPerstN (low : Bool) (s : State) : Host.Outcome State Fault Refusal :=
  .next (s.onDev fun d => d.perst low)

/-- HOST_VEC_EOI (R620): A write to HOST_VEC_EOI ends a vector's service and resends if still due. -/
def execHostVecEoi (src : Fin 30) (v : BitVec 32) (s : State) : Host.Outcome State Fault Refusal :=
  .next (s.onDev fun d => d.regCommand src.val Reg.HOST_VEC_EOI 4 v.toNat)

/-- MAILBOX_READ (R623): an Ethernet READ request is executed in order and answered with RESP. -/
def execMailboxRead (dst srcMac : BitVec 48) (ety : BitVec 16) (head data : List Byte) (s : State) : Host.Outcome State Fault Refusal :=
  .next (s.onDev fun d => d.mailbox false dst.toNat srcMac.toNat ety.toNat (nats head) (nats data))

/-- MAILBOX_WRITE (R623): an Ethernet WRITE request is executed in order and answered with RESP. -/
def execMailboxWrite (dst srcMac : BitVec 48) (ety : BitVec 16) (head data : List Byte) (s : State) : Host.Outcome State Fault Refusal :=
  .next (s.onDev fun d => d.mailbox true dst.toNat srcMac.toNat ety.toNat (nats head) (nats data))

/-- WAKE_FRAME (R625): A WAKE frame in CLOCHE wakes the device when enabled. -/
def execWakeFrame (dst srcMac : BitVec 48) (ety : BitVec 16) (head : List Byte) (s : State) : Host.Outcome State Fault Refusal :=
  .next (s.onDev fun d => d.wakeFrame dst.toNat srcMac.toNat ety.toNat (nats head))

/-- HOST_MDIO (R627): A write to HOST_MDIO starts a Clause 22 PHY management access. -/
def execHostMdio (src : Fin 30) (v : BitVec 32) (s : State) : Host.Outcome State Fault Refusal :=
  .next (s.onDev fun d => d.regCommand src.val Reg.HOST_MDIO 4 v.toNat)

end Sys2Proof.Machine
end

