-- ==== Sys2Proof/Machine/ExecIntc.lean ====
section
/-! DEFINITION. Meanings of the interrupt and event commands (12 R319 to R338). -/
namespace Sys2Proof.Machine

/-- INTC_RAISE (R319): A write to INTC_RAISE raises a pulse source or sets a level source's raise latch. -/
def execIntcRaise (src : Fin 30) (v : BitVec 32) (s : State) : Host.Outcome State Fault Refusal :=
  .next (s.onDev fun d => d.regCommand src.val Reg.INTC_RAISE 4 v.toNat)

/-- EVENT_FLIT (R338): A type 3 Stem flit raises or asserts an image-die source, or carries a station action message to the image die. -/
def execEventFlit (die : Fin 2) (k : Fin 512) (bs : List Byte) (s : State) : Host.Outcome State Fault Refusal :=
  .next (s.onDev fun d => d.eventFlit die.val k.val (nats bs))

/-- INTERRUPT_ENTRY (R330): A presented direct source is accepted and entered in 18 core cycles, pushing the priority stack and the PSW frame. -/
def execInterruptEntry (c : Fin 25) (k : Fin 512) (early : Bool) (s : State) : Host.Outcome State Fault Refusal :=
  .next (s.onDev fun d => d.interruptEntry c.val k.val early)

/-- CORE_CLAIM (R324): A read of CORE_CLAIM claims the source for the core, latching its payload, or returns 0x3FF. -/
def execCoreClaim (c : Fin 25) (s : State) : Host.Outcome State Fault Refusal :=
  .next (s.onDev fun d => d.claimRow c.val)

/-- CORE_EOI (R328): A write to CORE_EOI completes a source, popping the priority stack if it is on top. -/
def execCoreEoi (c : Fin 25) (k : Fin 512) (s : State) : Host.Outcome State Fault Refusal :=
  .next (s.onDev fun d => d.coreComplete c.val k.val)

/-- INTC_Q_RD (R337): the consumer writes an event queue's read count, ignored if it would overfill the ring. -/
def execIntcQRd (src : Fin 30) (q : Fin 16) (v : BitVec 32) (s : State) : Host.Outcome State Fault Refusal :=
  .next (s.onDev fun d => d.regCommand src.val (Reg.INTC_Q_RD q.val) 4 v.toNat)

end Sys2Proof.Machine
end

