-- ==== Sys2Proof/Machine/ExecItemCmd.lean ====
section
/-! DEFINITION. Meanings of the item commands and verdict messages (06 R171 to R192). -/
namespace Sys2Proof.Machine

/-- ITEM_DIRECT_WRITE (R171): A direct write to the item store acts on user words only; one touching bytes 0x00–0x27 is discarded and counted. -/
def execItemDirectWrite (src : Fin 30) (off : BitVec 22) (bs : List Byte) (s : State) : Host.Outcome State Fault Refusal :=
  .next (s.onDev fun d => d.codeWrite src.val (itemBase + off.toNat) (nats bs))

/-- ITEM_HRING_RD (R185): the consumer writes the harvest ring read count, ignored if it would overfill the ring. -/
def execItemHringRd (src : Fin 30) (v : BitVec 32) (s : State) : Host.Outcome State Fault Refusal :=
  .next (s.onDev fun d => d.regCommand src.val Reg.ITEM_HRING_RD 4 v.toNat)

/-- VERDICT_OR (R187): A verdict message of kind OR for a current item sets its BITS. -/
def execVerdictOr (slot : BitVec 16) (id : BitVec 32) (m : BitVec 64) (s : State) : Host.Outcome State Fault Refusal :=
  .next (s.onDev fun d => d.verdictOr slot.toNat id.toNat m.toNat)

/-- VERDICT_EXPECT (R187): an EXPECT message moves the open expectation's deadline to LT_LAST + ITEM_VERDICT_DL, or counts as late. -/
def execVerdictExpect (slot : BitVec 16) (id : BitVec 32) (key last : BitVec 64) (s : State) : Host.Outcome State Fault Refusal :=
  .next (s.onDev fun d => d.verdictExpect slot.toNat id.toNat key.toNat last.toNat)

/-- VERDICT_DONE (R187): A DONE message for an open expectation sets BITS, closes it and decrements VPEND, or is discarded as late. -/
def execVerdictDone (slot : BitVec 16) (id : BitVec 32) (m key : BitVec 64) (s : State) : Host.Outcome State Fault Refusal :=
  .next (s.onDev fun d => d.verdictDone slot.toNat id.toNat m.toNat key.toNat)

/-- PRINT_ACK (R187): A PRINT_ACK message closes the print acknowledgement keyed by slot and swath line time. -/
def execPrintAck (slot : BitVec 16) (id : BitVec 32) (key : BitVec 64) (s : State) : Host.Outcome State Fault Refusal :=
  .next (s.onDev fun d => d.printAck slot.toNat id.toNat key.toNat)

/-- PRINT_END (R187): A PRINT_END message clears PRINTING. -/
def execPrintEnd (slot : BitVec 16) (id : BitVec 32) (s : State) : Host.Outcome State Fault Refusal :=
  .next (s.onDev fun d => d.printEnd slot.toNat id.toNat)

/-- VERDICT_DEADLINE (R187): an expectation's deadline passes; NO_VERDICT is set, the expectation closes and VPEND decrements. -/
def execVerdictDeadline (s : State) : Host.Outcome State Fault Refusal :=
  .next (s.onDev fun d => d.deadline false)

/-- PRINT_ACK_DEADLINE (R188): A print acknowledgement still open at its deadline sets PRINT_FAULT and clears PRINTING. -/
def execPrintAckDeadline (s : State) : Host.Outcome State Fault Refusal :=
  .next (s.onDev fun d => d.deadline true)

/-- ITEM_CMD_NOP (R191): command NOP does nothing. -/
def execItemCmdNop (src : Fin 30) (ch : Fin 8) (slot : BitVec 16) (s : State) : Host.Outcome State Fault Refusal :=
  .next (s.onDev fun d => d.regCommand src.val (Reg.ITEM_CMD ch.val) 4 (slot.toNat * 65536))

/-- ITEM_CMD_SOW (R191): command SOW sows the record image of the channel buffer and returns its slot. -/
def execItemCmdSow (src : Fin 30) (ch : Fin 8) (autoId : Bool) (s : State) : Host.Outcome State Fault Refusal :=
  .next (s.onDev fun d => d.regCommand src.val (Reg.ITEM_CMD ch.val) 4 (1 + 512 * b2n autoId))

/-- ITEM_CMD_READ (R191): command READ copies a slot's record into the buffer as it stood at one beam cycle. -/
def execItemCmdRead (src : Fin 30) (ch : Fin 8) (slot : BitVec 16) (s : State) : Host.Outcome State Fault Refusal :=
  .next (s.onDev fun d => d.regCommand src.val (Reg.ITEM_CMD ch.val) 4 (2 + slot.toNat * 65536))

/-- ITEM_CMD_WRITE (R191): command WRITE replaces the record words selected by ARG. -/
def execItemCmdWrite (src : Fin 30) (ch : Fin 8) (slot : BitVec 16) (s : State) : Host.Outcome State Fault Refusal :=
  .next (s.onDev fun d => d.regCommand src.val (Reg.ITEM_CMD ch.val) 4 (3 + slot.toNat * 65536))

/-- SETV (R191): command SETV sets the verdict bits in buffer words 6–7. -/
def execSetv (src : Fin 30) (ch : Fin 8) (slot : BitVec 16) (s : State) : Host.Outcome State Fault Refusal :=
  .next (s.onDev fun d => d.regCommand src.val (Reg.ITEM_CMD ch.val) 4 (4 + slot.toNat * 65536))

/-- CLRV (R191): command CLRV clears the given verdict bits and re-applies the summary rule. -/
def execClrv (src : Fin 30) (ch : Fin 8) (slot : BitVec 16) (s : State) : Host.Outcome State Fault Refusal :=
  .next (s.onDev fun d => d.regCommand src.val (Reg.ITEM_CMD ch.val) 4 (5 + slot.toNat * 65536))

/-- ITEM_CMD_HARVEST (R191): command HARVEST harvests the item with reason PROGRAM, with or without a ring copy. -/
def execItemCmdHarvest (src : Fin 30) (ch : Fin 8) (slot : BitVec 16) (noRing : Bool) (s : State) : Host.Outcome State Fault Refusal :=
  .next (s.onDev fun d => d.regCommand src.val (Reg.ITEM_CMD ch.val) 4 (6 + 1024 * b2n noRing + slot.toNat * 65536))

/-- MOVE (R191): command MOVE sets POS and LEN from the buffer and checks for TOUCH. -/
def execMove (src : Fin 30) (ch : Fin 8) (slot : BitVec 16) (s : State) : Host.Outcome State Fault Refusal :=
  .next (s.onDev fun d => d.regCommand src.val (Reg.ITEM_CMD ch.val) 4 (7 + slot.toNat * 65536))

/-- FLUSH_BEAM (R191): command FLUSH_BEAM harvests every item of one beam with reason FLUSH. -/
def execFlushBeam (src : Fin 30) (ch : Fin 8) (slot : BitVec 16) (s : State) : Host.Outcome State Fault Refusal :=
  .next (s.onDev fun d => d.regCommand src.val (Reg.ITEM_CMD ch.val) 4 (8 + slot.toNat * 65536))

/-- ITEM_CMD_RESERVED (R191): A reserved command code does nothing and RESULT reads BAD_ARG. -/
def execItemCmdReserved (src : Fin 30) (ch : Fin 8) (code : Fin 7) (slot : BitVec 16) (s : State) : Host.Outcome State Fault Refusal :=
  .next (s.onDev fun d => d.regCommand src.val (Reg.ITEM_CMD ch.val) 4 (9 + code.val + slot.toNat * 65536))

/-- ITEM_FLUSH (R184): A write of ITEM_CTRL.FLUSH harvests every item with reason PROGRAM. -/
def execItemFlush (src : Fin 30) (v : BitVec 32) (s : State) : Host.Outcome State Fault Refusal :=
  .next (s.onDev fun d => d.regCommand src.val Reg.ITEM_CTRL 4 (v.toNat ||| 2))

end Sys2Proof.Machine
end

