-- ==== Sys2Proof/Machine/ExecLogRow.lean ====
section
/-! DEFINITION. Meanings of the log, trace and alarm commands (23 R579 to R589). -/
namespace Sys2Proof.Machine

/-- LOG_PUT (R584): A write to LOG_PUT accepts a log record with the next SEQ into the log tail. -/
def execLogPut (src : Fin 30) (v : BitVec 32) (s : State) : Host.Outcome State Fault Refusal :=
  .next (s.onDev fun d => d.regCommand src.val Reg.LOG_PUT 4 v.toNat)

/-- LOG_ALM_RAISE (R579): A write to LOG_ALM_RAISE raises a software alarm. -/
def execLogAlmRaise (src : Fin 30) (v : BitVec 32) (s : State) : Host.Outcome State Fault Refusal :=
  .next (s.onDev fun d => d.regCommand src.val Reg.LOG_ALM_RAISE 4 v.toNat)

/-- ALARM_REPORT (R581): an alarm report reaches the merge table and is merged or opens an entry. -/
def execAlarmReport (subject : BitVec 12) (cls : BitVec 8) (bitmap at0 : BitVec 64) (detail : BitVec 32) (reporter : BitVec 12) (held : Bool) (s : State) : Host.Outcome State Fault Refusal :=
  .next (s.onDev fun d => d.almReport subject.toNat cls.toNat 1 bitmap.toNat at0.toNat detail.toNat reporter.toNat held)

/-- ALARM_ENTRY_WRITE (R582): A pending alarm entry is written to a path when its credits and hold allow. -/
def execAlarmEntryWrite (p : Fin 3) (n : Fin 1024) (s : State) : Host.Outcome State Fault Refusal :=
  .next (s.onDev fun d => d.almPathWrite p.val n.val)

/-- LOG_ALM_ACK (R583): A write to LOG_ALM_ACK frees an alarm entry written everywhere. -/
def execLogAlmAck (src : Fin 30) (v : BitVec 32) (s : State) : Host.Outcome State Fault Refusal :=
  .next (s.onDev fun d => d.regCommand src.val Reg.LOG_ALM_ACK 4 v.toNat)

/-- AUTO_ACK (R583): an entry quiet for 10 × LOG_ALM_HOLD after being written everywhere frees itself. -/
def execAutoAck (n : Fin 1024) (s : State) : Host.Outcome State Fault Refusal :=
  .next (s.onDev fun d => d.autoAck n.val)

/-- LOG_TAIL_DRAIN (R584): the log tail drains records in order into the log ring when it has a target. -/
def execLogTailDrain (p : Fin 3) (s : State) : Host.Outcome State Fault Refusal :=
  .next (s.onDev fun d => d.tailDrain p.val)

/-- LOG_RING_RD (R585): A write to LOG_RING_RD advances the read count forward only. -/
def execLogRingRd (src : Fin 30) (v : BitVec 32) (s : State) : Host.Outcome State Fault Refusal :=
  .next (s.onDev fun d => d.regCommand src.val Reg.LOG_RING_RD 4 v.toNat)

/-- LOG_TRC_PUT (R587): A write to LOG_TRC_PUT offers a trace record, emitted every 2^SHIFT offers. -/
def execLogTrcPut (src : Fin 30) (t : Fin 64) (v : BitVec 64) (s : State) : Host.Outcome State Fault Refusal :=
  .next (s.onDev fun d => d.regCommand src.val (Reg.LOG_TRC_PUT t.val) 8 v.toNat)

/-- CREDIT_BOUNDARY (R589): at each 1 ms boundary path credits renew and trace sampling shifts adjust. -/
def execCreditBoundary (s : State) : Host.Outcome State Fault Refusal :=
  .next (s.onDev fun d => d.creditBoundary)

end Sys2Proof.Machine
end

