-- ==== Sys2Proof/Machine/ExecMemory.lean ====
section
/-! DEFINITION. Meanings of the memory controller and DMA commands (19 R486 to R496). -/
namespace Sys2Proof.Machine

/-- MEMC_TRAIN (R486): A write of MEMC_CTRL.TRAIN, or a reset, starts DRAM training. -/
def execMemcTrain (src : Fin 30) (s : State) : Host.Outcome State Fault Refusal :=
  .next (s.onDev fun d => d.regCommand src.val Reg.MEMC_CTRL 4 1)

/-- TRAINED (R486): DRAM training completes and DRAM has a target again. -/
def execTrained (s : State) : Host.Outcome State Fault Refusal :=
  .next (s.onDev fun d => d.trained)

/-- SCRUB (R488): the background scrub reads lines and writes back corrections. -/
def execScrub (line : BitVec 31) (found : Fin 3) (s : State) : Host.Outcome State Fault Refusal :=
  .next (s.onDev fun d => d.scrub line.toNat found.val)

/-- DMA_CH_WR (R490): the producer writes a channel's descriptor write count, ignored if it would overfill. -/
def execDmaChWr (src : Fin 30) (e : Fin 3) (c : Fin 16) (v : BitVec 32) (s : State) : Host.Outcome State Fault Refusal :=
  .next (s.onDev fun d => d.regCommand src.val (dmaCh e.val c.val 0x10) 4 v.toNat)

/-- DMA_COPY (R492): descriptor COPY moves LEN bytes in 64-byte bursts. -/
def execDmaCopy (e : Fin 3) (ue : Option (BitVec 31)) (s : State) : Host.Outcome State Fault Refusal :=
  .next (s.onDev fun d => d.dmaDescRun e.val 0 (ue.map BitVec.toNat))

/-- DMA_FILL (R492): descriptor FILL writes a repeated 8-byte pattern. -/
def execDmaFill (e : Fin 3) (s : State) : Host.Outcome State Fault Refusal :=
  .next (s.onDev fun d => d.dmaDescRun e.val 1 none)

/-- DMA_NOP (R492): descriptor NOP moves nothing. -/
def execDmaNop (e : Fin 3) (s : State) : Host.Outcome State Fault Refusal :=
  .next (s.onDev fun d => d.dmaDescRun e.val 2 none)

/-- DESCRIPTOR_COMPLETE (R495): A descriptor completes once its writes are performed; its record is written, RD advances and DONE is set. -/
def execDescriptorComplete (e : Fin 3) (s : State) : Host.Outcome State Fault Refusal :=
  .next (s.onDev fun d => d.dmaComplete e.val)

/-- DMA_RESUME (R496): A write of RESUME returns a channel in ERROR to service. -/
def execDmaResume (src : Fin 30) (e : Fin 3) (c : Fin 16) (s : State) : Host.Outcome State Fault Refusal :=
  .next (s.onDev fun d => d.regCommand src.val (dmaCh e.val c.val 0x1C) 4 1)

end Sys2Proof.Machine
end

