-- ==== Sys2Proof/Machine/ExecPipe.lean ====
section
/-! DEFINITION. Meanings of the composition pipe and drawing engine commands (15 R398 to R420, 16 R426 to R442). -/
namespace Sys2Proof.Machine

/-- PIPE_FRAME_START (R399): A pipe frame starts, latching its configuration and starting sprite, mirror and job reads. -/
def execPipeFrameStart (p : Fin 8) (s : State) : Host.Outcome State Fault Refusal :=
  .next (s.onDev fun d => d.pipeFrameStart p.val)

/-- COMP_GO (R398): A write to COMP_GO starts a RENDER frame if the pipe is idle, else sets GO_BUSY. -/
def execCompGo (src : Fin 30) (p : Fin 8) (s : State) : Host.Outcome State Fault Refusal :=
  .next (s.onDev fun d => d.regCommand src.val (Reg.COMP_GO p.val) 4 1)

/-- MIRROR_LIST (R408): the item engine takes a pipe's mirror list at one beam cycle and sends it across the Stem. -/
def execMirrorList (p : Fin 8) (s : State) : Host.Outcome State Fault Refusal :=
  .next (s.onDev fun d => d.mirrorList p.val)

/-- PIPE_LINE_START (R410): at the start of each output line the pipe applies its line-list entries to its line copies. -/
def execPipeLineStart (p : Fin 8) (s : State) : Host.Outcome State Fault Refusal :=
  .next (s.onDev fun d => d.pipeLine p.val)

/-- GOLDEN_ENTRY_VALID (R419): after every pixel write of a frame is performed, the pipe rewrites its golden entry with VALID = 1. -/
def execGoldenEntryValid (p : Fin 8) (s : State) : Host.Outcome State Fault Refusal :=
  .next (s.onDev fun d => d.goldValid p.val)

/-- COMP_TLOAD (R420): A write to COMP_TLOAD starts copying a table image into a bank. -/
def execCompTload (src : Fin 30) (p : Fin 8) (v : BitVec 32) (s : State) : Host.Outcome State Fault Refusal :=
  .next (s.onDev fun d => d.regCommand src.val (Reg.COMP_TLOAD p.val) 4 v.toNat)

/-- TLOAD_DONE (R420): A table load completes with its CRC, or ends with TLOAD_ERR. -/
def execTloadDone (raster : Bool) (p : Fin 8) (s : State) : Host.Outcome State Fault Refusal :=
  .next (s.onDev fun d => if raster then d.rasTloadDone p.val else d.compTloadDone p.val)

/-- DRAW_Q_WR (R426): the producer writes the command ring write count, ignored if it would overfill. -/
def execDrawQWr (src : Fin 30) (e : Fin 2) (v : BitVec 32) (s : State) : Host.Outcome State Fault Refusal :=
  .next (s.onDev fun d => d.regCommand src.val (Reg.DRAW_Q_WR e.val) 4 v.toNat)

/-- DRAW_NOP (R430): command NOP does nothing. -/
def execDrawNop (e : Fin 2) (s : State) : Host.Outcome State Fault Refusal :=
  .next (s.onDev fun d => d.opDrawNop e.val)

/-- FILL (R430): command FILL fills a rectangle with a colour. -/
def execFill (e : Fin 2) (s : State) : Host.Outcome State Fault Refusal :=
  .next (s.onDev fun d => d.opFill e.val)

/-- COPY (R430): command COPY copies an oriented source rectangle. -/
def execCopy (e : Fin 2) (s : State) : Host.Outcome State Fault Refusal :=
  .next (s.onDev fun d => d.opCopy e.val)

/-- GLYPH (R434): command GLYPH expands a MONO1 source into foreground and background. -/
def execGlyph (e : Fin 2) (s : State) : Host.Outcome State Fault Refusal :=
  .next (s.onDev fun d => d.opGlyph e.val)

/-- SYMBOL (R435): command SYMBOL encodes data into a Data Matrix or Code 128 module image. -/
def execSymbol (e : Fin 2) (s : State) : Host.Outcome State Fault Refusal :=
  .next (s.onDev fun d => d.opSymbol e.val)

/-- CLIP (R438): command CLIP sets the four clip rectangles. -/
def execClip (e : Fin 2) (s : State) : Host.Outcome State Fault Refusal :=
  .next (s.onDev fun d => d.opClip e.val)

/-- SIGNAL (R430): command SIGNAL writes a value after all earlier writes and optionally sets SIGNAL. -/
def execSignal (e : Fin 2) (s : State) : Host.Outcome State Fault Refusal :=
  .next (s.onDev fun d => d.opSignal e.val)

/-- DRAW_RESUME (R442): A write of RESUME skips the failed command and continues from ERROR. -/
def execDrawResume (src : Fin 30) (e : Fin 2) (v : BitVec 32) (s : State) : Host.Outcome State Fault Refusal :=
  .next (s.onDev fun d => d.regCommand src.val (Reg.DRAW_CTRL e.val) 4 (v.toNat ||| 4))

end Sys2Proof.Machine
end

