-- ==== Sys2Proof/Machine/ExecPortRow.lean ====
section
/-! DEFINITION. Meanings of link events, consumer counts and the test access port (14, 17, 20, 21, 23 to 26). -/
namespace Sys2Proof.Machine

/-- GRAFT_LANE_LOCK (R527): A Graft port in TRAIN gains block lock and alignment on all 4 lanes and enters HELLO. -/
def execGraftLaneLock (p : Fin 2) (s : State) : Host.Outcome State Fault Refusal :=
  .next (s.onDev fun d => d.grfLock p.val)

/-- GRAFT_PORT_LOSS (R527): A Graft port loses lock or alignment, or sees no good frame for 3 µs, and returns to TRAIN. -/
def execGraftPortLoss (p : Fin 2) (s : State) : Host.Outcome State Fault Refusal :=
  .next (s.onDev fun d => d.grfLoss p.val)

/-- RASTER_LANE_LOCK_LOSS (R446): A raster out port loses block lock on its return lane and returns to TRAIN, ending its swaths with PRINT_FAULT. -/
def execRasterLaneLockLoss (n : Fin 8) (s : State) : Host.Outcome State Fault Refusal :=
  .next (s.onDev fun d => d.rasLockLoss n.val)

/-- CAMERA_LANE_SYNC (R393): A camera port's D-PHY lanes gain synchronisation and skew calibration, and the port moves from SYNC to RUN and accepts
Frame Starts. -/
def execCameraLaneSync (p : Fin 16) (deskew : Bool) (s : State) : Host.Outcome State Fault Refusal :=
  .next (s.onDev fun d => d.camSync p.val deskew)

/-- DISPLAY_LINK_TRAINED (R458): display link training completes at a rate and lane count that carry the mode, and the port becomes ACTIVE. -/
def execDisplayLinkTrained (p : Fin 3) (rate : BitVec 4) (lanes : BitVec 3) (s : State) : Host.Outcome State Fault Refusal :=
  .next (s.onDev fun d => d.linkTrained p.val rate.toNat lanes.toNat)

/-- PCIE_LINK_CHANGE (R627): the PCIe link trains, enters L0 or L1, or goes down, setting PCIE_DOWN on loss. -/
def execPcieLinkChange (st : Fin 4) (width rate : BitVec 3) (s : State) : Host.Outcome State Fault Refusal :=
  .next (s.onDev fun d => d.pcieLink st.val width.toNat rate.toNat)

/-- ETH_LINK_CHANGE (R627): the management Ethernet link comes up or goes down, updating HOST_STATUS and setting ETH_DOWN on loss. -/
def execEthLinkChange (up : Bool) (s : State) : Host.Outcome State Fault Refusal :=
  .next (s.onDev fun d => d.ethLink up)

/-- MDIO_DONE (R627): A Clause 22 PHY management access ends and HOST_MDIO.BUSY clears with its data. -/
def execMdioDone (v : BitVec 16) (s : State) : Host.Outcome State Fault Refusal :=
  .next (s.onDev fun d => d.mdioDone v.toNat)

/-- FUSE_PROGRAM_DONE (R599): OTP programming, or the blowing of the LOCK fuse, completes; SEC_RESULT.BUSY clears and for LOCK the state becomes
LOCKED. -/
def execFuseProgramDone (s : State) : Host.Outcome State Fault Refusal :=
  .next (s.onDev fun d => d.fuseDone)

/-- LOG_TRACE_CELL (R577): A class 6 or 7 Trellis cell of log or trace records reaches a collector node and its records enter the collector's tail
and trace paths. -/
def execLogTraceCell (h : CellHdr) (trace : Bool) (bs : List Byte) (s : State) : Host.Outcome State Fault Refusal :=
  .next (s.onDev fun d => d.logTraceCell h trace (nats bs))

/-- WCK2DQ_TRACKING (R486): periodic WCK2DQ tracking runs within a refresh window and adjusts a channel, counted in MEMC_CH_RETRAIN. -/
def execWck2dqTracking (c : Fin 8) (s : State) : Host.Outcome State Fault Refusal :=
  .next (s.onDev fun d => d.wckTrack c.val)

/-- SIEVE_RR_RD (R387): the consumer writes the Sieve result ring read count, ignored if it would make the ring hold more than 2^K records. -/
def execSieveRrRd (src : Fin 30) (v : BitVec 32) (s : State) : Host.Outcome State Fault Refusal :=
  .next (s.onDev fun d => d.regCommand src.val Reg.SIEVE_RR_RD 4 v.toNat)

/-- LOG_TRING_RD (R587): the consumer writes the trace ring read count, ignored if it would overfill the ring. -/
def execLogTringRd (src : Fin 30) (v : BitVec 32) (s : State) : Host.Outcome State Fault Refusal :=
  .next (s.onDev fun d => d.regCommand src.val Reg.LOG_TRING_RD 4 v.toNat)

/-- TAP_INSTRUCTION (R642): an IEEE 1149.1 instruction is loaded through the TAP; EXTEST takes covered pins from their owners, and debug
instructions act as BYPASS while LOCKED. -/
def execTapInstruction (kind : Fin 5) (levels : BitVec 248) (s : State) : Host.Outcome State Fault Refusal :=
  .next (s.onDev fun d => d.tapInstr kind.val levels.toNat)

end Sys2Proof.Machine
end

