-- ==== Sys2Proof/Machine/ExecPowerUp.lean ====
section
/-! DEFINITION. Meanings of the power, clock and health commands (22 R552 to R575). -/
namespace Sys2Proof.Machine

/-- PWR_DOM_REQ (R552): A write to PWR_DOM_REQ asks Flagar to switch domains, or is refused. -/
def execPwrDomReq (src : Fin 30) (w : Fin 3) (v : BitVec 32) (s : State) : Host.Outcome State Fault Refusal :=
  .next (s.onDev fun d => d.regCommand src.val (Reg.PWR_DOM_REQ w.val) 4 v.toNat)

/-- DOMAIN_SWITCH (R552): flagar switches one domain on or off and it completes. -/
def execDomainSwitch (s : State) : Host.Outcome State Fault Refusal :=
  .next (s.onDev fun d => d.planeDown Dev.domainSwitch)

/-- OFF_ACCESS (R553): an access to an off domain is handled under R10 or discarded and sets OFF_ACCESS. -/
def execOffAccess (src : Fin 30) (isWrite : Bool) (a : BitVec 48) (bs : List Byte) (s : State) : Host.Outcome State Fault Refusal :=
  .next (s.onDev fun d => d.offRow src.val isWrite a.toNat (nats bs))

/-- STANDBY (R555): A request for STANDBY puts DRAM in self-refresh and switches off the image die, or is refused. -/
def execStandby (src : Fin 30) (s : State) : Host.Outcome State Fault Refusal :=
  .next (s.onDev fun d => d.regCommand src.val Reg.PWR_STATE_REQ 4 2)

/-- CLOCHE (R556): A request for CLOCHE takes the device through the retention entry steps, or is refused. -/
def execCloche (src : Fin 30) (s : State) : Host.Outcome State Fault Refusal :=
  .next (s.onDev fun d => d.regCommand src.val Reg.PWR_STATE_REQ 4 3)

/-- PWR_RUN (R555): A request for RUN brings the device back from a low state. -/
def execPwrRun (src : Fin 30) (s : State) : Host.Outcome State Fault Refusal :=
  .next (s.onDev fun d => d.regCommand src.val Reg.PWR_STATE_REQ 4 0)

/-- WAKE_EVENT (R556): A wake source starts exit from STANDBY or CLOCHE, or aborts an entry. -/
def execWakeEvent (source : Fin 8) (k : Fin 512) (s : State) : Host.Outcome State Fault Refusal :=
  .next (s.onDev fun d => d.wakeEvent source.val k.val)

/-- CLUSTER_CLOCK_CHANGE (R561): flagar locks the idle PLL and commits a new cluster clock, switched glitch-free at the apply cycle. -/
def execClusterClockChange (c : Fin 6) (s : State) : Host.Outcome State Fault Refusal :=
  .next (s.onDev fun d => d.clusterClock c.val)

/-- THERMAL_SAMPLE (R565): every 1 ms the thermal sensors are read and compared with WARN, CRIT and the trip. -/
def execThermalSample (ts : List (BitVec 16)) (s : State) : Host.Outcome State Fault Refusal :=
  .next (s.onDev fun d => d.thermSample (ts.map BitVec.toNat))

/-- DROOP (R566): A supply droop stretches cluster cycles, counts and can start a plan. -/
def execDroop (m : Fin 16) (n : BitVec 32) (s : State) : Host.Outcome State Fault Refusal :=
  .next (s.onDev fun d => d.droop m.val n.toNat)

/-- HEALTH_PLAN (R568): flagar runs a margin plan, stepping rail setpoints and capping cluster clocks. -/
def execHealthPlan (margins : List (List (BitVec 16))) (bad : BitVec 8) (s : State) : Host.Outcome State Fault Refusal :=
  .next (s.onDev fun d => d.healthPlan (margins.map fun l => l.map BitVec.toNat) bad.toNat)

/-- CAP_COMMIT_WAIT (R569): A lowering cap is armed at the first empty field boundary, or after HEALTH_PLAN.WAIT minutes. -/
def execCapCommitWait (s : State) : Host.Outcome State Fault Refusal :=
  .next (s.onDev fun d => d.capCommit)

/-- REF_LOSS (R575): A reference clock absent for 1 µs sets REF_LOSS and line time free-runs. -/
def execRefLoss (s : State) : Host.Outcome State Fault Refusal :=
  .next (s.onDev fun d => d.refLoss)

/-- DOM_REQ (R573): A DOM_REQ management flit switches image-die domains. -/
def execDomReq (m : BitVec 28) (s : State) : Host.Outcome State Fault Refusal :=
  .next (s.onDev fun d => d.planeDown fun d => d.domReqFlit m.toNat)

/-- DOM_ACK (R573): A DOM_ACK reports image-die domains now on and failed. -/
def execDomAck (on failed : BitVec 28) (s : State) : Host.Outcome State Fault Refusal :=
  .next (s.onDev fun d => d.domAck on.toNat failed.toNat)

/-- MON_READ (R573): A MON_READ asks the image die for monitor slacks. -/
def execMonRead (first : BitVec 16) (count : Fin 16) (s : State) : Host.Outcome State Fault Refusal :=
  .next (s.onDev fun d => d.monRead first.toNat count.val)

/-- MON_DATA (R573): A MON_DATA returns image-die monitor slacks. -/
def execMonData (first : BitVec 16) (slacks : List (BitVec 32)) (s : State) : Host.Outcome State Fault Refusal :=
  .next (s.onDev fun d => d.monData first.toNat (slacks.map BitVec.toNat))

/-- THERM (R573): A THERM flit reports an image-die temperature. -/
def execTherm (sensor v : BitVec 16) (s : State) : Host.Outcome State Fault Refusal :=
  .next (s.onDev fun d => d.thermFlit sensor.toNat v.toNat)

/-- DROOP_REPORT (R573): A DROOP management flit reports image-die droop counts. -/
def execDroopReport (m : Fin 16) (n : BitVec 32) (s : State) : Host.Outcome State Fault Refusal :=
  .next (s.onDev fun d => d.droop m.val n.toNat)

end Sys2Proof.Machine
end

