-- ==== Sys2Proof/Machine/ExecPrint.lean ====
section
/-! DEFINITION. Meanings of the raster port and display port commands (17 R444 to R461). -/
namespace Sys2Proof.Machine

/-- SWATH_START (R447): A swath start arrives at a raster out port and is accepted with PRINT_ACK or refused. -/
def execSwathStart (bs : List Byte) (s : State) : Host.Outcome State Fault Refusal :=
  .next (s.onDev fun d => d.swathStart (nats bs))

/-- TIME_FRAME (R445): every 100 µs the raster out port sends a TIME frame. -/
def execTimeFrame (n : Fin 8) (s : State) : Host.Outcome State Fault Refusal :=
  .next (s.onDev fun d => d.timeFrame n.val)

/-- STATUS_FRAME (R444): A STATUS frame from the bridge updates link delay, head error and port state. -/
def execStatusFrame (n : Fin 8) (start : BitVec 64) (blocks : List (BitVec 66)) (s : State) : Host.Outcome State Fault Refusal :=
  .next (s.onDev fun d => d.statusFrame n.val start.toNat (blocks.map BitVec.toNat))

/-- LINE_FRAME (R448): at FIRE_LT − LEAD a due print line is sent as a LINE frame, with BEGIN or END as needed. -/
def execLineFrame (n : Fin 8) (s : State) : Host.Outcome State Fault Refusal :=
  .next (s.onDev fun d => d.lineFrame n.val)

/-- RASTER_LOSS (R446): no good STATUS frame for RASTER_LOSS µs returns the port to TRAIN and ends its swaths. -/
def execRasterLoss (n : Fin 8) (s : State) : Host.Outcome State Fault Refusal :=
  .next (s.onDev fun d => d.rasterLoss n.val)

/-- RASTER_TLOAD (R452): A write to RASTER_TLOAD loads a threshold image into a bank. -/
def execRasterTload (src : Fin 30) (n : Fin 8) (v : BitVec 32) (s : State) : Host.Outcome State Fault Refusal :=
  .next (s.onDev fun d => d.regCommand src.val (Reg.RASTER_TLOAD n.val) 4 v.toNat)

/-- HPD (R458): A hot-plug or IRQ_HPD event on a display port starts training or retraining. -/
def execHpd (p : Fin 3) (kind : Fin 4) (rate : BitVec 4) (lanes : BitVec 3) (psr psr2 : Bool) (s : State) : Host.Outcome State Fault Refusal :=
  .next (s.onDev fun d => d.hpd p.val kind.val rate.toNat lanes.toNat psr psr2)

/-- TRAIN_FAIL (R458): A failed display training round counts and retries after 100 ms. -/
def execTrainFail (p : Fin 3) (s : State) : Host.Outcome State Fault Refusal :=
  .next (s.onDev fun d => d.trainFail p.val)

/-- PSR_ENTER (R459): A write of ENTER stores the next frame in the panel and stops the main link. -/
def execPsrEnter (src : Fin 30) (v : BitVec 32) (s : State) : Host.Outcome State Fault Refusal :=
  .next (s.onDev fun d => d.regCommand src.val (Reg.DISP_PSR 2) 4 (v.toNat ||| 16))

/-- PSR_EXIT (R459): A write of EXIT, IRQ_HPD or auto-exit commit wakes the eDP link. -/
def execPsrExit (src : Fin 30) (v : BitVec 32) (s : State) : Host.Outcome State Fault Refusal :=
  .next (s.onDev fun d => d.regCommand src.val (Reg.DISP_PSR 2) 4 (v.toNat ||| 32))

/-- DISP_SU (R459): A write to DISP_SU requests a PSR2 selective update of lines Y0 to Y1. -/
def execDispSu (src : Fin 30) (p : Fin 3) (v : BitVec 32) (s : State) : Host.Outcome State Fault Refusal :=
  .next (s.onDev fun d => d.regCommand src.val (Reg.DISP_SU p.val) 4 v.toNat)

/-- DISP_AUX_CMD (R461): A write to DISP_AUX_CMD starts an AUX transaction. -/
def execDispAuxCmd (src : Fin 30) (p : Fin 3) (v : BitVec 32) (s : State) : Host.Outcome State Fault Refusal :=
  .next (s.onDev fun d => d.regCommand src.val (Reg.DISP_AUX_CMD p.val) 4 v.toNat)

/-- AUX_DONE (R461): an AUX transaction ends with ACK, NACK, DEFER exhausted or TIMEOUT. -/
def execAuxDone (p : Fin 3) (outcome : Fin 4) (bs : List Byte) (s : State) : Host.Outcome State Fault Refusal :=
  .next (s.onDev fun d => d.auxDone p.val outcome.val (nats bs))

end Sys2Proof.Machine
end

