-- ==== Sys2Proof/Machine/ExecRegister.lean ====
section
/-! DEFINITION. Meanings of register accesses that have no row of their own (01 R8 to R15, 03 R76). -/
namespace Sys2Proof.Machine

/-- REGISTER_WRITE (R15): A write to a register that has no row of its own acts under its access and takes-effect codes. -/
def execRegisterWrite (src : Fin 30) (a : BitVec 48) (wide : Bool) (v : BitVec 64) (s : State) : Host.Outcome State Fault Refusal :=
  .next (s.onDev fun d => d.regCommand src.val a.toNat (if wide then 8 else 4) v.toNat)

/-- READ_CLEAR (R12): an aligned whole-word read through the active view returns an RC field and clears it. -/
def execReadClear (src : Fin 30) (a : BitVec 48) (wide : Bool) (s : State) : Host.Outcome State Fault Refusal :=
  .next (s.onDev fun d => d.regReadCommand src.val a.toNat (if wide then 8 else 4))

/-- SNAP_READ (R12): an aligned whole-word read through the active view of a SNAP field returns it and captures its named snapshot. -/
def execSnapRead (src : Fin 30) (a : BitVec 48) (wide : Bool) (s : State) : Host.Outcome State Fault Refusal :=
  .next (s.onDev fun d => d.regReadCommand src.val a.toNat (if wide then 8 else 4))

/-- STAGING_WRITE (R76): A write to a register with CMT fields goes to the shadow copy of the writer's group, or is discarded and poisons it. -/
def execStagingWrite (src : Fin 30) (a : BitVec 48) (wide : Bool) (v : BitVec 64) (s : State) : Host.Outcome State Fault Refusal :=
  .next (s.onDev fun d => d.regCommand src.val a.toNat (if wide then 8 else 4) v.toNat)

end Sys2Proof.Machine
end

