-- ==== Sys2Proof/Machine/ExecSecure.lean ====
section
/-! DEFINITION. Meanings of the security, boot and reset commands (24 R591 to R609). -/
namespace Sys2Proof.Machine

/-- LOCK (R593): command LOCK blows the LOCK fuse and makes the device LOCKED, or ends NOT_PROVISIONED. -/
def execLock (src : Fin 30) (confirm : BitVec 16) (s : State) : Host.Outcome State Fault Refusal :=
  .next (s.onDev fun d => d.regCommand src.val Reg.SEC_CMD 4 (1 + confirm.toNat * 65536))

/-- PASSWORD (R595): command PASSWORD unlocks when the password hash matches, else counts a failure. -/
def execPassword (src : Fin 30) (s : State) : Host.Outcome State Fault Refusal :=
  .next (s.onDev fun d => d.regCommand src.val Reg.SEC_CMD 4 2)

/-- CHALLENGE (R595): command CHALLENGE draws a fresh nonce. -/
def execChallenge (src : Fin 30) (s : State) : Host.Outcome State Fault Refusal :=
  .next (s.onDev fun d => d.regCommand src.val Reg.SEC_CMD 4 3)

/-- RESPOND (R595): command RESPOND unlocks when the HMAC over nonce and UID matches. -/
def execRespond (src : Fin 30) (s : State) : Host.Outcome State Fault Refusal :=
  .next (s.onDev fun d => d.regCommand src.val Reg.SEC_CMD 4 4)

/-- RELOCK (R591): command RELOCK returns an UNLOCKED device to LOCKED. -/
def execRelock (src : Fin 30) (s : State) : Host.Outcome State Fault Refusal :=
  .next (s.onDev fun d => d.regCommand src.val Reg.SEC_CMD 4 5)

/-- VERIFY (R601): command VERIFY reads and verifies a program image. -/
def execVerify (src : Fin 30) (s : State) : Host.Outcome State Fault Refusal :=
  .next (s.onDev fun d => d.regCommand src.val Reg.SEC_CMD 4 6)

/-- VERIFY_COMPLETE (R602): A verified image is copied, registered as a code range and its cores released, or IMG_BAD is set. -/
def execVerifyComplete (s : State) : Host.Outcome State Fault Refusal :=
  .next (s.onDev fun d => d.verifyDone)

/-- OTP_PROG (R599): command OTP_PROG programs the selected OTP field. -/
def execOtpProg (src : Fin 30) (confirm : BitVec 16) (s : State) : Host.Outcome State Fault Refusal :=
  .next (s.onDev fun d => d.regCommand src.val Reg.SEC_CMD 4 (7 + confirm.toNat * 65536))

/-- CODE_DENY (R603): A non-Flagar write touching a code range while LOCKED is discarded and counted. -/
def execCodeDeny (src : Fin 30) (a : BitVec 48) (bs : List Byte) (s : State) : Host.Outcome State Fault Refusal :=
  .next (s.onDev fun d => d.codeWrite src.val a.toNat (nats bs))

/-- BOOT (R604): after POR or PIN reset the boot sequencer reads OTP, fetches and verifies the package and releases Flagar. -/
def execBoot (bootSrc : Fin 4) (slotA slotB : List Byte) (s : State) : Host.Outcome State Fault Refusal :=
  .next (s.onDev fun d => d.bootRow bootSrc.val (nats slotA) (nats slotB))

/-- POR (R607): VDD_AON rising into or falling out of range resets everything. -/
def execPor (s : State) : Host.Outcome State Fault Refusal :=
  .next (s.onDev fun d => d.por)

/-- PIN_RESET (R607): RESET_N low for 1 µs performs a PIN reset. -/
def execPinReset (s : State) : Host.Outcome State Fault Refusal :=
  .next (s.onDev fun d => d.rstPin 1)

/-- DEVICE_RESET (R607): A keyed write of RST_CTRL.DEVICE performs a DEVICE reset. -/
def execDeviceReset (src : Fin 30) (s : State) : Host.Outcome State Fault Refusal :=
  .next (s.onDev fun d => d.regCommand src.val Reg.RST_CTRL 4 0xA5000001)

/-- CONTROL_PLANE_RESET (R607): A keyed write of RST_CTRL.CPLANE resets the control plane. -/
def execControlPlaneReset (src : Fin 30) (s : State) : Host.Outcome State Fault Refusal :=
  .next (s.onDev fun d => d.regCommand src.val Reg.RST_CTRL 4 0xA5000002)

/-- DATA_PLANE_RESET (R607): A keyed write of RST_CTRL.DPLANE, or STEM_DOWN, resets the data plane. -/
def execDataPlaneReset (src : Fin 30) (s : State) : Host.Outcome State Fault Refusal :=
  .next (s.onDev fun d => d.regCommand src.val Reg.RST_CTRL 4 0xA5000004)

/-- MANAGEMENT_PLANE_RESET (R607): A keyed write of RST_CTRL.MPLANE resets the management plane. -/
def execManagementPlaneReset (src : Fin 30) (s : State) : Host.Outcome State Fault Refusal :=
  .next (s.onDev fun d => d.regCommand src.val Reg.RST_CTRL 4 0xA5000008)

/-- BEAM_STOP (R609): an RST_BSTOP bit or BSTOP_N holds a beam as HOLD until cleared. -/
def execBeamStop (reg : Option (BitVec 9)) (pinLow : Bool) (s : State) : Host.Outcome State Fault Refusal :=
  .next (s.onDev fun d => d.beamStop (reg.map BitVec.toNat) pinLow)

end Sys2Proof.Machine
end

