-- ==== Sys2Proof/Machine/ExecSeq.lean ====
section
/-! DEFINITION. Meanings of the commands of the furrow sequencer's list memory (04 R118 to R121). -/
namespace Sys2Proof.Machine

/-- LIST_MEMORY_WRITE (R118): A write to sequencer list memory is performed on the beam die and forwarded to the image-die
mirror as memory flits. -/
def execListMemoryWrite (src : Fin 30) (off : BitVec 20) (bs : List Byte) (s : State) : Host.Outcome State Fault Refusal :=
  .next (s.onDev fun d => d.codeWrite src.val (listBase + off.toNat) (nats bs))

/-- MIRROR_ACK (R119): the image-die mirror acknowledges a forwarded list-memory write once it has performed it. -/
def execMirrorAck (s : State) : Host.Outcome State Fault Refusal :=
  .next (s.onDev fun d => d.mirrorAck)

/-- MIRROR_COPY (R121): when the data plane returns, or the Stem first reaches UP, the beam die copies every list bank into the mirror. -/
def execMirrorCopy (s : State) : Host.Outcome State Fault Refusal :=
  .next (s.onDev fun d => d.mirrorCopy)

end Sys2Proof.Machine
end

