-- ==== Sys2Proof/Machine/ExecSieve.lean ====
section
/-! DEFINITION. Meanings of the Sieve's descriptors and of the I2C commands (14 R376 to R390). -/
namespace Sys2Proof.Machine

/-- SIEVE_JOB_START (R378): A free quad starts its queued job with the earliest LT_LAST and looks up the golden entry. -/
def execSieveJobStart (q : Fin 4) (s : State) : Host.Outcome State Fault Refusal :=
  .next (s.onDev fun d => d.svStart q.val)

/-- SIEVE_END (R385): descriptor END sends DONE with the masked BITS and ends the job. -/
def execSieveEnd (q : Fin 4) (s : State) : Host.Outcome State Fault Refusal :=
  .next (s.onDev fun d => d.svEndOp q.val)

/-- CORRECT (R381): descriptor CORRECT flat-fields, demosaics and colour-converts the frame into the working image. -/
def execCorrect (q : Fin 4) (s : State) : Host.Outcome State Fault Refusal :=
  .next (s.onDev fun d => d.svCorrect q.val)

/-- REGISTER (R382): descriptor REGISTER finds the displacement of the golden patch and sets the shift. -/
def execSieveRegister (q : Fin 4) (s : State) : Host.Outcome State Fault Refusal :=
  .next (s.onDev fun d => d.svRegister q.val)

/-- TILECMP (R383): descriptor TILECMP scores 16 × 16 tiles against the golden image. -/
def execTilecmp (q : Fin 4) (s : State) : Host.Outcome State Fault Refusal :=
  .next (s.onDev fun d => d.svTilecmp q.val)

/-- PRESENCE (R380): descriptor PRESENCE counts pixels within a colour range. -/
def execPresence (q : Fin 4) (s : State) : Host.Outcome State Fault Refusal :=
  .next (s.onDev fun d => d.svPresence q.val)

/-- COLOUR (R380): descriptor COLOUR writes the mean colour of a region. -/
def execColour (q : Fin 4) (s : State) : Host.Outcome State Fault Refusal :=
  .next (s.onDev fun d => d.svColour q.val)

/-- CODE (R384): descriptor CODE reads, grades and compares one symbol in its region. -/
def execCode (q : Fin 4) (s : State) : Host.Outcome State Fault Refusal :=
  .next (s.onDev fun d => d.svCode q.val)

/-- SIEVE_CB (R380): descriptor CB compares a result word and branches within the list. -/
def execSieveCb (q : Fin 4) (s : State) : Host.Outcome State Fault Refusal :=
  .next (s.onDev fun d => d.svCb q.val)

/-- SIEVE_SETV (R380): descriptor SETV ORs a value into the job's BITS. -/
def execSieveSetv (q : Fin 4) (s : State) : Host.Outcome State Fault Refusal :=
  .next (s.onDev fun d => d.svSetv q.val)

/-- CORRX (R386): descriptor CORRX scales a result into a correction and writes it to CAM_CORR_IN. -/
def execCorrx (q : Fin 4) (s : State) : Host.Outcome State Fault Refusal :=
  .next (s.onDev fun d => d.svCorrx q.val)

/-- CALC (R380): descriptor CALC computes a result word. -/
def execCalc (q : Fin 4) (s : State) : Host.Outcome State Fault Refusal :=
  .next (s.onDev fun d => d.svCalc q.val)

/-- RESULT (R387): descriptor RESULT writes a record to the result ring, or drops it with RR_GAP. -/
def execResult (q : Fin 4) (s : State) : Host.Outcome State Fault Refusal :=
  .next (s.onDev fun d => d.svResult q.val)

/-- SIEVE_JOB_ABORT (R390): line time reaches LT_LAST + SIEVE_DL and the job, queued or running, is aborted. -/
def execSieveJobAbort (q : Fin 4) (s : State) : Host.Outcome State Fault Refusal :=
  .next (s.onDev fun d => d.svAbort q.val)

/-- CAMIN_I2C_CMD (R376): A write to CAMIN_I2C_CMD starts an I²C transfer of the camera port. -/
def execCaminI2cCmd (src : Fin 30) (p : Fin 16) (v : BitVec 32) (s : State) : Host.Outcome State Fault Refusal :=
  .next (s.onDev fun d => d.regCommand src.val (Reg.CAMIN_I2C_CMD p.val) 4 v.toNat)

/-- I2C_DONE (R376): an I²C transfer ends, with DONE or with NACK, TIMEOUT or ARB_LOST. -/
def execI2cDone (p : Fin 16) (outcome : Fin 5) (written : BitVec 4) (rdata : BitVec 64) (s : State) : Host.Outcome State Fault Refusal :=
  .next (s.onDev fun d => d.i2cDone p.val outcome.val written.toNat rdata.toNat)

end Sys2Proof.Machine
end

