-- ==== Sys2Proof/Machine/ExecSound.lean ====
section
/-! DEFINITION. Meanings of the audio commands (18 R462 to R477). -/
namespace Sys2Proof.Machine

/-- AUDIO_FRAME (R467): each sample period of a domain computes its crosspoint outputs and voices. -/
def execAudioFrame (dom : Fin 3) (s : State) : Host.Outcome State Fault Refusal :=
  .next (s.onDev fun d => d.audioFrame dom.val)

/-- TDM_FRAME (R465): A slave TDM input frame is received into the elastic buffer, discarded if malformed, or slips. -/
def execTdmFrame (p : Fin 4) (clocks : BitVec 16) (words : List (BitVec 32)) (s : State) : Host.Outcome State Fault Refusal :=
  .next (s.onDev fun d => d.tdmFrame p.val clocks.toNat (words.map BitVec.toNat))

/-- UNLOCK (R462): A domain's locked frame sync departs or stops and the domain falls back to the internal reference. -/
def execUnlock (dom : Fin 3) (s : State) : Host.Outcome State Fault Refusal :=
  .next (s.onDev fun d => d.audUnlock dom.val)

/-- AUD_KEY_ON (R472): A write to AUD_KEY_ON starts ATTACK of the named voices. -/
def execAudKeyOn (src : Fin 30) (m : BitVec 32) (s : State) : Host.Outcome State Fault Refusal :=
  .next (s.onDev fun d => d.regCommand src.val Reg.AUD_KEY_ON 4 m.toNat)

/-- AUD_KEY_OFF (R472): A write to AUD_KEY_OFF starts RELEASE of the named voices. -/
def execAudKeyOff (src : Fin 30) (m : BitVec 32) (s : State) : Host.Outcome State Fault Refusal :=
  .next (s.onDev fun d => d.regCommand src.val Reg.AUD_KEY_OFF 4 m.toNat)

/-- ORDER_ANALYSIS_SEGMENT (R475): A completed segment is windowed, transformed and compared or learned per band. -/
def execOrderAnalysisSegment (c : Fin 8) (s : State) : Host.Outcome State Fault Refusal :=
  .next (s.onDev fun d => d.orderSegment c.val)

end Sys2Proof.Machine
end

