-- ==== Sys2Proof/Machine/ExecStation.lean ====
section
/-! DEFINITION. Meanings of the station engine's commands and actions (07 R200 to R211, 20 R517). -/
namespace Sys2Proof.Machine

/-- STATION_EVALUATION (R200): the engine runs a released furrow evaluation, checking every station's candidates and deciding triggers. -/
def execStationEvaluation (s : State) : Host.Outcome State Fault Refusal :=
  .next (s.onDev fun d => d.stationEval)

/-- ACTION_NONE (R205): action NONE has no effect at t_A. -/
def execActionNone (stn : Fin 512) (slot : BitVec 16) (s : State) : Host.Outcome State Fault Refusal :=
  .next (s.onDev fun d => d.actNone stn.val slot.toNat)

/-- ACTION_PULSE (R210): action PULSE starts a position-ended or time-ended pulse on a station pin at t_A. -/
def execActionPulse (stn : Fin 512) (slot : BitVec 16) (s : State) : Host.Outcome State Fault Refusal :=
  .next (s.onDev fun d => d.actPulse stn.val slot.toNat)

/-- ACTION_CAMERA (R205): action CAMERA emits a trigger edge, opens an expectation and sends the camera tag. -/
def execActionCamera (stn : Fin 512) (slot : BitVec 16) (s : State) : Host.Outcome State Fault Refusal :=
  .next (s.onDev fun d => d.actCamera stn.val slot.toNat)

/-- ACTION_OVERRIDE (R205): action OVERRIDE requests an override of its cam channel. -/
def execActionOverride (stn : Fin 512) (slot : BitVec 16) (s : State) : Host.Outcome State Fault Refusal :=
  .next (s.onDev fun d => d.actOverride stn.val slot.toNat)

/-- ACTION_EVENT (R205): action EVENT raises a station-range interrupt source with the item id. -/
def execActionEvent (stn : Fin 512) (slot : BitVec 16) (s : State) : Host.Outcome State Fault Refusal :=
  .next (s.onDev fun d => d.actEvent stn.val slot.toNat)

/-- ACTION_HARVEST (R205): action HARVEST harvests the item with reason STATION. -/
def execActionHarvest (stn : Fin 512) (slot : BitVec 16) (s : State) : Host.Outcome State Fault Refusal :=
  .next (s.onDev fun d => d.actHarvest stn.val slot.toNat)

/-- ACTION_TRANSFER (R181): action TRANSFER moves the item to another beam with a new position and scaled length. -/
def execActionTransfer (stn : Fin 512) (slot : BitVec 16) (s : State) : Host.Outcome State Fault Refusal :=
  .next (s.onDev fun d => d.actTransfer stn.val slot.toNat)

/-- ACTION_HANDOFF (R517): action HANDOFF makes the item OUTBOUND and sends a Trellis OFFER. -/
def execActionHandoff (stn : Fin 512) (slot : BitVec 16) (s : State) : Host.Outcome State Fault Refusal :=
  .next (s.onDev fun d => d.actHandoff stn.val slot.toNat)

/-- ACTION_SOW (R205): action SOW sows a new item on the station's beam at an offset from the trigger. -/
def execActionSow (stn : Fin 512) (slot : BitVec 16) (s : State) : Host.Outcome State Fault Refusal :=
  .next (s.onDev fun d => d.actSow stn.val slot.toNat)

/-- PULSE_END (R210): A time-ended station pulse ends WIDTH ns after it began. -/
def execPulseEnd (s : State) : Host.Outcome State Fault Refusal :=
  .next (s.onDev fun d => d.pulseEnd)

end Sys2Proof.Machine
end

