-- ==== Sys2Proof/Machine/ExecStem.lean ====
section
/-! DEFINITION. Meanings of the Stem's commands (01 R19 to R29). -/
namespace Sys2Proof.Machine

/-- STEM_FLIT_RECEIVE (R19): A Stem flit arrives and is checked by CRC, TYPE and CSN copies before delivery in SEQ order. -/
def execStemFlitReceive (die : Fin 2) (bs : List Byte) (lat : BitVec 16) (s : State) : Host.Outcome State Fault Refusal :=
  .next (s.onDev fun d => d.flitReceive die.val (nats bs) lat.toNat)

/-- STEM_NAK_REPLAY (R23): A received NAK makes the sender replay the failed flit and every later one from its retry buffer. -/
def execStemNakReplay (die : Fin 2) (ack : BitVec 12) (s : State) : Host.Outcome State Fault Refusal :=
  .next (s.onDev fun d => d.stemReplay die.val ack.toNat)

/-- REGISTER_ACCESS (R20): A type 4 Stem flit performs a register read or write on the other die and returns its response. -/
def execRegisterAccess (die : Fin 2) (src : Fin 30) (write : Bool) (tag : BitVec 8) (off : BitVec 32) (wide : Bool) (v : BitVec 64) (s : State) : Host.Outcome State Fault Refusal :=
  .next (s.onDev fun d => d.regAccess die.val src.val write tag.toNat off.toNat (if wide then 8 else 4) v.toNat)

/-- FAST_RETRAIN (R24): A lane that loses lock, or three NAKs for one SEQ, start a fast retrain that re-locks all lanes. -/
def execFastRetrain (s : State) : Host.Outcome State Fault Refusal :=
  .next (s.onDev fun d => d.fastRetrainRow)

/-- FAST_RETRAIN_END (R24): A fast retrain ends; the link resumes with held flits delivered in order, or a full retrain follows. -/
def execFastRetrainEnd (ok : Bool) (s : State) : Host.Outcome State Fault Refusal :=
  .next (s.onDev fun d => (d.fastEnd ok).heldRun)

/-- FULL_RETRAIN (R25): A full retrain starts and re-equalises every lane, with the blocks of each die running on under R27. -/
def execFullRetrain (s : State) : Host.Outcome State Fault Refusal :=
  .next (s.onDev fun d => d.fullRetrain)

/-- FULL_RETRAIN_END (R25): A full retrain ends in full running, degraded four-lane running or STEM_DOWN. -/
def execFullRetrainEnd (lanesB lanesI : BitVec 8) (s : State) : Host.Outcome State Fault Refusal :=
  .next (s.onDev fun d => (d.fullEnd lanesB.toNat lanesI.toNat).heldRun)

/-- STEM_CTRL_FULL_RETRAIN (R29): A write of 1 to STEM_CTRL.FULL_RETRAIN starts a full retrain or escalates a fast one. -/
def execStemCtrlFullRetrain (src : Fin 30) (die : Fin 2) (v : BitVec 32) (s : State) : Host.Outcome State Fault Refusal :=
  .next (s.onDev fun d => d.regCommand src.val (stemReg die.val Reg.STEM_CTRL) 4 (v.toNat ||| 4))

/-- STEM_CTRL_FAST_RETRAIN (R29): A write of 1 to STEM_CTRL.FAST_RETRAIN starts a fast retrain unless a retrain is running. -/
def execStemCtrlFastRetrain (src : Fin 30) (die : Fin 2) (v : BitVec 32) (s : State) : Host.Outcome State Fault Refusal :=
  .next (s.onDev fun d => d.regCommand src.val (stemReg die.val Reg.STEM_CTRL) 4 (v.toNat ||| 1))

end Sys2Proof.Machine
end

