-- ==== Sys2Proof/Machine/ExecTimer.lean ====
section
/-! DEFINITION. Meanings of the timer and pin commands (13 R351 to R364). -/
namespace Sys2Proof.Machine

/-- TMR_LOAD (R351): A write to TMR_LOAD sets the count at once without a step. -/
def execTmrLoad (src : Fin 30) (n : Fin 32) (v : BitVec 32) (s : State) : Host.Outcome State Fault Refusal :=
  .next (s.onDev fun d => d.regCommand src.val (Reg.TMR_LOAD n.val) 4 v.toNat)

/-- TMR_PRELOAD_WRITE (R351): A write to TMR_RELOAD, TMR_CMP0 or TMR_CMP1 goes to the preload copy or the active register. -/
def execTmrPreloadWrite (src : Fin 30) (n : Fin 32) (which : Fin 3) (v : BitVec 32) (s : State) : Host.Outcome State Fault Refusal :=
  .next (s.onDev fun d =>
    d.regCommand src.val (if which.val = 0 then Reg.TMR_RELOAD n.val else if which.val = 1 then Reg.TMR_CMP0 n.val else Reg.TMR_CMP1 n.val) 4 v.toNat)

/-- TMR_COUNT (R356): A read of TMR_COUNT returns the count and latches every chain timer into its TMR_SNAP. -/
def execTmrCount (src : Fin 30) (n : Fin 32) (s : State) : Host.Outcome State Fault Refusal :=
  .next (s.onDev fun d => d.regReadCommand src.val (Reg.TMR_COUNT n.val) 4)

/-- PIN_SWITCH_END (R364): A pin's switch interval Δ ends and the new owner's level or the keeper takes the pad. -/
def execPinSwitchEnd (n : Fin 248) (s : State) : Host.Outcome State Fault Refusal :=
  .next (s.onDev fun d => d.pinSwitchEnd n.val)

end Sys2Proof.Machine
end

