-- ==== Sys2Proof/Machine/ExecTwin.lean ====
section
/-! DEFINITION. Meanings of the Graft frames and events (21 R528 to R549). -/
namespace Sys2Proof.Machine

/-- HEARTBEAT (R530): A HEARTBEAT frame reports the peer's tick, CSN, role and UID. -/
def execHeartbeat (h : FrameHdr) (bs : List Byte) (s : State) : Host.Outcome State Fault Refusal :=
  .next (s.onDev fun d => d.frameIn h 1 (nats bs))

/-- GRAFT_COMMIT (R537): A COMMIT frame arms a replicated commit on the standby, or takes it out of synchronisation if late. -/
def execGraftCommit (h : FrameHdr) (bs : List Byte) (s : State) : Host.Outcome State Fault Refusal :=
  .next (s.onDev fun d => d.frameIn h 2 (nats bs))

/-- CRESULT (R537): A CRESULT confirms or aborts a replicated commit on the standby. -/
def execCresult (h : FrameHdr) (bs : List Byte) (s : State) : Host.Outcome State Fault Refusal :=
  .next (s.onDev fun d => d.frameIn h 3 (nats bs))

/-- FURROW (R538): A FURROW record is applied whole on the standby in one beam cycle. -/
def execFurrow (h : FrameHdr) (bs : List Byte) (s : State) : Host.Outcome State Fault Refusal :=
  .next (s.onDev fun d => d.frameIn h 4 (nats bs))

/-- MEMWR (R536): A MEMWR frame replicates a memory write on the standby. -/
def execMemwr (h : FrameHdr) (bs : List Byte) (s : State) : Host.Outcome State Fault Refusal :=
  .next (s.onDev fun d => d.frameIn h 5 (nats bs))

/-- GRAFT_BEAM (R541): A BEAM frame corrects the standby beam to the active member's beam. -/
def execGraftBeam (h : FrameHdr) (bs : List Byte) (s : State) : Host.Outcome State Fault Refusal :=
  .next (s.onDev fun d => d.frameIn h 6 (nats bs))

/-- GRAFT_SYNC (R541): A standby SYNC and its reply keep the standby line time locked to the active member. -/
def execGraftSync (h : Option FrameHdr) (reply : Bool) (bs : List Byte) (s : State) : Host.Outcome State Fault Refusal :=
  .next (s.onDev fun d => match h with | none => d.graftSyncSend | some h => d.frameIn h (if reply then 8 else 7) (nats bs))

/-- GRAFT_HANDOFF (R540): A HANDOFF frame records a handoff step on the standby and releases its fabric step. -/
def execGraftHandoff (h : FrameHdr) (bs : List Byte) (s : State) : Host.Outcome State Fault Refusal :=
  .next (s.onDev fun d => d.frameIn h 9 (nats bs))

/-- JOIN_REQ (R547): A JOIN_REQ is refused or accepted, opening a snapshot and sending JOIN_ACK. -/
def execJoinReq (h : FrameHdr) (bs : List Byte) (s : State) : Host.Outcome State Fault Refusal :=
  .next (s.onDev fun d => d.frameIn h 10 (nats bs))

/-- JOIN_ACK (R547): A JOIN_ACK gives the joining member c₀. -/
def execJoinAck (h : FrameHdr) (bs : List Byte) (s : State) : Host.Outcome State Fault Refusal :=
  .next (s.onDev fun d => d.frameIn h 11 (nats bs))

/-- GRAFT_COPY (R547): A COPY frame writes a 256-byte unit of the join copy. -/
def execGraftCopy (h : FrameHdr) (bs : List Byte) (s : State) : Host.Outcome State Fault Refusal :=
  .next (s.onDev fun d => d.frameIn h 12 (nats bs))

/-- REGIMG (R547): A REGIMG frame sets register values from the join snapshot unless a later commit set them. -/
def execRegimg (h : FrameHdr) (bs : List Byte) (s : State) : Host.Outcome State Fault Refusal :=
  .next (s.onDev fun d => d.frameIn h 13 (nats bs))

/-- JOIN_DONE (R547): A JOIN_DONE, with a FURROW record of every beam, makes the member STANDBY and SYNC. -/
def execJoinDone (h : FrameHdr) (bs : List Byte) (s : State) : Host.Outcome State Fault Refusal :=
  .next (s.onDev fun d => d.frameIn h 14 (nats bs))

/-- GRAFT_RESEND (R529): frames not acknowledged within 2 µs are resent on both ports. -/
def execGraftResend (s : State) : Host.Outcome State Fault Refusal :=
  .next (s.onDev fun d => d.grfResend)

/-- HEARTBEAT_MISSED (R542): A heartbeat of a tick has not arrived by its deadline; two in a row lose the peer. -/
def execHeartbeatMissed (s : State) : Host.Outcome State Fault Refusal :=
  .next (s.onDev fun d => d.hbMissed)

/-- TAKEOVER (R544): at the takeover boundary the standby becomes ACTIVE, rebuilds items and resumes the machine. -/
def execTakeover (s : State) : Host.Outcome State Fault Refusal :=
  .next (s.onDev fun d => d.takeover)

/-- DEPOSED (R535): an ACTIVE member seeing a later epoch becomes DEPOSED at its next tick boundary. -/
def execDeposed (s : State) : Host.Outcome State Fault Refusal :=
  .next (s.onDev fun d => d.depose)

/-- PAIR_TIMEOUT (R534): GRF_PAIR_TMO ends in SEEKING; the member becomes ACTIVE or raises GRAFT_PEER_LOST. -/
def execPairTimeout (s : State) : Host.Outcome State Fault Refusal :=
  .next (s.onDev fun d => d.pairTimeout)

/-- GRF_JOIN (R549): A write of GRF_CTRL.JOIN starts a join from SEEKING. -/
def execGrfJoin (src : Fin 30) (s : State) : Host.Outcome State Fault Refusal :=
  .next (s.onDev fun d => d.regCommand src.val Reg.GRF_CTRL 4 1)

/-- GRF_LEAVE (R549): A write of GRF_CTRL.LEAVE returns the member to OFF. -/
def execGrfLeave (src : Fin 30) (s : State) : Host.Outcome State Fault Refusal :=
  .next (s.onDev fun d => d.regCommand src.val Reg.GRF_CTRL 4 2)

/-- GRF_TAKEOVER (R543): A write of GRF_CTRL.TAKEOVER takes over at the first tick boundary 2 µs later. -/
def execGrfTakeover (src : Fin 30) (s : State) : Host.Outcome State Fault Refusal :=
  .next (s.onDev fun d => d.regCommand src.val Reg.GRF_CTRL 4 4)

end Sys2Proof.Machine
end

