-- ==== Sys2Proof/Machine/Dispatch.lean ====
section
/-! DEFINITION. The meaning of each command: one arm per constructor, each a direct call. -/
namespace Sys2Proof.Machine

def exec (i : Instr) (s : State) : Host.Outcome State Fault Refusal :=
  match i with
  | .beamCycle => Sys2Proof.Machine.execBeamCycle s
  | .encoderTransition e a b => Sys2Proof.Machine.execEncoderTransition e a b s
  | .indexEdge e level => Sys2Proof.Machine.execIndexEdge e level s
  | .beamLossTimeout b => Sys2Proof.Machine.execBeamLossTimeout b s
  | .beamResume src b v => Sys2Proof.Machine.execBeamResume src b v s
  | .tickBoundary => Sys2Proof.Machine.execTickBoundary s
  | .beamLtSet src v => Sys2Proof.Machine.execBeamLtSet src v s
  | .beamBroadcast b stem => Sys2Proof.Machine.execBeamBroadcast b stem s
  | .broadcastRecordReceive image b bs => Sys2Proof.Machine.execBroadcastRecordReceive image b bs s
  | .pinInputChange p level back => Sys2Proof.Machine.execPinInputChange p level back s
  | .pinChangeAccepted p => Sys2Proof.Machine.execPinChangeAccepted p s
  | .beamPosSnapshot src b wide => Sys2Proof.Machine.execBeamPosSnapshot src b wide s
  | .stemFlitReceive die bs lat => Sys2Proof.Machine.execStemFlitReceive die bs lat s
  | .stemNakReplay die ack => Sys2Proof.Machine.execStemNakReplay die ack s
  | .registerAccess die src write tag off wide v => Sys2Proof.Machine.execRegisterAccess die src write tag off wide v s
  | .fastRetrain => Sys2Proof.Machine.execFastRetrain s
  | .fastRetrainEnd ok => Sys2Proof.Machine.execFastRetrainEnd ok s
  | .fullRetrain => Sys2Proof.Machine.execFullRetrain s
  | .fullRetrainEnd lanesB lanesI => Sys2Proof.Machine.execFullRetrainEnd lanesB lanesI s
  | .stemCtrlFullRetrain src die v => Sys2Proof.Machine.execStemCtrlFullRetrain src die v s
  | .stemCtrlFastRetrain src die v => Sys2Proof.Machine.execStemCtrlFastRetrain src die v s
  | .registerWrite src a wide v => Sys2Proof.Machine.execRegisterWrite src a wide v s
  | .readClear src a wide => Sys2Proof.Machine.execReadClear src a wide s
  | .snapRead src a wide => Sys2Proof.Machine.execSnapRead src a wide s
  | .stagingWrite src a wide v => Sys2Proof.Machine.execStagingWrite src a wide v s
  | .go src g v => Sys2Proof.Machine.execGo src g v s
  | .discard src g v => Sys2Proof.Machine.execDiscard src g v s
  | .unpoison src g v => Sys2Proof.Machine.execUnpoison src g v s
  | .commitArm g => Sys2Proof.Machine.execCommitArm g s
  | .armReceive dom g csn => Sys2Proof.Machine.execArmReceive dom g csn s
  | .ackReceive g dom csn => Sys2Proof.Machine.execAckReceive g dom csn s
  | .commitApply g => Sys2Proof.Machine.execCommitApply g s
  | .withdraw g => Sys2Proof.Machine.execWithdraw g s
  | .remoteSwap dom g => Sys2Proof.Machine.execRemoteSwap dom g s
  | .swapReceive dom g csn => Sys2Proof.Machine.execSwapReceive dom g csn s
  | .abortReceive dom g csn => Sys2Proof.Machine.execAbortReceive dom g csn s
  | .snapshotOpen src => Sys2Proof.Machine.execSnapshotOpen src s
  | .snapshotClose src => Sys2Proof.Machine.execSnapshotClose src s
  | .snapTmo => Sys2Proof.Machine.execSnapTmo s
  | .snapshotViewRead src a wide => Sys2Proof.Machine.execSnapshotViewRead src a wide s
  | .hostWriteAbandon => Sys2Proof.Machine.execHostWriteAbandon s
  | .listMemoryWrite src off bs => Sys2Proof.Machine.execListMemoryWrite src off bs s
  | .mirrorAck => Sys2Proof.Machine.execMirrorAck s
  | .mirrorCopy => Sys2Proof.Machine.execMirrorCopy s
  | .switchEdge c => Sys2Proof.Machine.execSwitchEdge c s
  | .camCorrIn src c v => Sys2Proof.Machine.execCamCorrIn src c v s
  | .camOvrReq src c => Sys2Proof.Machine.execCamOvrReq src c s
  | .itemDirectWrite src off bs => Sys2Proof.Machine.execItemDirectWrite src off bs s
  | .itemHringRd src v => Sys2Proof.Machine.execItemHringRd src v s
  | .verdictOr slot id m => Sys2Proof.Machine.execVerdictOr slot id m s
  | .verdictExpect slot id key last => Sys2Proof.Machine.execVerdictExpect slot id key last s
  | .verdictDone slot id m key => Sys2Proof.Machine.execVerdictDone slot id m key s
  | .printAck slot id key => Sys2Proof.Machine.execPrintAck slot id key s
  | .printEnd slot id => Sys2Proof.Machine.execPrintEnd slot id s
  | .verdictDeadline => Sys2Proof.Machine.execVerdictDeadline s
  | .printAckDeadline => Sys2Proof.Machine.execPrintAckDeadline s
  | .itemCmdNop src ch slot => Sys2Proof.Machine.execItemCmdNop src ch slot s
  | .itemCmdSow src ch autoId => Sys2Proof.Machine.execItemCmdSow src ch autoId s
  | .itemCmdRead src ch slot => Sys2Proof.Machine.execItemCmdRead src ch slot s
  | .itemCmdWrite src ch slot => Sys2Proof.Machine.execItemCmdWrite src ch slot s
  | .setv src ch slot => Sys2Proof.Machine.execSetv src ch slot s
  | .clrv src ch slot => Sys2Proof.Machine.execClrv src ch slot s
  | .itemCmdHarvest src ch slot noRing => Sys2Proof.Machine.execItemCmdHarvest src ch slot noRing s
  | .move src ch slot => Sys2Proof.Machine.execMove src ch slot s
  | .flushBeam src ch slot => Sys2Proof.Machine.execFlushBeam src ch slot s
  | .itemCmdReserved src ch code slot => Sys2Proof.Machine.execItemCmdReserved src ch code slot s
  | .itemFlush src v => Sys2Proof.Machine.execItemFlush src v s
  | .stationEvaluation => Sys2Proof.Machine.execStationEvaluation s
  | .actionNone stn slot => Sys2Proof.Machine.execActionNone stn slot s
  | .actionPulse stn slot => Sys2Proof.Machine.execActionPulse stn slot s
  | .actionCamera stn slot => Sys2Proof.Machine.execActionCamera stn slot s
  | .actionOverride stn slot => Sys2Proof.Machine.execActionOverride stn slot s
  | .actionEvent stn slot => Sys2Proof.Machine.execActionEvent stn slot s
  | .actionHarvest stn slot => Sys2Proof.Machine.execActionHarvest stn slot s
  | .actionTransfer stn slot => Sys2Proof.Machine.execActionTransfer stn slot s
  | .actionHandoff stn slot => Sys2Proof.Machine.execActionHandoff stn slot s
  | .actionSow stn slot => Sys2Proof.Machine.execActionSow stn slot s
  | .pulseEnd => Sys2Proof.Machine.execPulseEnd s
  | .downlinkTransmit p => Sys2Proof.Machine.execDownlinkTransmit p s
  | .uplinkReceive p start signal groups => Sys2Proof.Machine.execUplinkReceive p start signal groups s
  | .uplinkMiss p => Sys2Proof.Machine.execUplinkMiss p s
  | .driveSyncAcquired p => Sys2Proof.Machine.execDriveSyncAcquired p s
  | .driveSyncLoss p => Sys2Proof.Machine.execDriveSyncLoss p s
  | .opMov c => Sys2Proof.Machine.execOpMov c s
  | .opZext c => Sys2Proof.Machine.execOpZext c s
  | .opSext c => Sys2Proof.Machine.execOpSext c s
  | .opLea c => Sys2Proof.Machine.execOpLea c s
  | .opPush c => Sys2Proof.Machine.execOpPush c s
  | .opPop c => Sys2Proof.Machine.execOpPop c s
  | .opXchg c => Sys2Proof.Machine.execOpXchg c s
  | .opAdd c => Sys2Proof.Machine.execOpAdd c s
  | .opSub c => Sys2Proof.Machine.execOpSub c s
  | .opAddx c => Sys2Proof.Machine.execOpAddx c s
  | .opSubx c => Sys2Proof.Machine.execOpSubx c s
  | .opNeg c => Sys2Proof.Machine.execOpNeg c s
  | .opMul c => Sys2Proof.Machine.execOpMul c s
  | .opMin c => Sys2Proof.Machine.execOpMin c s
  | .opMax c => Sys2Proof.Machine.execOpMax c s
  | .opAnd c => Sys2Proof.Machine.execOpAnd c s
  | .opOr c => Sys2Proof.Machine.execOpOr c s
  | .opXor c => Sys2Proof.Machine.execOpXor c s
  | .opBic c => Sys2Proof.Machine.execOpBic c s
  | .opNot c => Sys2Proof.Machine.execOpNot c s
  | .opShl c => Sys2Proof.Machine.execOpShl c s
  | .opShr c => Sys2Proof.Machine.execOpShr c s
  | .opSar c => Sys2Proof.Machine.execOpSar c s
  | .opRol c => Sys2Proof.Machine.execOpRol c s
  | .opRor c => Sys2Proof.Machine.execOpRor c s
  | .opSet c => Sys2Proof.Machine.execOpSet c s
  | .opCb c => Sys2Proof.Machine.execOpCb c s
  | .opJ c => Sys2Proof.Machine.execOpJ c s
  | .opJsr c => Sys2Proof.Machine.execOpJsr c s
  | .opJr c => Sys2Proof.Machine.execOpJr c s
  | .opRts c => Sys2Proof.Machine.execOpRts c s
  | .opRti c => Sys2Proof.Machine.execOpRti c s
  | .opNop c => Sys2Proof.Machine.execOpNop c s
  | .opFence c => Sys2Proof.Machine.execOpFence c s
  | .opIflush c => Sys2Proof.Machine.execOpIflush c s
  | .opWait c => Sys2Proof.Machine.execOpWait c s
  | .opBrk c => Sys2Proof.Machine.execOpBrk c s
  | .opTrap c => Sys2Proof.Machine.execOpTrap c s
  | .opEoi c => Sys2Proof.Machine.execOpEoi c s
  | .opMuld c => Sys2Proof.Machine.execOpMuld c s
  | .opMac c => Sys2Proof.Machine.execOpMac c s
  | .opDiv c => Sys2Proof.Machine.execOpDiv c s
  | .opDivu c => Sys2Proof.Machine.execOpDivu c s
  | .opRemS c => Sys2Proof.Machine.execOpRemS c s
  | .opRemu c => Sys2Proof.Machine.execOpRemu c s
  | .opSqrt c => Sys2Proof.Machine.execOpSqrt c s
  | .opCrc32c c => Sys2Proof.Machine.execOpCrc32c c s
  | .longOperationComplete c n => Sys2Proof.Machine.execLongOperationComplete c n s
  | .opMovs c => Sys2Proof.Machine.execOpMovs c s
  | .opFils c => Sys2Proof.Machine.execOpFils c s
  | .opCmps c => Sys2Proof.Machine.execOpCmps c s
  | .opScns c => Sys2Proof.Machine.execOpScns c s
  | .opSums c => Sys2Proof.Machine.execOpSums c s
  | .reservedOpcode c => Sys2Proof.Machine.execReservedOpcode c s
  | .storeBufferDrain c n => Sys2Proof.Machine.execStoreBufferDrain c n s
  | .farReadReturn c => Sys2Proof.Machine.execFarReadReturn c s
  | .icacheLineFill c => Sys2Proof.Machine.execIcacheLineFill c s
  | .ppOut c bank v => Sys2Proof.Machine.execPpOut c bank v s
  | .ppSet c bank v => Sys2Proof.Machine.execPpSet c bank v s
  | .ppClr c bank v => Sys2Proof.Machine.execPpClr c bank v s
  | .ppTgl c bank v => Sys2Proof.Machine.execPpTgl c bank v s
  | .coreTimerMatch c => Sys2Proof.Machine.execCoreTimerMatch c s
  | .corectlReset src c => Sys2Proof.Machine.execCorectlReset src c s
  | .release src c => Sys2Proof.Machine.execRelease src c s
  | .halt src c => Sys2Proof.Machine.execHalt src c s
  | .resume src c => Sys2Proof.Machine.execResume src c s
  | .step src c => Sys2Proof.Machine.execStep src c s
  | .corectlDregData src c v => Sys2Proof.Machine.execCorectlDregData src c v s
  | .intcRaise src v => Sys2Proof.Machine.execIntcRaise src v s
  | .eventFlit die k bs => Sys2Proof.Machine.execEventFlit die k bs s
  | .interruptEntry c k early => Sys2Proof.Machine.execInterruptEntry c k early s
  | .coreClaim c => Sys2Proof.Machine.execCoreClaim c s
  | .coreEoi c k => Sys2Proof.Machine.execCoreEoi c k s
  | .intcQRd src q v => Sys2Proof.Machine.execIntcQRd src q v s
  | .tmrLoad src n v => Sys2Proof.Machine.execTmrLoad src n v s
  | .tmrPreloadWrite src n which v => Sys2Proof.Machine.execTmrPreloadWrite src n which v s
  | .tmrCount src n => Sys2Proof.Machine.execTmrCount src n s
  | .pinSwitchEnd n => Sys2Proof.Machine.execPinSwitchEnd n s
  | .cameraTag bs => Sys2Proof.Machine.execCameraTag bs s
  | .frameStart p vc ecc => Sys2Proof.Machine.execFrameStart p vc ecc s
  | .longPacket p vc dt ecc crcOk ago bs => Sys2Proof.Machine.execLongPacket p vc dt ecc crcOk ago bs s
  | .frameEnd p vc ecc => Sys2Proof.Machine.execFrameEnd p vc ecc s
  | .untagged p => Sys2Proof.Machine.execUntagged p s
  | .frameTimeout p => Sys2Proof.Machine.execFrameTimeout p s
  | .noFrame p => Sys2Proof.Machine.execNoFrame p s
  | .sieveJobStart q => Sys2Proof.Machine.execSieveJobStart q s
  | .sieveEnd q => Sys2Proof.Machine.execSieveEnd q s
  | .correct q => Sys2Proof.Machine.execCorrect q s
  | .sieveRegister q => Sys2Proof.Machine.execSieveRegister q s
  | .tilecmp q => Sys2Proof.Machine.execTilecmp q s
  | .presence q => Sys2Proof.Machine.execPresence q s
  | .colour q => Sys2Proof.Machine.execColour q s
  | .code q => Sys2Proof.Machine.execCode q s
  | .sieveCb q => Sys2Proof.Machine.execSieveCb q s
  | .sieveSetv q => Sys2Proof.Machine.execSieveSetv q s
  | .corrx q => Sys2Proof.Machine.execCorrx q s
  | .calc q => Sys2Proof.Machine.execCalc q s
  | .result q => Sys2Proof.Machine.execResult q s
  | .sieveJobAbort q => Sys2Proof.Machine.execSieveJobAbort q s
  | .caminI2cCmd src p v => Sys2Proof.Machine.execCaminI2cCmd src p v s
  | .i2cDone p outcome written rdata => Sys2Proof.Machine.execI2cDone p outcome written rdata s
  | .pipeFrameStart p => Sys2Proof.Machine.execPipeFrameStart p s
  | .compGo src p => Sys2Proof.Machine.execCompGo src p s
  | .mirrorList p => Sys2Proof.Machine.execMirrorList p s
  | .pipeLineStart p => Sys2Proof.Machine.execPipeLineStart p s
  | .goldenEntryValid p => Sys2Proof.Machine.execGoldenEntryValid p s
  | .compTload src p v => Sys2Proof.Machine.execCompTload src p v s
  | .tloadDone raster p => Sys2Proof.Machine.execTloadDone raster p s
  | .drawQWr src e v => Sys2Proof.Machine.execDrawQWr src e v s
  | .drawNop e => Sys2Proof.Machine.execDrawNop e s
  | .fill e => Sys2Proof.Machine.execFill e s
  | .copy e => Sys2Proof.Machine.execCopy e s
  | .glyph e => Sys2Proof.Machine.execGlyph e s
  | .symbol e => Sys2Proof.Machine.execSymbol e s
  | .clip e => Sys2Proof.Machine.execClip e s
  | .signal e => Sys2Proof.Machine.execSignal e s
  | .drawResume src e v => Sys2Proof.Machine.execDrawResume src e v s
  | .swathStart bs => Sys2Proof.Machine.execSwathStart bs s
  | .timeFrame n => Sys2Proof.Machine.execTimeFrame n s
  | .statusFrame n start blocks => Sys2Proof.Machine.execStatusFrame n start blocks s
  | .lineFrame n => Sys2Proof.Machine.execLineFrame n s
  | .rasterLoss n => Sys2Proof.Machine.execRasterLoss n s
  | .rasterTload src n v => Sys2Proof.Machine.execRasterTload src n v s
  | .hpd p kind rate lanes psr psr2 => Sys2Proof.Machine.execHpd p kind rate lanes psr psr2 s
  | .trainFail p => Sys2Proof.Machine.execTrainFail p s
  | .psrEnter src v => Sys2Proof.Machine.execPsrEnter src v s
  | .psrExit src v => Sys2Proof.Machine.execPsrExit src v s
  | .dispSu src p v => Sys2Proof.Machine.execDispSu src p v s
  | .dispAuxCmd src p v => Sys2Proof.Machine.execDispAuxCmd src p v s
  | .auxDone p outcome bs => Sys2Proof.Machine.execAuxDone p outcome bs s
  | .audioFrame dom => Sys2Proof.Machine.execAudioFrame dom s
  | .tdmFrame p clocks words => Sys2Proof.Machine.execTdmFrame p clocks words s
  | .unlock dom => Sys2Proof.Machine.execUnlock dom s
  | .audKeyOn src m => Sys2Proof.Machine.execAudKeyOn src m s
  | .audKeyOff src m => Sys2Proof.Machine.execAudKeyOff src m s
  | .orderAnalysisSegment c => Sys2Proof.Machine.execOrderAnalysisSegment c s
  | .memcTrain src => Sys2Proof.Machine.execMemcTrain src s
  | .trained => Sys2Proof.Machine.execTrained s
  | .scrub line found => Sys2Proof.Machine.execScrub line found s
  | .dmaChWr src e c v => Sys2Proof.Machine.execDmaChWr src e c v s
  | .dmaCopy e ue => Sys2Proof.Machine.execDmaCopy e ue s
  | .dmaFill e => Sys2Proof.Machine.execDmaFill e s
  | .dmaNop e => Sys2Proof.Machine.execDmaNop e s
  | .descriptorComplete e => Sys2Proof.Machine.execDescriptorComplete e s
  | .dmaResume src e c => Sys2Proof.Machine.execDmaResume src e c s
  | .trellisLaneLock p => Sys2Proof.Machine.execTrellisLaneLock p s
  | .portDown p => Sys2Proof.Machine.execPortDown p s
  | .hello h bs => Sys2Proof.Machine.execHello h bs s
  | .route h bs => Sys2Proof.Machine.execRoute h bs s
  | .idReq h bs => Sys2Proof.Machine.execIdReq h bs s
  | .idGrant h bs => Sys2Proof.Machine.execIdGrant h bs s
  | .sync rx bs => Sys2Proof.Machine.execSync rx bs s
  | .syncReply h bs => Sys2Proof.Machine.execSyncReply h bs s
  | .lbeam k => Sys2Proof.Machine.execLbeam k s
  | .lbeamReceive h bs => Sys2Proof.Machine.execLbeamReceive h bs s
  | .cellReplay p => Sys2Proof.Machine.execCellReplay p s
  | .unreachableHoldExpiry => Sys2Proof.Machine.execUnreachableHoldExpiry s
  | .offer h bs => Sys2Proof.Machine.execOffer h bs s
  | .accept h bs => Sys2Proof.Machine.execAccept h bs s
  | .handoffRefuse h bs => Sys2Proof.Machine.execHandoffRefuse h bs s
  | .handoffDone h bs => Sys2Proof.Machine.execHandoffDone h bs s
  | .handoffAbort h bs => Sys2Proof.Machine.execHandoffAbort h bs s
  | .trlHoTmo => Sys2Proof.Machine.execTrlHoTmo s
  | .hoLost => Sys2Proof.Machine.execHoLost s
  | .write h bs => Sys2Proof.Machine.execWrite h bs s
  | .rdReq h bs => Sys2Proof.Machine.execRdReq h bs s
  | .rdResp h bs => Sys2Proof.Machine.execRdResp h bs s
  | .exportReadTimeout => Sys2Proof.Machine.execExportReadTimeout s
  | .regRd h bs => Sys2Proof.Machine.execRegRd h bs s
  | .regResp h bs => Sys2Proof.Machine.execRegResp h bs s
  | .prepare h bs => Sys2Proof.Machine.execPrepare h bs s
  | .ready h bs => Sys2Proof.Machine.execReady h bs s
  | .lcRefuse h bs => Sys2Proof.Machine.execLcRefuse h bs s
  | .confirmPoint g => Sys2Proof.Machine.execConfirmPoint g s
  | .confirm h bs => Sys2Proof.Machine.execConfirm h bs s
  | .lcAbort h bs => Sys2Proof.Machine.execLcAbort h bs s
  | .lcSplit g => Sys2Proof.Machine.execLcSplit g s
  | .lcResult h bs => Sys2Proof.Machine.execLcResult h bs s
  | .alarm h bs => Sys2Proof.Machine.execAlarm h bs s
  | .alarmWindowEnd => Sys2Proof.Machine.execAlarmWindowEnd s
  | .heartbeat h bs => Sys2Proof.Machine.execHeartbeat h bs s
  | .graftCommit h bs => Sys2Proof.Machine.execGraftCommit h bs s
  | .cresult h bs => Sys2Proof.Machine.execCresult h bs s
  | .furrow h bs => Sys2Proof.Machine.execFurrow h bs s
  | .memwr h bs => Sys2Proof.Machine.execMemwr h bs s
  | .graftBeam h bs => Sys2Proof.Machine.execGraftBeam h bs s
  | .graftSync h reply bs => Sys2Proof.Machine.execGraftSync h reply bs s
  | .graftHandoff h bs => Sys2Proof.Machine.execGraftHandoff h bs s
  | .joinReq h bs => Sys2Proof.Machine.execJoinReq h bs s
  | .joinAck h bs => Sys2Proof.Machine.execJoinAck h bs s
  | .graftCopy h bs => Sys2Proof.Machine.execGraftCopy h bs s
  | .regimg h bs => Sys2Proof.Machine.execRegimg h bs s
  | .joinDone h bs => Sys2Proof.Machine.execJoinDone h bs s
  | .graftResend => Sys2Proof.Machine.execGraftResend s
  | .heartbeatMissed => Sys2Proof.Machine.execHeartbeatMissed s
  | .takeover => Sys2Proof.Machine.execTakeover s
  | .deposed => Sys2Proof.Machine.execDeposed s
  | .pairTimeout => Sys2Proof.Machine.execPairTimeout s
  | .grfJoin src => Sys2Proof.Machine.execGrfJoin src s
  | .grfLeave src => Sys2Proof.Machine.execGrfLeave src s
  | .grfTakeover src => Sys2Proof.Machine.execGrfTakeover src s
  | .pwrDomReq src w v => Sys2Proof.Machine.execPwrDomReq src w v s
  | .domainSwitch => Sys2Proof.Machine.execDomainSwitch s
  | .offAccess src isWrite a bs => Sys2Proof.Machine.execOffAccess src isWrite a bs s
  | .standby src => Sys2Proof.Machine.execStandby src s
  | .cloche src => Sys2Proof.Machine.execCloche src s
  | .pwrRun src => Sys2Proof.Machine.execPwrRun src s
  | .wakeEvent source k => Sys2Proof.Machine.execWakeEvent source k s
  | .clusterClockChange c => Sys2Proof.Machine.execClusterClockChange c s
  | .thermalSample ts => Sys2Proof.Machine.execThermalSample ts s
  | .droop m n => Sys2Proof.Machine.execDroop m n s
  | .healthPlan margins bad => Sys2Proof.Machine.execHealthPlan margins bad s
  | .capCommitWait => Sys2Proof.Machine.execCapCommitWait s
  | .refLoss => Sys2Proof.Machine.execRefLoss s
  | .domReq m => Sys2Proof.Machine.execDomReq m s
  | .domAck on failed => Sys2Proof.Machine.execDomAck on failed s
  | .monRead first count => Sys2Proof.Machine.execMonRead first count s
  | .monData first slacks => Sys2Proof.Machine.execMonData first slacks s
  | .therm sensor v => Sys2Proof.Machine.execTherm sensor v s
  | .droopReport m n => Sys2Proof.Machine.execDroopReport m n s
  | .logPut src v => Sys2Proof.Machine.execLogPut src v s
  | .logAlmRaise src v => Sys2Proof.Machine.execLogAlmRaise src v s
  | .alarmReport subject cls bitmap at0 detail reporter held => Sys2Proof.Machine.execAlarmReport subject cls bitmap at0 detail reporter held s
  | .alarmEntryWrite p n => Sys2Proof.Machine.execAlarmEntryWrite p n s
  | .logAlmAck src v => Sys2Proof.Machine.execLogAlmAck src v s
  | .autoAck n => Sys2Proof.Machine.execAutoAck n s
  | .logTailDrain p => Sys2Proof.Machine.execLogTailDrain p s
  | .logRingRd src v => Sys2Proof.Machine.execLogRingRd src v s
  | .logTrcPut src t v => Sys2Proof.Machine.execLogTrcPut src t v s
  | .creditBoundary => Sys2Proof.Machine.execCreditBoundary s
  | .lock src confirm => Sys2Proof.Machine.execLock src confirm s
  | .password src => Sys2Proof.Machine.execPassword src s
  | .challenge src => Sys2Proof.Machine.execChallenge src s
  | .respond src => Sys2Proof.Machine.execRespond src s
  | .relock src => Sys2Proof.Machine.execRelock src s
  | .verify src => Sys2Proof.Machine.execVerify src s
  | .verifyComplete => Sys2Proof.Machine.execVerifyComplete s
  | .otpProg src confirm => Sys2Proof.Machine.execOtpProg src confirm s
  | .codeDeny src a bs => Sys2Proof.Machine.execCodeDeny src a bs s
  | .boot bootSrc slotA slotB => Sys2Proof.Machine.execBoot bootSrc slotA slotB s
  | .por => Sys2Proof.Machine.execPor s
  | .pinReset => Sys2Proof.Machine.execPinReset s
  | .deviceReset src => Sys2Proof.Machine.execDeviceReset src s
  | .controlPlaneReset src => Sys2Proof.Machine.execControlPlaneReset src s
  | .dataPlaneReset src => Sys2Proof.Machine.execDataPlaneReset src s
  | .managementPlaneReset src => Sys2Proof.Machine.execManagementPlaneReset src s
  | .beamStop reg pinLow => Sys2Proof.Machine.execBeamStop reg pinLow s
  | .hostRead bar0 off size tag => Sys2Proof.Machine.execHostRead bar0 off size tag s
  | .hostWrite bar0 off bs => Sys2Proof.Machine.execHostWrite bar0 off bs s
  | .hostReadTimeout => Sys2Proof.Machine.execHostReadTimeout s
  | .perstN low => Sys2Proof.Machine.execPerstN low s
  | .hostVecEoi src v => Sys2Proof.Machine.execHostVecEoi src v s
  | .mailboxRead dst srcMac ety head data => Sys2Proof.Machine.execMailboxRead dst srcMac ety head data s
  | .mailboxWrite dst srcMac ety head data => Sys2Proof.Machine.execMailboxWrite dst srcMac ety head data s
  | .wakeFrame dst srcMac ety head => Sys2Proof.Machine.execWakeFrame dst srcMac ety head s
  | .hostMdio src v => Sys2Proof.Machine.execHostMdio src v s
  | .graftLaneLock p => Sys2Proof.Machine.execGraftLaneLock p s
  | .graftPortLoss p => Sys2Proof.Machine.execGraftPortLoss p s
  | .rasterLaneLockLoss n => Sys2Proof.Machine.execRasterLaneLockLoss n s
  | .cameraLaneSync p deskew => Sys2Proof.Machine.execCameraLaneSync p deskew s
  | .displayLinkTrained p rate lanes => Sys2Proof.Machine.execDisplayLinkTrained p rate lanes s
  | .pcieLinkChange st width rate => Sys2Proof.Machine.execPcieLinkChange st width rate s
  | .ethLinkChange up => Sys2Proof.Machine.execEthLinkChange up s
  | .mdioDone v => Sys2Proof.Machine.execMdioDone v s
  | .fuseProgramDone => Sys2Proof.Machine.execFuseProgramDone s
  | .logTraceCell h trace bs => Sys2Proof.Machine.execLogTraceCell h trace bs s
  | .wck2dqTracking c => Sys2Proof.Machine.execWck2dqTracking c s
  | .sieveRrRd src v => Sys2Proof.Machine.execSieveRrRd src v s
  | .logTringRd src v => Sys2Proof.Machine.execLogTringRd src v s
  | .tapInstruction kind levels => Sys2Proof.Machine.execTapInstruction kind levels s

end Sys2Proof.Machine
end

