-- ==== Sys2Proof/WellFormed.lean ====
section
/-! DEFINITION. Which commands are well formed: the lengths of what arrives (01 R19, 02 R63, 14 R371, 17 R444, R447, 20 R503, 21 R528, 22 R573,
25 R617, R622). -/
namespace Sys2Proof

/-- A list of bytes has from `lo` to `hi` of them. -/
def lenIn {α : Type} (bs : List α) (lo hi : Nat) : Bool := decide (lo ≤ bs.length ∧ bs.length ≤ hi)

/-- The payload of a cell: a multiple of 4 bytes up to 256 (R503). -/
def cellLen (bs : List Byte) : Bool := lenIn bs 0 256 && bs.length % 4 == 0

def WellFormed (i : Instr) : Bool :=
  match i with
  | .beamCycle => true
  | .encoderTransition _ _ _ => true
  | .indexEdge _ _ => true
  | .beamLossTimeout _ => true
  | .beamResume _ _ _ => true
  | .tickBoundary => true
  | .beamLtSet _ _ => true
  | .beamBroadcast _ _ => true
  | .broadcastRecordReceive _ _ bs => bs.length == 36
  | .pinInputChange _ _ _ => true
  | .pinChangeAccepted _ => true
  | .beamPosSnapshot _ _ _ => true
  | .stemFlitReceive _ bs _ => bs.length == 80
  | .stemNakReplay _ _ => true
  | .registerAccess _ _ _ _ _ _ _ => true
  | .fastRetrain => true
  | .fastRetrainEnd _ => true
  | .fullRetrain => true
  | .fullRetrainEnd _ _ => true
  | .stemCtrlFullRetrain _ _ _ => true
  | .stemCtrlFastRetrain _ _ _ => true
  | .registerWrite _ _ _ _ => true
  | .readClear _ _ _ => true
  | .snapRead _ _ _ => true
  | .stagingWrite _ _ _ _ => true
  | .go _ _ _ => true
  | .discard _ _ _ => true
  | .unpoison _ _ _ => true
  | .commitArm _ => true
  | .armReceive _ _ _ => true
  | .ackReceive _ _ _ => true
  | .commitApply _ => true
  | .withdraw _ => true
  | .remoteSwap _ _ => true
  | .swapReceive _ _ _ => true
  | .abortReceive _ _ _ => true
  | .snapshotOpen _ => true
  | .snapshotClose _ => true
  | .snapTmo => true
  | .snapshotViewRead _ _ _ => true
  | .hostWriteAbandon => true
  | .listMemoryWrite _ off bs => lenIn bs 1 64 && decide (off.toNat + bs.length ≤ 0x100000)
  | .mirrorAck => true
  | .mirrorCopy => true
  | .switchEdge _ => true
  | .camCorrIn _ _ _ => true
  | .camOvrReq _ _ => true
  | .itemDirectWrite _ off bs => lenIn bs 1 64 && decide (off.toNat + bs.length ≤ 0x400000)
  | .itemHringRd _ _ => true
  | .verdictOr _ _ _ => true
  | .verdictExpect _ _ _ _ => true
  | .verdictDone _ _ _ _ => true
  | .printAck _ _ _ => true
  | .printEnd _ _ => true
  | .verdictDeadline => true
  | .printAckDeadline => true
  | .itemCmdNop _ _ _ => true
  | .itemCmdSow _ _ _ => true
  | .itemCmdRead _ _ _ => true
  | .itemCmdWrite _ _ _ => true
  | .setv _ _ _ => true
  | .clrv _ _ _ => true
  | .itemCmdHarvest _ _ _ _ => true
  | .move _ _ _ => true
  | .flushBeam _ _ _ => true
  | .itemCmdReserved _ _ _ _ => true
  | .itemFlush _ _ => true
  | .stationEvaluation => true
  | .actionNone _ _ => true
  | .actionPulse _ _ => true
  | .actionCamera _ _ => true
  | .actionOverride _ _ => true
  | .actionEvent _ _ => true
  | .actionHarvest _ _ => true
  | .actionTransfer _ _ => true
  | .actionHandoff _ _ => true
  | .actionSow _ _ => true
  | .pulseEnd => true
  | .downlinkTransmit _ => true
  | .uplinkReceive _ _ _ gs => lenIn gs 0 1522
  | .uplinkMiss _ => true
  | .driveSyncAcquired _ => true
  | .driveSyncLoss _ => true
  | .opMov _ => true
  | .opZext _ => true
  | .opSext _ => true
  | .opLea _ => true
  | .opPush _ => true
  | .opPop _ => true
  | .opXchg _ => true
  | .opAdd _ => true
  | .opSub _ => true
  | .opAddx _ => true
  | .opSubx _ => true
  | .opNeg _ => true
  | .opMul _ => true
  | .opMin _ => true
  | .opMax _ => true
  | .opAnd _ => true
  | .opOr _ => true
  | .opXor _ => true
  | .opBic _ => true
  | .opNot _ => true
  | .opShl _ => true
  | .opShr _ => true
  | .opSar _ => true
  | .opRol _ => true
  | .opRor _ => true
  | .opSet _ => true
  | .opCb _ => true
  | .opJ _ => true
  | .opJsr _ => true
  | .opJr _ => true
  | .opRts _ => true
  | .opRti _ => true
  | .opNop _ => true
  | .opFence _ => true
  | .opIflush _ => true
  | .opWait _ => true
  | .opBrk _ => true
  | .opTrap _ => true
  | .opEoi _ => true
  | .opMuld _ => true
  | .opMac _ => true
  | .opDiv _ => true
  | .opDivu _ => true
  | .opRemS _ => true
  | .opRemu _ => true
  | .opSqrt _ => true
  | .opCrc32c _ => true
  | .longOperationComplete _ _ => true
  | .opMovs _ => true
  | .opFils _ => true
  | .opCmps _ => true
  | .opScns _ => true
  | .opSums _ => true
  | .reservedOpcode _ => true
  | .storeBufferDrain _ _ => true
  | .farReadReturn _ => true
  | .icacheLineFill _ => true
  | .ppOut _ _ _ => true
  | .ppSet _ _ _ => true
  | .ppClr _ _ _ => true
  | .ppTgl _ _ _ => true
  | .coreTimerMatch _ => true
  | .corectlReset _ _ => true
  | .release _ _ => true
  | .halt _ _ => true
  | .resume _ _ => true
  | .step _ _ => true
  | .corectlDregData _ _ _ => true
  | .intcRaise _ _ => true
  | .eventFlit _ _ bs => lenIn bs 1 64
  | .interruptEntry _ _ _ => true
  | .coreClaim _ => true
  | .coreEoi _ _ => true
  | .intcQRd _ _ _ => true
  | .tmrLoad _ _ _ => true
  | .tmrPreloadWrite _ _ _ _ => true
  | .tmrCount _ _ => true
  | .pinSwitchEnd _ => true
  | .cameraTag bs => bs.length == 32
  | .frameStart _ _ _ => true
  | .longPacket _ _ _ _ _ _ bs => lenIn bs 0 65535
  | .frameEnd _ _ _ => true
  | .untagged _ => true
  | .frameTimeout _ => true
  | .noFrame _ => true
  | .sieveJobStart _ => true
  | .sieveEnd _ => true
  | .correct _ => true
  | .sieveRegister _ => true
  | .tilecmp _ => true
  | .presence _ => true
  | .colour _ => true
  | .code _ => true
  | .sieveCb _ => true
  | .sieveSetv _ => true
  | .corrx _ => true
  | .calc _ => true
  | .result _ => true
  | .sieveJobAbort _ => true
  | .caminI2cCmd _ _ _ => true
  | .i2cDone _ _ _ _ => true
  | .pipeFrameStart _ => true
  | .compGo _ _ => true
  | .mirrorList _ => true
  | .pipeLineStart _ => true
  | .goldenEntryValid _ => true
  | .compTload _ _ _ => true
  | .tloadDone _ _ => true
  | .drawQWr _ _ _ => true
  | .drawNop _ => true
  | .fill _ => true
  | .copy _ => true
  | .glyph _ => true
  | .symbol _ => true
  | .clip _ => true
  | .signal _ => true
  | .drawResume _ _ _ => true
  | .swathStart bs => bs.length == 32
  | .timeFrame _ => true
  | .statusFrame _ _ blocks => lenIn blocks 2 17
  | .lineFrame _ => true
  | .rasterLoss _ => true
  | .rasterTload _ _ _ => true
  | .hpd _ _ _ _ _ _ => true
  | .trainFail _ => true
  | .psrEnter _ _ => true
  | .psrExit _ _ => true
  | .dispSu _ _ _ => true
  | .dispAuxCmd _ _ _ => true
  | .auxDone _ _ bs => lenIn bs 0 16
  | .audioFrame _ => true
  | .tdmFrame _ _ words => decide (words.length ≤ 16)
  | .unlock _ => true
  | .audKeyOn _ _ => true
  | .audKeyOff _ _ => true
  | .orderAnalysisSegment _ => true
  | .memcTrain _ => true
  | .trained => true
  | .scrub _ _ => true
  | .dmaChWr _ _ _ _ => true
  | .dmaCopy _ _ => true
  | .dmaFill _ => true
  | .dmaNop _ => true
  | .descriptorComplete _ => true
  | .dmaResume _ _ _ => true
  | .trellisLaneLock _ => true
  | .portDown _ => true
  | .hello _ bs => cellLen bs
  | .route _ bs => cellLen bs
  | .idReq _ bs => cellLen bs
  | .idGrant _ bs => cellLen bs
  | .sync _ bs => lenIn bs 0 256
  | .syncReply _ bs => cellLen bs
  | .lbeam _ => true
  | .lbeamReceive _ bs => cellLen bs
  | .cellReplay _ => true
  | .unreachableHoldExpiry => true
  | .offer _ bs => cellLen bs
  | .accept _ bs => cellLen bs
  | .handoffRefuse _ bs => cellLen bs
  | .handoffDone _ bs => cellLen bs
  | .handoffAbort _ bs => cellLen bs
  | .trlHoTmo => true
  | .hoLost => true
  | .write _ bs => cellLen bs
  | .rdReq _ bs => cellLen bs
  | .rdResp _ bs => cellLen bs
  | .exportReadTimeout => true
  | .regRd _ bs => cellLen bs
  | .regResp _ bs => cellLen bs
  | .prepare _ bs => cellLen bs
  | .ready _ bs => cellLen bs
  | .lcRefuse _ bs => cellLen bs
  | .confirmPoint _ => true
  | .confirm _ bs => cellLen bs
  | .lcAbort _ bs => cellLen bs
  | .lcSplit _ => true
  | .lcResult _ bs => cellLen bs
  | .alarm _ bs => cellLen bs
  | .alarmWindowEnd => true
  | .heartbeat _ bs => lenIn bs 33 33
  | .graftCommit _ bs => lenIn bs 0 1024
  | .cresult _ bs => lenIn bs 0 1024
  | .furrow _ bs => lenIn bs 0 1024
  | .memwr _ bs => lenIn bs 0 1024
  | .graftBeam _ bs => lenIn bs 0 1024
  | .graftSync _ _ bs => lenIn bs 0 1024
  | .graftHandoff _ bs => lenIn bs 0 1024
  | .joinReq _ bs => lenIn bs 0 1024
  | .joinAck _ bs => lenIn bs 0 1024
  | .graftCopy _ bs => lenIn bs 0 1024
  | .regimg _ bs => lenIn bs 0 1024
  | .joinDone _ bs => lenIn bs 0 1024
  | .graftResend => true
  | .heartbeatMissed => true
  | .takeover => true
  | .deposed => true
  | .pairTimeout => true
  | .grfJoin _ => true
  | .grfLeave _ => true
  | .grfTakeover _ => true
  | .pwrDomReq _ _ _ => true
  | .domainSwitch => true
  | .offAccess _ _ _ bs => lenIn bs 1 64
  | .standby _ => true
  | .cloche _ => true
  | .pwrRun _ => true
  | .wakeEvent _ _ => true
  | .clusterClockChange _ => true
  | .thermalSample ts => ts.length == 10
  | .droop _ _ => true
  | .healthPlan margins _ => margins.all fun l => l.length == 16
  | .capCommitWait => true
  | .refLoss => true
  | .domReq _ => true
  | .domAck _ _ => true
  | .monRead _ _ => true
  | .monData _ slacks => decide (slacks.length ≤ 15)
  | .therm _ _ => true
  | .droopReport _ _ => true
  | .logPut _ _ => true
  | .logAlmRaise _ _ => true
  | .alarmReport _ _ _ _ _ _ _ => true
  | .alarmEntryWrite _ _ => true
  | .logAlmAck _ _ => true
  | .autoAck _ => true
  | .logTailDrain _ => true
  | .logRingRd _ _ => true
  | .logTrcPut _ _ _ => true
  | .creditBoundary => true
  | .lock _ _ => true
  | .password _ => true
  | .challenge _ => true
  | .respond _ => true
  | .relock _ => true
  | .verify _ => true
  | .verifyComplete => true
  | .otpProg _ _ => true
  | .codeDeny _ _ bs => lenIn bs 1 64
  | .boot _ _ _ => true
  | .por => true
  | .pinReset => true
  | .deviceReset _ => true
  | .controlPlaneReset _ => true
  | .dataPlaneReset _ => true
  | .managementPlaneReset _ => true
  | .beamStop _ _ => true
  | .hostRead _ _ size _ => decide (1 ≤ size.toNat ∧ size.toNat ≤ 4096)
  | .hostWrite _ _ bs => lenIn bs 1 4096
  | .hostReadTimeout => true
  | .perstN _ => true
  | .hostVecEoi _ _ => true
  | .mailboxRead _ _ _ head data => head.length == 24 && data.isEmpty
  | .mailboxWrite _ _ _ head data => head.length == 24 && lenIn data 0 1476
  | .wakeFrame _ _ _ head => head.length == 24
  | .hostMdio _ _ => true
  | .graftLaneLock _ => true
  | .graftPortLoss _ => true
  | .rasterLaneLockLoss _ => true
  | .cameraLaneSync _ _ => true
  | .displayLinkTrained _ _ _ => true
  | .pcieLinkChange _ _ _ => true
  | .ethLinkChange _ => true
  | .mdioDone _ => true
  | .fuseProgramDone => true
  | .logTraceCell _ _ bs => cellLen bs
  | .wck2dqTracking _ => true
  | .sieveRrRd _ _ => true
  | .logTringRd _ _ => true
  | .tapInstruction _ _ => true

end Sys2Proof
end

