-- ==== Sys2Proof/Safety.lean ====
section
/-! DEFINITION. What a safe state is and what a command leaves alone, in the terms that the claims use. -/
namespace Sys2Proof.Machine

/-- The two sparse stores of the device are in canonical form: memory lists no byte that an unlisted address reads as, the register file no
register at its Reset value, both in rising order. Equal contents are then equal data. -/
def Dev.Canonical (d : Dev) : Prop := memWf d.mem = true ∧ regsWf d.regs = true

/-- Every command that waits is well formed. -/
def State.QueueWf (s : State) : Prop := ∀ i ∈ s.pending, WellFormed i = true

/-- A safe state. -/
def State.Safe (s : State) : Prop := s.dev.Canonical ∧ s.QueueWf

/-- The state after the first `n` commands of the queue, none if a command stops before. -/
def run : Nat → State → Option State
  | 0, s => some s
  | n + 1, s =>
    match step s with
    | .next t => run n t
    | _ => none

/-- The command completes: `exec` answers a next state, with the queue as it was and a device of which `P` holds. -/
def Does (c : Instr) (s : State) (P : Dev → Prop) : Prop := ∃ d', exec c s = .next { s with dev := d' } ∧ P d'

/-- The keys of a list. -/
def among (l : List Nat) (k : Nat) : Bool := l.contains k

/-- The entries of a table but the one at `k` are as before. -/
def Others {α : Type} [Inhabited α] (t t' : Tab α) (k : Nat) : Prop := ∀ j, j ≠ k → tget t' j = tget t j

/-- Place of an encoder's levels in the order in which A leads B: 00, 10, 11, 01 (R45). -/
def quadPhase (a b : Bool) : Nat := if a then (if b then 2 else 1) else (if b then 3 else 0)

/-- A die's end of the Stem without what its sending moves: the next SEQ, the flits sent and waiting, and the credits owed (R19, R23). -/
def StemSt.still (s : StemSt) : StemSt := { s with txSeq := 0, retry := [], queue := [], owed := [] }

/-- The device without its register file, its memory and the parts that report to the outside (interrupt controller, log, host, outputs, and the
flits by which an event of the image die reaches the interrupt controller). -/
def Dev.body (d : Dev) : Dev :=
  { d with regs := [], mem := [], free := 0, sent := [], intc := default, log := default, host := default,
           stem := [(0, (d.stemEnd 0).still), (1, (d.stemEnd 1).still)] }

/-- The counts of an interrupt queue, the controller's own counters and HOST_VEC_SERV: the registers that raising a source may change
(R318, R329, R336, R337, R620). -/
def irqReg (k : Nat) : Bool :=
  (decide (Reg.INTC_Q_BASE 0 ≤ k) && decide (k < Reg.INTC_Q_BASE 16) &&
    ((k - Reg.INTC_Q_BASE 0) % 32 == 12 || (k - Reg.INTC_Q_BASE 0) % 32 == 20 || (k - Reg.INTC_Q_BASE 0) % 32 == 24)) ||
  (decide (Reg.INTC_EVT ≤ k) && decide (k < Reg.INTC_RAISE)) || k == Reg.HOST_VEC_SERV

/-- A register of the log block (R590). -/
def logReg (k : Nat) : Bool := decide (Reg.LOG_CFG ≤ k) && decide (k < Reg.LOG_CFG + 0x10000)

/-- Byte `a` lies in the ring of an interrupt queue: 2^K records of 16 bytes from INTC_Q_BASE aligned to the ring (R337, R343). -/
def Dev.inRing (d : Dev) (a : Nat) : Bool :=
  (List.range 16).any fun q =>
    let base := d.fld (Reg.INTC_Q_BASE q) 0 48 / 2 ^ (4 + d.qK q) * 2 ^ (4 + d.qK q)
    decide (base ≤ a) && decide (a < base + 2 ^ (4 + d.qK q))

/-- From `d` to `d'` nothing changes but the registers that `p` holds, the registers and rings that raising an interrupt source may write,
the interrupt, log and host blocks' own state, the outputs with the flits sent, and the parts of the device that `b` sets aside. -/
structure Dev.Frame (b : Dev → Dev) (p : Nat → Bool) (d d' : Dev) : Prop where
  body : b d'.body = b d.body
  regs : ∀ k, p k = false → irqReg k = false → d'.rd k = d.rd k
  mem : ∀ a, d.inRing a = false → d'.byte a = d.byte a

/-- As `Dev.Frame`, with `n` bytes of memory from `a` set aside. -/
structure Dev.FrameAt (b : Dev → Dev) (p : Nat → Bool) (a n : Nat) (d d' : Dev) : Prop where
  body : b d'.body = b d.body
  regs : ∀ k, p k = false → irqReg k = false → d'.rd k = d.rd k
  mem : ∀ x, d.inRing x = false → ¬ (a ≤ x ∧ x < a + n) → d'.byte x = d.byte x

/-- The device with its commit gate set aside. -/
def noCommit (d : Dev) : Dev := { d with commit := default }

/-- The device with its links (Stem, Trellis, Graft) set aside. -/
def noLinks (d : Dev) : Dev := { d with stem := default, trl := default, grf := default }

/-- The device with its items set aside. -/
def noItems (d : Dev) : Dev := { d with items := default }

/-- The device with its stations set aside. -/
def noStn (d : Dev) : Dev := { d with stn := default }

/-- Staged registers whose change does nothing but show the new value (R652): those of the Sieve, the DMA engines, the Graft, the health engine and
the log, and the drive registers but DRV_CFG. -/
def hookFree (k : Nat) : Bool :=
  k / 0x10000 == 0x3010001 || k / 0x10000 == 0x3010007 || k / 0x10000 == 0x300000A || k / 0x10000 == 0x300000C || k / 0x10000 == 0x3FF0003 ||
  k / 0x10000 == 0x3FF0004 || (k / 0x10000 == 0x3000005 && k % 0x200 != 0)

/-- What register `k` reads after the values `l` are written in order, where it read `x` before. -/
def afterVals (l : List (Nat × Word)) (k x : Nat) : Nat :=
  l.foldl (fun x p => if p.1 = k then p.2.toNat % 2 ^ (match regRow k with | some r => r.width | none => 0) else x) x

/-- `k` is the first byte of a register with row `r`, in the active view. -/
def isReg (k : Nat) (r : RegDef) : Bool :=
  isRegSpace k && k % 4 == 0 && viewBits k == (0, k) && regFind k == some (r, k) && decide (k < corectlHigh)

/-- The action of register `k` at its index. -/
def actRun (k : Nat) : Option (Dev → Nat → Nat → Nat → Dev) := (actOf k).map fun x d src v m => x.1.run d src x.2 v m

/-- `k` belongs neither to CORECTL nor to SEC. -/
def plainKey (k : Nat) : Bool := (coreReg k).isNone && !(decide (0x3FF00050000 ≤ k) && decide (k < 0x3FF00060000))

/-- Register `k` reads as it is kept: no view computes it, and reading it captures nothing (R12). -/
def plainRead (k : Nat) : Bool :=
  plainKey k && !srcRegReserved k && (viewOf k).isNone && k != Reg.BEAM_LT && k != Reg.COMMIT_HOST_REC && k != Reg.CAM_PROBE &&
    (instOf k (Reg.BEAM_POS 0) 0x1000 8).isNone && (instOf k (Reg.TMR_COUNT 0) 64 32).isNone &&
    !(decide (Reg.DRV_AX_ACT 0 0 ≤ k) && decide (k < Reg.DRV_AX_ACT 0 0 + 64 * 512))

/-- An access of a source to the register at `k` reaches it: the Stem is up if the access crosses it (R19, R489), the register's power
domain is on (R553), and a write is not one of the host's that the standby discards (R92). -/
def Dev.Reach (d : Dev) (src k : Nat) : Prop :=
  (crosses src k = true → d.stemUp = true) ∧ d.domOn (powDomain k) = true ∧ d.standbyDrops src = false

/-- The device with its cores set aside. -/
def noCores (d : Dev) : Dev := { d with cores := [] }

/-- Core `c` is about to execute instruction `i`, which stands at its PC: the core runs, and no breakpoint, STEP, delay slot, buffered store or
long operation is in the way (R259, R261, R262). -/
structure Dev.Ready (d : Dev) (c : Nat) (i : Inst) : Prop where
  runs : d.executes c = true
  inst : d.instAt c (d.core c).r.pc = .ok i
  ibp : d.ibpHit c = false
  alone : (d.core c).slot = none ∧ (d.core c).long = [] ∧ (d.core c).sb = []
  plain : (d.core c).stepping = false ∧ (d.core c).r.trace = false

/-- The access is allowed and made at once: a register, an immediate, or the core's own local memory, which a write reaches past the bench
(R238, R251, R299, R303). The last case is an operand whose address alone is taken. -/
def Dev.Near (d : Dev) (c : Nat) (a : Access) : Prop :=
  (a.priv c (d.core c).r = none ∧ (a.o.kind = .reg ∨ a.o.kind = .imm)) ∨
  ((a.o.kind = .mem ∨ a.o.kind = .field) ∧ coreView c a.o.n = .loc ∧ a.o.n + a.o.size ≤ localSize c ∧ (a.wr = true → 0x1000 ≤ a.o.n) ∧
    1 ≤ a.o.size ∧ a.o.size ≤ 8 ∧ d.localTarget (localBase c + a.o.n) = true) ∨
  (a.o.kind = .mem ∧ a.rd = false ∧ a.wr = false)

/-- The unit of local memory at an access. -/
def Dev.unitAt (d : Dev) (c : Nat) (a : Access) : Nat := leNum (d.localRead (localBase c + a.o.n) a.o.size)

/-- The value of an operand: a register or immediate as evaluated, a unit of local memory, or a bit-field in one (R246, R248). -/
def Dev.sees (d : Dev) (c : Nat) (a : Access) : Nat :=
  match a.o.kind with
  | .mem => d.unitAt c a
  | .field => bits (d.unitAt c a) a.o.pos a.o.width
  | _ => a.o.val

/-- Instruction `i` is ready, its accesses in order are `acc`, all made at once and watched by no watchpoint, and `r` are the registers after its
pointer updates. -/
structure Dev.Issues (d : Dev) (c : Nat) (i : Inst) (acc : List Access) (r : CoreRegs) : Prop where
  ready : d.Ready c i
  plan : planOf c (d.pri c) i (d.core c).r = (acc, r)
  near : ∀ a ∈ acc, d.Near c a
  words : ∀ a ∈ acc, a.rd = true → d.sees c a < 2 ^ (8 * a.o.size)
  watch : d.wpHits c acc = false

/-- Stores and registers that the results `l` give when written in order after the stores `es`, each to its access; a bit-field keeps the rest of its
unit as an earlier result has left it (R248, R268). -/
def Dev.resultsAfter (d : Dev) (c : Nat) : List SbEnt → List (Access × Nat) → CoreRegs → List SbEnt × CoreRegs
  | es, [], r => (es, r)
  | es, (a, v) :: l, r =>
    let k := localBase c + a.o.n
    match a.o.kind with
    | .reg => d.resultsAfter c es l (r.setAbs a.o.n v)
    | .field =>
      let old := leNum (sbOverlay es k (leBytes a.o.size (d.unitAt c a)))
      d.resultsAfter c (es ++ sbSplit k (leBytes a.o.size (putBits old a.o.pos a.o.width v))) l r
    | _ => d.resultsAfter c (es ++ sbSplit k (leBytes a.o.size v)) l r

/-- Stores and registers that the results `l` of an instruction give (R268). -/
def Dev.results (d : Dev) (c : Nat) (l : List (Access × Nat)) (r : CoreRegs) : List SbEnt × CoreRegs := d.resultsAfter c [] l r

/-- A store that its instruction's retirement has released (R22, R303). -/
def Dev.freed (d : Dev) (e : SbEnt) : SbEnt := { e with released := true, ord := d.commit.order }

/-- A core with what fetching alone may change set aside: the replacement order of its instruction cache and of its branch targets (R294, R308),
and its performance counters. -/
def Core.unfetched (x : Core) : Core := { x with icache := [], btb := [], perf := [] }

/-- Core `c` goes on at `next` with registers `w.2`, released stores `w.1` and pending long operations `long`; nothing else of it changes but its
performance counters and what its fetch leaves, and nothing of the rest of the device. -/
structure Dev.Retires (d d' : Dev) (c next : Nat) (w : List SbEnt × CoreRegs) (long : List LongOp) : Prop where
  frame : Dev.Frame noCores (among []) d d'
  others : ∀ k, k ≠ c → d'.core k = d.core k
  core : (d'.core c).unfetched = { (d.core c).unfetched with
    r := { w.2 with pc := next }, sb := w.1.map d.freed, long := long, phase := .none, farWait := false, far := [] }

/-- Core `c` issues a control transfer with registers `r`, stores `sb` and what its slot retires with (R277); the predictor follows (R307 to R310). -/
structure Dev.Transfers (d d' : Dev) (c next : Nat) (r : CoreRegs) (sb : List SbEnt) (slot : Slot) : Prop where
  frame : Dev.Frame noCores (among []) d d'
  others : ∀ k, k ≠ c → d'.core k = d.core k
  core : (d'.core c).unfetched = { (d.core c).unfetched with
    r := { r with pc := next }, sb := sb, slot := some slot, phase := .none, farWait := false, far := [],
    hist := (d'.core c).hist, pht := (d'.core c).pht, ras := (d'.core c).ras }

/-- An entry of core `c` does not fail: the frame fits into local memory past the bench, and the vectors lie in it (R253, R256). -/
def Dev.CanEnter (d : Dev) (c : Nat) : Prop :=
  (d.core c).r.ssp % 4 = 0 ∧ 0x1008 ≤ (d.core c).r.ssp ∧ (d.core c).r.ssp ≤ localSize c ∧ (d.core c).r.vbrOk = true

/-- Core `c` enters the handler of vector `v` with the frame of EPC = `epc` and PSW, ECX = `ecx`, in supervisor mode (R252, R255). -/
structure Dev.Enters (d d' : Dev) (c v ecx epc : Nat) : Prop where
  frame : Dev.Frame noCores (among [Reg.CORECTL_EXC_CNT c]) d d'
  others : ∀ k, k ≠ c → d'.core k = d.core k
  count : c < 24 → d'.rd (Reg.CORECTL_EXC_CNT c) = min (d.rd (Reg.CORECTL_EXC_CNT c) + 1) 0xFFFFFFFF % 2 ^ 32
  core : (d'.core c).unfetched = { (d.core c).unfetched with
    r := { ((({ (d.core c).r with user := false, trace := false, ssp := (d.core c).r.ssp - 8 } : CoreRegs).set 17 epc).set 18 ecx) with
      pc := d'.vector c v },
    sb := [⟨localBase c + ((d.core c).r.ssp - 8) + 4, leBytes 4 ((d.core c).r.psw (d.pri c)), true, d.commit.order, false⟩,
      ⟨localBase c + ((d.core c).r.ssp - 8), leBytes 4 epc, true, d.commit.order, false⟩],
    phase := .none, farWait := false, far := [] }

/-- A good cell of a class and subtype arrives in sequence on an UP port that waits for nothing: one for the neighbour alone, or one addressed to this
node (R503, R506, R507). -/
def Dev.Hears (d : Dev) (h : CellHdr) (cls sub : Nat) (bs : List Nat) (near : Bool) : Prop :=
  cellGood h cls sub bs = true ∧ d.trlState h.port.val = 3 ∧ (relClass cls = true → h.seq.toNat = (d.trlPort h.port.val).rxNext) ∧
    (d.trlPort h.port.val).window = [] ∧ (d.trlPort h.port.val).waiting = [] ∧
    (near = true ∨ h.tree = false ∧ d.trl.idValid = true ∧ d.nodeId = h.dst.toNat)

/-- The last thing sent is a cell over port `p`, with the ACK of what the port has taken (R501, R503, R506). -/
def Dev.SendsCell (d d' : Dev) (p : Nat) (c : Cell) : Prop := d'.sent = d.sent ++ [d'.cellEmit p c]

/-- A frame of a TYPE on every Graft port that takes it: those in state UP, and for a HEARTBEAT those in HELLO too (R527, R528). -/
def Dev.frameEmits (d : Dev) (ty gseq : Nat) (payload : List Nat) : List Emit :=
  ((List.range 2).filter fun p => (if ty = 1 then 2 else 3) ≤ d.grfState p).map fun p => d.frameEmit p ty gseq payload

/-- A register of the Trellis block (R524). -/
def trlReg (k : Nat) : Bool := decide (Reg.TRL_CFG ≤ k) && decide (k < Reg.TRL_CFG + 0x10000)

/-- Node `n` is reached through port `p`, which is in HELLO or UP and has room in its window (R502, R506, R510). -/
def Dev.Routed (d : Dev) (n p : Nat) : Prop :=
  d.trl.idValid = true ∧ tget d.trl.prim n = p + 1 ∧ 2 ≤ d.trlState p ∧ (d.trlPort p).window.length < 64

/-- A good frame that is a whole record arrives in turn on an UP Graft port, with no earlier frame held and none of this member's own
unacknowledged (R527 to R529). -/
def Dev.Gets (d : Dev) (h : FrameHdr) (ty : Nat) (bs : List Nat) : Prop :=
  frameGood h ty bs = true ∧ h.more = false ∧ d.grfState h.port.val = 3 ∧ h.gseq.toNat = d.grf.rxNext ∧ d.grf.sentF = [] ∧ d.grf.await = [] ∧
    d.grf.early = [] ∧ d.grf.part = []

/-- `n` bytes from `a` lie in image-die SRAM that takes engine writes: the domains are on, the data plane runs, the device is neither locked nor
paired (R482, R553, R554). -/
structure Dev.Open (d : Dev) (a n : Nat) : Prop where
  some : 0 < n
  first : regionOf a = .isram
  last : regionOf (a + (n - 1)) = .isram
  on : d.domOn 64 = true ∧ d.domOn 65 = true ∧ d.dataOff = false
  alone : d.locked = false ∧ d.role ≠ 2

/-- Quad `q` runs `r` since `t`, before its deadline, and its next descriptor is `w`: valid, of operation `op`, within the list and the step limit
(R380, R389, R390). -/
structure Dev.SvReady (d : Dev) (q op t : Nat) (r : SvRun) (w : List Nat) : Prop where
  run : (d.quad q).run = some (t, r)
  next : d.svNext q = some (r, w)
  early : d.svLate r.job = false
  inList : r.idx < r.len ∧ r.steps < 256
  valid : svInvalid r w = false
  op : w.getD 0 0 % 256 = op

/-- A run that has taken its descriptor (R380). -/
def SvRun.taken (r : SvRun) : SvRun := { r with idx := r.idx + 1, steps := r.steps + 1 }

/-- Quad `q` goes on with run `r`, and nothing else changes (R380). -/
structure Dev.SvGoes (d d' : Dev) (q t : Nat) (r : SvRun) : Prop where
  frame : Dev.Frame (fun d => { d with quads := [] }) (among []) d d'
  others : Others d.quads d'.quads q
  run : d'.quad q = { d.quad q with run := some (t, r) }

/-- Engine `e` runs and the command at its RD is `w`, readable and without an error, of operation `op` (R426, R428, R431). -/
structure Dev.DrawReady (d : Dev) (e op : Nat) (w : List Nat) : Prop where
  runs : d.drawState e = 2 ∧ d.dataOff = false
  readable : d.hasRange (d.drawAt e) 64 = true
  cmd : d.drawCmd e = w
  fine : drawCheck w = 0
  op : w.getD 0 0 % 256 = op

/-- The registers that ending a drawing command may write (R427, R442). -/
def drawOwn (e : Nat) : List Nat := [Reg.DRAW_Q_RD e, Reg.DRAW_CMDS e, Reg.DRAW_STATUS e, Reg.DRAW_EVT e]

/-- Engine `e` has ended the command of operation `op` without an error (R427, R442). -/
structure Dev.DrawDone (d d' : Dev) (e op : Nat) : Prop where
  rd : d'.rd (Reg.DRAW_Q_RD e) = (d.drawRd e + 1) % 2 ^ 17
  cmds : d'.rd (Reg.DRAW_CMDS e) = min (d.rd (Reg.DRAW_CMDS e) + 1) 0xFFFFFFFF
  last : d'.fld (Reg.DRAW_STATUS e) 8 8 = op
  idle : (d.drawRd e + 1) % 2 ^ 17 = d.drawWr e → d'.bit (Reg.DRAW_EVT e) 3 = true

/-- Bytes per pixel of a drawing surface of 8 bits or more (R429). -/
def Surf.bytes (f : Surf) : Nat := pxBits f.fmt / 8

/-- A rectangle of a surface has its pixels apart and lies in open memory (R429). -/
structure Dev.SurfOpen (d : Dev) (f : Surf) (x y w h : Nat) : Prop where
  size : 0 < w ∧ 0 < h ∧ w * f.bytes ≤ f.stride
  mem : d.Open (f.addr x y) (f.stride * (h - 1) + w * f.bytes)

end Sys2Proof.Machine
end

