-- ==== Sys2Proof/Certificates/Slice0/Obligations.lean ====
section
/-! DEFINITION. The statements for the provers, family by family of the command table. -/
open Sys2Proof Sys2Proof.Machine

/-- A step takes the command at the front of the queue and runs it on the state with the queue's rest; the command leaves that rest as it is. -/
def Obligations.StepRunsFront : Prop :=
  ∀ (c : Instr) (q : List Instr) (d : Dev),
    step { pending := c :: q, dev := d } = exec c { pending := q, dev := d } ∧
    ∃ d', step { pending := c :: q, dev := d } = .next { pending := q, dev := d' }

/-- With no command waiting a step changes nothing: the model's choice (log 32). -/
def Obligations.IdleStep : Prop := ∀ s : State, s.pending = [] → step s = .next s

/-- The state after reset is safe: both stores are in canonical form and no command waits. -/
def Obligations.ResetSafe : Prop := State.reset.Safe ∧ State.reset.pending = []

/-- Every step from a safe state leads to a safe state: memory and the register file keep their canonical form, and the commands that wait stay
well formed. -/
def Obligations.StepKeepsSafe : Prop := ∀ s t : State, s.Safe → step s = .next t → t.Safe

/-- Line time and the encoders. Setting line time works only in LOCAL mode with every beam OFF; otherwise it is refused. -/
def Obligations.LineTimeSet : Prop :=
  ∀ (s : State) (src : Fin 30) (v : BitVec 64), s.dev.Reach src.val Reg.BEAM_LT_SET →
    ((s.dev.bit Reg.BEAM_LT_CTRL 0 = false ∧ ∀ b < 8, (s.dev.beam b).mode = .off) →
      Does (.beamLtSet src v) s fun d' =>
        Dev.Frame (fun d => { d with lt := 0, tick := default }) (among [Reg.BEAM_LT_SET, Reg.BEAM_LT_STATUS]) s.dev d' ∧ d'.lt = v.toNat ∧
          d'.bit Reg.BEAM_LT_STATUS 1 = false) ∧
    (¬ (s.dev.bit Reg.BEAM_LT_CTRL 0 = false ∧ ∀ b < 8, (s.dev.beam b).mode = .off) →
      Does (.beamLtSet src v) s fun d' =>
        Dev.Frame id (among [Reg.BEAM_LT_SET, Reg.BEAM_LT_STATUS]) s.dev d' ∧ d'.bit Reg.BEAM_LT_STATUS 1 = true)

/-- BEAM_CYCLE and TICK_BOUNDARY complete in every state and keep the canonical forms. From reset a beam cycle moves line time on by 4 ns, works out
the station outputs and beam estimates up to there and changes nothing else; with the control engines without power, Flagar in RESET and every fabric link down line time alone moves. A tick boundary that has
come, with no realignment under way, counts one and starts the next period; before its line time, or without power, nothing happens. -/
def Obligations.ClockAndTick : Prop :=
  (∀ s : State, s.dev.Canonical → Does .beamCycle s Dev.Canonical ∧ Does .tickBoundary s Dev.Canonical) ∧
  (let stn : StnSt :=
     { (default : StnSt) with pins := (List.range 64).map fun i => (i, ⟨false, false, none, 4⟩), est := (List.range 8).map fun b => (b, 0) }
   exec .beamCycle State.reset = .next { State.reset with dev := { Dev.initial with lt := 4, stn := stn } }) ∧
  (∀ s : State, s.dev.domOn 13 = false → (s.dev.core 24).mode = .reset → s.dev.tick.ltAdj = 0 → s.dev.tick.ltFrac = 0 →
    (∀ p < 8, s.dev.trlState p < 2) → (∀ p < 2, s.dev.grfState p < 2) → (s.dev.lt + 4) % 2 ^ 64 / 1000000 = s.dev.lt / 1000000 →
    exec .beamCycle s = .next { s with dev := { s.dev with lt := (s.dev.lt + 4) % 2 ^ 64 } }) ∧
  (∀ s : State, (s.dev.lt < s.dev.tick.next ∨ s.dev.domOn 13 = false) → exec .tickBoundary s = .next s) ∧
  (∀ s : State, s.dev.domOn 13 = true → s.dev.tick.next ≤ s.dev.lt → s.dev.tick.realign = none →
    Does .tickBoundary s fun d' =>
      d'.rd Reg.BEAM_TICK_NUM = (s.dev.rd Reg.BEAM_TICK_NUM + 1) % 2 ^ 32 ∧ d'.tick.start = s.dev.tick.next ∧
      d'.tick.next = s.dev.tick.next + s.dev.tickNs ∧ d'.lt = s.dev.lt ∧ d'.cores = s.dev.cores ∧
      ∀ a, s.dev.inRing a = false → d'.byte a = s.dev.byte a) ∧
  Does .tickBoundary { State.reset with dev := { Dev.initial with lt := 16000 } } (fun d' =>
    d'.rd Reg.BEAM_TICK_NUM = 1 ∧ d'.tick.start = 16000 ∧ d'.tick.next = 32000 ∧
      Dev.Frame (fun d => { d with tick := default, beams := [], dma := [] }) (among [Reg.BEAM_TICK_NUM]) { Dev.initial with lt := 16000 } d')

/-- ENCODER_TRANSITION in ×4 mode, the illegal transition, and INDEX_EDGE under CHECK and without a running beam. -/
def Obligations.EncoderAndIndex : Prop :=
  (∀ (s : State) (e : Fin 8) (a b : Bool),
    let old := tget s.dev.encs e.val
    let swap := s.dev.bit (Reg.BEAM_ENC_CFG e.val) 5
    let phase := fun (x y : Bool) => if swap then quadPhase y x else quadPhase x y
    (¬ (old.a ≠ a ∧ old.b ≠ b) →
      Does (.encoderTransition e a b) s fun d' =>
        Dev.Frame (fun d => { d with encs := [] }) (among [Reg.BEAM_ENC_COUNT e.val]) s.dev d' ∧
        tget d'.encs e.val = { old with a := a, b := b } ∧ Others s.dev.encs d'.encs e.val ∧
        (s.dev.fld (Reg.BEAM_ENC_CFG e.val) 3 2 = 0 → phase a b = (phase old.a old.b + 1) % 4 →
          d'.rd (Reg.BEAM_ENC_COUNT e.val) = (s.dev.rd (Reg.BEAM_ENC_COUNT e.val) + 1) % 2 ^ 32) ∧
        (s.dev.fld (Reg.BEAM_ENC_CFG e.val) 3 2 = 0 → phase old.a old.b = (phase a b + 1) % 4 →
          d'.rd (Reg.BEAM_ENC_COUNT e.val) = (s.dev.rd (Reg.BEAM_ENC_COUNT e.val) + (2 ^ 32 - 1)) % 2 ^ 32)) ∧
    (old.a ≠ a → old.b ≠ b → old.ill < 15 →
      Does (.encoderTransition e a b) s fun d' =>
        Dev.Frame (fun d => { d with encs := [] }) (among (Reg.BEAM_ENC_ERR e.val :: (List.range 8).map Reg.BEAM_EVT)) s.dev d' ∧
        tget d'.encs e.val = { old with a := a, b := b, ill := old.ill + 1 } ∧ Others s.dev.encs d'.encs e.val ∧
        d'.rd (Reg.BEAM_ENC_ERR e.val) = min (s.dev.rd (Reg.BEAM_ENC_ERR e.val) + 1) 0xFFFFFFFF)) ∧
  (∀ (s : State) (e : Fin 8) (level : Bool), (∀ b < 8, (s.dev.beam b).mode ≠ .run) →
    Does (.indexEdge e level) s fun d' =>
      Dev.Frame (fun d => { d with encs := [] }) (among []) s.dev d' ∧ tget d'.encs e.val = { tget s.dev.encs e.val with z := level } ∧
        Others s.dev.encs d'.encs e.val) ∧
  (∀ (s : State) (e : Fin 8) (level : Bool) (b : Fin 8), (tget s.dev.encs e.val).z ≠ level →
    level ≠ s.dev.bit (Reg.BEAM_ENC_CFG e.val) 6 → s.dev.fld (Reg.BEAM_CTRL b.val) 1 3 = 0 → s.dev.rd (Reg.BEAM_SRC_SEL b.val) % 64 = e.val →
    (s.dev.beam b.val).mode = .run → (∀ x < 8, x ≠ b.val → (s.dev.beam x).mode ≠ .run) → s.dev.fld (Reg.BEAM_INDEX b.val) 24 2 = 1 →
    let err := s.dev.indexErr b.val
    let tol : Int := (s.dev.fld (Reg.BEAM_INDEX_TOL b.val) 0 16 : Int) * 2 ^ 32
    Does (.indexEdge e level) s fun d' =>
      Dev.Frame (fun d => { d with encs := [] }) (among [Reg.BEAM_INDEX_ERR b.val, Reg.BEAM_EVT b.val]) s.dev d' ∧
      d'.rd (Reg.BEAM_INDEX_ERR b.val) = tw 32 (err / 2 ^ 32) ∧
      d'.rd (Reg.BEAM_EVT b.val) =
        if tol < err ∨ tol < -err then (s.dev.rd (Reg.BEAM_EVT b.val) ||| 1) % 2 ^ 32 else s.dev.rd (Reg.BEAM_EVT b.val))

/-- BEAM_LOSS_TIMEOUT makes a running or held LINE or AXIS beam STALE; RESUME takes a beam out of STALE without a jump of L; a read of BEAM_POS captures
position, line time, velocity and acceleration. -/
def Obligations.BeamStates : Prop :=
  (∀ (s : State) (b : Fin 8),
    let q := s.dev.beam b.val
    let src := s.dev.fld (Reg.BEAM_CTRL b.val) 1 3
    (q.mode = .run ∨ q.mode = .hold) → s.dev.unitOk b.val = true → (src = 2 ∨ src = 4) → max 1 (s.dev.fld (Reg.BEAM_LOSS b.val) 0 8) ≤ q.lossTicks →
      Does (.beamLossTimeout b) s fun d' =>
        Dev.Frame (fun d => { d with beams := [] }) (fun k => among [Reg.BEAM_STALE_CNT b.val, Reg.BEAM_EVT b.val] k || logReg k) s.dev d' ∧
        d'.beam b.val = { q with mode := .stale, v := 0, a := 0, validTick := false, fast := false } ∧
        Others s.dev.beams d'.beams b.val ∧
        d'.rd (Reg.BEAM_STALE_CNT b.val) = min (s.dev.rd (Reg.BEAM_STALE_CNT b.val) + 1) 0xFFFFFFFF ∧
        d'.rd (Reg.BEAM_EVT b.val) = (s.dev.rd (Reg.BEAM_EVT b.val) ||| 4) % 2 ^ 32) ∧
  (∀ (s : State) (src : Fin 30) (b : Fin 8) (v : BitVec 32),
    let q := s.dev.beam b.val
    let c := s.dev.rd (Reg.BEAM_CTRL b.val)
    let g := s.dev.srcGrp src.val
    s.dev.Reach src.val (Reg.BEAM_CTRL b.val) → q.mode = .stale → tb c 5 = false → tb c 4 = false → s.dev.unitOk b.val = true →
    s.dev.stopped b.val = false → ((s.dev.grp g).mode = .empty ∨ (s.dev.grp g).mode = .opened) →
    (∀ x, aget s.dev.commit.claims (Reg.BEAM_CTRL b.val) = some x → x.grp = g) →
      Does (.beamResume src b v) s fun d' =>
        Dev.Frame (fun d => { d with beams := [], commit := default }) (among []) s.dev d' ∧
        (d'.beam b.val).mode = .run ∧ (d'.beam b.val).l = q.l ∧ (d'.beam b.val).srcActive = bits c 1 3 ∧
        Others s.dev.beams d'.beams b.val ∧ d'.rd (Reg.BEAM_CTRL b.val) = c) ∧
  (∀ (s : State) (src : Fin 30) (b : Fin 8) (wide : Bool), s.dev.Reach src.val (Reg.BEAM_POS b.val) →
    let q := s.dev.beam b.val
    let pos := posOf (s.dev.fpf b.val) q.l * 2 ^ 16 + fracOf q.l
    Does (.beamPosSnapshot src b wide) s fun d' =>
      Dev.Frame id (among [Reg.BEAM_POS b.val, Reg.BEAM_POS_LT b.val, Reg.BEAM_VEL b.val, Reg.BEAM_ACC b.val]) s.dev d' ∧
      d'.rd (Reg.BEAM_POS b.val) = pos % 2 ^ 64 ∧ d'.rd (Reg.BEAM_POS_LT b.val) = s.dev.lt % 2 ^ 64 ∧
      d'.rd (Reg.BEAM_VEL b.val) = tw 32 (q16 q.v) ∧ d'.rd (Reg.BEAM_ACC b.val) = tw 32 (q16 q.a) ∧
      d'.sent = s.dev.sent ++ [.event 4 [src.val, Reg.BEAM_POS b.val, pos % 2 ^ (if wide then 64 else 32)]])

/-- BEAM_BROADCAST on the die and over the Stem, and what a receiver does with a record: the first one is taken as it is, a JUMP steps to the
record and counts, and a difference of at most 64 dots is absorbed. -/
def Obligations.Broadcast : Prop :=
  (∀ (s : State) (b : Fin 8),
    Does (.beamBroadcast b false) s fun d' =>
      Dev.Frame (fun d => { d with beams := [], est := [] }) (among []) s.dev d' ∧
      (d'.beam b.val).hist.head? = some (s.dev.record b.val 0) ∧ (d'.beam b.val).jumpDie = false ∧ (d'.beam b.val).fpfDie = false ∧
      (d'.beam b.val).bseqDie = ((s.dev.beam b.val).bseqDie + 1) % 2 ^ 32 ∧ (d'.beam b.val).l = (s.dev.beam b.val).l ∧
      Others s.dev.beams d'.beams b.val ∧ Others s.dev.est d'.est b.val ∧ (tget d'.est b.val).last = s.dev.record b.val 0) ∧
  (∀ (s : State) (b : Fin 8), s.dev.stemUp = true → (s.dev.stemEnd 0).retry.length < 64 →
    (∀ f ∈ (s.dev.stemEnd 0).queue, f.ty ≠ 0) →
    Does (.beamBroadcast b true) s fun d' =>
      let q := s.dev.stemEnd 0
      let f : Flit := ⟨q.txSeq, 0, b.val * 2 ^ 39, (s.dev.record b.val 1).bytes⟩
      Dev.Frame (fun d => { d with beams := [], stem := [] }) (among []) s.dev d' ∧
      d'.stemEnd 0 = { q with
        txSeq := (f.seq + 1) % 4096, retry := q.retry ++ [f], owed := tput q.owed q.credit.1 (tget q.owed q.credit.1 - q.credit.2) } ∧
      d'.sent = s.dev.sent ++ [.flit 0 (flitBytes f ((q.rxNext + 4095) % 4096) false q.credit)] ∧ (d'.beam b.val).jumpStem = false ∧
      (d'.beam b.val).bseqStem = ((s.dev.beam b.val).bseqStem + 1) % 2 ^ 32 ∧ (d'.beam b.val).l = (s.dev.beam b.val).l ∧
      Others s.dev.beams d'.beams b.val ∧ Others s.dev.stem d'.stem 0) ∧
  (∀ (s : State) (image : Bool) (b : Fin 8) (bs : List Byte), bs.length = 36 →
    let key := 8 * b2n image + b.val
    let r := recOfBytes (nats bs)
    let old := tget s.dev.est key
    let est := old.at (s.dev.recPeriod (b2n image)) s.dev.lt
    let diff := distL r.fpf est (r.at s.dev.lt)
    Does (.broadcastRecordReceive image b bs) s fun d' =>
      Dev.Frame (fun d => { d with est := [] }) (among []) s.dev d' ∧ Others s.dev.est d'.est key ∧
      (tget d'.est key).got = true ∧ (tget d'.est key).last = r ∧
      (old.got = false → (tget d'.est key).e = 0 ∧ (tget d'.est key).steps = old.steps) ∧
      (old.got = true → r.jump = true → r.fpfChg = false → (tget d'.est key).e = 0 ∧ (tget d'.est key).steps = old.steps + 1) ∧
      (old.got = true → r.jump = false → r.fpfChg = false → old.last.fpf = r.fpf → -(64 * 2 ^ 32) ≤ diff → diff ≤ 64 * 2 ^ 32 →
        (tget d'.est key).e = diff ∧ (tget d'.est key).steps = old.steps) ∧
      (old.got = true → r.jump = false → r.fpfChg = false → old.last.fpf = r.fpf → (64 * 2 ^ 32 < diff ∨ diff < -(64 * 2 ^ 32)) →
        (tget d'.est key).e = 0 ∧ (tget d'.est key).steps = old.steps + 1))

/-- What a Stem receiver does with a flit: a bad one is refused with NAK and not delivered, and the third refusal of one SEQ starts a fast retrain;
one out of sequence is discarded; a broadcast flit in sequence reaches the image die's receiver of its beam. A NAK replays what is still held, and the
third for one SEQ starts a fast retrain.
A retrain starts at both ends and marks the armed commits that sent an ARM; a fast one is ignored while another runs or the link is down; its end
brings the link up again, resends what was not acknowledged and then what was held in order, or turns it into a full one; a full one ends on all
lanes, on the four lanes of a half, or with the link down. Whatever the state, each of these commands completes and keeps the canonical forms. -/
def Obligations.StemLink : Prop :=
  (∀ s : State, s.dev.Canonical →
     (∀ (die : Fin 2) (bs : List Byte) (lat : BitVec 16), Does (.stemFlitReceive die bs lat) s Dev.Canonical) ∧
     (∀ (die : Fin 2) (ack : BitVec 12), Does (.stemNakReplay die ack) s Dev.Canonical) ∧
     Does .fastRetrain s Dev.Canonical ∧ (∀ ok : Bool, Does (.fastRetrainEnd ok) s Dev.Canonical) ∧
     Does .fullRetrain s Dev.Canonical ∧ (∀ lanesB lanesI : BitVec 8, Does (.fullRetrainEnd lanesB lanesI) s Dev.Canonical) ∧
     (∀ (src : Fin 30) (die : Fin 2) (v : BitVec 32),
       Does (.stemCtrlFullRetrain src die v) s Dev.Canonical ∧ Does (.stemCtrlFastRetrain src die v) s Dev.Canonical)) ∧
  ((∀ (s : State) (die : Fin 2) (bs : List Byte) (lat : BitVec 16),
     let q := s.dev.stemEnd die.val
     let w := leAt (nats bs) 0 8
     let tail := leAt (nats bs) 72 4
     let run := if q.nakRun ≠ 0 ∧ q.nakSeq = q.rxNext then q.nakRun + 1 else 1
     (flitBad (nats bs) = true → run < 3 →
       Does (.stemFlitReceive die bs lat) s fun d' =>
         Dev.Frame (fun d => { d with stem := [] }) (among [stemReg die.val Reg.STEM_CRC_ERR, stemReg die.val Reg.STEM_REPLAY]) s.dev d' ∧
         d'.stemEnd die.val = { q with nakSeq := q.rxNext, nakRun := run } ∧ Others s.dev.stem d'.stem die.val ∧
         d'.sent = s.dev.sent ++ [.nak die.val ((q.rxNext + 4095) % 4096)] ∧
         d'.rd (stemReg die.val Reg.STEM_CRC_ERR) = min (s.dev.rd (stemReg die.val Reg.STEM_CRC_ERR) + 1) 0xFFFFFFFF) ∧
     (flitBad (nats bs) = true → 3 ≤ run → s.dev.stemUp = true →
       Does (.stemFlitReceive die bs lat) s fun d' => d'.stemUp = false ∧ ∀ x < 2, (d'.stemEnd x).retrain = 1) ∧
     (flitBad (nats bs) = false → tb tail 19 = false → q.queue = [] →
       let keep := q.retry.filter fun f => !decide ((bits tail 20 12 + 4096 - f.seq) % 4096 < 2048)
       let q' := { q with
         credits := tput q.credits (bits tail 16 3) (tget q.credits (bits tail 16 3) + bits tail 8 8), retry := keep,
         gotRun := if keep.length = q.retry.length then q.gotRun else 0 }
       (bits w 48 12 ≠ q.rxNext →
         Does (.stemFlitReceive die bs lat) s fun d' =>
           Dev.Frame (fun d => { d with stem := [] }) (among []) s.dev d' ∧ Others s.dev.stem d'.stem die.val ∧
           d'.stemEnd die.val = q' ∧ d'.sent = s.dev.sent) ∧
       (bits w 48 12 = q.rxNext → bits w 60 4 = 0 → die.val = 1 →
         Does (.stemFlitReceive die bs lat) s fun d' =>
           Dev.Frame (fun d => { d with stem := [], est := [] }) (among [Reg.STEMI_LAT_MAX]) s.dev d' ∧ Others s.dev.stem d'.stem 1 ∧
           d'.stemEnd 1 = { q' with rxNext := (q.rxNext + 1) % 4096, nakRun := 0, owed := tput q.owed 0 (tget q.owed 0 + 1) } ∧
           d'.rd Reg.STEMI_LAT_MAX = max lat.toNat (s.dev.rd Reg.STEMI_LAT_MAX) % 2 ^ 32 ∧
           Others s.dev.est d'.est (8 + bits w 39 3) ∧
           (tget d'.est (8 + bits w 39 3)).last = recOfBytes (((nats bs).drop 8).take (bits w 42 6 + 1)) ∧ d'.sent = s.dev.sent))) ∧
   (∀ (s : State) (die : Fin 2) (ack : BitVec 12),
     let q := s.dev.stemEnd die.val
     let keep := q.retry.filter fun f => !decide ((ack.toNat + 4096 - f.seq) % 4096 < 2048)
     let seq := (ack.toNat + 1) % 4096
     let run := if keep.length = q.retry.length ∧ q.gotRun ≠ 0 ∧ q.gotSeq = seq then q.gotRun + 1 else 1
     q.queue = [] → s.dev.stemUp = true →
     (run < 3 → q.owed = [] →
       Does (.stemNakReplay die ack) s fun d' =>
         Dev.Frame (fun d => { d with stem := [] }) (among []) s.dev d' ∧
         d'.stemEnd die.val = { q with retry := keep, gotSeq := seq, gotRun := run } ∧ Others s.dev.stem d'.stem die.val ∧
         d'.sent = s.dev.sent ++ keep.map fun f => .flit die.val (flitBytes f ((q.rxNext + 4095) % 4096) false (0, 0))) ∧
     (3 ≤ run → Does (.stemNakReplay die ack) s fun d' => d'.stemUp = false ∧ ∀ x < 2, (d'.stemEnd x).retrain = 1))) ∧
  ((∀ s : State, (s.dev.stemEnd 0).retrain = 0 → s.dev.fld Reg.STEM_STATUS 0 2 ≠ 0 →
     Does .fastRetrain s fun d' =>
       Dev.Frame (fun d => { d with stem := [], commit := default }) (among [Reg.STEM_STATUS, Reg.STEMI_STATUS]) s.dev d' ∧
       (∀ die < 2, d'.stemEnd die = { s.dev.stemEnd die with retrain := 1 }) ∧ d'.stemUp = false ∧
       (∀ g, (s.dev.grp g).mode = .armed → (s.dev.grp g).doms ≠ [] → (d'.grp g).retrained = true) ∧
       (∀ g, (s.dev.grp g).doms = [] → d'.grp g = s.dev.grp g) ∧ d'.commit.claims = s.dev.commit.claims) ∧
   (∀ s : State, ((s.dev.stemEnd 0).retrain ≠ 0 ∨ s.dev.fld Reg.STEM_STATUS 0 2 = 0) →
     Does .fastRetrain s fun d' => Dev.Frame id (among []) s.dev d' ∧ d'.stem = s.dev.stem ∧ d'.sent = s.dev.sent) ∧
   (∀ s : State, (s.dev.stemEnd 0).retrain ≠ 2 →
     Does .fullRetrain s fun d' =>
       Dev.Frame (fun d => { d with stem := [], commit := default }) (among [Reg.STEM_STATUS, Reg.STEMI_STATUS]) s.dev d' ∧
       (∀ die < 2, d'.stemEnd die = { s.dev.stemEnd die with retrain := 2 }) ∧ d'.stemUp = false) ∧
   (∀ (s : State) (src : Fin 30) (die : Fin 2) (v : BitVec 32), s.dev.Reach src.val (stemReg die.val Reg.STEM_CTRL) →
     ((s.dev.stemEnd 0).retrain ≠ 2 →
       Does (.stemCtrlFullRetrain src die v) s fun d' =>
         Dev.Frame (fun d => { d with stem := [], commit := default })
           (among [Reg.STEM_STATUS, Reg.STEMI_STATUS, stemReg die.val Reg.STEM_CTRL]) s.dev d' ∧
         (∀ x < 2, d'.stemEnd x = { s.dev.stemEnd x with retrain := 2 }) ∧ d'.bit (stemReg die.val Reg.STEM_CTRL) 1 = tb v.toNat 1) ∧
     ((s.dev.stemEnd 0).retrain = 0 → s.dev.fld Reg.STEM_STATUS 0 2 ≠ 0 → tb v.toNat 2 = false →
       Does (.stemCtrlFastRetrain src die v) s fun d' =>
         Dev.Frame (fun d => { d with stem := [], commit := default })
           (among [Reg.STEM_STATUS, Reg.STEMI_STATUS, stemReg die.val Reg.STEM_CTRL]) s.dev d' ∧
         (∀ x < 2, d'.stemEnd x = { s.dev.stemEnd x with retrain := 1 }) ∧ d'.bit (stemReg die.val Reg.STEM_CTRL) 1 = tb v.toNat 1)) ∧
   (∀ s : State, (s.dev.stemEnd 0).retrain = 1 → s.dev.dataStop = false → (∀ die < 2, (s.dev.stemEnd die).held = []) →
     (∀ die < 2, (s.dev.stemEnd die).owed = []) →
     (∀ die < 2, (s.dev.stemEnd die).retry.length + (s.dev.stemEnd die).inTurn.length ≤ 64) →
     let out := fun (die : Nat) =>
       let q := s.dev.stemEnd die
       let bytes := fun (f : Flit) => Emit.flit die (flitBytes f ((q.rxNext + 4095) % 4096) false (0, 0))
       q.retry.map bytes ++ q.inTurn.zipIdx.map fun x => bytes { x.1 with seq := (q.txSeq + x.2) % 4096 }
     Does (.fastRetrainEnd true) s (fun d' =>
       Dev.Frame (fun d => { d with stem := [] }) (among [Reg.STEM_STATUS, Reg.STEMI_STATUS, Reg.STEM_FAST_RT, Reg.STEMI_FAST_RT]) s.dev d' ∧
       d'.stemUp = true ∧ (∀ die < 2, (d'.stemEnd die).retrain = 0 ∧ (d'.stemEnd die).queue = []) ∧
       d'.sent = s.dev.sent ++ out 0 ++ out 1 ∧
       d'.rd Reg.STEM_FAST_RT = min (s.dev.rd Reg.STEM_FAST_RT + 1) 0xFFFFFFFF) ∧
     Does (.fastRetrainEnd false) s fun d' =>
       Dev.Frame (fun d => { d with stem := [], commit := default })
         (among [Reg.STEM_STATUS, Reg.STEMI_STATUS, Reg.STEM_FAST_RT, Reg.STEMI_FAST_RT]) s.dev d' ∧
       (∀ die < 2, d'.stemEnd die = { s.dev.stemEnd die with retrain := 2 }) ∧ d'.stemUp = false ∧
       d'.rd Reg.STEM_FAST_RT = min (s.dev.rd Reg.STEM_FAST_RT + 1) 0xFFFFFFFF) ∧
   (∀ (s : State) (lanesB lanesI : BitVec 8), (s.dev.stemEnd 0).retrain = 2 → s.dev.dataStop = false →
     (∀ die < 2, (s.dev.stemEnd die).held = []) →
     let good := ones 8 (lanesB.toNat &&& lanesI.toNat)
     let may := s.dev.bit Reg.STEM_CTRL 1 && s.dev.bit Reg.STEMI_CTRL 1
     (good = 8 →
       Does (.fullRetrainEnd lanesB lanesI) s fun d' =>
         Dev.Frame (fun d => { d with stem := [] }) (among [Reg.STEM_STATUS, Reg.STEMI_STATUS, Reg.STEM_FULL_RT, Reg.STEMI_FULL_RT]) s.dev d' ∧
         d'.stemUp = true ∧ d'.rd Reg.STEM_STATUS = 2 + 255 * 8 ∧ d'.rd Reg.STEMI_STATUS = 2 + 255 * 8) ∧
     (good = 7 → may = true →
       Does (.fullRetrainEnd lanesB lanesI) s fun d' =>
         Dev.Frame (fun d => { d with stem := [] })
           (fun k => among [Reg.STEM_STATUS, Reg.STEMI_STATUS, Reg.STEM_FULL_RT, Reg.STEMI_FULL_RT] k || logReg k) s.dev d' ∧
         d'.stemUp = true ∧ d'.bit Reg.STEM_STATUS 2 = true ∧ d'.bit Reg.STEMI_STATUS 2 = true) ∧
     (good < 7 ∨ (good = 7 ∧ may = false) → Does (.fullRetrainEnd lanesB lanesI) s fun d' => d'.stemUp = false ∧ d'.fld Reg.STEM_STATUS 0 2 = 0)))

/-- A write to a register with no action of its own: a W1C bit written as 1 is cleared, an RW bit takes the bit written, and every other bit
stays; a read of an RC register returns it and clears it; the low word of line time captures the high word. -/
def Obligations.RegisterAccess : Prop :=
  (∀ (s : State) (src : Fin 30) (a : BitVec 48) (wide : Bool) (v : BitVec 64) (r : RegDef),
    isReg a.toNat r = true → r.cmt = 0 → plainKey a.toNat = true → actOf a.toNat = none → r.rw &&& r.w1c = 0 →
    (wide = true → r.width = 64 ∧ a.toNat % 8 = 0) → s.dev.Reach src.val a.toNat →
    Does (.registerWrite src a wide v) s fun d' =>
      Dev.Frame id (among [a.toNat]) s.dev d' ∧
      ∀ i < r.width, d'.bit a.toNat i =
        if 32 ≤ i ∧ wide = false then s.dev.bit a.toNat i
        else if tb r.w1c i then s.dev.bit a.toNat i && !tb v.toNat i
        else if tb r.rw i then tb v.toNat i else s.dev.bit a.toNat i) ∧
  (∀ (s : State) (src : Fin 30) (a : BitVec 48) (wide : Bool) (r : RegDef),
    isReg a.toNat r = true → plainRead a.toNat = true → r.rc ≠ 0 → r.wo = 0 → r.snap = 0 →
    (wide = true → r.width = 64 ∧ a.toNat % 8 = 0) → (wide = false → r.width = 32) → s.dev.Reach src.val a.toNat →
    Does (.readClear src a wide) s fun d' =>
      Dev.Frame id (among [a.toNat]) s.dev d' ∧
      d'.sent = s.dev.sent ++ [.event 4 [src.val, a.toNat, s.dev.rd a.toNat % 2 ^ r.width]] ∧
      ∀ i < r.width, d'.bit a.toNat i = (s.dev.bit a.toNat i && !tb r.rc i)) ∧
  (∀ (s : State) (src : Fin 30), s.dev.Reach src.val Reg.BEAM_LT →
    Does (.snapRead src (BitVec.ofNat 48 Reg.BEAM_LT) false) s (fun d' =>
      Dev.Frame id (among [Reg.BEAM_LT]) s.dev d' ∧ d'.rd Reg.BEAM_LT = s.dev.lt % 2 ^ 64 ∧
      d'.sent = s.dev.sent ++ [.event 4 [src.val, Reg.BEAM_LT, s.dev.lt % 2 ^ 32]]) ∧
    Does (.snapRead src (BitVec.ofNat 48 (Reg.BEAM_LT + 4)) false) s fun d' =>
      Dev.Frame id (among []) s.dev d' ∧
      d'.sent = s.dev.sent ++ [.event 4 [src.val, Reg.BEAM_LT + 4, s.dev.rd Reg.BEAM_LT / 2 ^ 32 % 2 ^ 32]]) ∧
  (∀ (s : State) (die : Fin 2) (src : Fin 30) (tag : BitVec 8) (off : BitVec 32) (v : BitVec 64) (r : RegDef),
    let k := dieRegs die.val + off.toNat
    let q := s.dev.stemEnd die.val
    isReg k r = true → r.width = 32 → r.cmt = 0 → r.w1c = 0 → r.rw = 0xFFFFFFFF → r.wo = 0 → r.rc = 0 → r.snap = 0 → plainRead k = true → actOf k = none →
    s.dev.domOn (powDomain k) = true → s.dev.stemUp = true → q.retry.length < 64 → q.queue = [] →
    ((∀ e, evtSource k = some e → imageSrc e = false) → Does (.registerAccess die src true tag off false v) s fun d' =>
      Dev.Frame (fun d => { d with stem := [] }) (among [k]) s.dev d' ∧ d'.rd k = v.toNat % 2 ^ 32 ∧
      ∃ p, (d'.stemEnd die.val).retry = q.retry ++ [⟨q.txSeq, 4, 2 ^ 41 + 2 ^ 40 + tag.toNat * 2 ^ 32 + off.toNat, p⟩]) ∧
    Does (.registerAccess die src false tag off false v) s fun d' =>
      Dev.Frame (fun d => { d with stem := [] }) (among []) s.dev d' ∧
      (d'.stemEnd die.val).retry = q.retry ++ [⟨q.txSeq, 4, 2 ^ 40 + tag.toNat * 2 ^ 32 + off.toNat, leBytes 4 (s.dev.rd k)⟩])

/-- A staging write goes to the shadow copy of the writer's group and leaves the active copy; into a PENDING or ARMED group, or onto another
group's claim, it is discarded and poisons the group. -/
def Obligations.StagingWrites : Prop :=
  ∀ (s : State) (src : Fin 30) (a : BitVec 48) (v : BitVec 64) (r : RegDef),
    let k := a.toNat
    let g := s.dev.srcGrp src.val
    let q := s.dev.grp g
    let mine := match aget s.dev.commit.claims k with | some c => c.grp == g | none => true
    isReg k r = true → r.cmt ≠ 0 → hookFree k = true → r.width = 32 → s.dev.Reach src.val k →
    ((q.mode = .empty ∨ q.mode = .opened) → mine = true →
      Does (.stagingWrite src a false v) s fun d' =>
        Dev.Frame (fun d => { d with commit := default }) (among []) s.dev d' ∧
        aget d'.commit.claims k = some ⟨g, BitVec.ofNat 64 (mergeMask (s.dev.shadow k) (v.toNat % 2 ^ 32) (0xFFFFFFFF &&& r.cmt))⟩ ∧
        (∀ j, j ≠ k → aget d'.commit.claims j = aget s.dev.commit.claims j) ∧
        d'.grp g = { q with mode := .opened, srcs := if q.srcs.contains src.val then q.srcs else q.srcs ++ [src.val] } ∧ Others s.dev.commit.grps d'.commit.grps g) ∧
    (q.mode = .pending ∨ q.mode = .armed ∨ mine = false →
      Does (.stagingWrite src a false v) s fun d' =>
        Dev.Frame (fun d => { d with commit := default }) (among [Reg.COMMIT_CONFLICTS, Reg.COMMIT_EVT]) s.dev d' ∧
        d'.commit.claims = s.dev.commit.claims ∧ (d'.grp g).why = (if q.why ≠ 0 then q.why else if q.mode = .pending ∨ q.mode = .armed then 2 else 1) ∧
        (d'.grp g).mode = q.mode ∧ Others s.dev.commit.grps d'.commit.grps g ∧
        d'.rd Reg.COMMIT_CONFLICTS = min (s.dev.rd Reg.COMMIT_CONFLICTS + 1) 0xFFFFFFFF ∧ d'.bit Reg.COMMIT_EVT 3 = true)

/-- GO makes a group's commit PENDING with its boundary, or is refused when the group is poisoned; DISCARD releases the claims and the poison,
except while ARMED; UNPOISON clears the poison and keeps the claims. -/
def Obligations.GroupControl : Prop :=
  ∀ (s : State) (src : Fin 30) (g : Fin 8) (v : BitVec 32),
    let q := s.dev.grp g.val
    let claims := s.dev.commit.claims
    s.dev.Reach src.val (Reg.COMMIT_GRP_CTRL g.val) →
    (tb v.toNat 17 = false → tb v.toNat 18 = false → s.dev.follows = false → q.why = 0 → bits v.toNat 0 3 < 4 →
      (q.mode = .empty ∨ q.mode = .opened) →
      Does (.go src g v) s fun d' =>
        Dev.Frame noCommit (among [Reg.COMMIT_GRP_CTRL g.val]) s.dev d' ∧ d'.commit.claims = claims ∧
        (d'.grp g.val).mode = .pending ∧ (d'.grp g.val).bnd = bits v.toNat 0 3 ∧ (d'.grp g.val).beam = bits v.toNat 4 3 ∧
        (d'.grp g.val).order = s.dev.commit.order ∧ d'.commit.order = s.dev.commit.order + 1 ∧ (d'.grp g.val).goSrc = src.val ∧
        Others s.dev.commit.grps d'.commit.grps g.val) ∧
    (tb v.toNat 17 = false → tb v.toNat 18 = false → q.why ≠ 0 →
      Does (.go src g v) s fun d' =>
        Dev.Frame noCommit (among [Reg.COMMIT_GRP_CTRL g.val, Reg.COMMIT_EVT]) s.dev d' ∧ d'.commit.claims = claims ∧
        d'.grp g.val = { q with result := 3 } ∧ Others s.dev.commit.grps d'.commit.grps g.val ∧ d'.bit Reg.COMMIT_EVT 4 = true) ∧
    (tb v.toNat 16 = false → tb v.toNat 18 = false → (q.mode = .opened ∨ q.mode = .pending) →
      Does (.discard src g v) s fun d' =>
        Dev.Frame noCommit (among [Reg.COMMIT_GRP_CTRL g.val]) s.dev d' ∧
        (∀ k c, c.grp ≠ g.val → aget claims k = some c → aget d'.commit.claims k = some c) ∧ d'.claimsOf g.val = [] ∧
        (d'.grp g.val).mode = .empty ∧ (d'.grp g.val).why = 0 ∧ (d'.grp g.val).result = 2 ∧
        Others s.dev.commit.grps d'.commit.grps g.val) ∧
    (tb v.toNat 16 = false → tb v.toNat 18 = false → q.mode = .armed →
      Does (.discard src g v) s fun d' =>
        Dev.Frame id (among [Reg.COMMIT_GRP_CTRL g.val, Reg.COMMIT_EVT]) s.dev d' ∧ d'.bit Reg.COMMIT_EVT 4 = true) ∧
    (tb v.toNat 16 = false → tb v.toNat 17 = false →
      Does (.unpoison src g v) s fun d' =>
        Dev.Frame noCommit (among [Reg.COMMIT_GRP_CTRL g.val]) s.dev d' ∧ d'.commit.claims = claims ∧
        d'.grp g.val = { q with why := 0 } ∧ Others s.dev.commit.grps d'.commit.grps g.val)

/-- COMMIT_ARM of an IMMEDIATE commit of the beam die: the next CSN, applying 8 ns later; ARM and ACK of a remote domain with the 150 ns rule; a
commit that has not applied in its time is withdrawn. -/
def Obligations.ArmAckWithdraw : Prop :=
  (∀ (s : State) (g : Fin 8),
    let q := s.dev.grp g.val
    q.mode = .pending → q.bnd = 0 → q.lineMoved = false → q.fabric = false → s.dev.remoteDoms g.val = [] → s.dev.role ≠ 2 →
    (∀ h, h ≠ g.val → (s.dev.grp h).mode ≠ .pending) →
    Does (.commitArm (BitVec.ofNat 8 g.val)) s fun d' =>
      Dev.Frame noCommit (among [Reg.COMMIT_NEXT_CSN, Reg.COMMIT_HOST_REC]) s.dev d' ∧
      (d'.grp g.val).mode = .armed ∧ (d'.grp g.val).csn = s.dev.rd Reg.COMMIT_NEXT_CSN ∧ (d'.grp g.val).applyLt = s.dev.lt + 8 ∧
      d'.commit.claims = s.dev.commit.claims ∧ Others s.dev.commit.grps d'.commit.grps g.val ∧
      d'.rd Reg.COMMIT_NEXT_CSN = csnNext (s.dev.rd Reg.COMMIT_NEXT_CSN) % 2 ^ 32) ∧
  (∀ (s : State) (dom : Fin 32) (g : BitVec 8) (csn : BitVec 32),
    let q := s.dev.grp g.toNat
    let vals := (s.dev.claimsOf g.toNat).filter fun p => domOf p.1 == dom.val
    let arm := fun (acked : Bool) => (⟨dom.val, g.toNat, csn.toNat, acked, false, false, vals, []⟩ : RArm)
    let keep := s.dev.commit.remote.filter fun r => !(r.dom == dom.val && r.grp == g.toNat)
    q.mode = .armed → q.csn = csn.toNat → dom.val ≠ 1 → q.bnd ≠ 2 → q.bnd ≠ 3 →
    (s.dev.lt + 150 ≤ q.applyLt →
      Does (.armReceive dom g csn) s fun d' =>
        Dev.Frame noCommit (among []) s.dev d' ∧ d'.commit = { s.dev.commit with remote := keep ++ [arm true] } ∧
        d'.sent = s.dev.sent ++ [.event 1 [dom.val, 1, g.toNat, csn.toNat]]) ∧
    (q.applyLt < s.dev.lt + 150 →
      exec (.armReceive dom g csn) s = .next { s with dev := { s.dev with commit := { s.dev.commit with remote := keep ++ [arm false] } } })) ∧
  (∀ (s : State) (g : BitVec 8) (dom : Fin 32) (csn : BitVec 32),
    let q := s.dev.grp g.toNat
    q.mode = .armed → q.csn = csn.toNat → q.acks.contains dom.val = false →
    exec (.ackReceive g dom csn) s = .next { s with dev := s.dev.setGrp g.toNat { q with acks := q.acks ++ [dom.val] } }) ∧
  (∀ (s : State) (g : Fin 8),
    let q := s.dev.grp g.val
    let lim := s.dev.fld Reg.COMMIT_CTRL 28 4
    q.mode = .armed → (q.bnd = 2 ∨ q.bnd = 3) → q.armLt + 4 * s.dev.armLead ≤ s.dev.lt → s.dev.remoteDoms g.val = [] → s.dev.role ≠ 2 →
    (lim = 0 ∨ q.slipRun + 1 < lim) →
    Does (.withdraw ⟨g.val, by omega⟩) s fun d' =>
      Dev.Frame noCommit (among [Reg.COMMIT_RETIRED, Reg.COMMIT_SLIPS, Reg.COMMIT_GRP_SLIP g.val, Reg.COMMIT_EVT]) s.dev d' ∧
      (d'.grp g.val).mode = .pending ∧ (d'.grp g.val).slipRun = q.slipRun + 1 ∧ d'.commit.claims = s.dev.commit.claims ∧
      d'.rd Reg.COMMIT_RETIRED = min (s.dev.rd Reg.COMMIT_RETIRED + 1) 0xFFFFFFFF ∧ d'.bit Reg.COMMIT_EVT 7 = true)

/-- COMMIT_APPLY of staged registers that have no further effect: every claimed register takes its staged value at once, the claims are released,
the CSN and the apply line time are recorded, and nothing else changes. A remote domain's swap keeps an undo copy, which SWAP releases and ABORT
restores. -/
def Obligations.ApplySwapAbort : Prop :=
  (∀ (s : State) (g : Fin 8),
    let q := s.dev.grp g.val
    let vals := s.dev.claimsOf g.val
    q.mode = .armed → q.bnd = 0 → q.applyLt ≤ s.dev.lt → q.fabric = false → q.peer = false → q.retrained = false →
    s.dev.remoteDoms g.val = [] → s.dev.role ≠ 2 → s.dev.follows = false → s.dev.lowerArmed g.val = [] →
    s.dev.dueGroups.head? = some g.val →
    (∀ p ∈ s.dev.seq.sides, p.2.due = []) → (∀ b < 8, (s.dev.beam b).crossings = []) →
    (∀ p ∈ vals, hookFree p.1 = true ∧ (regRow p.1).isSome = true) →
    Does (.commitApply ⟨g.val, by omega⟩) s fun d' =>
      Dev.Frame noCommit (fun k => (vals.map (·.1)).contains k ||
        among [Reg.COMMIT_CSN, Reg.COMMIT_GRP_CSN g.val, Reg.COMMIT_GRP_APPLY_LT g.val, Reg.COMMIT_EVT] k) s.dev d' ∧
      (∀ p ∈ vals, d'.rd p.1 = afterVals vals p.1 (s.dev.rd p.1)) ∧ d'.claimsOf g.val = [] ∧
      (d'.grp g.val).mode = .empty ∧ (d'.grp g.val).result = 1 ∧ d'.rd Reg.COMMIT_CSN = q.csn % 2 ^ 32 ∧
      d'.rd (Reg.COMMIT_GRP_APPLY_LT g.val) = q.applyLt % 2 ^ 64 ∧ d'.bit Reg.COMMIT_EVT 0 = true ∧
      Others s.dev.commit.grps d'.commit.grps g.val) ∧
  (∀ (s : State) (dom : Fin 32) (g : BitVec 8) (r : RArm),
    let q := s.dev.grp g.toNat
    (s.dev.commit.remote.filter (fun x => x.dom == dom.val) = [r] → r.grp = g.toNat → r.acked = true → r.swapped = false → r.retrained = false →
      q.mode = .armed → q.csn = r.csn → q.bnd = 0 → q.applyLt ≤ s.dev.lt → (∀ p ∈ s.dev.seq.sides, p.2.due = []) →
      (∀ p ∈ r.vals, hookFree p.1 = true ∧ (regRow p.1).isSome = true) →
      Does (.remoteSwap dom g) s fun d' =>
        Dev.Frame noCommit (fun k => (r.vals.map (·.1)).contains k) s.dev d' ∧
        (∀ p ∈ r.vals, d'.rd p.1 = afterVals r.vals p.1 (s.dev.rd p.1)) ∧ d'.commit.claims = s.dev.commit.claims ∧
        { r with swapped := true, undo := r.vals.map fun p => (p.1, BitVec.ofNat 64 (s.dev.rd p.1)) } ∈ d'.commit.remote) ∧
    (s.dev.findArm dom.val g.toNat = some r → r.swapped = true → (∀ p ∈ r.undo, hookFree p.1 = true ∧ (regRow p.1).isSome = true) →
      ∀ csn : BitVec 32, r.csn = csn.toNat →
      Does (.abortReceive dom g csn) s fun d' =>
        Dev.Frame noCommit (fun k => (r.undo.map (·.1)).contains k) s.dev d' ∧
        (∀ p ∈ r.undo, d'.rd p.1 = afterVals r.undo p.1 (s.dev.rd p.1)) ∧ r ∉ d'.commit.remote)) ∧
  (∀ (s : State) (dom : Fin 32) (g : BitVec 8) (csn : BitVec 32),
    Does (.swapReceive dom g csn) s fun d' =>
      Dev.Frame noCommit (among []) s.dev d' ∧ d'.commit.claims = s.dev.commit.claims ∧ d'.commit.grps = s.dev.commit.grps ∧
      ∀ r ∈ d'.commit.remote, r.dom = dom.val → r.grp = g.toNat → r.csn = csn.toNat → r.undo = [])

/-- The snapshot: OPEN issues the marker, CLOSE and the timeout end it and let waiting reads return, a read before READY waits and a later one
returns the value at the marker. A host write that is not performed in time is abandoned. -/
def Obligations.Snapshots : Prop :=
  (∀ (s : State) (src : Fin 30), s.dev.Reach src.val Reg.COMMIT_SNAP_CTRL →
    (s.dev.commit.snapOpen = false → (∀ p ∈ s.dev.commit.grps, p.1 < 8) → s.dev.claimsOf 8 = [] → s.dev.role ≠ 2 →
      (∀ h < 8, (s.dev.grp h).mode ≠ .pending) → s.dev.dataOff = false → s.dev.writesOut s.dev.commit.order src.val = false →
      Does (.snapshotOpen src) s fun d' =>
        Dev.Frame (fun d => { d with commit := default, stem := [] }) (among [Reg.COMMIT_NEXT_CSN, Reg.COMMIT_SNAP_CSN]) s.dev d' ∧
        d'.commit.snapOpen = true ∧ d'.commit.snapReady = false ∧ d'.commit.snapOwner = src.val ∧ d'.commit.snapAt = s.dev.lt ∧
        d'.commit.snapGrp = 8 ∧
        (d'.grp 8).mode = .armed ∧ (d'.grp 8).csn = s.dev.rd Reg.COMMIT_NEXT_CSN ∧ (d'.grp 8).applyLt = s.dev.lt + s.dev.immLead ∧
        d'.commit.claims = s.dev.commit.claims) ∧
    (s.dev.commit.snapOpen = true →
      Does (.snapshotOpen src) s fun d' =>
        Dev.Frame id (among [Reg.COMMIT_EVT]) s.dev d' ∧ d'.bit Reg.COMMIT_EVT 5 = true) ∧
    Does (.snapshotClose src) s fun d' =>
      Dev.Frame noCommit (among []) s.dev d' ∧ d'.commit.snapOpen = false ∧ d'.commit.snapReady = false ∧ d'.commit.snapCopy = [] ∧
      d'.commit.stalled = [] ∧ d'.commit.claims = s.dev.commit.claims ∧ d'.commit.grps = s.dev.commit.grps ∧
      d'.sent = s.dev.sent ++ (s.dev.commit.stalled.filter fun r => r.own).map fun r => .event 2 [r.src, r.key, s.dev.rd r.key]) ∧
  (∀ s : State, s.dev.commit.snapOpen = true → s.dev.commit.snapAt + 1000 * max 1 (s.dev.fld Reg.COMMIT_SNAP_TMO 0 16) ≤ s.dev.lt →
    Does .snapTmo s fun d' =>
      Dev.Frame noCommit (among [Reg.COMMIT_EVT]) s.dev d' ∧ d'.commit.snapOpen = false ∧ d'.commit.stalled = [] ∧
      d'.bit Reg.COMMIT_EVT 6 = true) ∧
  (∀ (s : State) (src : Fin 30) (a : BitVec 48) (r : RegDef), isReg a.toNat r = true → r.cmt = 0xFFFFFFFF → r.width = 32 → r.wo = 0 →
    plainRead a.toNat = true → s.dev.Reach src.val a.toNat →
    (s.dev.commit.snapOpen = true → s.dev.commit.snapReady = false →
      (∀ w ∈ s.dev.commit.stalled, w.own = false → w.src = src.val → w.key = a.toNat → s.dev.lt < w.at0 + s.dev.stallBound) →
      exec (.snapshotViewRead src a false) s =
        .next { s with dev := { s.dev with commit := { s.dev.commit with stalled := s.dev.commit.stalled ++ [⟨src.val, a.toNat, s.dev.lt, true⟩] } } }) ∧
    (s.dev.commit.snapReady = true →
      Does (.snapshotViewRead src a false) s fun d' =>
        Dev.Frame noCommit (among []) s.dev d' ∧
        d'.commit = { s.dev.commit with
          stalled := s.dev.commit.stalled.filter fun w => w.own || w.src != src.val || w.key != a.toNat } ∧
        d'.sent = s.dev.sent ++ [.event 4 [src.val, a.toNat + 2 * 2 ^ 28, s.dev.snapVal a.toNat % 2 ^ 32]])) ∧
  (∀ (s : State) (h : HostAcc) (a : Nat), s.dev.host.waiting = [h] → h.write = true → h.eth = false → h.abandoned = false →
    h.at0 + s.dev.hostTmo ≤ s.dev.lt → s.dev.hostPlace h = some a → isRegSpace a = true → crosses 25 a = true → a % 4 = 0 → h.bytes.length = 4 →
    s.dev.stemUp = false → s.dev.hostAdmits a (leNum h.bytes) = true →
    Does .hostWriteAbandon s fun d' =>
      Dev.Frame id (among [Reg.HOST_NT, Reg.HOST_EVT]) s.dev d' ∧ d'.rd Reg.HOST_NT = min (s.dev.rd Reg.HOST_NT + 1) 0xFFFFFFFF ∧
      d'.bit Reg.HOST_EVT 0 = true ∧ ∀ x ∈ d'.host.waiting, x.abandoned = true)

/-- List memory: a write is performed on the beam die and forwarded to the mirror, which performs it and acknowledges it; the whole copy makes the
mirror equal to list memory.
Cam beds: an edge of a switch channel reaches its unit, and a pulse that would last less than 4 ns is suppressed and counted; a correction is
added to the channel's accumulator; an override request arms the next occurrence of the window, is merged, or finds no row. -/
def Obligations.ListMemoryAndCams : Prop :=
  ((∀ (s : State) (src : Fin 30) (off : BitVec 20) (bs : List Byte),
     bs ≠ [] → off.toNat + bs.length ≤ 0x100000 → s.dev.locked = false → s.dev.domOn 15 = true → s.dev.role ≠ 2 → s.dev.standbyDrops src.val = false →
     (crosses src.val (listBase + off.toNat) = true → s.dev.stemUp = true) →
     Does (.listMemoryWrite src off bs) s fun d' =>
       Dev.FrameAt (fun d => { d with seq := default, stem := [] }) (among []) (listBase + off.toNat) bs.length s.dev d' ∧
       d'.load (listBase + off.toNat) bs.length = nats bs ∧
       d'.seq = { s.dev.seq with fwd := s.dev.seq.fwd ++ [(off.toNat, nats bs)] }) ∧
   (∀ (s : State) (off : Nat) (bs : List Nat) (t : List (Nat × List Nat)), s.dev.seq.fwd = (off, bs) :: t →
     (bs ≠ [] →
       Does .mirrorAck s fun d' =>
         Dev.Frame (fun d => { d with seq := default, commit := default }) (among []) s.dev d' ∧ d'.seq.fwd = t ∧
         (List.range bs.length).map (fun i => d'.listByte 1 (off + i)) = bs.map (· % 256) ∧
         (∀ o, ¬ (off ≤ o ∧ o < off + bs.length) → d'.listByte 1 o = s.dev.listByte 1 o) ∧
         (∀ g, (d'.grp g).seqWait = (s.dev.grp g).seqWait - 1) ∧ d'.commit.claims = s.dev.commit.claims) ∧
     (bs = [] →
       Does .mirrorAck s fun d' =>
         Dev.Frame (fun d => { d with seq := default, commit := default }) (among ((List.range 8).map Reg.SEQ_STATUS)) s.dev d' ∧
         d'.seq.fwd = t ∧ (∀ b < 8, d'.bit (Reg.SEQ_STATUS b) 25 = true) ∧ ∀ o < 0x100000, d'.listByte 1 o = s.dev.listByte 0 o)) ∧
   (∀ s : State, s.dev.stemUp = true → s.dev.dataOff = false → s.dev.bit (Reg.SEQ_STATUS 0) 25 = false → (∀ p ∈ s.dev.seq.fwd, p.2 ≠ []) →
     Does .mirrorCopy s fun d' =>
       Dev.Frame (fun d => { d with seq := default, stem := [] }) (among []) s.dev d' ∧ Others s.dev.stem d'.stem 0 ∧
       d'.seq = { s.dev.seq with fwd := s.dev.seq.fwd ++ [(0, [])] } ∧
       ((s.dev.stemEnd 0).queue = [] → (s.dev.stemEnd 0).retry = [] →
         (d'.stemEnd 0).queue = s.dev.copyFlits.drop 64 ∧
         (d'.stemEnd 0).retry.map (fun f => (f.ty, f.targ, f.payload)) =
           (s.dev.copyFlits.take 64).map fun f => (f.ty, f.targ, f.payload)))) ∧
  ((∀ (s : State) (c : Fin 1024),
     let placed := tget s.dev.cam.level c.val
     let on := s.dev.swPlaced c.val
     let at_ := fun (t : Nat) => (s.dev.swLevel c.val t (s.dev.estAt 0 (s.dev.chanBeam c.val) t)).getD placed
     ((∀ k < 4, (on && at_ (s.dev.lt - k)) = placed) → exec (.switchEdge c) s = .next s) ∧
     ((∀ k < 4, (on && at_ (s.dev.lt - k)) = !placed) →
       Does (.switchEdge c) s fun d' =>
         Dev.Frame (fun d => { d with cam := default, stn := default }) (among [Reg.STN_PIN_SHORT, Reg.STN_EVT]) s.dev d' ∧
         tget d'.cam.level c.val = !placed ∧ Others s.dev.cam.level d'.cam.level c.val ∧
         d'.cam = { s.dev.cam with level := d'.cam.level }) ∧
     (on = true → 4 ≤ s.dev.lt → at_ (s.dev.lt - 4) = placed → at_ (s.dev.lt - 3) = !placed → (∀ k < 3, at_ (s.dev.lt - k) = placed) →
       Does (.switchEdge c) s fun d' =>
         Dev.Frame id (among [Reg.CAM_SW_SHORT, Reg.CAM_EVT]) s.dev d' ∧
         d'.rd Reg.CAM_SW_SHORT = min (s.dev.rd Reg.CAM_SW_SHORT + 1) 0xFFFFFFFF ∧ d'.bit Reg.CAM_EVT 6 = true)) ∧
   (∀ (s : State) (src : Fin 30) (c : Fin 1024) (v : BitVec 32), s.dev.Reach src.val (Reg.CAM_CORR_IN c.val) →
     let q := tget s.dev.cam.acc c.val
     Does (.camCorrIn src c v) s fun d' =>
       Dev.Frame (fun d => { d with cam := default }) (among []) s.dev d' ∧
       tget d'.cam.acc c.val = (max (-8388607) (min 8388607 (q.1 + v.toInt)), min (q.2.1 + 1) 255, v.toInt) ∧
       Others s.dev.cam.acc d'.cam.acc c.val ∧ d'.cam = { s.dev.cam with acc := d'.cam.acc }) ∧
   (∀ (s : State) (src : Fin 30) (v : BitVec 32), s.dev.Reach src.val Reg.CAM_OVR_REQ →
     let c := bits v.toNat 0 10
     let b := s.dev.chanBeam c
     let l := (s.dev.beam b).l
     let w := (s.dev.ovrWindow c).1
     let f := s.dev.fieldLen b
     let field := ((l / f).toNat + (if l % f < w then 0 else 1)) % 2 ^ 24
     (s.dev.bit (Reg.CAM_CHAN_CFG c) 0 = false ∨ s.dev.bit (Reg.CAM_CHAN_OVR c) 24 = false → exec (.camOvrReq src v) s = .next s) ∧
     (s.dev.bit (Reg.CAM_CHAN_CFG c) 0 = true → s.dev.bit (Reg.CAM_CHAN_OVR c) 24 = true →
       (∀ x ∈ s.dev.bedsOf c, s.dev.rowOn (s.dev.fpf b) x.1 c 4 = false) →
       Does (.camOvrReq src v) s fun d' => Dev.Frame id (among [Reg.CAM_EVT]) s.dev d' ∧ d'.bit Reg.CAM_EVT 8 = true) ∧
     (s.dev.bit (Reg.CAM_CHAN_CFG c) 0 = true → s.dev.bit (Reg.CAM_CHAN_OVR c) 24 = true →
       (∃ x ∈ s.dev.bedsOf c, s.dev.rowOn (s.dev.fpf b) x.1 c 4 = true) → s.dev.fld (Reg.CAM_CHAN_OVR c) 0 12 < s.dev.fpf b →
       (tget s.dev.cam.armed c = [] →
         Does (.camOvrReq src v) s fun d' =>
           Dev.Frame (fun d => { d with cam := default }) (among [Reg.CAM_EVT]) s.dev d' ∧ tget d'.cam.armed c = [field] ∧
           Others s.dev.cam.armed d'.cam.armed c ∧ d'.cam = { s.dev.cam with armed := d'.cam.armed, kept := d'.cam.kept }) ∧
       (field ∈ tget s.dev.cam.armed c →
         Does (.camOvrReq src v) s fun d' =>
           Dev.Frame id (among [Reg.CAM_OVR_MERGE]) s.dev d' ∧
           d'.rd Reg.CAM_OVR_MERGE = min (s.dev.rd Reg.CAM_OVR_MERGE + 1) 0xFFFFFFFF))))

/-- The item store and the harvest ring: a direct write changes user words alone, and one that touches the rest of a record is discarded and counted;
the consumer's count moves only within what the ring holds. -/
def Obligations.ItemStoreWrites : Prop :=
  (∀ (s : State) (src : Fin 30) (off : BitVec 22) (bs : List Byte),
    let slot := off.toNat / 64
    let low := (List.range bs.length).any fun k => decide ((off.toNat + k) % 64 < 40)
    bs ≠ [] → off.toNat + bs.length ≤ 0x400000 → s.dev.locked = false → s.dev.domOn 14 = true →
    s.dev.standbyDrops src.val = false → (crosses src.val (itemBase + off.toNat) = true → s.dev.stemUp = true) →
    (low = false →
      Does (.itemDirectWrite src off bs) s fun d' =>
        Dev.Frame noItems (among []) s.dev d' ∧ Others s.dev.items.store d'.items.store slot ∧
        (d'.item slot).bytes = (s.dev.item slot).bytes.take (off.toNat % 64) ++ nats bs ++ (s.dev.item slot).bytes.drop (off.toNat % 64 + bs.length) ∧
        d'.items.lists = s.dev.items.lists ∧ d'.items.dls = s.dev.items.dls) ∧
    (low = true →
      Does (.itemDirectWrite src off bs) s fun d' =>
        Dev.Frame id (among [Reg.ITEM_WR_DENY, Reg.ITEM_EVT]) s.dev d' ∧
        d'.rd Reg.ITEM_WR_DENY = min (s.dev.rd Reg.ITEM_WR_DENY + 1) 0xFFFFFFFF ∧ d'.bit Reg.ITEM_EVT 9 = true)) ∧
  (∀ (s : State) (src : Fin 30) (v : BitVec 32), s.dev.Reach src.val Reg.ITEM_HRING_RD →
    let held := (s.dev.rd Reg.ITEM_HRING_WR % 2 ^ 17 + 2 ^ 17 - v.toNat % 2 ^ 17) % 2 ^ 17
    (held ≤ 2 ^ s.dev.hringK →
      Does (.itemHringRd src v) s fun d' => Dev.Frame id (among [Reg.ITEM_HRING_RD]) s.dev d' ∧ d'.rd Reg.ITEM_HRING_RD = v.toNat % 2 ^ 17) ∧
    (2 ^ s.dev.hringK < held → exec (.itemHringRd src v) s = .next s))

/-- The verdict port: OR sets bits, DONE sets bits and closes its expectation, EXPECT moves its deadline, PRINT_ACK closes an acknowledgement and
PRINT_END clears PRINTING; a message for a free or other slot is counted as stale; a deadline that passes has its consequence. -/
def Obligations.VerdictPort : Prop :=
  (∀ (s : State) (slot : BitVec 16) (iid : BitVec 32),
    let x := slot.toNat
    let i := s.dev.item x
    let rej := fun (m : Nat) => if (m &&& s.dev.rd (Reg.ITEM_CLASS_REJ i.cls)) / 2 ≠ 0 then 1 else 0
    s.dev.follows = false →
    (∀ (m : BitVec 64), (i.state = 0 ∨ i.id ≠ iid.toNat) →
      Does (.verdictOr slot iid m) s fun d' =>
        Dev.Frame id (among [Reg.ITEM_VERDICT_STALE, Reg.ITEM_EVT]) s.dev d' ∧
        d'.rd Reg.ITEM_VERDICT_STALE = min (s.dev.rd Reg.ITEM_VERDICT_STALE + 1) 0xFFFFFFFF ∧ d'.bit Reg.ITEM_EVT 4 = true) ∧
    (i.state ≠ 0 → i.id = iid.toNat →
      (∀ m : BitVec 64,
        Does (.verdictOr slot iid m) s fun d' =>
          Dev.Frame noItems (among []) s.dev d' ∧ Others s.dev.items.store d'.items.store x ∧
          d'.item x = { i with verdict := i.verdict ||| verdictBits m.toNat ||| rej (verdictBits m.toNat) } ∧
          d'.items.dls = s.dev.items.dls ∧ d'.items.lists = s.dev.items.lists) ∧
      (∀ (key last : BitVec 64) (e : Deadline), s.dev.openDl x key.toNat false = some e →
        let t := last.toNat + 1000 * clampN 50 2000 (s.dev.fld Reg.ITEM_VERDICT_DL 0 16)
        s.dev.lt < t →
        Does (.verdictExpect slot iid key last) s fun d' =>
          Dev.Frame noItems (among []) s.dev d' ∧ d'.items.store = s.dev.items.store ∧
          d'.items.dls = s.dev.items.dls.erase e ++ [{ e with at0 := t }]) ∧
      (∀ m key : BitVec 64, ∀ e : Deadline, s.dev.openDl x key.toNat false = some e →
        Does (.verdictDone slot iid m key) s fun d' =>
          Dev.Frame noItems (among []) s.dev d' ∧ Others s.dev.items.store d'.items.store x ∧
          d'.item x = { i with verdict := i.verdict ||| verdictBits m.toNat ||| rej (verdictBits m.toNat), vpend := i.vpend - 1 } ∧
          d'.items.dls = s.dev.items.dls.erase e) ∧
      (∀ m key : BitVec 64, s.dev.openDl x key.toNat false = none →
        Does (.verdictDone slot iid m key) s fun d' =>
          Dev.Frame id (among [Reg.ITEM_VERDICT_LATE, Reg.ITEM_EVT]) s.dev d' ∧ d'.bit Reg.ITEM_EVT 5 = true) ∧
      (∀ (key : BitVec 64) (e : Deadline), s.dev.openDl x key.toNat true = some e →
        Does (.printAck slot iid key) s fun d' =>
          Dev.Frame noItems (among []) s.dev d' ∧ d'.items = { s.dev.items with dls := s.dev.items.dls.erase e }) ∧
      Does (.printEnd slot iid) s fun d' =>
        Dev.Frame noItems (among []) s.dev d' ∧ Others s.dev.items.store d'.items.store x ∧ d'.item x = { i with printing := false } ∧
        d'.items.dls = s.dev.items.dls)) ∧
  (∀ (s : State) (e : Deadline), s.dev.items.dls = [e] → e.at0 ≤ s.dev.lt →
    let i := s.dev.item e.slot
    (e.print = false →
      Does .verdictDeadline s fun d' =>
        Dev.Frame noItems (among []) s.dev d' ∧ d'.items.dls = [] ∧ Others s.dev.items.store d'.items.store e.slot ∧
        (d'.item e.slot).vpend = i.vpend - 1 ∧ tb (d'.item e.slot).verdict 5 = true) ∧
    (e.print = true →
      Does .printAckDeadline s fun d' =>
        Dev.Frame noItems (among []) s.dev d' ∧ d'.items.dls = [] ∧ Others s.dev.items.store d'.items.store e.slot ∧
        (d'.item e.slot).printing = false ∧ tb (d'.item e.slot).verdict 3 = true))

/-- Item commands on one record: while a channel is BUSY a write is ignored and sets OVERRUN; a command on a free slot, or on one whose id does not stand
in the buffer, has its RESULT and no other effect; else READ copies the record into the buffer, WRITE replaces the words that ARG names, SETV and CLRV
change verdict bits and NOP does nothing; a reserved code reads BAD_ARG. How long a channel stays BUSY is a free value (log 20), so BUSY is left open. -/
def Obligations.ItemRecordCommands : Prop :=
  ∀ (s : State) (src : Fin 30) (ch : Fin 8) (slot : BitVec 16), s.dev.Reach src.val (Reg.ITEM_CMD ch.val) →
    let x := slot.toNat
    let i := s.dev.item x
    let buf := fun (w : Nat) => s.dev.rd (Reg.ITEM_CMD_BUF ch.val w)
    let res := if i.state = 0 then 4 else if i.id ≠ buf 0 then 1 else 0
    let told := fun (d' : Dev) (r : Nat) => d'.rd (Reg.ITEM_CMD_STATUS ch.val) / 2 * 2 = r * 2 ^ 4 + x * 2 ^ 16
    let only := fun (d' : Dev) (r : Nat) =>
      Dev.Frame noItems (among [Reg.ITEM_CMD_STATUS ch.val]) s.dev d' ∧ { d'.items with chans := s.dev.items.chans } = s.dev.items ∧ told d' r
    ((aget s.dev.items.chans ch.val).isSome = true →
      Does (.itemCmdRead src ch slot) s fun d' =>
        Dev.Frame id (among [Reg.ITEM_CMD_STATUS ch.val]) s.dev d' ∧
        d'.rd (Reg.ITEM_CMD_STATUS ch.val) = (s.dev.rd (Reg.ITEM_CMD_STATUS ch.val) ||| 256) % 2 ^ 32) ∧
    (aget s.dev.items.chans ch.val = none →
      Does (.itemCmdNop src ch slot) s (fun d' => only d' res) ∧
      (∀ code : Fin 7, Does (.itemCmdReserved src ch code slot) s fun d' => only d' 3) ∧
      (res ≠ 0 →
        Does (.itemCmdRead src ch slot) s (fun d' => only d' res) ∧ Does (.itemCmdWrite src ch slot) s (fun d' => only d' res) ∧
        Does (.setv src ch slot) s (fun d' => only d' res) ∧ Does (.clrv src ch slot) s (fun d' => only d' res) ∧
        (∀ noRing : Bool, Does (.itemCmdHarvest src ch slot noRing) s fun d' => only d' res)) ∧
      (res = 0 →
        Does (.itemCmdRead src ch slot) s (fun d' =>
          Dev.Frame noItems (among (Reg.ITEM_CMD_STATUS ch.val :: (List.range 16).map (Reg.ITEM_CMD_BUF ch.val))) s.dev d' ∧ told d' 0 ∧
          { d'.items with chans := s.dev.items.chans } = s.dev.items ∧
          ∀ w < 16, d'.rd (Reg.ITEM_CMD_BUF ch.val w) = leAt i.bytes (4 * w) 4) ∧
        (tb (buf 15) 0 = false → Does (.itemCmdWrite src ch slot) s fun d' =>
          Dev.Frame noItems (among [Reg.ITEM_CMD_STATUS ch.val]) s.dev d' ∧ told d' 0 ∧ Others s.dev.items.store d'.items.store x ∧
          (d'.item x).pjob = (if tb (buf 15) 1 then buf 8 else i.pjob) ∧ (d'.item x).gen = (if tb (buf 15) 2 then buf 9 % 65536 else i.gen) ∧
          (∀ k < 6, (d'.item x).user k = if tb (buf 15) (3 + k) then buf (10 + k) else i.user k) ∧
          { d'.item x with pjob := i.pjob, gen := i.gen, users := i.users } = i) ∧
        Does (.setv src ch slot) s (fun d' =>
          let m := verdictBits (buf 6 + buf 7 * 2 ^ 32)
          Dev.Frame noItems (among [Reg.ITEM_CMD_STATUS ch.val]) s.dev d' ∧ told d' 0 ∧ Others s.dev.items.store d'.items.store x ∧
          d'.item x = { i with verdict := i.verdict ||| m ||| if (m &&& s.dev.rd (Reg.ITEM_CLASS_REJ i.cls)) / 2 ≠ 0 then 1 else 0 }) ∧
        Does (.clrv src ch slot) s fun d' =>
          Dev.Frame noItems (among [Reg.ITEM_CMD_STATUS ch.val]) s.dev d' ∧ told d' 0 ∧ Others s.dev.items.store d'.items.store x ∧
          { d'.item x with verdict := i.verdict } = i ∧
          ∀ k, 1 ≤ k → tb (d'.item x).verdict k = (tb i.verdict k && !tb (buf 6 + buf 7 * 2 ^ 32) k)))

/-- Item commands that sow, move and harvest: SOW puts the buffer's record into the next slot and its beam's list, MOVE changes its place, HARVEST
frees the slot, with a copy in the ring unless NOHR is set, FLUSH_BEAM takes up the items of a beam, of which each beam cycle harvests one, and FLUSH
frees every item. -/
def Obligations.ItemFlow : Prop :=
  ∀ (s : State) (src : Fin 30) (ch : Fin 8) (slot : BitVec 16), s.dev.Reach src.val (Reg.ITEM_CMD ch.val) →
    let x := slot.toNat
    let i := s.dev.item x
    let buf := fun (w : Nat) => s.dev.rd (Reg.ITEM_CMD_BUF ch.val w)
    let im := itemOfBytes (s.dev.cmdImage ch.val)
    let told := fun (d' : Dev) (n : Nat) => d'.rd (Reg.ITEM_CMD_STATUS ch.val) / 2 * 2 = n * 2 ^ 16
    aget s.dev.items.chans ch.val = none →
    (s.dev.stn.rel = [] → (s.dev.beam im.beam).mode ≠ .off → bits im.pos 12 12 < s.dev.fpf im.beam → s.dev.bit Reg.ITEM_CTRL 0 = true →
      s.dev.runs = true → s.dev.itemCount + s.dev.trl.resv.length < 65536 → s.dev.items.fresh < 65536 → s.dev.beamList im.beam = [] →
      Does (.itemCmdSow src ch false) s fun d' =>
        let n := s.dev.items.fresh
        Dev.Frame noItems (among [Reg.ITEM_CMD_STATUS ch.val]) s.dev d' ∧ told d' n ∧
        Others s.dev.items.store d'.items.store n ∧ d'.items.fresh = n + 1 ∧ d'.beamList im.beam = [n] ∧
        { d'.item n with verdict := 0 } =
          { im with state := 1, origin := 2, vpend := 0, measuring := false, long := false, printing := false, verdict := 0 } ∧
        ∀ k, 1 ≤ k → tb (d'.item n).verdict k = tb im.verdict k) ∧
    (i.state ≠ 0 → i.id = buf 0 → s.dev.stn.rel = [] → s.dev.beamList i.beam = [x] →
      Does (.move src ch slot) s fun d' =>
        Dev.Frame noItems (among [Reg.ITEM_CMD_STATUS ch.val]) s.dev d' ∧ Others s.dev.items.store d'.items.store x ∧
        d'.item x = { i with pos := (buf 2 + buf 3 * 2 ^ 32) % 2 ^ 48, len := buf 4 } ∧ d'.beamList i.beam = [x] ∧
        told d' x) ∧
    (i.state ≠ 0 → i.id = buf 0 → ∀ noRing : Bool, (noRing = true ∨ s.dev.bit Reg.ITEM_HRING_CFG 0 = false) →
      Does (.itemCmdHarvest src ch slot noRing) s fun d' =>
        Dev.Frame noItems (among [Reg.ITEM_CMD_STATUS ch.val]) s.dev d' ∧ Others s.dev.items.store d'.items.store x ∧ d'.item x = default ∧
        d'.items.freed = s.dev.items.freed ++ [x] ∧ d'.beamList i.beam = (s.dev.beamList i.beam).filter (· != x) ∧
        d'.items.dls = s.dev.items.dls.filter (fun e => e.slot != x) ∧ told d' x) ∧
    (i.state ≠ 0 → i.id = buf 0 → s.dev.bit Reg.ITEM_HRING_CFG 0 = true → s.dev.role ≠ 2 → s.dev.locked = false →
      let k := s.dev.hringK
      let w := s.dev.rd Reg.ITEM_HRING_WR % 2 ^ 17
      let a := s.dev.fld Reg.ITEM_HRING_BASE 0 48 / 2 ^ (6 + k) * 2 ^ (6 + k) + 64 * (w % 2 ^ k)
      (w + 2 ^ 17 - s.dev.rd Reg.ITEM_HRING_RD % 2 ^ 17) % 2 ^ 17 < 2 ^ k → regionOf a = .ssram → s.dev.domOn 16 = true →
      Does (.itemCmdHarvest src ch slot false) s fun d' =>
        Dev.FrameAt noItems (among [Reg.ITEM_CMD_STATUS ch.val, Reg.ITEM_HRING_WR, Reg.ITEM_EVT]) a 64 s.dev d' ∧
        d'.item x = default ∧ d'.rd Reg.ITEM_HRING_WR = (w + 1) % 2 ^ 17 ∧
        ((∀ y, a ≤ y → y < a + 64 → s.dev.inRing y = false) →
          d'.load a 64 = ({ i with state := if s.dev.items.gap then 0xC1 else 0x81 } : Item).bytes)) ∧
    Does (.flushBeam src ch slot) s (fun d' =>
      let run : ItemCmd := ⟨32, buf 15 % 8, (s.dev.beamList (buf 15 % 8)).map fun y => (y, (s.dev.item y).id)⟩
      Dev.Frame noItems (among [Reg.ITEM_CMD_STATUS ch.val]) s.dev d' ∧ d'.rd (Reg.ITEM_CMD_STATUS ch.val) = 1 + x * 2 ^ 16 ∧
      d'.items = { s.dev.items with chans := aset s.dev.items.chans ch.val (some run) }) ∧
    (∀ (run : ItemCmd) (y n : Nat) (rest : List (Nat × Nat)), run.flush = (y, n) :: rest →
      let d := s.dev.setChan ch.val (some run)
      let e := d.cmdCycle ch.val
      aget e.items.chans ch.val = some { run with flush := rest } ∧
      ((s.dev.item y).state ≠ 0 → (s.dev.item y).id = n → (s.dev.item y).beam = run.beam →
        e.item y = default ∧ e.beamList run.beam = (s.dev.beamList run.beam).filter (· != y) ∧ Others s.dev.items.store e.items.store y) ∧
      ((s.dev.item y).state = 0 ∨ (s.dev.item y).id ≠ n ∨ (s.dev.item y).beam ≠ run.beam → e.items.store = s.dev.items.store)) ∧
    (∀ v : BitVec 32, s.dev.Reach src.val Reg.ITEM_CTRL → s.dev.bit Reg.ITEM_HRING_CFG 0 = false →
      (∀ b < 8, (s.dev.beamList b).Nodup ∧ ∀ y ∈ s.dev.beamList b, (s.dev.item y).beam = b) →
      ((s.dev.grp (s.dev.srcGrp src.val)).mode = .empty ∨ (s.dev.grp (s.dev.srcGrp src.val)).mode = .opened) →
      (∀ c, aget s.dev.commit.claims Reg.ITEM_CTRL = some c → c.grp = s.dev.srcGrp src.val) →
      Does (.itemFlush src v) s fun d' =>
        Dev.Frame (fun d => { d with items := default, commit := default }) (among []) s.dev d' ∧
        ∀ b < 8, d'.beamList b = [] ∧ ∀ y ∈ s.dev.beamList b, d'.item y = default)

/-- STATION_EVALUATION: nothing runs before 64 ns after the release or while the engine is busy; a station without candidates costs one check; one
candidate that qualifies and meets the condition has its action scheduled at A, and one that fails the condition has not; a late evaluation counts. -/
def Obligations.StationEvaluation : Prop :=
  (∀ s : State, ((∀ r ∈ s.dev.stn.rel, r.run = none ∧ s.dev.lt < r.at0 + 64) ∨ s.dev.lt < s.dev.stn.busy) → exec .stationEvaluation s = .next s) ∧
  (∀ (s : State) (r : Release), s.dev.nextRel = some r → r.run = none → s.dev.stn.busy ≤ s.dev.lt →
    let lo : Int := (r.lo : Int) * 2 ^ 32
    let stns := (s.dev.stnsOf r.beam).filter r.covers
    let cands := fun x => (s.dev.beamList r.beam).filter fun y => s.dev.candidate x (s.dev.item y) lo && !r.seen.contains (x, y)
    let served := fun (d' : Dev) => d'.stn.busy = s.dev.lt + 4 ∧ ∀ q ∈ d'.stn.rel, sameRel q r = true → q.done = true ∧ q.run = none
    (∀ x, stns = [x] → cands x = [] → r.entered = none →
      Does .stationEvaluation s fun d' =>
        Dev.Frame noStn (among [Reg.STN_STATUS x]) s.dev d' ∧ d'.fld (Reg.STN_STATUS x) 8 6 = min (tget r.counts x) 63 ∧ served d' ∧
        d'.stn = { s.dev.stn with busy := s.dev.lt + 4, checks := s.dev.stn.checks + 1, rel := d'.stn.rel }) ∧
    (∀ x y, stns = [x] → cands x = [y] → tget r.counts x = 0 → r.entered = none → s.dev.qualifies r.csets x (s.dev.item y) = true →
      tb (s.dev.stnCfg x) 28 = false →
      let i := s.dev.item y
      let a := s.dev.trigL x i
      let b := s.dev.stnBeam x
      let fpf := s.dev.fpf b
      let rest := s.dev.stn.sched.filter fun e => !(e.stn == x && e.slot == y && e.aL == a)
      0 ≤ distL fpf lo a → distL fpf lo a < furrowLen → 0 < distL fpf (tget r.fronts x) a →
      (s.dev.stnGo x i = true → bits (s.dev.stnCfg x) 8 4 ≠ 3 → 0 < distL fpf (s.dev.estAt 0 b s.dev.lt) a →
        Does .stationEvaluation s fun d' =>
          Dev.Frame noStn (among [Reg.STN_STATUS x]) s.dev d' ∧ d'.fld (Reg.STN_STATUS x) 8 6 = 1 ∧ served d' ∧
          d'.stn = { s.dev.stn with
            busy := s.dev.lt + 4, checks := s.dev.stn.checks + 2, rel := d'.stn.rel,
            sched := rest ++ [⟨x, y, i.id, a, decide (distL fpf (s.dev.beam b).l a ≤ 0), none, 0⟩] }) ∧
      (s.dev.stnGo x i = false →
        Does .stationEvaluation s fun d' => Dev.Frame noStn (among [Reg.STN_STATUS x]) s.dev d' ∧ served d' ∧ d'.stn.sched = rest) ∧
      (s.dev.stnGo x i = true → bits (s.dev.stnCfg x) 8 4 ≠ 3 → distL fpf (s.dev.estAt 0 b s.dev.lt) a ≤ 0 →
        Does .stationEvaluation s fun d' =>
          Dev.Frame noStn (among [Reg.STN_STATUS x, Reg.STN_ACT_MISS x, Reg.STN_EVT]) s.dev d' ∧ served d' ∧ d'.stn.sched = rest ∧
          d'.rd (Reg.STN_ACT_MISS x) = min (s.dev.rd (Reg.STN_ACT_MISS x) + 1) 0xFFFFFFFF)) ∧
    (∀ u, stns = [] → r.entered = some u → r.noLate = false →
      Does .stationEvaluation s fun d' =>
        Dev.Frame noStn (among [Reg.STN_LATE_CNT, Reg.STN_LATE_MAX, Reg.STN_EVT]) s.dev d' ∧ served d' ∧
        d'.rd Reg.STN_LATE_CNT = min (s.dev.rd Reg.STN_LATE_CNT + 1) 0xFFFFFFFF ∧ d'.bit Reg.STN_EVT 1 = true))

/-- Actions NONE, OVERRIDE, EVENT and SOW that are due: the action is taken off the schedule, STN_FIRED and STN_LAST_ID are written, and the effect
is nothing, an override request, a raised source, or a sown item (counted as a refused sow while sowing is off); none is due, nothing happens. -/
def Obligations.StationActions : Prop :=
  (∀ (s : State) (stn : Fin 512) (slot : BitVec 16),
    let none_ := fun (kind : Nat) => s.dev.dueAct stn.val slot.toNat kind = none
    (none_ 0 → exec (.actionNone stn slot) s = .next s) ∧ (none_ 1 → exec (.actionPulse stn slot) s = .next s) ∧
    (none_ 2 → exec (.actionCamera stn slot) s = .next s) ∧ (none_ 4 → exec (.actionOverride stn slot) s = .next s) ∧
    (none_ 5 → exec (.actionEvent stn slot) s = .next s) ∧ (none_ 6 → exec (.actionHarvest stn slot) s = .next s) ∧
    (none_ 7 → exec (.actionTransfer stn slot) s = .next s) ∧ (none_ 8 → exec (.actionHandoff stn slot) s = .next s) ∧
    (none_ 9 → exec (.actionSow stn slot) s = .next s)) ∧
  (∀ (s : State) (stn : Fin 512) (slot : BitVec 16) (e : Sched) (t : Nat),
    let taken := { s.dev.stn with sched := s.dev.stn.sched.filter (· != e) }
    let own := [Reg.STN_FIRED stn.val, Reg.STN_LAST_ID stn.val]
    let fired := fun (d' : Dev) => d'.rd (Reg.STN_FIRED stn.val) = min (s.dev.rd (Reg.STN_FIRED stn.val) + 1) 0xFFFFFFFF ∧
      d'.rd (Reg.STN_LAST_ID stn.val) = e.id % 2 ^ 32
    (s.dev.dueAct stn.val slot.toNat 0 = some (e, t) →
      Does (.actionNone stn slot) s fun d' => Dev.Frame noStn (among own) s.dev d' ∧ d'.stn = taken ∧ fired d') ∧
    (s.dev.dueAct stn.val slot.toNat 4 = some (e, t) →
      let c := s.dev.fld (Reg.STN_ARG stn.val) 0 10
      let b := s.dev.chanBeam c
      let l := (s.dev.beam b).l
      let f := s.dev.fieldLen b
      let field := ((l / f).toNat + (if l % f < (s.dev.ovrWindow c).1 then 0 else 1)) % 2 ^ 24
      (s.dev.bit (Reg.CAM_CHAN_CFG c) 0 = false ∨ s.dev.bit (Reg.CAM_CHAN_OVR c) 24 = false →
        Does (.actionOverride stn slot) s fun d' => Dev.Frame noStn (among own) s.dev d' ∧ d'.stn = taken ∧ fired d') ∧
      (s.dev.bit (Reg.CAM_CHAN_CFG c) 0 = true → s.dev.bit (Reg.CAM_CHAN_OVR c) 24 = true →
        (∃ x ∈ s.dev.bedsOf c, s.dev.rowOn (s.dev.fpf b) x.1 c 4 = true) → s.dev.fld (Reg.CAM_CHAN_OVR c) 0 12 < s.dev.fpf b →
        (field ∈ tget s.dev.cam.armed c →
          Does (.actionOverride stn slot) s fun d' =>
            Dev.Frame noStn (among (Reg.CAM_OVR_MERGE :: own)) s.dev d' ∧ d'.stn = taken ∧ fired d' ∧
            d'.rd Reg.CAM_OVR_MERGE = min (s.dev.rd Reg.CAM_OVR_MERGE + 1) 0xFFFFFFFF) ∧
        (field ∉ tget s.dev.cam.armed c →
          Does (.actionOverride stn slot) s fun d' =>
            Dev.Frame (fun d => { d with stn := default, cam := default }) (among (Reg.CAM_EVT :: own)) s.dev d' ∧ d'.stn = taken ∧ fired d' ∧
            tget d'.cam.armed c = tget s.dev.cam.armed c ++ [field] ∧ Others s.dev.cam.armed d'.cam.armed c ∧
            d'.cam = { s.dev.cam with armed := d'.cam.armed, kept := d'.cam.kept }))) ∧
    (s.dev.dueAct stn.val slot.toNat 5 = some (e, t) →
      let k := s.dev.fld (Reg.STN_ARG stn.val) 0 9
      (320 ≤ k → k < 384 →
        Does (.actionEvent stn slot) s fun d' => Dev.Frame noStn (among own) s.dev d' ∧ d'.stn = taken ∧ fired d' ∧
          (s.dev.srcEn k = true → s.dev.srcQueued k = false → (s.dev.irq k).st = 0 → (d'.irq k).st = 1 ∧ (d'.irq k).pay = e.id)) ∧
      (k < 320 ∨ 384 ≤ k →
        Does (.actionEvent stn slot) s fun d' =>
          Dev.Frame noStn (among [Reg.STN_EVT, Reg.STN_ACT_MISS stn.val]) s.dev d' ∧ d'.stn = taken ∧ d'.bit Reg.STN_EVT 4 = true ∧
          d'.rd (Reg.STN_ACT_MISS stn.val) = min (s.dev.rd (Reg.STN_ACT_MISS stn.val) + 1) 0xFFFFFFFF)) ∧
    (s.dev.dueAct stn.val slot.toNat 9 = some (e, t) →
      let arg := s.dev.rd (Reg.STN_ARG stn.val)
      let b := s.dev.stnBeam stn.val
      let n := s.dev.items.fresh
      let q := max 1 (s.dev.fld Reg.ITEM_SEQ_NEXT 0 20)
      (s.dev.bit Reg.ITEM_CTRL 0 = false →
        Does (.actionSow stn slot) s fun d' =>
          Dev.Frame noStn (among (Reg.ITEM_SOW_DROP :: own)) s.dev d' ∧ d'.stn = taken ∧ fired d' ∧
          d'.rd Reg.ITEM_SOW_DROP = min (s.dev.rd Reg.ITEM_SOW_DROP + 1) 0xFFFFFFFF) ∧
      (s.dev.bit Reg.ITEM_CTRL 0 = true → s.dev.runs = true → n < 65536 → s.dev.beamList b = [] → s.dev.stn.rel = [] →
        s.dev.itemCount + s.dev.trl.resv.length + min 65536 (s.dev.fld Reg.ITEM_RESERVE 0 17) < 65536 →
        Does (.actionSow stn slot) s fun d' =>
          Dev.Frame (fun d => { d with stn := default, items := default }) (among (Reg.ITEM_SEQ_NEXT :: Reg.ITEM_PJOB b :: own)) s.dev d' ∧
          d'.stn = taken ∧ fired d' ∧ Others s.dev.items.store d'.items.store n ∧ d'.beamList b = [n] ∧ d'.items.fresh = n + 1 ∧
          d'.item n = { (default : Item) with
            state := 1, origin := 1, beam := b, cls := bits arg 0 8, lane := bits arg 8 5, id := s.dev.nodeId * 2 ^ 20 + q,
            pos := posOf (s.dev.fpf b) ((e.aL - sx 32 (s.dev.rd (Reg.STN_ARG2 stn.val)) * 2 ^ 32) % modL (s.dev.fpf b)),
            len := s.dev.rd (Reg.ITEM_CLASS_LEN (bits arg 0 8)), pjob := s.dev.rd (Reg.ITEM_PJOB b),
            sowTick := s.dev.tickOf t, gen := s.dev.genAt t } ∧
          d'.rd Reg.ITEM_SEQ_NEXT = if q + 1 = 2 ^ 20 then 1 else q + 1)))

/-- Actions PULSE, CAMERA and PULSE_END: a time-ended pulse on an idle pin raises its input and lasts its width, and a period shorter than 4 ns is
suppressed when it ends; a camera action in AREA mode opens an expectation, emits the trigger edge and sends the tag over the Stem. -/
def Obligations.PulsesAndCameras : Prop :=
  (∀ (s : State) (stn : Fin 512) (slot : BitVec 16) (e : Sched) (t : Nat), s.dev.dueAct stn.val slot.toNat 1 = some (e, t) →
    let taken := { s.dev.stn with sched := s.dev.stn.sched.filter (· != e) }
    let p := s.dev.fld (Reg.STN_ARG stn.val) 0 6
    let w := s.dev.fld (Reg.STN_ARG stn.val) 8 24
    let b := s.dev.stnBeam stn.val
    let q : Pulse := ⟨stn.val, slot.toNat, p, b, e.aL, (e.aL + s.dev.stnWL stn.val) % modL (s.dev.fpf b), t, some (t + w), []⟩
    let u := s.dev.stnPin p
    (∀ x ∈ s.dev.stn.pulses, x.pin ≠ p) → s.dev.stnInputAt p t = false → u.edge = none → u.lvl = false → u.upto ≤ t → 0 < w →
    Does (.actionPulse stn slot) s fun d' =>
      Dev.Frame noStn (among [Reg.STN_FIRED stn.val, Reg.STN_LAST_ID stn.val]) s.dev d' ∧
      d'.stn = { taken with pulses := s.dev.stn.pulses ++ [q], pins := d'.stn.pins } ∧ Others s.dev.stn.pins d'.stn.pins p ∧
      d'.stnPin p = { u with edge := some (t, true, true), upto := t } ∧ d'.stnInputAt p t = true ∧ d'.sent = s.dev.sent ∧
      d'.rd (Reg.STN_FIRED stn.val) = min (s.dev.rd (Reg.STN_FIRED stn.val) + 1) 0xFFFFFFFF) ∧
  (∀ (s : State) (stn : Fin 512) (slot : BitVec 16) (e : Sched) (t : Nat), s.dev.dueAct stn.val slot.toNat 2 = some (e, t) →
    let taken := { s.dev.stn with sched := s.dev.stn.sched.filter (· != e) }
    let own := [Reg.STN_FIRED stn.val, Reg.STN_LAST_ID stn.val]
    let x := slot.toNat
    let i := s.dev.item x
    let p := s.dev.fld (Reg.STN_ARG stn.val) 0 4
    let tag := fun (low : Nat) => tagBytes i x low t (s.dev.posa (s.dev.stnBeam stn.val) e.aL) 0
    let u := s.dev.stemEnd 0
    let q := tget s.dev.trig p
    let armed := fun (d' : Dev) => d'.item x = { i with vpend := i.vpend + 1 } ∧ Others s.dev.items.store d'.items.store x ∧
      d'.items.dls = s.dev.items.dls ++ [⟨x, t, false, t + 1000 * max 1000 (s.dev.fld Reg.ITEM_VERDICT_BSTOP 0 16)⟩]
    s.dev.actLive e = true → i.vpend < 3 → s.dev.items.dls.length < 4096 →
    (s.dev.bit (Reg.CAMIN_CFG p) 27 = false → q.last = none → s.dev.fld (Reg.PIN_CFG (160 + p)) 0 2 = 0 →
      s.dev.stemUp = true → u.retry.length < 64 → u.queue = [] →
      Does (.actionCamera stn slot) s fun d' =>
        Dev.Frame (fun d => { d with stn := default, items := default, trig := [], stem := [] }) (among own) s.dev d' ∧ d'.stn = taken ∧ armed d' ∧
        Others s.dev.trig d'.trig p ∧ (tget d'.trig p).last = some t ∧
        (tget d'.trig p).pulses = q.pulses.filter (fun x => decide (s.dev.lt < x.2)) ++ [(t, t + s.dev.trigWidth p)] ∧
        d'.sent = s.dev.sent ++ [.pin (160 + p) (!s.dev.bit (Reg.CAMIN_TRIG p) 30) t,
          .flit 0 (flitBytes ⟨u.txSeq, 3, 0, tag p⟩ ((u.rxNext + 4095) % 4096) false u.credit)] ∧ Others s.dev.stem d'.stem 0) ∧
    (s.dev.bit (Reg.CAMIN_CFG p) 27 = true →
      let at_ := (e.aL + sx 32 (s.dev.rd (Reg.CAMIN_LINE_OFS p)) * 2 ^ 32) % modL (s.dev.fpf (s.dev.stnBeam stn.val))
      Does (.actionCamera stn slot) s fun d' =>
        Dev.Frame (fun d => { d with stn := default, items := default, trig := [] }) (among own) s.dev d' ∧ d'.stn = taken ∧ armed d' ∧
        Others s.dev.trig d'.trig p ∧ d'.sent = s.dev.sent ∧ tget d'.trig p = { q with held := q.held ++ [(at_, tag (p + 64))] })) ∧
  (∀ s : State, (∀ q ∈ s.dev.stn.pulses, ∀ e, q.stop = some e → s.dev.lt < e) → exec .pulseEnd s = .next s) ∧
  (∀ (s : State) (q : Pulse) (e t : Nat) (by_ : Bool),
    let u := s.dev.stnPin q.pin
    s.dev.stn.pulses = [q] → q.stop = some e → u.upto < e → e ≤ s.dev.lt → s.dev.switchIn q.pin = false →
    s.dev.bit (Reg.STN_PIN_CFG q.pin) 1 = false → u.lvl = false → u.edge = some (t, true, by_) →
    (t + 4 ≤ e →
      Does .pulseEnd s fun d' =>
        Dev.Frame noStn (among []) s.dev d' ∧ d'.stn = { s.dev.stn with pulses := [], pins := d'.stn.pins } ∧
        Others s.dev.stn.pins d'.stn.pins q.pin ∧
        d'.stnPin q.pin = { u with lvl := true, edge := some (e, false, true), upto := s.dev.lt } ∧
        d'.sent = s.dev.sent ++ [.pin (pinStn q.pin) (true != u.pol) t]) ∧
    (t < e → e < t + 4 →
      Does .pulseEnd s fun d' =>
        Dev.Frame noStn (among [Reg.STN_PIN_SHORT, Reg.STN_EVT]) s.dev d' ∧ d'.stn = { s.dev.stn with pulses := [], pins := d'.stn.pins } ∧
        d'.stnPin q.pin = { u with edge := none, upto := s.dev.lt } ∧
        d'.rd Reg.STN_PIN_SHORT = min (s.dev.rd Reg.STN_PIN_SHORT + 1) 0xFFFFFFFF ∧ d'.bit Reg.STN_EVT 5 = true))

/-- Actions HARVEST, TRANSFER and HANDOFF on a LIVE item: it leaves the store, moves to the other beam with its new position and scaled length, or
is OUTBOUND with an OFFER sent; a transfer to a beam that is OFF is not carried out. -/
def Obligations.ItemActions : Prop :=
  ∀ (s : State) (stn : Fin 512) (slot : BitVec 16) (e : Sched) (t : Nat),
    let taken := { s.dev.stn with sched := s.dev.stn.sched.filter (· != e) }
    let own := [Reg.STN_FIRED stn.val, Reg.STN_LAST_ID stn.val]
    let x := slot.toNat
    let i := s.dev.item x
    let arg := s.dev.rd (Reg.STN_ARG stn.val)
    let body := fun (d : Dev) => { d with stn := default, items := default }
    let counted := fun (d' : Dev) => d'.rd (Reg.STN_FIRED stn.val) = min (s.dev.rd (Reg.STN_FIRED stn.val) + 1) 0xFFFFFFFF
    s.dev.actLive e = true →
    (s.dev.dueAct stn.val x 6 = some (e, t) → s.dev.bit Reg.ITEM_HRING_CFG 0 = false →
      Does (.actionHarvest stn slot) s fun d' =>
        Dev.Frame body (among own) s.dev d' ∧ d'.stn = taken ∧ counted d' ∧ Others s.dev.items.store d'.items.store x ∧ d'.item x = default ∧
        d'.items.freed = s.dev.items.freed ++ [x] ∧ d'.beamList i.beam = (s.dev.beamList i.beam).filter (· != x)) ∧
    (s.dev.dueAct stn.val x 7 = some (e, t) →
      let b := bits arg 0 3
      let l := ((s.dev.posAt b t).1 - sx 32 (s.dev.rd (Reg.STN_ARG2 stn.val)) * 2 ^ 32) % modL (s.dev.fpf b)
      ((s.dev.beam b).mode ≠ .off → i.beam ≠ b → s.dev.beamList b = [] → s.dev.stn.rel = [] →
        Does (.actionTransfer stn slot) s fun d' =>
          Dev.Frame body (among own) s.dev d' ∧ d'.stn = taken ∧ counted d' ∧ Others s.dev.items.store d'.items.store x ∧
          d'.item x = { i with
            beam := b, lane := if tb arg 8 then bits arg 3 5 else i.lane, pos := posOf (s.dev.fpf b) l,
            len := i.len * bits arg 15 17 / 65536 % 2 ^ 32 } ∧
          d'.beamList b = [x] ∧ d'.beamList i.beam = (s.dev.beamList i.beam).filter (· != x)) ∧
      ((s.dev.beam b).mode = .off →
        Does (.actionTransfer stn slot) s fun d' =>
          Dev.Frame noStn (among [Reg.STN_EVT, Reg.STN_ACT_MISS stn.val]) s.dev d' ∧ d'.stn = taken ∧ d'.bit Reg.STN_EVT 4 = true)) ∧
    (s.dev.dueAct stn.val x 8 = some (e, t) → s.dev.trl.idValid = true → (i.id / 2 ^ 20 ≠ 0 ∨ s.dev.nodeId = 0) →
      s.dev.trl.offers.length < 256 → s.dev.feeds = false →
      let node := bits arg 0 12
      ∀ p, s.dev.Routed node p →
      Does (.actionHandoff stn slot) s fun d' =>
        Dev.Frame (fun d => { d with stn := default, items := default, trl := default }) (among own) s.dev d' ∧ d'.stn = taken ∧ counted d' ∧
        Others s.dev.items.store d'.items.store x ∧ d'.item x = { i with state := 2 } ∧ d'.trl.txn = (s.dev.trl.txn + 1) % 2 ^ 32 ∧
        d'.trl.offers = s.dev.trl.offers ++ [⟨s.dev.trl.txn, node, x, e.id, s.dev.lt, none, false⟩] ∧
        Dev.SendsCell s.dev d' p ⟨(s.dev.trlPort p).txSeq, 3, 0, node, s.dev.nodeId, 0, false, false,
          leBytes 4 s.dev.trl.txn ++ [bits arg 12 4, 0, 0, 0] ++ leBytes 8 t ++ ({ i with state := 2 } : Item).bytes, s.dev.lt⟩)

/-- Drive ports: the downlink of the tick leaves in code groups with the frame built at the boundary, the measured delays and its FCS, or is dropped
when it cannot begin before the next boundary. The code groups of a frame that arrives are read back into its bytes: a good uplink in PROBE counts
towards UP, and in UP delivers inputs and axis records; a bad one is counted, and so is a bad code group. A missed uplink is counted and enough of them
leave UP; synchronisation takes a port from SYNC to PROBE, and its loss takes it back to SYNC. -/
def Obligations.DrivePorts : Prop :=
  ((∀ (s : State) (p : Fin 64),
     let q := s.dev.dport p.val
     (q.frame = none → exec (.downlinkTransmit p) s = .next s) ∧
     (∀ (tick tn : Nat) (f : List Nat), q.frame = some (tick, tn, f) → f.headD 0 % 16 ≤ 8 →
       let due := tn + max 2400 (s.dev.fld Reg.DRV_TXOFS 0 16)
       let start := max ((due + 3) / 4 * 4) (if due < q.free then q.free + 8 else 0)
       let body := [0x51] ++ f.take 1 ++ leBytes 2 (s.dev.fld (Reg.DRV_LINK p.val) 0 16) ++ leBytes 4 tick ++ leBytes 8 tn ++
         (f.drop 1).take 6 ++ leBytes 2 (start - tn) ++ f.drop 7
       let bs := body ++ leBytes 4 (fcs body)
       let line := lineFrame q.txRd bs
       (s.dev.lt < due → exec (.downlinkTransmit p) s = .next s) ∧
       (due ≤ s.dev.lt → start < s.dev.tick.next →
         Does (.downlinkTransmit p) s fun d' =>
           Dev.Frame (fun d => { d with drv := [] }) (among (Reg.DRV_OUT_SENT p.val :: (List.range 8).map (Reg.DRV_AX_SETP p.val))) s.dev d' ∧
           Others s.dev.drv d'.drv p.val ∧ d'.sent = s.dev.sent ++ [.downlink p.val bs line.1] ∧
           d'.dport p.val = { q with frame := none, free := start + 4 * line.1.length, sentAt := ((tick, start) :: q.sentAt).take 128, txRd := line.2 } ∧
           d'.rd (Reg.DRV_OUT_SENT p.val) = leAt bs 24 4 % 2 ^ 32 ∧
           ∀ a < f.headD 0 % 16, d'.rd (Reg.DRV_AX_SETP p.val a) = tw 64 (sx 48 (leAt bs (28 + 14 * a) 6))) ∧
       (due ≤ s.dev.lt → tn < s.dev.tick.next → s.dev.tick.next ≤ start →
         Does (.downlinkTransmit p) s fun d' =>
           Dev.Frame (fun d => { d with drv := [] }) (among [Reg.DRV_FRAME_OVR, Reg.DRV_EVT p.val]) s.dev d' ∧ Others s.dev.drv d'.drv p.val ∧
           d'.dport p.val = { q with frame := none } ∧ d'.bit (Reg.DRV_EVT p.val) 9 = true ∧ d'.sent = s.dev.sent ∧
           d'.rd Reg.DRV_FRAME_OVR = min (s.dev.rd Reg.DRV_FRAME_OVR + 1) 0xFFFFFFFF))) ∧
   (∀ (s : State) (p : Fin 64) (start : BitVec 64) (gs : List (BitVec 10)),
     exec (.uplinkReceive p start false gs) s = exec (.driveSyncLoss p) s ∧
     (s.dev.drvState p.val = 0 → exec (.uplinkReceive p start true gs) s = .next s)) ∧
   (∀ (s : State) (p : Fin 64) (start : BitVec 64) (g : BitVec 10),
     let x := (s.dev.dport p.val).line
     s.dev.drvState p.val ≠ 0 → x.sync = 6 → x.frame = none → lineDecode x.rd g.toNat = .bad →
     Does (.uplinkReceive p start true [g]) s fun d' =>
       Dev.Frame (fun d => { d with drv := [] }) (among [Reg.DRV_CODE_ERR p.val]) s.dev d' ∧ Others s.dev.drv d'.drv p.val ∧
       (d'.dport p.val).line.sync = 7 ∧ d'.dport p.val = { s.dev.dport p.val with line := (d'.dport p.val).line } ∧
       d'.rd (Reg.DRV_CODE_ERR p.val) = min (s.dev.rd (Reg.DRV_CODE_ERR p.val) + 1) 0xFFFFFFFF) ∧
   (∀ (s : State) (p : Fin 64) (start : BitVec 64) (bs : List Byte),
     let q := s.dev.dport p.val
     let l := nats bs
     let groups := (lineFrame q.line.rd l).1.map (BitVec.ofNat 10)
     let w := s.dev.drvWindow (start.toNat + 4 * (l.length + 2 + (l.length + 1) % 2)) + 1
     let good := 32 ≤ l.length ∧ fcs (l.take (l.length - 4)) = leAt l (l.length - 4) 4
     let body := fun (d : Dev) => { d with drv := [] }
     let st := Reg.DRV_STATUS p.val
     let own := [Reg.DRV_LINK p.val, Reg.DRV_REMOTE_EPOCH p.val, Reg.DRV_REMOTE_ERR p.val, st, Reg.DRV_EVT p.val, Reg.DRV_IN p.val, Reg.DRV_SLT p.val]
     let taken := fun (d' : Dev) => Dev.Frame body (among own) s.dev d' ∧ Others s.dev.drv d'.drv p.val ∧
       (d'.dport p.val).got = (w, q.got.1) ∧ (d'.dport p.val).misses = 0 ∧ (d'.dport p.val).line.sync = 6 ∧
       d'.rd (Reg.DRV_REMOTE_EPOCH p.val) = leAt l 16 4 % 2 ^ 32 ∧ d'.rd (Reg.DRV_IN p.val) = leAt l 24 4 % 2 ^ 32 ∧
       d'.rd (Reg.DRV_SLT p.val) = leAt l 8 8 % 2 ^ 64 ∧ d'.fld (Reg.DRV_LINK p.val) 16 16 = leAt l 2 2 % 2 ^ 16 ∧
       ∀ t0, q.sentAt.find? (fun x => x.1 == leAt l 4 4) = some (leAt l 4 4, t0) →
         d'.fld (Reg.DRV_LINK p.val) 0 16 = min 65535 ((start.toNat - t0 - leAt l 2 2) / 2)
     s.dev.drvState p.val ≠ 0 → q.line.sync = 6 → q.line.frame = none →
     (¬ good →
       Does (.uplinkReceive p start true groups) s fun d' =>
         Dev.Frame body (among [Reg.DRV_CRC_ERR p.val, Reg.DRV_EVT p.val]) s.dev d' ∧ d'.bit (Reg.DRV_EVT p.val) 2 = true ∧
         d'.rd (Reg.DRV_CRC_ERR p.val) = min (s.dev.rd (Reg.DRV_CRC_ERR p.val) + 1) 0xFFFFFFFF) ∧
     (good → leAt l 0 1 = 0xA1 → leAt l 1 1 % 16 ≠ s.dev.nax p.val →
       Does (.uplinkReceive p start true groups) s fun d' =>
         Dev.Frame body (among [Reg.DRV_EVT p.val]) s.dev d' ∧ d'.bit (Reg.DRV_EVT p.val) 4 = true) ∧
     (good → s.dev.uplinkOk p.val l = true → q.got.1 ≠ w →
       (s.dev.drvState p.val = 1 ∨ s.dev.drvState p.val = 2 →
         Does (.uplinkReceive p start true groups) s fun d' =>
           taken d' ∧ (d'.dport p.val).axes = q.axes ∧
           (s.dev.drvState p.val = 1 → d'.drvState p.val = 1) ∧
           (s.dev.drvState p.val = 2 → s.dev.fld st 8 4 < 7 → d'.drvState p.val = 2 ∧ d'.fld st 8 4 = s.dev.fld st 8 4 + 1) ∧
           (s.dev.drvState p.val = 2 → 7 ≤ s.dev.fld st 8 4 → d'.drvState p.val = 3 ∧ d'.bit (Reg.DRV_EVT p.val) 0 = true)) ∧
       (s.dev.drvState p.val = 3 → s.dev.role ≠ 2 → (∀ b < 8, s.dev.fld (Reg.BEAM_CTRL b) 1 3 ≠ 4) →
         Does (.uplinkReceive p start true groups) s fun d' =>
           taken d' ∧ d'.drvState p.val = 3 ∧
           ∀ a < s.dev.nax p.val,
             let r := (l.drop (28 + 24 * a)).take 24
             (tget (d'.dport p.val).axes a).stat = leAt r 10 2 ∧ (tget (d'.dport p.val).axes a).act = tw 64 (sx 48 (leAt r 0 6)) ∧
               (tget (d'.dport p.val).axes a).ferr = leAt r 6 4)))) ∧
  (∀ (s : State) (p : Fin 64), (∀ b < 8, s.dev.fld (Reg.BEAM_CTRL b) 1 3 ≠ 4) →
     let q := s.dev.dport p.val
     let body := fun (d : Dev) => { d with drv := [] }
     let loss := max 1 (s.dev.fld (Reg.DRV_CFG p.val) 8 3)
     let w := (s.dev.drvWindow s.dev.lt + 2 ^ 32 - 1) % 2 ^ 32 + 1
     let lost := { q with misses := 0, line := { q.line with sync := 0, good := 0, frame := none } }
     (s.dev.drvState p.val = 0 → exec (.uplinkMiss p) s = .next s ∧ exec (.driveSyncLoss p) s = .next s) ∧
     (q.got.1 = w ∨ q.got.2 = w ∨ q.closed = w → exec (.uplinkMiss p) s = .next s) ∧
     (s.dev.drvState p.val ≠ 1 → exec (.driveSyncAcquired p) s = .next s) ∧
     (s.dev.drvState p.val = 1 →
       Does (.driveSyncAcquired p) s fun d' =>
         Dev.Frame body (among [Reg.DRV_STATUS p.val]) s.dev d' ∧ Others s.dev.drv d'.drv p.val ∧ d'.drvState p.val = 2 ∧
         d'.dport p.val = { q with line := (d'.dport p.val).line } ∧ (d'.dport p.val).line.sync = 6) ∧
     (s.dev.drvState p.val ≠ 0 → s.dev.drvState p.val ≠ 3 →
       Does (.driveSyncLoss p) s fun d' =>
         Dev.Frame body (among [Reg.DRV_STATUS p.val]) s.dev d' ∧ d'.drvState p.val = 1 ∧ d'.fld (Reg.DRV_STATUS p.val) 8 4 = 0 ∧
         d'.dport p.val = lost ∧ Others s.dev.drv d'.drv p.val) ∧
     (s.dev.drvState p.val = 3 →
       Does (.driveSyncLoss p) s fun d' =>
         Dev.Frame body (among [Reg.DRV_STATUS p.val, Reg.DRV_LINK_DOWN p.val, Reg.DRV_EVT p.val]) s.dev d' ∧ d'.drvState p.val = 1 ∧
         d'.dport p.val = lost ∧ d'.rd (Reg.DRV_LINK_DOWN p.val) = min (s.dev.rd (Reg.DRV_LINK_DOWN p.val) + 1) 0xFFFFFFFF ∧
         d'.bit (Reg.DRV_EVT p.val) 1 = true) ∧
     (s.dev.drvState p.val ≠ 0 → q.got.1 ≠ w → q.got.2 ≠ w → q.closed ≠ w →
       Does (.uplinkMiss p) s fun d' =>
         Dev.Frame body (among [Reg.DRV_STATUS p.val, Reg.DRV_LINK_DOWN p.val, Reg.DRV_MISS p.val, Reg.DRV_EVT p.val]) s.dev d' ∧
         Others s.dev.drv d'.drv p.val ∧ d'.rd (Reg.DRV_MISS p.val) = min (s.dev.rd (Reg.DRV_MISS p.val) + 1) 0xFFFFFFFF ∧
         d'.bit (Reg.DRV_EVT p.val) 3 = true ∧ (d'.dport p.val).closed = w ∧
         (s.dev.drvState p.val ≠ 3 → d'.drvState p.val = s.dev.drvState p.val ∧ d'.fld (Reg.DRV_STATUS p.val) 8 4 = 0) ∧
         (s.dev.drvState p.val = 3 → q.misses + 1 < loss → d'.drvState p.val = 3 ∧ (d'.dport p.val).misses = q.misses + 1) ∧
         (s.dev.drvState p.val = 3 → loss ≤ q.misses + 1 → d'.drvState p.val = 2 ∧ (d'.dport p.val).misses = 0)))

/-- The data operations of an Alolo core: with its operands at hand, each instruction retires with its result written to its destination, in order
where it has two, and nothing else of the device changes. -/
def Obligations.CoreDataOperations : Prop :=
  ∀ (s : State) (c : Fin 25) (i : Inst) (acc : List Access) (r : CoreRegs), s.dev.Issues c.val i acc r →
    let w := 8 * i.size
    let vs := (acc.filter (·.rd)).map (s.dev.sees c.val)
    let x := vs.getD 0 0
    let y := vs.getD 1 0
    let z := vs.getD 2 0
    let a := if i.form = 2 then y else x
    let b := if i.form = 2 then x else y
    let n := b % 64
    let k := n % w
    let less := if i.sub = 1 then decide (a < b) else decide (sx w a < sx w b)
    let gives := fun (cmd : Instr) (res : List Nat) =>
      Does cmd s fun d' =>
        s.dev.Retires d' c.val (addr32 (s.dev.core c.val).r.pc i.len) (s.dev.results c.val ((acc.filter (·.wr)).zip res) r) []
    (i.op = 0x10 → gives (.opMov c) [x]) ∧
    (i.op = 0x11 → gives (.opZext c) [x % 2 ^ (8 * 2 ^ i.sub)]) ∧
    (i.op = 0x12 → gives (.opSext c) [tw w (sx (8 * 2 ^ i.sub) x)]) ∧
    (∀ e, i.op = 0x13 → acc.head? = some e → gives (.opLea c) [e.o.n]) ∧
    (i.op = 0x14 → gives (.opPush c) [x]) ∧
    (i.op = 0x15 → gives (.opPop c) [x]) ∧
    (i.op = 0x16 → gives (.opXchg c) [y, x]) ∧
    (i.op = 0x20 → gives (.opAdd c) [(a + b) % 2 ^ w]) ∧
    (i.op = 0x21 → gives (.opSub c) [(a + 2 ^ w - b) % 2 ^ w]) ∧
    (i.op = 0x22 → gives (.opAddx c) [(y + x + z % 2) % 2 ^ w, (y + x + z % 2) / 2 ^ w]) ∧
    (i.op = 0x23 → gives (.opSubx c) [tw w ((y : Int) - x - (z % 2 : Nat)), if y < x + z % 2 then 1 else 0]) ∧
    (i.op = 0x24 → gives (.opNeg c) [tw w (-(x : Int))]) ∧
    (i.op = 0x25 → gives (.opMul c) [a * b % 2 ^ w]) ∧
    (i.op = 0x26 → gives (.opMin c) [if less then a else b]) ∧
    (i.op = 0x27 → gives (.opMax c) [if less then b else a]) ∧
    (i.op = 0x28 → gives (.opAnd c) [a &&& b]) ∧
    (i.op = 0x29 → gives (.opOr c) [a ||| b]) ∧
    (i.op = 0x2A → gives (.opXor c) [a ^^^ b]) ∧
    (i.op = 0x2B → gives (.opBic c) [clearMask a b]) ∧
    (i.op = 0x2C → gives (.opNot c) [2 ^ w - 1 - x]) ∧
    (i.op = 0x30 → gives (.opShl c) [if n < w then a * 2 ^ n % 2 ^ w else 0]) ∧
    (i.op = 0x31 → gives (.opShr c) [if n < w then a / 2 ^ n else 0]) ∧
    (i.op = 0x32 → gives (.opSar c) [tw w (sx w a / (2 ^ min n w : Nat))]) ∧
    (i.op = 0x33 → gives (.opRol c) [(a * 2 ^ k + a / 2 ^ (w - k)) % 2 ^ w]) ∧
    (i.op = 0x34 → gives (.opRor c) [(a / 2 ^ k + a * 2 ^ (w - k)) % 2 ^ w]) ∧
    (i.op = 0x0E → gives (.opSet c) [if condHolds i.sub w x y then 1 else 0])

/-- Control transfers issue with their target and wait for their delay slot: a CB that holds or not, J, JSR, JR, RTS and RTI in supervisor mode; the
instruction in the slot retires with the transfer, a JSR's return address is pushed, and the core goes on at the target. -/
def Obligations.CoreTransfers : Prop :=
  (∀ (s : State) (c : Fin 25) (i : Inst) (acc : List Access) (r : CoreRegs), s.dev.Issues c.val i acc r →
    let r0 := (s.dev.core c.val).r
    let next := addr32 r0.pc i.len
    let vs := (acc.filter (·.rd)).map (s.dev.sees c.val)
    let x := vs.getD 0 0
    let y := vs.getD 1 0
    let goes := fun (cmd : Instr) (q : CoreRegs) (target : Option Nat) (kind : Nat) (psw : Option Nat) (complete : Bool) (link : Option Nat) =>
      Does cmd s fun d' =>
        s.dev.Transfers d' c.val next q [] ⟨target, r0.pc, r0, kind, false, psw, complete, if complete then (s.dev.priStack c.val).head? else none,
          link, (s.dev.core c.val).hist, (s.dev.core c.val).ras⟩ ∧
        d'.priStack c.val = if complete then (s.dev.priStack c.val).tail else s.dev.priStack c.val
    (i.op = 0x0D →
      goes (.opCb c) r (if condHolds i.sub (8 * i.size) x y then some (addr32 r0.pc (sx 16 i.disp) / 2 * 2) else none) 0 none false none) ∧
    (∀ e, i.op = 0x08 → acc.getLast? = some e → goes (.opJ c) r (some (e.o.n / 2 * 2)) 1 none false none) ∧
    (∀ e p, i.op = 0x09 → acc.getLast? = some e → acc.head? = some p →
      goes (.opJsr c) r (some (e.o.n / 2 * 2)) 2 none false (some (localBase c.val + p.o.n))) ∧
    (i.op = 0x0A → goes (.opJr c) r (some (x / 2 * 2)) 3 none false none) ∧
    (i.op = 0x0B → goes (.opRts c) r (some (x / 2 * 2)) 4 none false none) ∧
    (i.op = 0x0C → r0.user = false → goes (.opRti c) (r.set 17 x) (some (x / 2 * 2)) 5 (some y) (tb i.sub 0) none)) ∧
  (∀ (s : State) (c : Fin 25) (i : Inst) (sl : Slot),
    let q := s.dev.core c.val
    s.dev.executes c.val = true → s.dev.instAt c.val q.r.pc = .ok i → i.op = 0x01 → s.dev.ibpHit c.val = false → q.slot = some sl →
    sl.kind ≠ 5 → sl.psw = none → sl.complete = false → sl.hit = false → sl.undo.trace = false → q.stepping = false → q.sb = [] →
    let ret := addr32 q.r.pc i.len
    let retires := fun (sb : List SbEnt) (ras : List Nat) =>
      Does (.opNop c) s fun d' =>
        Dev.Frame noCores (among []) s.dev d' ∧ (∀ k, k ≠ c.val → d'.core k = s.dev.core k) ∧ (d'.core c.val).slot = none ∧
        (d'.core c.val).r = { q.r with pc := sl.target.getD ret % 2 ^ 32 / 2 * 2 } ∧ (d'.core c.val).sb = sb ∧ (d'.core c.val).ras = ras
    (sl.link = none → retires [] q.ras) ∧
    (∀ k, sl.link = some k → localBase c.val + 0x1000 ≤ k → k + 8 ≤ localBase c.val + localSize c.val →
      retires ((sbSplit k (leBytes 4 ret)).map s.dev.freed) ((ret :: q.ras).take 16)))

/-- Exceptions of a core: TRAP, BRK without a debugger, a reserved encoding, a division by zero and a privileged instruction in user mode enter
the handler of their vector, with the frame pushed, the cause in ECX and supervisor mode; BRK under a debugger halts. -/
def Obligations.CoreExceptions : Prop :=
  (∀ (s : State) (c : Fin 25) (i : Inst), s.dev.Ready c.val i →
    let q := s.dev.core c.val
    (s.dev.CanEnter c.val →
      (i.op = 0x06 → Does (.opTrap c) s fun d' => s.dev.Enters d' c.val (16 + i.sub) (3 * 2 ^ 10 + (16 + i.sub)) (addr32 q.r.pc i.len)) ∧
      (i.op = 0x05 → (s.dev.dbgEn c.val = false ∨ c.val = 24) →
        Does (.opBrk c) s fun d' => s.dev.Enters d' c.val 8 (3 * 2 ^ 10 + 8) q.r.pc) ∧
      (q.r.user = true → ∀ cmd, (i.op = 0x0C ∧ cmd = Instr.opRti c) ∨ (i.op = 0x04 ∧ cmd = Instr.opWait c) ∨ (i.op = 0x07 ∧ cmd = Instr.opEoi c) →
        Does cmd s fun d' => s.dev.Enters d' c.val 3 (1 * 2 ^ 16 + 3 * 2 ^ 10 + 3) q.r.pc)) ∧
    (i.op = 0x05 → s.dev.dbgEn c.val = true → c.val < 24 →
      Does (.opBrk c) s fun d' =>
        Dev.Frame noCores (among [Reg.CORECTL_DPC c.val]) s.dev d' ∧ (∀ k, k ≠ c.val → d'.core k = s.dev.core k) ∧
        (d'.core c.val).unfetched = { q.unfetched with mode := .halt, why := 5, phase := .none, farWait := false, far := [], halting := false } ∧
        d'.rd (Reg.CORECTL_DPC c.val) = q.r.pc / 2 * 2 % 2 ^ 32)) ∧
  (∀ (s : State) (c : Fin 25) (t n : Nat),
    let q := s.dev.core c.val
    s.dev.executes c.val = true → s.dev.instAt c.val q.r.pc = .illegal t n → s.dev.ibpHit c.val = false → q.slot = none → q.long = [] → q.sb = [] →
    q.stepping = false → q.r.trace = false → s.dev.CanEnter c.val →
    Does (.reservedOpcode c) s fun d' => s.dev.Enters d' c.val 1 (t * 2 ^ 16 + n * 2 ^ 10 + 1) q.r.pc) ∧
  (∀ (s : State) (c : Fin 25) (i : Inst) (acc : List Access) (r : CoreRegs), s.dev.Issues c.val i acc r → s.dev.CanEnter c.val →
    ((acc.filter (·.rd)).map (s.dev.sees c.val)).getD (if i.form = 2 then 0 else 1) 0 = 0 →
    let zero := fun (cmd : Instr) => Does cmd s fun d' => s.dev.Enters d' c.val 7 (3 * 2 ^ 10 + 7) (s.dev.core c.val).r.pc
    (i.op = 0x42 → zero (.opDiv c)) ∧ (i.op = 0x43 → zero (.opDivu c)) ∧ (i.op = 0x44 → zero (.opRemS c)) ∧ (i.op = 0x45 → zero (.opRemu c)))

/-- NOP, FENCE, IFLUSH, WAIT and EOI of a core: the first three retire without another effect than the flush of the instruction cache, WAIT sleeps
only with interrupts enabled and none presented, and EOI takes the entry of the source it names off the priority stack. -/
def Obligations.CoreControlOperations : Prop :=
  ∀ (s : State) (c : Fin 25) (i : Inst) (acc : List Access) (r : CoreRegs), s.dev.Issues c.val i acc r →
    let q := s.dev.core c.val
    let next := addr32 q.r.pc i.len
    (i.op = 0x01 → Does (.opNop c) s fun d' => s.dev.Retires d' c.val next ([], r) []) ∧
    (i.op = 0x02 → Does (.opFence c) s fun d' => s.dev.Retires d' c.val next ([], r) []) ∧
    (i.op = 0x03 → Does (.opIflush c) s fun d' =>
      s.dev.Retires d' c.val next ([], r) [] ∧ (i.form = 0 → ∀ l, tget (d'.core c.val).icache l = [])) ∧
    (i.op = 0x04 → q.r.user = false →
      ((q.r.ie = false ∨ s.dev.presented c.val ≠ []) → Does (.opWait c) s fun d' => s.dev.Retires d' c.val next ([], r) []) ∧
      (q.r.ie = true → s.dev.presented c.val = [] →
        Does (.opWait c) s fun d' =>
          Dev.Frame noCores (among []) s.dev d' ∧ (∀ k, k ≠ c.val → d'.core k = s.dev.core k) ∧ (d'.core c.val).mode = .wait ∧
          (d'.core c.val).r = { r with pc := next })) ∧
    (∀ (e : PriEnt) (t : List PriEnt), i.op = 0x07 → q.r.user = false → s.dev.priStack c.val = e :: t →
      e.src = ((acc.filter (·.rd)).map (s.dev.sees c.val)).getD 0 0 % 512 →
      Does (.opEoi c) s fun d' =>
        d'.priStack c.val = t ∧ (d'.core c.val).r = { r with pc := next } ∧ (∀ k, k ≠ c.val → d'.core k = s.dev.core k) ∧
        ∀ a, s.dev.inRing a = false → d'.byte a = s.dev.byte a)

/-- Long operations are accepted and leave a pending result for their destination, which its completion writes: products, sums of products,
quotients and remainders truncated toward zero, the floor of a square root and CRC-32C. -/
def Obligations.CoreLongOperations : Prop :=
  (∀ (s : State) (c : Fin 25) (i : Inst) (acc : List Access) (r : CoreRegs) (e : Access), s.dev.Issues c.val i acc r → acc.getLast? = some e →
    let w := 8 * i.size
    let vs := (acc.filter (·.rd)).map (s.dev.sees c.val)
    let x := vs.getD 0 0
    let y := vs.getD 1 0
    let z := vs.getD 2 0
    let a := if i.form = 2 then y else x
    let b := if i.form = 2 then x else y
    let dest : Dest := match e.o.kind with
      | .reg => .reg e.o.n
      | .field => .field (localBase c.val + e.o.n) e.o.size e.o.pos e.o.width
      | _ => .mem (localBase c.val + e.o.n) e.o.size
    let pends := fun (cmd : Instr) (v : Nat) (mac : Bool) =>
      Does cmd s fun d' => ∃ u, (e.o.kind = .field → u = s.dev.unitAt c.val e) ∧
        s.dev.Retires d' c.val (addr32 (s.dev.core c.val).r.pc i.len) ([], r) [⟨dest, v, e.o.size, mac, u⟩]
    let prod := fun (w2 : Nat) => if i.sub = 1 then x * y % 2 ^ w2 else tw w2 (sx w x * sx w y)
    (i.op = 0x40 → pends (.opMuld c) (prod (2 * w)) false) ∧
    (i.op = 0x41 → pends (.opMac c) ((z + prod 64) % 2 ^ 64) true) ∧
    (i.op = 0x42 → b ≠ 0 → pends (.opDiv c) (tw w (Int.tdiv (sx w a) (sx w b))) false) ∧
    (i.op = 0x43 → b ≠ 0 → pends (.opDivu c) (a / b) false) ∧
    (i.op = 0x44 → b ≠ 0 → pends (.opRemS c) (tw w (Int.tmod (sx w a) (sx w b))) false) ∧
    (i.op = 0x45 → b ≠ 0 → pends (.opRemu c) (a % b) false) ∧
    (∀ v, i.op = 0x46 → x < 2 ^ 64 → v * v ≤ x → x < (v + 1) * (v + 1) → pends (.opSqrt c) v false) ∧
    (i.op = 0x47 → pends (.opCrc32c c) (crc32cRaw y (leBytes i.size x)) false)) ∧
  (∀ (s : State) (c : Fin 25) (n : Fin 4), (s.dev.core c.val).long.length ≤ n.val → exec (.longOperationComplete c n) s = .next s) ∧
  (∀ (s : State) (c : Fin 25) (l : LongOp) (t : List LongOp),
    let q := s.dev.core c.val
    q.long = l :: t → q.slot = none → q.halting = false →
    (∀ k, l.dest = .reg k →
      Does (.longOperationComplete c 0) s fun d' =>
        Dev.Frame noCores (among []) s.dev d' ∧ (∀ k, k ≠ c.val → d'.core k = s.dev.core k) ∧
        d'.core c.val = { q with r := q.r.setAbs k l.val, long := t }) ∧
    (∀ a m, l.dest = .mem a m → localBase c.val + 0x1000 ≤ a → a + 16 ≤ localBase c.val + localSize c.val →
      q.sb.length + (sbSplit a (leBytes m l.val)).length ≤ 8 →
      Does (.longOperationComplete c 0) s fun d' =>
        Dev.Frame noCores (among []) s.dev d' ∧ (∀ k, k ≠ c.val → d'.core k = s.dev.core k) ∧
        d'.core c.val = { q with long := t, sb := q.sb ++ (sbSplit a (leBytes m l.val)).map s.dev.freed }))

/-- Block instructions: with no element left they retire; otherwise one element is performed, its store released and the registers moved on, and
with the last one the instruction retires; CMPS and SCNS stop at the element that decides them. -/
def Obligations.CoreBlockOperations : Prop :=
  ∀ (s : State) (c : Fin 25) (i : Inst) (acc : List Access) (r : CoreRegs), s.dev.Issues c.val i acc r →
    let q := s.dev.core c.val
    let next := addr32 q.r.pc i.len
    let count := tget q.r.gp 12
    let vs := (acc.filter (·.rd)).map (s.dev.sees c.val)
    let x := vs.getD 0 0
    let y := vs.getD 1 0
    let w := 8 * i.size
    let brv := tget r.gp 15
    let val := if i.size = 8 then brv * (2 ^ 32 + 1) else brv % 2 ^ w
    let st := fun (n fix : Nat) (g : CoreRegs) =>
      if tb i.sub fix then g else g.set n (addr32 (tget g.gp n) (if tb i.sub 0 then -(i.size : Int) else i.size))
    let cnt := fun (g : CoreRegs) => g.set 12 (tget g.gp 12 - 1)
    let ends := fun (cmd : Instr) (g : CoreRegs) (res : List Nat) =>
      Does cmd s fun d' => s.dev.Retires d' c.val next (s.dev.results c.val ((acc.filter (·.wr)).zip res) g) []
    let element := fun (cmd : Instr) (g : CoreRegs) (res : List Nat) =>
      (count = 1 → ends cmd g res) ∧
      (1 < count → count < 2 ^ 32 →
        Does cmd s fun d' =>
          let o := s.dev.results c.val ((acc.filter (·.wr)).zip res) g
          Dev.Frame noCores (among []) s.dev d' ∧ (∀ k, k ≠ c.val → d'.core k = s.dev.core k) ∧
          (d'.core c.val).unfetched = { q.unfetched with
            r := { o.2 with pc := q.r.pc }, sb := o.1.map s.dev.freed, phase := .none, farWait := false, far := [] })
    (count = 0 →
      (i.op = 0x50 → ends (.opMovs c) r []) ∧ (i.op = 0x51 → ends (.opFils c) r []) ∧ (i.op = 0x52 → ends (.opCmps c) r []) ∧
      (i.op = 0x53 → ends (.opScns c) r []) ∧ (i.op = 0x54 → ends (.opSums c) r [])) ∧
    (count ≠ 0 →
      (i.op = 0x50 → element (.opMovs c) (cnt (st 14 2 (st 13 1 r))) [x]) ∧
      (i.op = 0x51 → element (.opFils c) (cnt (st 14 2 r)) [val]) ∧
      (i.op = 0x52 → (x ≠ y → ends (.opCmps c) r []) ∧ (x = y → element (.opCmps c) (cnt (st 14 2 (st 13 1 r))) [])) ∧
      (i.op = 0x53 →
        ((x = val ↔ tb i.sub 3 = false) → ends (.opScns c) r []) ∧
        ((x = val ↔ tb i.sub 3 = true) → element (.opScns c) (cnt (st 13 1 r)) [])) ∧
      (i.op = 0x54 → element (.opSums c) (cnt (st 13 1 (r.set 15 (addr32 brv (if tb i.sub 3 then sx w x else x))))) []))

/-- What happens to a core's accesses: a released store to core memory drains, a MOV that waits for a read of shared SRAM goes on when the data
returns, a line that the fetch misses is filled; and the core's timer match raises its source.
The private pin port: a write sets, clears or inverts the output latches of the pins of the bank that the core owns, and of no others. -/
def Obligations.CoreMemoryRows : Prop :=
  ((∀ (s : State) (c : Fin 25) (e : SbEnt) (t : List SbEnt) (k : Nat),
     let q := s.dev.core c.val
     q.sb = e :: t → q.draining = none → s.dev.locked = false → s.dev.role ≠ 2 → e.bytes ≠ [] → regionOf e.addr = .coreMem k →
     regionOf (e.addr + (e.bytes.length - 1)) = .coreMem k → s.dev.domOn (7 + k / 4) = true →
     (e.released = true →
       Does (.storeBufferDrain c 0) s fun d' =>
         Dev.FrameAt noCores (among []) e.addr e.bytes.length s.dev d' ∧ (∀ k, k ≠ c.val → d'.core k = s.dev.core k) ∧
         d'.core c.val = { q with sb := t } ∧ d'.load e.addr e.bytes.length = e.bytes.map (· % 256)) ∧
     (e.released = false → exec (.storeBufferDrain c 0) s = .next s)) ∧
   (∀ (s : State) (c : Fin 24) (i : Inst) (a b : Access) (r : CoreRegs),
     let q := s.dev.core c.val
     let k := 0x20001000000 + (a.o.n - 0x100000)
     s.dev.Ready c.val i → q.farWait = true → i.op = 0x10 → planOf c.val (s.dev.pri c.val) i q.r = ([a, b], r) →
     a.o.kind = .mem → a.rd = true → a.wr = false → 0x100000 ≤ a.o.n → a.o.n + a.o.size ≤ 0x300000 → 1 ≤ a.o.size → s.dev.domOn 16 = true →
     b.o.kind = .reg → b.rd = false → b.wr = true → b.priv c.val q.r = none → s.dev.wpHits c.val [a, b] = false →
     Does (.farReadReturn ⟨c.val, by omega⟩) s fun d' =>
       s.dev.Retires d' c.val (addr32 q.r.pc i.len) ([], r.setAbs b.o.n (leNum (s.dev.localRead k a.o.size))) []) ∧
   (∀ (s : State) (c : Fin 25), (s.dev.core c.val).farWait = false → exec (.farReadReturn c) s = .next s) ∧
   (∀ (s : State) (c : Fin 25) (a : Nat) (bs : List Nat),
     let q := s.dev.core c.val
     let k := corePlace c.val q.r a
     s.dev.executes c.val = true → s.dev.missAt c.val = some a → s.dev.busRead c.val (k / 64 * 64) 64 = (.ok bs, s.dev) →
     Does (.icacheLineFill c) s fun d' =>
       Dev.Frame noCores (among []) s.dev d' ∧ (∀ j, j ≠ c.val → d'.core j = s.dev.core j) ∧
       d'.core c.val = { q with icache := (d'.core c.val).icache, perf := (d'.core c.val).perf } ∧
       (d'.core c.val).cached (a / 64) (k / 64) = some bs) ∧
   (∀ (s : State) (c : Fin 24),
     let q := s.dev.core c.val
     (q.hit = false → exec (.coreTimerMatch c) s = .next s) ∧
     (q.hit = true →
       Does (.coreTimerMatch c) s fun d' =>
         Dev.Frame noCores (among []) s.dev d' ∧ (∀ k, k ≠ c.val → d'.core k = s.dev.core k) ∧ d'.core c.val = { q with hit := false } ∧
         (s.dev.srcEn (24 + c.val) = true → s.dev.srcQueued (24 + c.val) = false → (s.dev.irq (24 + c.val)).st = 0 →
           (d'.irq (24 + c.val)).st = 1)))) ∧
  (∀ (s : State) (c : Fin 24) (bank : Fin 8) (v : BitVec 32),
     let owns := fun (i : Nat) => i < 248 ∧ pinCore (s.dev.rd (Reg.PIN_CFG i)) = some c.val
     let latches := fun (cmd : Instr) (new : Nat → Bool → Bool) =>
       Does cmd s fun d' =>
         Dev.Frame (fun d => { d with pins := [] }) (among []) s.dev d' ∧
         (∀ k < 32, owns (32 * bank.val + k) →
           d'.pin (32 * bank.val + k) =
             { s.dev.pin (32 * bank.val + k) with latch := new k (s.dev.pin (32 * bank.val + k)).latch }) ∧
         ∀ i, (i / 32 = bank.val → ¬ owns i) → d'.pin i = s.dev.pin i
     latches (.ppOut c bank v) (fun k _ => v.toNat.testBit k) ∧
     latches (.ppSet c bank v) (fun k old => old || v.toNat.testBit k) ∧
     latches (.ppClr c bank v) (fun k old => old && !v.toNat.testBit k) ∧
     latches (.ppTgl c bank v) (fun k old => old != v.toNat.testBit k))

/-- Control of a core from outside, while the device is not LOCKED: RESET puts it into RESET, RELEASE starts it at CORECTL_BOOT, HALT stops it at
a boundary, RESUME and STEP go on at CORECTL_DPC, and CORECTL_DREG_DATA reads and writes a register of a halted core; locked, none may halt. -/
def Obligations.CoreControl : Prop :=
  ∀ (s : State) (src : Fin 30) (c : Fin 24),
    let q := s.dev.core c.val
    let others := fun (d' : Dev) => ∀ k, k ≠ c.val → d'.core k = s.dev.core k
    let n := s.dev.fld (Reg.CORECTL_DREG_SEL c.val) 0 5
    (s.dev.locked = true →
      exec (.halt src c) s = .next s ∧ exec (.resume src c) s = .next s ∧ exec (.step src c) s = .next s) ∧
    (s.dev.locked = false →
      (q.sb = [] →
        Does (.corectlReset src c) s fun d' =>
          Dev.Frame noCores (among [Reg.CORECTL_PERF_CTRL c.val]) s.dev d' ∧ others d' ∧ d'.priStack c.val = [] ∧
          d'.core c.val = { (default : Core) with
            r := { (default : CoreRegs) with ssp := s.dev.rd (Reg.CORECTL_BOOT_SP c.val) }, werr := q.werr, why := q.why }) ∧
      (q.mode = .reset → q.draining = none →
        Does (.release src c) s fun d' =>
          Dev.Frame noCores (among []) s.dev d' ∧ others d' ∧
          d'.core c.val = { q with
            mode := .run, relNext := false,
            r := { q.r with pc := s.dev.rd (Reg.CORECTL_BOOT c.val) % 2 ^ 32 / 2 * 2, ssp := s.dev.rd (Reg.CORECTL_BOOT_SP c.val) % 2 ^ 32 } }) ∧
      (q.mode = .run → q.long = [] → q.slot = none → q.sb = [] →
        Does (.halt src c) s fun d' =>
          Dev.Frame noCores (among [Reg.CORECTL_DPC c.val]) s.dev d' ∧ others d' ∧ d'.rd (Reg.CORECTL_DPC c.val) = q.r.pc / 2 * 2 % 2 ^ 32 ∧
          d'.core c.val = { q with
            mode := .halt, why := 1, halting := false, stepping := false, phase := .none, farWait := false, far := [] }) ∧
      (q.mode = .halt →
        Does (.resume src c) s (fun d' =>
          Dev.Frame noCores (among []) s.dev d' ∧ others d' ∧
          d'.core c.val = { q with mode := .run, stepping := false, r := { q.r with pc := s.dev.rd (Reg.CORECTL_DPC c.val) / 2 * 2 } }) ∧
        Does (.step src c) s (fun d' =>
          Dev.Frame noCores (among []) s.dev d' ∧ others d' ∧
          d'.core c.val = { q with mode := .run, stepping := true, r := { q.r with pc := s.dev.rd (Reg.CORECTL_DPC c.val) / 2 * 2 } }) ∧
        (n < 29 → ∀ v : BitVec 32,
          Does (.corectlDregData src c (some v)) s (fun d' =>
            Dev.Frame noCores (among []) s.dev d' ∧ others d' ∧ d'.core c.val = { q with r := q.r.set n v.toNat }) ∧
          Does (.corectlDregData src c none) s fun d' =>
            Dev.Frame id (among []) s.dev d' ∧
            d'.sent = s.dev.sent ++ [.event 4 [src.val, Reg.CORECTL_DREG_DATA c.val, q.r.get (s.dev.pri c.val) n]])))

/-- Sources: INTC_RAISE makes an enabled direct source pending with the raise payload, a pulse source or the latch of a level one, and a reserved
source nothing; an event flit at the beam die raises its source or gives it its level; a write of a queue's read count frees its records. -/
def Obligations.InterruptSources : Prop :=
  (∀ (s : State) (src : Fin 30) (v : BitVec 32), s.dev.Reach src.val Reg.INTC_RAISE →
    let k := bits v.toNat 0 9
    let pay := s.dev.rd Reg.INTC_RAISE_PAYLOAD
    let q := s.dev.irq k
    (srcReserved k = true ∨ 480 ≤ k → exec (.intcRaise src v) s = .next s) ∧
    (srcReserved k = false → k < 480 → s.dev.srcEn k = true → s.dev.srcQueued k = false → q.st = 0 →
      (s.dev.isLevel k = false →
        Does (.intcRaise src v) s fun d' =>
          Dev.Frame id (among []) s.dev d' ∧ d'.irq k = { q with st := 1, pay := pay } ∧ ∀ j, j ≠ k → d'.irq j = s.dev.irq j) ∧
      (s.dev.isLevel k = true → q.latch = false → q.cause = false →
        Does (.intcRaise src v) s fun d' =>
          Dev.Frame id (among []) s.dev d' ∧ d'.irq k = { q with st := 1, pay := pay, latch := true, lpay := pay } ∧
          ∀ j, j ≠ k → d'.irq j = s.dev.irq j)) ∧
    (srcReserved k = false → k < 480 → s.dev.isLevel k = false → s.dev.srcEn k = true → s.dev.srcQueued k = false → q.st = 1 →
      Does (.intcRaise src v) s fun d' =>
        Dev.Frame id (among []) s.dev d' ∧ d'.irq k = q ∧
        d'.rd Reg.INTC_MERGE = min (s.dev.rd Reg.INTC_MERGE + 1) 0xFFFFFFFF)) ∧
  (∀ (s : State) (k : Fin 512) (bs : List Byte),
    let q := s.dev.irq k.val
    let f := leAt (nats bs) 4 1
    let pay := leAt (nats bs) 0 4
    s.dev.srcEn k.val = true → s.dev.srcQueued k.val = false → q.st = 0 →
    srcReserved k.val = false →
    (tb f 1 = true →
      Does (.eventFlit 0 k bs) s fun d' =>
        Dev.Frame id (among []) s.dev d' ∧ d'.irq k.val = { q with st := 1, pay := pay } ∧ ∀ j, j ≠ k.val → d'.irq j = s.dev.irq j) ∧
    (tb f 1 = false → tb f 0 = true → q.cause = false → q.latch = false →
      Does (.eventFlit 0 k bs) s fun d' =>
        Dev.Frame id (among []) s.dev d' ∧ d'.irq k.val = { q with st := 1, pay := pay, cause := true } ∧
        ∀ j, j ≠ k.val → d'.irq j = s.dev.irq j)) ∧
  (∀ (s : State) (src : Fin 30) (q : Fin 16) (v : BitVec 32), s.dev.Reach src.val (Reg.INTC_Q_RD q.val) →
    let r := v.toNat % 2 ^ 17
    let n := (s.dev.rd (Reg.INTC_Q_WR q.val) + 2 ^ 17 - r) % 2 ^ 17
    (2 ^ s.dev.qK q.val < n → exec (.intcQRd src q v) s = .next s) ∧
    (n ≤ 2 ^ s.dev.qK q.val →
      Does (.intcQRd src q v) s fun d' => Dev.Frame id (among [Reg.INTC_Q_RD q.val]) s.dev d' ∧ d'.rd (Reg.INTC_Q_RD q.val) = r))

/-- Entry, claim and completion: the source that ranks first is accepted onto the core's priority stack and its handler entered; a claim makes it
ACTIVE on the core and gives its number, or 0x3FF with nothing to claim; a completion of the top source pops it, any other is an ORDER fault. -/
def Obligations.InterruptEntries : Prop :=
  (∀ (s : State) (c : Fin 25) (k : Fin 512) (early : Bool),
    let q := s.dev.core c.val
    let st : List PriEnt := ⟨k.val, s.dev.srcLevel k.val, false, false⟩ :: s.dev.priStack c.val
    (q.slot = none → s.dev.rankFirst c.val ≠ some k.val → exec (.interruptEntry c k early) s = .next s) ∧
    (s.dev.rankFirst c.val = some k.val → q.halting = false → q.draining = none → q.phase = .none → q.slot = none → q.sb = [] →
      s.dev.CanEnter c.val →
      Does (.interruptEntry c k early) s fun d' =>
        Dev.Frame noCores (among []) s.dev d' ∧ (∀ j, j ≠ c.val → d'.core j = s.dev.core j) ∧ d'.priStack c.val = st ∧
        (d'.core c.val).mode = .run ∧ (d'.core c.val).phase = .entered k.val ∧ (d'.core c.val).r.pc = d'.vector c.val (32 + k.val) ∧
        (d'.core c.val).r.user = false ∧ (d'.core c.val).r.trace = false ∧ (d'.core c.val).r.ssp = q.r.ssp - 8 ∧
        tget (d'.core c.val).r.gp 17 = q.r.pc % 2 ^ 32 ∧
        (d'.core c.val).sb = [⟨localBase c.val + (q.r.ssp - 8) + 4, leBytes 4 (q.r.psw (s.dev.pri c.val)), true, s.dev.commit.order, false⟩,
          ⟨localBase c.val + (q.r.ssp - 8), leBytes 4 q.r.pc, true, s.dev.commit.order, false⟩])) ∧
  (∀ (s : State) (c : Fin 24),
    let core : Fin 25 := ⟨c.val, by omega⟩
    let told := fun (d' : Dev) (n : Nat) => d'.sent = s.dev.sent ++ [.event 4 [c.val, 0x40000, n]]
    (s.dev.priStack c.val = [] → Does (.coreClaim core) s fun d' => Dev.Frame id (among []) s.dev d' ∧ told d' 0x3FF ∧ d'.intc = s.dev.intc) ∧
    (∀ e t, s.dev.priStack c.val = e :: t → e.claimed = false →
      let first := s.dev.bit (Reg.INTC_SRC_CFG e.src) 29
      ((first = false ∨ (s.dev.irq e.src).st = 1) →
        Does (.coreClaim core) s fun d' =>
          Dev.Frame id (among []) s.dev d' ∧ told d' e.src ∧ d'.priStack c.val = { e with claimed := true } :: t ∧
          d'.irq e.src = { s.dev.irq e.src with st := 2, core := c.val, taken := false } ∧
          tget d'.intc.payload c.val = (s.dev.irq e.src).pay ∧ ∀ j, j ≠ e.src → d'.irq j = s.dev.irq j) ∧
      (first = true → (s.dev.irq e.src).st ≠ 1 →
        Does (.coreClaim core) s fun d' =>
          Dev.Frame id (among []) s.dev d' ∧ told d' 0x3FF ∧ d'.priStack c.val = { e with claimed := true, spurious := true } :: t ∧
          d'.rd Reg.INTC_SPURIOUS = min (s.dev.rd Reg.INTC_SPURIOUS + 1) 0xFFFFFFFF ∧ d'.bit Reg.INTC_EVT 3 = true))) ∧
  (∀ (s : State) (c : Fin 24) (k : Fin 512),
    let core : Fin 25 := ⟨c.val, by omega⟩
    (∀ e t, s.dev.priStack c.val = e :: t → e.src = k.val →
      Does (.coreEoi core k) s fun d' =>
        Dev.Frame id (among []) s.dev d' ∧ d'.priStack c.val = t ∧
        (e.claimed = true → e.spurious = false → s.dev.isLevel k.val = false → k.val < 480 → (s.dev.irq k.val).again = false →
          (d'.irq k.val).st = 0 ∧ (d'.irq k.val).pay = 0)) ∧
    ((s.dev.priStack c.val = [] ∨ ∃ e t, s.dev.priStack c.val = e :: t ∧ e.src ≠ k.val) →
      Does (.coreEoi core k) s fun d' =>
        Dev.Frame id (among []) s.dev d' ∧ d'.priStack c.val = s.dev.priStack c.val ∧
        d'.rd Reg.INTC_FAULT = c.val + 1 * 2 ^ 5 + k.val * 2 ^ 16 ∧ d'.bit Reg.INTC_EVT 0 = true))

/-- Timers and pins: TMR_LOAD sets the count, a preloadable register takes its value at once or in its preload copy, a read of TMR_COUNT latches
the chain, and a pin's switch interval ends when it has lasted.
PIN_INPUT_CHANGE starts a filter run at the edge, and a level change back before the filter time drops the run before; PIN_CHANGE_ACCEPTED
accepts the oldest run F + 3 pin-clock cycles after its edge, and no earlier. -/
def Obligations.TimersAndPins : Prop :=
  ((∀ (s : State) (src : Fin 30) (n : Fin 32) (v : BitVec 32), s.dev.Reach src.val (Reg.TMR_COUNT n.val) →
     Does (.tmrLoad src n v) s (fun d' =>
       Dev.Frame id (among [Reg.TMR_COUNT n.val]) s.dev d' ∧ d'.rd (Reg.TMR_COUNT n.val) = v.toNat) ∧
     (∀ which : Fin 3,
       let k := if which.val = 0 then Reg.TMR_RELOAD n.val else if which.val = 1 then Reg.TMR_CMP0 n.val else Reg.TMR_CMP1 n.val
       let t := s.dev.timer n.val
       (s.dev.bit (Reg.TMR_CTRL n.val) 30 = false →
         Does (.tmrPreloadWrite src n which v) s fun d' => Dev.Frame id (among [k]) s.dev d' ∧ d'.rd k = v.toNat) ∧
       (s.dev.bit (Reg.TMR_CTRL n.val) 30 = true →
         Does (.tmrPreloadWrite src n which v) s fun d' =>
           Dev.Frame (fun d => { d with tmr := [] }) (among []) s.dev d' ∧ Others s.dev.tmr d'.tmr n.val ∧
           d'.timer n.val = if which.val = 0 then { t with pr := some v.toNat } else if which.val = 1 then { t with pc0 := some v.toNat }
             else { t with pc1 := some v.toNat })) ∧
     Does (.tmrCount src n) s fun d' =>
       let chain := (List.range 32).filter fun m => s.dev.tmrLow m == s.dev.tmrLow n.val && m / 4 == n.val / 4
       Dev.Frame id (among (chain.map Reg.TMR_SNAP)) s.dev d' ∧ (∀ m ∈ chain, d'.rd (Reg.TMR_SNAP m) = s.dev.rd (Reg.TMR_COUNT m) % 2 ^ 32) ∧
       d'.sent = s.dev.sent ++ [.event 4 [src.val, Reg.TMR_COUNT n.val, s.dev.rd (Reg.TMR_COUNT n.val) % 2 ^ 32]]) ∧
   (∀ (s : State) (n : Fin 248),
     let q := s.dev.pin n.val
     (q.sw = none → exec (.pinSwitchEnd n) s = .next s) ∧
     (∀ w, q.sw = some w → s.dev.lt < w.ends → exec (.pinSwitchEnd n) s = .next s) ∧
     (∀ w, q.sw = some w → w.ends ≤ s.dev.lt →
       Does (.pinSwitchEnd n) s fun d' =>
         Dev.Frame (fun d => { d with pins := [] }) (among [Reg.PIN_EVT]) s.dev d' ∧ Others s.dev.pins d'.pins n.val ∧
         d'.pin n.val = { q with sw := none } ∧ d'.bit Reg.PIN_EVT 1 = true))) ∧
  ((∀ (s : State) (p : Fin 96) (level : Bool) (back : Fin 4),
     let i := inPin p.val
     let q := s.dev.pin i
     Does (.pinInputChange p level back) s fun d' =>
       Dev.Frame (fun d => { d with pins := [] }) (among []) s.dev d' ∧ Others s.dev.pins d'.pins i ∧ (d'.pin i).ext = some level ∧
       (d'.pin i).acc = q.acc ∧
       (s.dev.pinOut i = none → q.runs = [] → q.acc ≠ level → (d'.pin i).runs = [(s.dev.lt - back.val, level)]) ∧
       (∀ te, s.dev.pinOut i = none → q.runs = [(te, !level)] → q.acc = level → s.dev.lt - back.val - te < 10 * s.dev.fld (Reg.INTC_PIN_CFG p.val) 0 10 →
         (d'.pin i).runs = [])) ∧
   (∀ (s : State) (p : Fin 96) (te : Nat) (level : Bool) (rest : List (Nat × Bool)),
     let i := inPin p.val
     let q := s.dev.pin i
     q.runs = (te, level) :: rest →
     (s.dev.lt < te + 10 * (s.dev.fld (Reg.INTC_PIN_CFG p.val) 0 10 + 3) → exec (.pinChangeAccepted p) s = .next s) ∧
     (te + 10 * (s.dev.fld (Reg.INTC_PIN_CFG p.val) 0 10 + 3) ≤ s.dev.lt → 64 ≤ p.val →
       (∀ n < 32, s.dev.fld (Reg.TMR_SRC n) 28 4 ≠ 4 ∧ s.dev.bit (Reg.TMR_CAP_CFG n) 31 = false) →
       Does (.pinChangeAccepted p) s fun d' =>
         Dev.Frame (fun d => { d with pins := [] }) (among []) s.dev d' ∧ Others s.dev.pins d'.pins i ∧
         d'.pin i = { q with acc := level, runs := rest })))

/-- Camera ports, tags and frame starts: a tag is queued, or abandoned when it says BLOCKED; a Frame Start is held without a tag and opens a frame
with one that fits; a held start without a tag for 5 µs is discarded, a tag that can match no more is abandoned; lanes synchronise. -/
def Obligations.CameraTags : Prop :=
  (∀ (s : State) (bs : List Byte),
    let tag := nats bs
    let b6 := leAt tag 6 1
    let p := b6 % 16
    let q := s.dev.camPort p
    s.dev.dataOff = false → q.bad = false → s.dev.bit (Reg.CAMIN_CFG p) 31 = true →
    (tb b6 7 = true →
      Does (.cameraTag bs) s fun d' =>
        Dev.Frame (fun d => { d with stem := [] }) (among [Reg.CAMIN_ABANDON p, Reg.CAMIN_EVT p]) s.dev d' ∧ d'.bit (Reg.CAMIN_EVT p) 1 = true ∧
        d'.rd (Reg.CAMIN_ABANDON p) = min (s.dev.rd (Reg.CAMIN_ABANDON p) + 1) 0xFFFFFFFF) ∧
    (tb b6 7 = false → s.dev.camLine p = false → q.tags.length < 16 → q.rx = .idle →
      Does (.cameraTag bs) s fun d' =>
        Dev.Frame (fun d => { d with camin := [] }) (among []) s.dev d' ∧ Others s.dev.camin d'.camin p ∧
        d'.camPort p = { q with tags := q.tags ++ [tag] })) ∧
  (∀ (s : State) (p : Fin 16) (vc : Fin 4),
    let q := s.dev.camPort p.val
    (s.dev.camHears p.val = false → ∀ ecc, exec (.frameStart p vc ecc) s = .next s) ∧
    (s.dev.camHears p.val = true →
      Does (.frameStart p vc 2) s (fun d' =>
        Dev.Frame id (among [Reg.CAMIN_PKT_ERR p.val, Reg.CAMIN_EVT p.val]) s.dev d' ∧ d'.bit (Reg.CAMIN_EVT p.val) 3 = true ∧
        d'.rd (Reg.CAMIN_PKT_ERR p.val) = min (s.dev.rd (Reg.CAMIN_PKT_ERR p.val) + 1) 0xFFFFFFFF) ∧
      (vc.val = s.dev.fld (Reg.CAMIN_CFG p.val) 20 4 → s.dev.camLine p.val = false → q.rx = .idle →
        (q.tags = [] →
          Does (.frameStart p vc 0) s fun d' =>
            Dev.Frame (fun d => { d with camin := [] }) (among []) s.dev d' ∧ Others s.dev.camin d'.camin p.val ∧
            d'.camPort p.val = { q with rx := .hold s.dev.lt [] false }) ∧
        (∀ g, q.tags = [g] → s.dev.tagFits p.val s.dev.lt g = true → q.frames = [] → (∃ x < s.dev.camSlots p.val, x ∉ q.used) →
          Does (.frameStart p vc 0) s fun d' =>
            Dev.Frame (fun d => { d with camin := [] }) (among []) s.dev d' ∧ Others s.dev.camin d'.camin p.val ∧
            ∃ x < s.dev.camSlots p.val, x ∉ q.used ∧
              d'.camPort p.val = { q with
                tags := [], used := x :: q.used, rx := .store s.dev.lt,
                frames := [⟨g, x, s.dev.camSlotAddr p.val x, s.dev.camH p.val, 0, 0, 0, 0, 0⟩] })))) ∧
  (∀ (s : State) (p : Fin 16) (t : Nat) (ls : List CamLine) (ended : Bool), (s.dev.camPort p.val).rx = .hold t ls ended →
    (s.dev.lt < t + 5000 → exec (.untagged p) s = .next s) ∧
    (t + 5000 ≤ s.dev.lt →
      Does (.untagged p) s fun d' =>
        Dev.Frame (fun d => { d with camin := [] }) (among [Reg.CAMIN_UNTAGGED p.val, Reg.CAMIN_EVT p.val]) s.dev d' ∧
        Others s.dev.camin d'.camin p.val ∧ d'.camPort p.val = { s.dev.camPort p.val with rx := if ended then .idle else .discard } ∧
        d'.bit (Reg.CAMIN_EVT p.val) 4 = true ∧
        d'.rd (Reg.CAMIN_UNTAGGED p.val) = min (s.dev.rd (Reg.CAMIN_UNTAGGED p.val) + 1) 0xFFFFFFFF)) ∧
  (∀ (s : State) (p : Fin 16) (g : List Nat),
    let q := s.dev.camPort p.val
    let last := leAt g 8 8 + 1000 * max 1 (s.dev.fld (Reg.CAMIN_FS_WIN p.val) 0 16)
    q.tags = [g] → s.dev.camLine p.val = false →
    (s.dev.lt ≤ last → exec (.noFrame p) s = .next s) ∧
    (last < s.dev.lt →
      Does (.noFrame p) s fun d' =>
        Dev.Frame (fun d => { d with camin := [], stem := [] }) (among [Reg.CAMIN_ABANDON p.val, Reg.CAMIN_EVT p.val]) s.dev d' ∧
        d'.camPort p.val = { q with tags := [] } ∧ Others s.dev.camin d'.camin p.val ∧ d'.bit (Reg.CAMIN_EVT p.val) 1 = true)) ∧
  (∀ (s : State) (p : Fin 16) (deskew : Bool),
    let q := s.dev.camPort p.val
    let on := s.dev.bit (Reg.CAMIN_CFG p.val) 31 && !q.bad && !s.dev.dataOff
    (on = false → exec (.cameraLaneSync p deskew) s = .next s) ∧
    (on = true →
      Does (.cameraLaneSync p deskew) s fun d' =>
        Dev.Frame (fun d => { d with camin := [] }) (among []) s.dev d' ∧ Others s.dev.camin d'.camin p.val ∧
        d'.camPort p.val = { q with sync := true, deskew := q.deskew || deskew }))

/-- Camera frames and I²C: a line of an open AREA frame is cut or filled to WIDTH and stored in the slot; a Frame End of a whole frame hands it
to the least loaded quad of its job mask; a frame without one in its time is closed with SHORT; an I²C command starts a transfer that ends. -/
def Obligations.CameraFrames : Prop :=
  (∀ (s : State) (p : Fin 16) (vc : Fin 4) (t : Nat) (f : CamFrame),
    let q := s.dev.camPort p.val
    let w := s.dev.camW p.val
    let bpp := (dtBpp (s.dev.camDt p.val)).getD 1
    let quad := s.dev.jobQuad (s.dev.fld (Reg.CAMIN_JOB p.val) 8 4)
    let body := fun (d : Dev) => { d with camin := [], quads := [], stem := [] }
    let own := [Reg.CAMIN_LAST_LT p.val, Reg.CAMIN_FRAMES p.val, Reg.CAMIN_EVT p.val]
    s.dev.camHears p.val = true → s.dev.camLine p.val = false → q.rx = .store t → q.frames = [f] → s.dev.locked = false → s.dev.role ≠ 2 →
    regionOf f.addr = .isram → s.dev.domOn 64 = true → s.dev.domOn 65 = true →
    (∀ (ago : BitVec 32) (bs : List Byte), vc.val = s.dev.fld (Reg.CAMIN_CFG p.val) 20 4 → f.lines < f.h →
      let px := linePixels (s.dev.camDt p.val) (nats bs)
      let cut := (px.take w).flatten
      let bytes := cut ++ List.replicate (w * bpp - cut.length) 0
      let a := f.addr + 64 + s.dev.camStride p.val * f.lines
      let st := if px.length < w then 2 else if w < px.length then 4 else 0
      bytes ≠ [] → regionOf a = .isram → regionOf (a + (bytes.length - 1)) = .isram →
      Does (.longPacket p vc (BitVec.ofNat 6 (s.dev.camDt p.val)) 0 true ago bs) s fun d' =>
        Dev.FrameAt body (among []) a bytes.length s.dev d' ∧ Others s.dev.camin d'.camin p.val ∧ d'.load a bytes.length = bytes.map (· % 256) ∧
        d'.camPort p.val = { q with
          frames := [{ f with
            lines := f.lines + 1, t0 := if f.lines = 0 then s.dev.lt - ago.toNat else f.t0, t1 := s.dev.lt, status := f.status ||| st }] }) ∧
    (∀ k, vc.val = s.dev.fld (Reg.CAMIN_CFG p.val) 20 4 → 0 < f.h → f.lines = f.h → f.status = 0 → quad = some k →
      let head := s.dev.camHeader p.val f q.fseq
      Does (.frameEnd p vc 0) s fun d' =>
        Dev.FrameAt body (among own) f.addr head.length s.dev d' ∧ Others s.dev.camin d'.camin p.val ∧ Others s.dev.quads d'.quads k ∧
        d'.camPort p.val = { q with rx := .idle, frames := [], fseq := (q.fseq + 1) % 2 ^ 32 } ∧
        tget d'.quads k = { tget s.dev.quads k with
          queue := (tget s.dev.quads k).queue ++ [⟨p.val, f.slot, f.addr, head, f.t1, s.dev.fld (Reg.CAMIN_JOB p.val) 0 4⟩] } ∧
        d'.rd (Reg.CAMIN_FRAMES p.val) = min (s.dev.rd (Reg.CAMIN_FRAMES p.val) + 1) 0xFFFFFFFF ∧ d'.bit (Reg.CAMIN_EVT p.val) 0 = true ∧
        d'.rd (Reg.CAMIN_LAST_LT p.val) = f.t1 % 2 ^ 64) ∧
    (s.dev.lt < t + 10000 * max 1 (s.dev.fld (Reg.CAMIN_FS_WIN p.val) 16 16) → exec (.frameTimeout p) s = .next s) ∧
    (∀ k, t + 10000 * max 1 (s.dev.fld (Reg.CAMIN_FS_WIN p.val) 16 16) ≤ s.dev.lt → 0 < f.h → f.lines = f.h → f.status = 0 → quad = some k →
      let head := s.dev.camHeader p.val { f with status := 2 } q.fseq
      Does (.frameTimeout p) s fun d' =>
        Dev.FrameAt body (among own) f.addr head.length s.dev d' ∧ Others s.dev.camin d'.camin p.val ∧
        d'.camPort p.val = { q with rx := .discard, frames := [], fseq := (q.fseq + 1) % 2 ^ 32 } ∧ d'.bit (Reg.CAMIN_EVT p.val) 8 = true ∧
        d'.bit (Reg.CAMIN_EVT p.val) 0 = true)) ∧
  (∀ (s : State) (src : Fin 30) (p : Fin 16) (v : BitVec 32), s.dev.Reach src.val (Reg.CAMIN_I2C_CMD p.val) →
    let wl := min 8 (bits v.toNat 8 4)
    let rl := min 8 (bits v.toNat 12 4)
    (s.dev.bit (Reg.CAMIN_I2C_STATUS p.val) 0 = true → exec (.caminI2cCmd src p v) s = .next s) ∧
    (s.dev.bit (Reg.CAMIN_I2C_STATUS p.val) 0 = false →
      Does (.caminI2cCmd src p v) s fun d' =>
        Dev.Frame id (among [Reg.CAMIN_I2C_STATUS p.val]) s.dev d' ∧ d'.rd (Reg.CAMIN_I2C_STATUS p.val) = 1 ∧
        d'.sent = s.dev.sent ++ [.i2c p.val ([bits v.toNat 0 7, wl, rl] ++ leBytes wl (s.dev.rd (Reg.CAMIN_I2C_WDATA p.val)))])) ∧
  (∀ (s : State) (p : Fin 16) (outcome : Fin 5) (written : BitVec 4) (rdata : BitVec 64),
    let own := [Reg.CAMIN_I2C_STATUS p.val, Reg.CAMIN_I2C_RDATA p.val, Reg.CAMIN_EVT p.val]
    (s.dev.bit (Reg.CAMIN_I2C_STATUS p.val) 0 = false → exec (.i2cDone p outcome written rdata) s = .next s) ∧
    (s.dev.bit (Reg.CAMIN_I2C_STATUS p.val) 0 = true →
      Does (.i2cDone p outcome written rdata) s fun d' =>
        Dev.Frame id (among own) s.dev d' ∧
        (outcome.val = 0 → d'.rd (Reg.CAMIN_I2C_STATUS p.val) = 2 ∧ d'.rd (Reg.CAMIN_I2C_RDATA p.val) = rdata.toNat ∧
          d'.bit (Reg.CAMIN_EVT p.val) 11 = true) ∧
        (outcome.val ≠ 0 → d'.rd (Reg.CAMIN_I2C_RDATA p.val) = s.dev.rd (Reg.CAMIN_I2C_RDATA p.val) ∧ d'.bit (Reg.CAMIN_EVT p.val) 12 = true ∧
          d'.rd (Reg.CAMIN_I2C_STATUS p.val) =
            2 ^ (outcome.val + 1) + (if outcome.val = 2 then min 8 written.toNat else 0) * 2 ^ 8)))

/-- Sieve jobs: a free quad starts its queued job with the earliest LT_LAST, from the list's first descriptor; END and the deadline end a job, free
its slot and count; an invalid descriptor ends it as BAD_DESC; RESULT writes a record of 256 bytes; the ring's read count moves on. -/
def Obligations.SieveJobs : Prop :=
  (∀ (s : State) (q : Fin 4) (j : SvJob), (s.dev.quad q.val).run = none → earliest ((s.dev.quad q.val).queue.filter fun x => !s.dev.svLate x) = some j →
    s.dev.bit Reg.SIEVE_CTRL 0 = true →
    Does (.sieveJobStart q) s fun d' =>
      Dev.Frame (fun d => { d with quads := [] }) (among [Reg.SIEVE_Q_GOLD_MISS q.val, Reg.SIEVE_Q_EVT q.val]) s.dev d' ∧
      Others s.dev.quads d'.quads q.val ∧ (d'.quad q.val).queue = (s.dev.quad q.val).queue.erase j ∧
      ∃ r, (d'.quad q.val).run = some (s.dev.lt, r) ∧ r.job = j ∧ r.base = s.dev.fld (Reg.SIEVE_LIST_BASE j.list) 5 43 * 32 ∧
        r.len = min 1024 (s.dev.fld (Reg.SIEVE_LIST_LEN j.list) 0 11) ∧ r.idx = 0 ∧ r.steps = 0 ∧ r.bits_ = 0 ∧ r.work = none ∧
        r.v.take 14 = List.replicate 14 0 ∧
        (r.miss = true → d'.rd (Reg.SIEVE_Q_GOLD_MISS q.val) = min (s.dev.rd (Reg.SIEVE_Q_GOLD_MISS q.val) + 1) 0xFFFFFFFF)) ∧
  (∀ (s : State) (q : Fin 4) (t : Nat) (r : SvRun) (w : List Nat),
    let cp := s.dev.camPort r.job.port
    let body := fun (d : Dev) => { d with quads := [], camin := [], stem := [] }
    (s.dev.SvReady q.val 0 t r w →
      Does (.sieveEnd q) s fun d' =>
        Dev.Frame body (among [Reg.SIEVE_Q_LAT_MAX q.val, Reg.SIEVE_Q_JOBS q.val, Reg.SIEVE_Q_EVT q.val]) s.dev d' ∧
        Others s.dev.quads d'.quads q.val ∧ (d'.quad q.val).run = none ∧ (d'.quad q.val).queue = (s.dev.quad q.val).queue ∧
        d'.camPort r.job.port = { cp with used := cp.used.filter (· != r.job.slot) } ∧
        d'.rd (Reg.SIEVE_Q_JOBS q.val) = min (s.dev.rd (Reg.SIEVE_Q_JOBS q.val) + 1) 0xFFFFFFFF ∧ d'.bit (Reg.SIEVE_Q_EVT q.val) 0 = true ∧
        (s.dev.stemUp = true → (s.dev.stemEnd 1).retry.length < 64 → (s.dev.stemEnd 1).queue = [] →
          (s.dev.stemEnd 1).retry ++ [⟨(s.dev.stemEnd 1).txSeq, 2, leAt r.job.head 4 2 % 65536 * 2 ^ 26,
            leBytes 4 (leAt r.job.head 0 4) ++ [2, 0, 0, 0] ++ leBytes 8 (r.bits_ &&& 0xFFFFFFFFFFFF0041) ++ leBytes 8 (leAt r.job.head 8 8) ++
              leBytes 8 0⟩] <+: (d'.stemEnd 1).retry)) ∧
    ((s.dev.quad q.val).run = some (t, r) → s.dev.svNext q.val = some (r, w) → s.dev.svLate r.job = false → r.idx < r.len → r.steps < 256 →
      svInvalid r w = true →
      Does (.calc q) s fun d' =>
        Dev.Frame body
          (among [Reg.SIEVE_Q_BAD q.val, Reg.SIEVE_Q_EVT q.val, Reg.CAMIN_ABANDON r.job.port, Reg.CAMIN_EVT r.job.port]) s.dev d' ∧
        (d'.quad q.val).run = none ∧ d'.rd (Reg.SIEVE_Q_BAD q.val) = min (s.dev.rd (Reg.SIEVE_Q_BAD q.val) + 1) 0xFFFFFFFF ∧
        d'.bit (Reg.SIEVE_Q_EVT q.val) 2 = true) ∧
    (s.dev.SvReady q.val 11 t r w →
      let k := clampN 4 12 (s.dev.fld Reg.SIEVE_RR_CFG 4 5)
      let wr := s.dev.rd Reg.SIEVE_RR_WR % 2 ^ 17
      let a := s.dev.fld Reg.SIEVE_RR_BASE 0 48 / 2 ^ (8 + k) * 2 ^ (8 + k) + 256 * (wr % 2 ^ k)
      let run := fun (d' : Dev) => d'.quad q.val = { s.dev.quad q.val with run := some (t, r.taken) } ∧ Others s.dev.quads d'.quads q.val
      let used := (wr + 2 ^ 17 - s.dev.rd Reg.SIEVE_RR_RD % 2 ^ 17) % 2 ^ 17
      (s.dev.bit Reg.SIEVE_RR_CFG 0 = false → Does (.result q) s fun d' => s.dev.SvGoes d' q.val t r.taken) ∧
      (s.dev.bit Reg.SIEVE_RR_CFG 0 = true → 2 ^ k ≤ used →
        Does (.result q) s fun d' =>
          Dev.Frame body (among [Reg.SIEVE_RR_DROP, Reg.SIEVE_Q_EVT q.val]) s.dev d' ∧ run d' ∧ d'.bit (Reg.SIEVE_Q_EVT q.val) 6 = true ∧
          d'.rd Reg.SIEVE_RR_DROP = min (s.dev.rd Reg.SIEVE_RR_DROP + 1) 0xFFFFFFFF) ∧
      (s.dev.bit Reg.SIEVE_RR_CFG 0 = true → used < 2 ^ k → s.dev.Open a 256 → r.v.length = 16 → 32 ≤ r.job.head.length →
        Does (.result q) s fun d' =>
          Dev.FrameAt body (among [Reg.SIEVE_RR_WR]) a 256 s.dev d' ∧ run d' ∧ d'.rd Reg.SIEVE_RR_WR = (wr + 1) % 2 ^ 17 ∧
          d'.load a 32 = (r.job.head.take 32).map (· % 256) ∧ d'.num (a + 32) 8 = s.dev.lt % 2 ^ 64 ∧ d'.num (a + 40) 8 = r.bits_ % 2 ^ 64 ∧
          ∀ i < 16, d'.num (a + 48 + 4 * i) 4 = r.v.getD i 0 % 2 ^ 32))) ∧
  (∀ (s : State) (q : Fin 4) (j : SvJob), (s.dev.quad q.val).run = none → (s.dev.quad q.val).queue = [j] →
    (s.dev.lt < j.last + s.dev.svDl → exec (.sieveJobAbort q) s = .next s) ∧
    (j.last + s.dev.svDl ≤ s.dev.lt →
      Does (.sieveJobAbort q) s fun d' =>
        Dev.Frame (fun d => { d with quads := [], camin := [] }) (among [Reg.SIEVE_Q_ABORT q.val, Reg.SIEVE_Q_EVT q.val]) s.dev d' ∧
        d'.quad q.val = { s.dev.quad q.val with queue := [] } ∧ Others s.dev.quads d'.quads q.val ∧
        d'.camPort j.port = { s.dev.camPort j.port with used := (s.dev.camPort j.port).used.filter (· != j.slot) } ∧
        d'.rd (Reg.SIEVE_Q_ABORT q.val) = min (s.dev.rd (Reg.SIEVE_Q_ABORT q.val) + 1) 0xFFFFFFFF ∧ d'.bit (Reg.SIEVE_Q_EVT q.val) 1 = true)) ∧
  (∀ (s : State) (src : Fin 30) (v : BitVec 32), s.dev.Reach src.val Reg.SIEVE_RR_RD →
    let n := (s.dev.rd Reg.SIEVE_RR_WR % 2 ^ 17 + 2 ^ 17 - v.toNat % 2 ^ 17) % 2 ^ 17
    let k := clampN 4 12 (s.dev.fld Reg.SIEVE_RR_CFG 4 5)
    (2 ^ k < n → exec (.sieveRrRd src v) s = .next s) ∧
    (n ≤ 2 ^ k →
      Does (.sieveRrRd src v) s fun d' => Dev.Frame id (among [Reg.SIEVE_RR_RD]) s.dev d' ∧ d'.rd Reg.SIEVE_RR_RD = v.toNat % 2 ^ 17))

/-- Descriptors that compute on result words: CB branches within the list, SETV ORs into BITS, CALC computes one word modulo 2³², PRESENCE counts
the pixels of its region within a range, COLOUR takes their mean, CORRX sends a correction above DEAD and none below. -/
def Obligations.SieveWords : Prop :=
  ∀ (s : State) (q : Fin 4) (t : Nat) (r : SvRun) (w : List Nat),
    let w0 := w.getD 0 0
    let a := r.v.getD (bits w0 24 4) 0
    let b := if tb w0 20 = true then w.getD 2 0 else r.v.getD (bits (w.getD 1 0) 0 4) 0
    let x := (svRegion r w).1.toNat
    let y := (svRegion r w).2.1.toNat
    let px := ((List.range (svRegion r w).2.2.2).map fun j =>
      (List.range (svRegion r w).2.2.1).map fun i => s.dev.bump.workPx q.val r (x + i) (y + j)).flatten
    (s.dev.SvReady q.val 7 t r w →
      let goto := fun (d' : Dev) (take : Prop) =>
        (take → s.dev.SvGoes d' q.val t { r.taken with idx := bits (w.getD 3 0) 0 10 }) ∧ (¬ take → s.dev.SvGoes d' q.val t r.taken)
      Does (.sieveCb q) s fun d' =>
        (bits w0 16 4 = 0 → goto d' (sx 32 a = sx 32 b)) ∧ (bits w0 16 4 = 1 → goto d' (sx 32 a ≠ sx 32 b)) ∧
        (bits w0 16 4 = 2 → goto d' (sx 32 a < sx 32 b)) ∧ (bits w0 16 4 = 3 → goto d' (sx 32 a ≤ sx 32 b)) ∧
        (bits w0 16 4 = 4 → goto d' (sx 32 b < sx 32 a)) ∧ (bits w0 16 4 = 5 → goto d' (sx 32 b ≤ sx 32 a)) ∧
        (bits w0 16 4 = 6 → goto d' (a &&& b ≠ 0)) ∧ (bits w0 16 4 = 7 → goto d' (a &&& b = 0))) ∧
    (s.dev.SvReady q.val 8 t r w →
      Does (.sieveSetv q) s fun d' =>
        s.dev.SvGoes d' q.val t { r.taken with bits_ := r.bits_ ||| (w.getD 2 0 + w.getD 3 0 * 2 ^ 32) }) ∧
    (s.dev.SvReady q.val 10 t r w →
      Does (.calc q) s fun d' =>
        ∃ v : Int, s.dev.SvGoes d' q.val t (r.taken.put w [v]) ∧
        (bits w0 16 4 = 0 → v = b) ∧ (bits w0 16 4 = 1 → v % 2 ^ 32 = ((a + b : Nat) : Int) % 2 ^ 32) ∧
        (bits w0 16 4 = 2 → v % 2 ^ 32 = ((a : Int) - b) % 2 ^ 32) ∧ (bits w0 16 4 = 3 → v % 2 ^ 32 = ((a * b : Nat) : Int) % 2 ^ 32) ∧
        (bits w0 16 4 = 4 → v = if sx 32 a ≤ sx 32 b then a else b) ∧ (bits w0 16 4 = 5 → v = if sx 32 a ≤ sx 32 b then b else a) ∧
        (bits w0 16 4 = 6 → v = (sx 32 a).natAbs) ∧ (bits w0 16 4 = 7 → v = (a &&& b : Nat)) ∧ (bits w0 16 4 = 8 → v = (a ||| b : Nat))) ∧
    (s.dev.SvReady q.val 4 t r w →
      Does (.presence q) s fun d' =>
        s.dev.SvGoes d' q.val t (r.taken.put w [((px.filter fun p => (List.range p.length).all fun c =>
          decide (bits (w.getD 3 0) (8 * c) 8 ≤ p.getD c 0) && decide (p.getD c 0 ≤ bits (w.getD 4 0) (8 * c) 8)).length : Nat)])) ∧
    (s.dev.SvReady q.val 5 t r w → px ≠ [] →
      Does (.colour q) s fun d' =>
        s.dev.SvGoes d' q.val t (r.taken.put w ((List.range (if r.rgb = true then 3 else 1)).map fun c =>
          ((16 * (px.map fun p => p.getD c 0).sum / px.length : Nat) : Int)))) ∧
    (s.dev.SvReady q.val 9 t r w →
      let v := roundDiv (sx 32 (r.v.getD (bits w0 16 4) 0) * sx 32 (w.getD 2 0)) 65536
      let lim : Int := (w.getD 4 0 : Nat)
      let st := s.dev.stemEnd 1
      (v.natAbs < w.getD 3 0 → Does (.corrx q) s fun d' => s.dev.SvGoes d' q.val t r.taken) ∧
      (w.getD 3 0 ≤ v.natAbs → s.dev.stemUp = true → st.retry.length < 64 → st.queue = [] →
        Does (.corrx q) s fun d' =>
          Dev.Frame (fun d => { d with quads := [], stem := [] }) (among []) s.dev d' ∧ Others s.dev.quads d'.quads q.val ∧
          Others s.dev.stem d'.stem 1 ∧ d'.quad q.val = { s.dev.quad q.val with run := some (t, r.taken) } ∧
          d'.stemEnd 1 = { st with
            txSeq := (st.txSeq + 1) % 4096, owed := (d'.stemEnd 1).owed,
            retry := st.retry ++ [⟨st.txSeq, 4, 2 ^ 41 + (Reg.CAM_CORR_IN (bits (w.getD 1 0) 0 10) - 0x30000000000),
              leBytes 4 ((max (-lim) (min lim v)) % 2 ^ 32).toNat⟩] }))

/-- Descriptors that work on images: without a golden image REGISTER and TILECMP give the words that say so; with one, REGISTER gives the best
displacement and sets the shift, TILECMP the worst score, the tiles above THRESH and a worst tile; CODE gives a reading, grades only where they are
asked for, and a comparison; CORRECT writes the working image. -/
def Obligations.SieveImages : Prop :=
  ∀ (s : State) (q : Fin 4) (t : Nat) (r : SvRun) (w : List Nat),
    let w0 := w.getD 0 0
    let goes := fun (d' : Dev) (r' : SvRun) => s.dev.SvGoes d' q.val t r'
    (s.dev.SvReady q.val 2 t r w →
      let found := s.dev.bump.svSearch q.val r w
      ((r.miss = true ∨ found = none) → Does (.sieveRegister q) s fun d' => goes d' (r.taken.put w [0, 0, 0xFFFFFFFF])) ∧
      (∀ (sad : Nat) (dx dy : Int) (tried : List (Nat × Int × Int)), r.miss = false → found = some ((sad, dx, dy), tried) →
        Does (.sieveRegister q) s fun d' =>
          ∃ fx fy : Int, -8 ≤ fx ∧ fx ≤ 8 ∧ -8 ≤ fy ∧ fy ≤ 8 ∧
            goes d' { r.taken.put w [16 * dx + fx, 16 * dy + fy, sad] with sx_ := dx, sy_ := dy })) ∧
    (s.dev.SvReady q.val 3 t r w →
      let sc := s.dev.bump.tileScores q.val r w
      (r.miss = true → Does (.tilecmp q) s fun d' => goes d' (r.taken.put w [0xFFFFFFFF, 0xFFFFFFFF, 0])) ∧
      (r.miss = false → sc ≠ [] →
        Does (.tilecmp q) s fun d' =>
          ∃ m ∈ sc, (∀ x ∈ sc, x.1 ≤ m.1) ∧
            goes d' (r.taken.put w [m.1, ((sc.filter fun x => decide (w.getD 3 0 < x.1)).length : Nat), (m.2.1 + m.2.2 * 65536 : Nat)]))) ∧
    (s.dev.SvReady q.val 6 t r w →
      Does (.code q) s fun d' =>
        ∃ (res : Nat) (gs : List Int) (cmp : Int) (data : List Nat),
          goes d' { r.taken.put w ([(res : Int)] ++ gs ++ [cmp, (data.length : Nat)]) with data := data } ∧
          res < 3 ∧ (res ≠ 0 → data = [] ∧ cmp = 0) ∧ data.length ≤ 255 ∧ gs.length = 5 ∧
          (res ≠ 0 ∨ tb w0 19 = false ∨ 2 ≤ bits w0 16 3 → gs = [-1, -1, -1, -1, -1]) ∧
          (tb w0 20 = false ∨ r.miss = true → cmp = 0) ∧ (cmp = 0 ∨ cmp = 1)) ∧
    (s.dev.SvReady q.val 1 t r w →
      let out := tb w0 21
      let size := if out = true then 4 else 1
      let a := s.dev.wbuf q.val
      s.dev.Open a (size * (r.job.w * r.job.h)) →
      Does (.correct q) s fun d' =>
        Dev.FrameAt (fun d => { d with quads := [] }) (among []) a (size * (r.job.w * r.job.h)) s.dev d' ∧
        Others s.dev.quads d'.quads q.val ∧ d'.quad q.val = { s.dev.quad q.val with run := some (t, { r.taken with work := some out }) } ∧
        ∀ x < r.job.w, ∀ y < r.job.h, ∀ px, s.dev.bump.bump.correctPx r.job w x y = some px →
          d'.load (a + size * (y * r.job.w + x)) size = (if out = true then px ++ [0] else px).map (· % 256))

/-- Composition pipes: a frame start latches the pipe's registers (a DISPLAY or RENDER frame, or the next swath start), a busy pipe answers GO with
GO_BUSY; the mirror list is taken once; a line start goes on to the next line, writes the line back and ends the frame after the last; golden
entries become valid; table loads start, end with their CRC, or with an error. -/
def Obligations.CompositionPipes : Prop :=
  (∀ (s : State) (p : Fin 8),
    let q := s.dev.pipe p.val
    let mode := s.dev.fld (Reg.COMP_CTRL p.val) 1 2
    let body := fun (d : Dev) => { d with pipes := [] }
    let port := (outOf (s.dev.rd (Reg.COMP_OUT p.val))).2
    let shown := (outOf (s.dev.rd (Reg.COMP_OUT p.val))).1 = 1 ∧ port < 3
    let st := s.dev.fld (Reg.DISP_STATUS port) 0 3
    let begun := fun (d' : Dev) =>
      Dev.Frame body (among [Reg.COMP_EVT p.val]) s.dev d' ∧ Others s.dev.pipes d'.pipes p.val ∧
      ∃ f, d'.pipe p.val = { q with frame := some f, count := q.count + 1, bad := f.bad } ∧ f.start = none ∧ f.k = q.count ∧ f.line = 0 ∧ f.sprs = none ∧
        (∀ k, Reg.COMP_CTRL p.val ≤ k → k < Reg.COMP_CTRL p.val + 0x1000 → f.r k = s.dev.rd k) ∧
        (f.bad = true → d'.bit (Reg.COMP_EVT p.val) 12 = true)
    (s.dev.dataOff = true ∨ s.dev.bit (Reg.COMP_CTRL p.val) 0 = true ∧ (mode = 2 ∨ mode = 0 ∧ ¬ shown) → exec (.pipeFrameStart p) s = .next s) ∧
    (s.dev.dataOff = false → s.dev.bit (Reg.COMP_CTRL p.val) 0 = false → shown → st = 3 →
      (∀ k < 8, s.dev.bit (Reg.COMP_CTRL k) 0 = true → outOf (s.dev.rd (Reg.COMP_OUT k)) ≠ (1, port)) →
      Does (.pipeFrameStart p) s fun d' =>
        Dev.Frame id (among [Reg.DISP_FRAMES port, Reg.DISP_EVT port]) s.dev d' ∧ s.dev.sent ++ [.event 9 [port]] <+: d'.sent ∧
        d'.rd (Reg.DISP_FRAMES port) = min (s.dev.rd (Reg.DISP_FRAMES port) + 1) 0xFFFFFFFF ∧ d'.bit (Reg.DISP_EVT port) 0 = true) ∧
    (s.dev.compOn p.val = true → q.frame = none →
      (mode = 0 → shown → st ≠ 4 → st ≠ 5 → (tget s.dev.disp port).entering ≠ 1 → Does (.pipeFrameStart p) s begun) ∧
      (∀ src : Fin 30, mode = 2 → s.dev.Reach src.val (Reg.COMP_GO p.val) → Does (.compGo src p) s begun) ∧
      (∀ x rest, mode = 1 → q.queue = x :: rest → x.pjob = 0 →
        Does (.pipeFrameStart p) s fun d' =>
          Dev.Frame (fun d => { d with pipes := [], stem := [] }) (among [Reg.COMP_EVT p.val, Reg.COMP_LAST_ID p.val]) s.dev d' ∧
          Others s.dev.pipes d'.pipes p.val ∧ d'.rd (Reg.COMP_LAST_ID p.val) = x.id % 2 ^ 32 ∧
          ∃ f, d'.pipe p.val = { q with queue := rest, frame := some f, count := q.count + 1, bad := f.bad } ∧ f.start = some x ∧ f.blank = true ∧ f.line = 0)) ∧
    (∀ (src : Fin 30) f, s.dev.compOn p.val = true → q.frame = some f → mode = 2 → s.dev.Reach src.val (Reg.COMP_GO p.val) →
      Does (.compGo src p) s fun d' => Dev.Frame id (among [Reg.COMP_EVT p.val]) s.dev d' ∧ d'.bit (Reg.COMP_EVT p.val) 13 = true)) ∧
  (∀ (s : State) (p : Fin 8) (f : PipeFrame), (s.dev.pipe p.val).frame = some f →
    let b := f.fld (Reg.COMP_M_CFG p.val) 0 3
    let lo := sx 32 (f.r (Reg.COMP_M_UMIN p.val))
    let hi := sx 32 (f.r (Reg.COMP_M_UMAX p.val))
    let u := fun (i : Item) => distL (s.dev.fpf b) (s.dev.itemL i) (tget s.dev.beams b).l / 2 ^ 32
    let sel := ((s.dev.beamList b).map s.dev.item).filter fun i =>
      (i.state == 1 || i.state == 2) && tb (f.r (Reg.COMP_M_LANES p.val)) i.lane && tb (f.r (Reg.COMP_M_CLS p.val (i.cls / 32))) (i.cls % 32) &&
        decide (lo ≤ u i) && decide (u i < hi)
    (f.mir ≠ 1 ∨ s.dev.stemUp = false → exec (.mirrorList p) s = .next s) ∧
    (f.mir = 1 → s.dev.stemUp = true → sel.length ≤ 256 →
      Does (.mirrorList p) s fun d' =>
        Dev.Frame (fun d => { d with pipes := [] }) (among []) s.dev d' ∧ Others s.dev.pipes d'.pipes p.val ∧
        d'.pipe p.val = { s.dev.pipe p.val with frame := some { f with
          mir := 2,
          items := sel.map fun i => (u i, i.lane, if tb i.verdict 0 = true then 1 else if i.vpend ≠ 0 ∨ i.printing = true then 2 else 0) } })) ∧
  (∀ (s : State) (p : Fin 8) (f : PipeFrame) (ss : List Spr), (s.dev.pipe p.val).frame = some f → f.sprs = some ss → f.bad = false →
    f.start = none → (outOf (f.r (Reg.COMP_OUT p.val))).1 ≠ 1 → s.dev.dataOff = false → tb (f.r (Reg.COMP_LLIST_CFG p.val)) 31 = false →
    f.gold = none → f.part = none → f.line < f.oh p.val → (touching ss f.line).length ≤ 64 →
    let body := fun (d : Dev) => { d with pipes := [] }
    let own := among [Reg.COMP_FRAMES p.val, Reg.COMP_EVT p.val]
    let next := fun (d' : Dev) =>
      Others s.dev.pipes d'.pipes p.val ∧
      (f.line + 1 < f.oh p.val → d'.pipe p.val = { s.dev.pipe p.val with frame := some { f with line := f.line + 1 } }) ∧
      (f.line + 1 = f.oh p.val → d'.pipe p.val = { s.dev.pipe p.val with frame := none } ∧ d'.bit (Reg.COMP_EVT p.val) 0 = true ∧
        d'.rd (Reg.COMP_FRAMES p.val) = min (s.dev.rd (Reg.COMP_FRAMES p.val) + 1) 0xFFFFFFFF)
    let c := f.r (Reg.COMP_WB_CFG p.val)
    let bpp := [4, 1, 8].getD (bits c 2 2) 4
    let a := f.wbSlot p.val + f.fld (Reg.COMP_WB_STRIDE p.val) 6 12 * 64 * f.line
    (tb c 0 = false → Does (.pipeLineStart p) s fun d' => Dev.Frame body own s.dev d' ∧ next d') ∧
    (tb c 0 = true → tb c 1 = false → bits c 4 3 = 0 → bits c 2 2 < 2 → f.wbClash p.val = false → s.dev.Open a (bpp * f.ow p.val) →
      Does (.pipeLineStart p) s fun d' =>
        Dev.FrameAt body own a (bpp * f.ow p.val) s.dev d' ∧ next d' ∧
        ∀ x < f.ow p.val, ∀ i < bpp, s.dev.inRing (a + bpp * x + i) = false →
          d'.byte (a + bpp * x + i) = BitVec.ofNat 8
            ((s.dev.wbBytes (bits c 2 2) (s.dev.bump.compRgb f p.val (touching ss f.line) x f.line ++ [0])).getD i 0))) ∧
  (∀ (s : State) (p : Fin 8) (a : Nat) (e : List Nat) (t : List (Nat × List Nat)), (s.dev.pipe p.val).golds = (a, e) :: t → e.length = 64 →
    s.dev.Open a 64 →
    Does (.goldenEntryValid p) s fun d' =>
      Dev.FrameAt (fun d => { d with pipes := [] }) (among []) a 64 s.dev d' ∧ Others s.dev.pipes d'.pipes p.val ∧
      d'.pipe p.val = { s.dev.pipe p.val with golds := t } ∧ d'.load a 64 = (e.take 23 ++ [1] ++ e.drop 24).map (· % 256)) ∧
  (∀ (s : State) (src : Fin 30) (p : Fin 8) (v : BitVec 32), s.dev.Reach src.val (Reg.COMP_TLOAD p.val) →
    ((s.dev.pipe p.val).load.isSome = true → exec (.compTload src p v) s = .next s) ∧
    ((s.dev.pipe p.val).load = none →
      Does (.compTload src p v) s fun d' =>
        Dev.Frame (fun d => { d with pipes := [] }) (among [Reg.COMP_TLOAD_STATUS p.val]) s.dev d' ∧ Others s.dev.pipes d'.pipes p.val ∧
        d'.rd (Reg.COMP_TLOAD_STATUS p.val) = 1 ∧
        d'.pipe p.val = { s.dev.pipe p.val with
          load := some (bits v.toNat 0 2, bits v.toNat 4 1, s.dev.fld (Reg.COMP_TLOAD_SRC p.val) 3 45 * 8) })) ∧
  (∀ (s : State) (p : Fin 8) (kind bank src : Nat), (s.dev.pipe p.val).load = some (kind, bank, src) →
    let q := s.dev.pipe p.val
    let own := among [Reg.COMP_TLOAD_STATUS p.val, Reg.COMP_TLOAD_CRC p.val, Reg.COMP_EVT p.val]
    let body := fun (d : Dev) => { d with pipes := [] }
    (kind = 3 → p.val < 6 →
      Does (.tloadDone false p) s fun d' =>
        Dev.Frame body own s.dev d' ∧ d'.pipe p.val = { q with load := none } ∧ d'.rd (Reg.COMP_TLOAD_STATUS p.val) = 2 ∧
        d'.bit (Reg.COMP_EVT p.val) 11 = true) ∧
    ((kind ≠ 3 ∨ 6 ≤ p.val) → s.dev.hasRange src (tableLen kind) = true → s.dev.dataOff = false →
      let bs := s.dev.memRead src (tableLen kind)
      Does (.tloadDone false p) s fun d' =>
        Dev.Frame body own s.dev d' ∧ Others s.dev.pipes d'.pipes p.val ∧
        d'.pipe p.val = { q with load := none, banks := tput q.banks (2 * kind + bank) bs } ∧ d'.rd (Reg.COMP_TLOAD_STATUS p.val) = 0 ∧
        d'.rd (Reg.COMP_TLOAD_CRC p.val) = crc32c bs % 2 ^ 32 ∧ d'.bit (Reg.COMP_EVT p.val) 10 = true) ∧
    ((kind ≠ 3 ∨ 6 ≤ p.val) → s.dev.hasRange src (tableLen kind) = false →
      Does (.tloadDone false p) s fun d' =>
        Dev.Frame body own s.dev d' ∧ (∃ bs, d'.pipe p.val = { q with load := none, banks := tput q.banks (2 * kind + bank) bs }) ∧
        d'.rd (Reg.COMP_TLOAD_STATUS p.val) = 2 ∧ d'.bit (Reg.COMP_EVT p.val) 11 = true))

/-- Drawing engines: the producer moves the write count; an engine that does not run takes no command; a command with an error stops the engine
where HALT asks for it; NOP, CLIP and SIGNAL; FILL, COPY and GLYPH write each pixel of their destination; SYMBOL writes the module image; RESUME. -/
def Obligations.Drawing : Prop :=
  (∀ (s : State) (src : Fin 30) (e : Fin 2) (v : BitVec 32),
    (s.dev.Reach src.val (Reg.DRAW_Q_WR e.val) →
      let used := (v.toNat % 2 ^ 17 + 2 ^ 17 - s.dev.drawRd e.val) % 2 ^ 17
      (2 ^ s.dev.drawK e.val < used → exec (.drawQWr src e v) s = .next s) ∧
      (used ≤ 2 ^ s.dev.drawK e.val →
        Does (.drawQWr src e v) s fun d' =>
          Dev.Frame id (among [Reg.DRAW_Q_WR e.val]) s.dev d' ∧ d'.rd (Reg.DRAW_Q_WR e.val) = v.toNat % 2 ^ 17)) ∧
    (s.dev.Reach src.val (Reg.DRAW_CTRL e.val) →
      let q := s.dev.drawEng e.val
      let kept := if tb v.toNat 0 = true then q else { q with clips := [], excl := 0 }
      let body := fun (d : Dev) => { d with draw := [] }
      (q.halted = false →
        Does (.drawResume src e v) s fun d' =>
          Dev.Frame body (among [Reg.DRAW_CTRL e.val]) s.dev d' ∧ Others s.dev.draw d'.draw e.val ∧ d'.drawEng e.val = kept ∧
          d'.rd (Reg.DRAW_CTRL e.val) = v.toNat % 4) ∧
      (q.halted = true →
        Does (.drawResume src e v) s fun d' =>
          Dev.Frame body (among [Reg.DRAW_CTRL e.val, Reg.DRAW_Q_RD e.val, Reg.DRAW_EVT e.val]) s.dev d' ∧
          d'.drawEng e.val = { kept with halted := false } ∧ d'.rd (Reg.DRAW_CTRL e.val) = v.toNat % 4 ∧
          d'.rd (Reg.DRAW_Q_RD e.val) = (s.dev.drawRd e.val + 1) % 2 ^ 17))) ∧
  (∀ (s : State) (e : Fin 2), s.dev.drawState e.val ≠ 2 →
    exec (.drawNop e) s = .next s ∧ exec (.fill e) s = .next s ∧ exec (.copy e) s = .next s ∧ exec (.glyph e) s = .next s ∧
    exec (.symbol e) s = .next s ∧ exec (.clip e) s = .next s ∧ exec (.signal e) s = .next s) ∧
  (∀ (s : State) (e : Fin 2), s.dev.drawState e.val = 2 → s.dev.dataOff = false → s.dev.hasRange (s.dev.drawAt e.val) 64 = true →
    drawCheck (s.dev.drawCmd e.val) ≠ 0 → (s.dev.drawCmd e.val).getD 0 0 % 256 ≠ 4 → s.dev.bit (Reg.DRAW_CTRL e.val) 1 = true →
    Does (.drawNop e) s fun d' =>
      Dev.Frame (fun d => { d with draw := [] }) (among [Reg.DRAW_CMDS e.val, Reg.DRAW_ERRS e.val, Reg.DRAW_STATUS e.val, Reg.DRAW_EVT e.val]) s.dev d' ∧
      d'.rd (Reg.DRAW_CMDS e.val) = min (s.dev.rd (Reg.DRAW_CMDS e.val) + 1) 0xFFFFFFFF ∧
      d'.drawEng e.val = { s.dev.drawEng e.val with halted := true } ∧ d'.bit (Reg.DRAW_EVT e.val) 1 = true ∧
      d'.fld (Reg.DRAW_STATUS e.val) 16 3 = drawCheck (s.dev.drawCmd e.val) ∧
      d'.rd (Reg.DRAW_ERRS e.val) = min (s.dev.rd (Reg.DRAW_ERRS e.val) + 1) 0xFFFFFFFF) ∧
  (∀ (s : State) (e : Fin 2) (w : List Nat),
    let own := among (drawOwn e.val)
    (s.dev.DrawReady e.val 0 w → Does (.drawNop e) s fun d' => Dev.Frame id own s.dev d' ∧ s.dev.DrawDone d' e.val 0) ∧
    (s.dev.DrawReady e.val 5 w →
      Does (.clip e) s fun d' =>
        Dev.Frame (fun d => { d with draw := [] }) own s.dev d' ∧ Others s.dev.draw d'.draw e.val ∧ s.dev.DrawDone d' e.val 5 ∧
        (d'.drawEng e.val).excl = bits (w.getD 9 0) 0 4 ∧ (d'.drawEng e.val).halted = (s.dev.drawEng e.val).halted ∧
        ∀ n < 4, (d'.drawEng e.val).clips[n]? = some (bits (w.getD (1 + 2 * n) 0) 0 16, bits (w.getD (1 + 2 * n) 0) 16 16,
          bits (w.getD (2 + 2 * n) 0) 0 16, bits (w.getD (2 + 2 * n) 0) 16 16)) ∧
    (s.dev.DrawReady e.val 6 w →
      let a := (w.getD 1 0 + bits (w.getD 2 0) 0 16 * 2 ^ 32) / 4 * 4
      s.dev.Open a 4 →
      Does (.signal e) s fun d' =>
        Dev.FrameAt id own a 4 s.dev d' ∧ s.dev.DrawDone d' e.val 6 ∧
        (∀ k < 4, s.dev.inRing (a + k) = false → d'.byte (a + k) = BitVec.ofNat 8 (w.getD 3 0 / 256 ^ k)) ∧
        (tb (w.getD 11 0) 0 = true → d'.bit (Reg.DRAW_EVT e.val) 0 = true))) ∧
  (∀ (s : State) (e : Fin 2) (w : List Nat),
    let own := among (drawOwn e.val)
    let w0 := w.getD 0 0
    let dst := surfOf w 1
    let src := surfOf w 6
    let n := dst.bytes
    let colour := fun (c : Nat) => [e8 (bits c 0 8), e8 (bits c 8 8), e8 (bits c 16 8), e8 (bits c 24 8)]
    -- a pixel holds colour `c`; the unused byte of an xRGB pixel is open
    let holds := fun (d' : Dev) (x y c : Nat) =>
      ∃ k < 256, ∀ i < n, s.dev.inRing (dst.addr x y + i) = false →
        d'.byte (dst.addr x y + i) = BitVec.ofNat 8 (packPx dst.fmt (colour c) k / 256 ^ i)
    bits w0 8 4 = 0 → tb w0 16 = false →
    (s.dev.DrawReady e.val 1 w →
      let bw := bits (w.getD 5 0) 0 16
      let bh := bits (w.getD 5 0) 16 16
      s.dev.SurfOpen dst dst.x dst.y bw bh →
      Does (.fill e) s fun d' =>
        Dev.FrameAt id own (dst.addr dst.x dst.y) (dst.stride * (bh - 1) + bw * n) s.dev d' ∧ s.dev.DrawDone d' e.val 1 ∧
        ∀ i < bw, ∀ j < bh, holds d' (dst.x + i) (dst.y + j) (w.getD 11 0)) ∧
    (s.dev.DrawReady e.val 2 w →
      let x := bits (w.getD 9 0) 0 16
      let y := bits (w.getD 9 0) 16 16
      let sw := bits (w.getD 10 0) 0 16
      let sh := bits (w.getD 10 0) 16 16
      bits w0 12 4 = 0 → dst.fmt = 2 → src.fmt = 2 → s.dev.SurfOpen dst dst.x dst.y sw sh → s.dev.SurfOpen src x y sw sh →
      s.dev.drawMeets e.val w 1 1 = false →
      Does (.copy e) s fun d' =>
        Dev.FrameAt id own (dst.addr dst.x dst.y) (dst.stride * (sh - 1) + sw) s.dev d' ∧ s.dev.DrawDone d' e.val 2 ∧
        ∀ i < sw, ∀ j < sh, s.dev.inRing (dst.addr (dst.x + i) (dst.y + j)) = false →
          d'.byte (dst.addr (dst.x + i) (dst.y + j)) = s.dev.byte (src.addr (x + i) (y + j))) ∧
    (s.dev.DrawReady e.val 3 w →
      let x := bits (w.getD 9 0) 0 16
      let y := bits (w.getD 9 0) 16 16
      let sw := bits (w.getD 10 0) 0 16
      let sh := bits (w.getD 10 0) 16 16
      let kx := bits (w.getD 13 0) 0 8 + 1
      let ky := bits (w.getD 13 0) 8 8 + 1
      bits w0 12 4 = 0 → bits (w.getD 13 0) 16 3 = 0 → s.dev.SurfOpen dst dst.x dst.y (kx * sw) (ky * sh) →
      (∀ i < sw, ∀ j < sh, s.dev.hasRange (src.addr (x + i) (y + j)) 1 = true ∧ regionOf (src.addr (x + i) (y + j)) = .isram) →
      s.dev.drawMeets e.val w kx ky = false →
      Does (.glyph e) s fun d' =>
        Dev.FrameAt id own (dst.addr dst.x dst.y) (dst.stride * (ky * sh - 1) + kx * sw * n) s.dev d' ∧ s.dev.DrawDone d' e.val 3 ∧
        ∀ i < sw, ∀ j < sh, ∀ u < kx, ∀ v < ky,
          holds d' (dst.x + kx * i + u) (dst.y + ky * j + v)
            (if tb (s.dev.byte (src.addr (x + i) (y + j))).toNat (7 - (x + i) % 8) = true then w.getD 11 0 else w.getD 12 0))) ∧
  (∀ (s : State) (e : Fin 2) (w : List Nat), s.dev.DrawReady e.val 4 w →
    let dst := surfOf w 1
    let a := w.getD 6 0 + bits (w.getD 7 0) 0 16 * 2 ^ 32
    let n := bits (w.getD 8 0) 0 8
    let sym := bits (w.getD 11 0) 0 2
    s.dev.hasRange a (max 1 n) = true →
    (∀ c, symbolOf sym (tb (w.getD 11 0) 2) (s.dev.memRead a n) = .error c → 0 < c → c < 8 → s.dev.bit (Reg.DRAW_CTRL e.val) 1 = true →
      Does (.symbol e) s fun d' =>
        Dev.Frame (fun d => { d with draw := [] })
          (among [Reg.DRAW_SYM_SIZE e.val, Reg.DRAW_CMDS e.val, Reg.DRAW_ERRS e.val, Reg.DRAW_STATUS e.val, Reg.DRAW_EVT e.val]) s.dev d' ∧
        (d'.drawEng e.val).halted = true ∧ d'.rd (Reg.DRAW_SYM_SIZE e.val) = 0 ∧ d'.fld (Reg.DRAW_STATUS e.val) 16 3 = c) ∧
    (∀ rows, symbolOf sym (tb (w.getD 11 0) 2) (s.dev.memRead a n) = .image rows →
      let img := quietZone sym (bits (w.getD 11 0) 12 4) rows
      let wid := (img.headD []).length
      let line := (wid + 7) / 8
      (∀ l ∈ img, l.length = wid) → 0 < wid → wid < 2 ^ 16 → 0 < img.length → img.length < 2 ^ 16 → line ≤ dst.stride →
      s.dev.Open dst.base (dst.stride * (img.length - 1) + line) → (a + n ≤ dst.base ∨ dst.base + dst.stride * img.length ≤ a) →
      Does (.symbol e) s fun d' =>
        Dev.FrameAt id (among (Reg.DRAW_SYM_SIZE e.val :: drawOwn e.val)) dst.base (dst.stride * (img.length - 1) + line) s.dev d' ∧
        s.dev.DrawDone d' e.val 4 ∧ d'.rd (Reg.DRAW_SYM_SIZE e.val) = wid + img.length * 2 ^ 16 ∧
        ∀ x < wid, ∀ y < img.length, s.dev.inRing (dst.base + dst.stride * y + x / 8) = false →
          tb (d'.byte (dst.base + dst.stride * y + x / 8)).toNat (7 - x % 8) = (img.getD y []).getD x false))

/-- Raster out ports: a swath start is refused or accepted with PRINT_ACK; TIME frames; STATUS frames, which bring the port up; a due line is sent
with BEGIN and END as needed; loss and lock loss end the swaths and return the port to TRAIN; threshold loads. -/
def Obligations.RasterPorts : Prop :=
  (∀ (s : State) (bs : List Byte),
    let x := nats bs
    let n := leAt x 6 1 % 8
    let q := s.dev.rport n
    let p := s.dev.fld (Reg.RASTER_CFG n) 10 3
    let st := s.dev.stemEnd 1
    s.dev.dataOff = false →
    ((s.dev.rasState n ≠ 2 ∨ s.dev.rasValid n = false ∨ 2 ≤ q.swaths.length) →
      Does (.swathStart bs) s fun d' =>
        Dev.Frame id (among [Reg.RASTER_REFUSED n, Reg.RASTER_EVT n]) s.dev d' ∧ d'.bit (Reg.RASTER_EVT n) 4 = true ∧
        d'.rd (Reg.RASTER_REFUSED n) = min (s.dev.rd (Reg.RASTER_REFUSED n) + 1) 0xFFFFFFFF) ∧
    (s.dev.rasState n = 2 → s.dev.rasValid n = true → q.swaths.length < 2 → s.dev.bit (Reg.RASTER_CFG n) 16 = false →
      (s.dev.pipe p).frame.isSome = true → (s.dev.pipe p).queue.length < 2 → s.dev.stemUp = true → st.retry.length < 64 → st.queue = [] →
      Does (.swathStart bs) s fun d' =>
        Dev.Frame (fun d => { d with ras := [], pipes := [], stem := [] }) (among []) s.dev d' ∧ Others s.dev.ras d'.ras n ∧
        Others s.dev.pipes d'.pipes p ∧ Others s.dev.stem d'.stem 1 ∧
        (∃ w, d'.rport n = { q with swaths := q.swaths ++ [w], seq := (q.seq + 1) % 65536 } ∧ w.id = leAt x 0 4 ∧ w.slot = leAt x 4 2 ∧
          w.that = leAt x 8 8 ∧ w.pjob = leAt x 24 4 ∧ w.beam = bits (leAt x 16 8) 48 3 ∧ w.seq = q.seq ∧ w.k = 0 ∧ w.begun = false) ∧
        d'.pipe p = { s.dev.pipe p with queue := (s.dev.pipe p).queue ++ [⟨leAt x 0 4, leAt x 4 2, leAt x 24 4, n, q.seq⟩] } ∧
        d'.stemEnd 1 = { st with
          txSeq := (st.txSeq + 1) % 4096, owed := (d'.stemEnd 1).owed,
          retry := st.retry ++ [⟨st.txSeq, 2, leAt x 4 2 % 65536 * 2 ^ 26,
            leBytes 4 (leAt x 0 4) ++ [3, 0, 0, 0] ++ leBytes 8 0 ++ leBytes 8 (leAt x 8 8) ++ leBytes 8 0⟩] })) ∧
  (∀ (s : State) (n : Fin 8),
    let q := s.dev.rport n.val
    (s.dev.rasState n.val ≠ 1 → s.dev.rasState n.val ≠ 2 → exec (.timeFrame n) s = .next s) ∧
    (∀ t, q.timeAt = some t → s.dev.lt / 100000 ≤ t / 100000 → exec (.timeFrame n) s = .next s) ∧
    ((s.dev.rasState n.val = 1 ∨ s.dev.rasState n.val = 2) → s.dev.dataOff = false →
      (∀ t, q.timeAt = some t → t / 100000 < s.dev.lt / 100000) →
      let bs := [1, 1] ++ leBytes 2 (s.dev.fld (Reg.RASTER_LINK n.val) 0 16) ++ [0, 0, 0, 0] ++ leBytes 8 s.dev.lt ++ List.replicate 16 0
      Does (.timeFrame n) s fun d' =>
        Dev.Frame (fun d => { d with ras := [] }) (among []) s.dev d' ∧ Others s.dev.ras d'.ras n.val ∧
        d'.rport n.val = { q with timeAt := some s.dev.lt, answered := false } ∧
        d'.sent = s.dev.sent ++ [.raster n.val 1 (bs ++ leBytes 4 (fcs bs)) (frameBlocks (bs ++ leBytes 4 (fcs bs)))])) ∧
  (∀ (s : State) (n : Fin 8) (start : BitVec 64) (blocks : List (BitVec 66)),
    let q := s.dev.rport n.val
    let all := blocks.map BitVec.toNat
    let got := readFrame (laneState (all.headD 0)) (all.drop 1)
    let x := got.getD []
    let own := among [Reg.RASTER_CRC_ERR n.val, Reg.RASTER_LINK n.val, Reg.RASTER_HEAD_ERR n.val, Reg.RASTER_STATUS n.val, Reg.RASTER_EVT n.val]
    let body := fun (d : Dev) => { d with ras := [] }
    let broken := got = none ∨ x.length ≠ 36 ∨ fcs (x.take 32) ≠ leAt x 32 4
    (s.dev.rasState n.val = 1 ∨ s.dev.rasState n.val = 2) → s.dev.dataOff = false →
    (broken →
      Does (.statusFrame n start blocks) s fun d' =>
        Dev.Frame body own s.dev d' ∧ Others s.dev.ras d'.ras n.val ∧ d'.rport n.val = { q with good := 0 } ∧
        d'.rd (Reg.RASTER_CRC_ERR n.val) = min (s.dev.rd (Reg.RASTER_CRC_ERR n.val) + 1) 0xFFFFFFFF) ∧
    (¬ broken → leAt x 0 1 ≠ 9 → exec (.statusFrame n start blocks) s = .next s) ∧
    (¬ broken → leAt x 0 1 = 9 → tb (leAt x 18 1) 0 = false →
      Does (.statusFrame n start blocks) s fun d' =>
        Dev.Frame body own s.dev d' ∧ Others s.dev.ras d'.ras n.val ∧
        d'.rport n.val = { q with good := q.good + 1, lastGood := s.dev.lt, answered := true } ∧ d'.rd (Reg.RASTER_HEAD_ERR n.val) = leAt x 12 4 ∧
        (∀ t, q.timeAt = some t → q.answered = false →
          d'.fld (Reg.RASTER_LINK n.val) 0 16 = min 65535 ((start.toNat - t - leAt x 2 2) / 2) ∧
          d'.fld (Reg.RASTER_LINK n.val) 16 16 = leAt x 2 2) ∧
        (q.answered = true → d'.rd (Reg.RASTER_LINK n.val) = s.dev.rd (Reg.RASTER_LINK n.val)) ∧
        (s.dev.rasState n.val = 1 → 8 ≤ q.good + 1 → d'.rasState n.val = 2 ∧ d'.bit (Reg.RASTER_EVT n.val) 0 = true) ∧
        (s.dev.rasState n.val = 2 ∨ q.good + 1 < 8 → d'.rasState n.val = s.dev.rasState n.val))) ∧
  (∀ (s : State) (n : Fin 8) (w : Swath) (fire : Nat),
    let q := s.dev.rport n.val
    let oh := s.dev.swathLines n.val
    let est := tget s.dev.est (8 + w.beam)
    let now := s.dev.estAt 1 w.beam s.dev.lt
    let front := if 0 < distL (s.dev.fpf w.beam) (w.front.getD now) now then now else w.front.getD now
    let head := [3, 0] ++ leBytes 2 w.seq ++ leBytes 2 w.k ++ [b2n (w.k + 1 == oh) * 2, 0] ++ leBytes 8 fire ++ List.replicate 16 0
    let first := [2, s.dev.rasPlanes n.val - 1 + (s.dev.rasBits n.val - 1) * 8] ++ leBytes 2 w.seq ++ leBytes 4 w.id ++ leBytes 4 w.pjob ++
      leBytes 2 (s.dev.rasNozzles n.val) ++ leBytes 2 oh ++ leBytes 8 w.that ++ List.replicate 8 0
    let frame := fun (ty : Nat) (bs : List Nat) => Emit.raster n.val ty (bs ++ leBytes 4 (fcs bs)) (frameBlocks (bs ++ leBytes 4 (fcs bs)))
    let size := s.dev.rasPlanes n.val * ((s.dev.rasNozzles n.val * s.dev.rasBits n.val + 7) / 8)
    s.dev.rasState n.val = 2 → s.dev.dataOff = false → q.swaths = [w] → q.ends = [] → w.k < oh → est.got = true →
    s.dev.lt ≤ est.last.lt + 2000 → 0 < distL (s.dev.fpf w.beam) front (s.dev.lineAt n.val w w.k) →
    s.dev.reachIn w.beam (s.dev.lineAt n.val w w.k) (s.dev.rasLead n.val) = some fire →
    (∀ t, q.lastFire = some t → t + s.dev.rasMinper n.val ≤ fire) → w.k < w.got0.length → s.dev.bit (Reg.RASTER_CFG n.val) 16 = false →
    Does (.lineFrame n) s fun d' =>
      Dev.Frame (fun d => { d with ras := [] }) (among [Reg.RASTER_LINES n.val, Reg.RASTER_SWATHS n.val]) s.dev d' ∧
      Others s.dev.ras d'.ras n.val ∧ d'.rd (Reg.RASTER_LINES n.val) = min (s.dev.rd (Reg.RASTER_LINES n.val) + 1) 0xFFFFFFFF ∧
      (∃ img : List Nat, img.length = size ∧
        d'.sent = s.dev.sent ++ (if w.begun = true then [] else [frame 2 first]) ++ [frame 3 (head ++ img)] ++
          (if w.k + 1 = oh then [frame 4 ([4, 0] ++ leBytes 2 w.seq ++ leBytes 2 (w.sent + 1) ++ leBytes 2 w.skipped ++ List.replicate 24 0)]
            else [])) ∧ (d'.rport n.val).lastFire = some fire ∧
      (w.k + 1 < oh → ∃ w', (d'.rport n.val).swaths = [w'] ∧ w'.k = w.k + 1 ∧ w'.begun = true ∧ w'.fire = some fire ∧ w'.sent = w.sent + 1 ∧
        w'.front = some front ∧ w'.seq = w.seq) ∧
      (w.k + 1 = oh → (d'.rport n.val).swaths = [] ∧ (d'.rport n.val).ends = [(w.slot, w.id, w.that, fire)])) ∧
  (∀ (s : State) (n : Fin 8),
    let q := s.dev.rport n.val
    let late := q.lastGood + 1000 * max 1 (s.dev.fld (Reg.RASTER_LOSS n.val) 0 16) ≤ s.dev.lt
    let down := fun (d' : Dev) =>
      Dev.Frame (fun d => { d with ras := [], stem := [] }) (among [Reg.RASTER_STATUS n.val, Reg.RASTER_EVT n.val, Reg.RASTER_SWATHS n.val]) s.dev d' ∧
      Others s.dev.ras d'.ras n.val ∧ d'.rport n.val = { q with swaths := [], good := 0 } ∧ d'.rasState n.val = 1 ∧
      d'.bit (Reg.RASTER_EVT n.val) 1 = true ∧
      (q.swaths ≠ [] →
        d'.rd (Reg.RASTER_SWATHS n.val) = min (s.dev.rd (Reg.RASTER_SWATHS n.val) + q.swaths.length) 0xFFFFFFFF)
    (s.dev.rasState n.val ≠ 2 ∨ ¬ late → exec (.rasterLoss n) s = .next s) ∧
    (s.dev.rasState n.val ≠ 2 → exec (.rasterLaneLockLoss n) s = .next s) ∧
    (s.dev.rasState n.val = 2 → late → Does (.rasterLoss n) s down) ∧ (s.dev.rasState n.val = 2 → Does (.rasterLaneLockLoss n) s down)) ∧
  (∀ (s : State) (n : Fin 8),
    let q := s.dev.rport n.val
    let body := fun (d : Dev) => { d with ras := [] }
    let own := among [Reg.RASTER_TLOAD_STATUS n.val, Reg.RASTER_EVT n.val]
    (∀ (src : Fin 30) (v : BitVec 32), s.dev.Reach src.val (Reg.RASTER_TLOAD n.val) →
      (q.load.isSome = true → exec (.rasterTload src n v) s = .next s) ∧
      (q.load = none →
        Does (.rasterTload src n v) s fun d' =>
          Dev.Frame body own s.dev d' ∧ Others s.dev.ras d'.ras n.val ∧ d'.bit (Reg.RASTER_TLOAD_STATUS n.val) 0 = true ∧
          d'.rport n.val = { q with
            load := some (bits v.toNat 0 3, bits v.toNat 4 1, s.dev.fld (Reg.RASTER_TLOAD_SRC n.val) 3 45 * 8) })) ∧
    (∀ plane bank src, q.load = some (plane, bank, src) → s.dev.hasRange src 8192 = true → s.dev.dataOff = false →
      let bs := s.dev.memRead src 8192
      Does (.tloadDone true n) s fun d' =>
        Dev.Frame body own s.dev d' ∧ Others s.dev.ras d'.ras n.val ∧
        d'.rport n.val = { q with load := none, banks := tput q.banks (2 * plane + bank) bs } ∧
        d'.rd (Reg.RASTER_TLOAD_STATUS n.val) = crc32c bs % 65536 * 65536 ∧ d'.bit (Reg.RASTER_EVT n.val) 6 = true))

/-- Display ports: hot-plug events, link training and its failure, PSR entry and exit, selective updates and AUX transactions. -/
def Obligations.DisplayPorts : Prop :=
  (∀ (s : State) (p : Fin 3) (rate : BitVec 4) (lanes : BitVec 3) (psr psr2 : Bool),
    let q := s.dev.dsp p.val
    let on := s.dev.bit (Reg.DISP_CFG p.val) 31 = true ∧ s.dev.dispState p.val ≠ 6
    let st := s.dev.dispState p.val
    let heard := fun (d' : Dev) =>
      Dev.Frame (fun d => { d with disp := [] }) (among [Reg.DISP_STATUS p.val, Reg.DISP_EVT p.val]) s.dev d' ∧
      Others s.dev.disp d'.disp p.val ∧ d'.bit (Reg.DISP_EVT p.val) 1 = true
    (Does (.hpd p 0 rate lanes psr psr2) s fun d' =>
      heard d' ∧ d'.bit (Reg.DISP_STATUS p.val) 12 = false ∧ d'.dsp p.val = default ∧
      (on → d'.dispState p.val = 1 ∧ d'.fld (Reg.DISP_STATUS p.val) 6 6 = 0) ∧ (¬ on → d'.dispState p.val = st)) ∧
    (Does (.hpd p 1 rate lanes psr psr2) s fun d' =>
      heard d' ∧ d'.bit (Reg.DISP_STATUS p.val) 12 = true ∧
      d'.dsp p.val = { q with
        rate := rate.toNat, lanes := min 2 lanes.toNat, psr := psr && p == 2, psr2 := psr2 && p == 2, retryAt := none,
        su := (if on ∧ (st = 4 ∨ st = 5) then none else q.su), entering := (if on ∧ (st = 4 ∨ st = 5) then 0 else q.entering) } ∧
      (on → d'.dispState p.val = 2) ∧ (¬ on → d'.dispState p.val = st)) ∧
    (∀ kind : Fin 4, 2 ≤ kind.val →
      Does (.hpd p kind rate lanes psr psr2) s fun d' =>
        heard d' ∧
        ((st = 4 ∨ st = 5) → d'.bit (Reg.DISP_EVT p.val) 5 = true ∧ d'.dsp p.val = { q with su := none, entering := 0 } ∧
          (kind.val = 3 → d'.dispState p.val = 3)) ∧
        (kind.val = 2 → on → 3 ≤ st → st ≤ 5 → d'.dispState p.val = 2) ∧ (st < 3 → d'.dispState p.val = st))) ∧
  (∀ (s : State) (p : Fin 3) (rate : BitVec 4) (lanes : BitVec 3),
    let c := s.dev.rd (Reg.DISP_CFG p.val)
    let waits := ∃ t, (s.dev.dsp p.val).retryAt = some t ∧ s.dev.lt < t
    let fits := dispRate rate.toNat ≤ min (dispRate (bits c 10 3)) (dispRate (s.dev.dsp p.val).rate) ∧
      lanes.toNat ≤ min (min 2 (bits c 8 2)) (s.dev.dsp p.val).lanes
    (s.dev.dispState p.val ≠ 2 ∨ waits ∨ ¬ fits → exec (.displayLinkTrained p rate lanes) s = .next s) ∧
    (s.dev.dispState p.val = 2 → ¬ waits → fits →
      Does (.displayLinkTrained p rate lanes) s fun d' =>
        Dev.Frame id (among [Reg.DISP_STATUS p.val]) s.dev d' ∧
        (s.dev.dispCarries p.val rate.toNat (dispLanes lanes.toNat) = false → d'.dispState p.val = 6) ∧
        (s.dev.dispCarries p.val rate.toNat (dispLanes lanes.toNat) = true → d'.dispState p.val = 3 ∧
          d'.fld (Reg.DISP_STATUS p.val) 6 2 = lanes.toNat ∧ d'.fld (Reg.DISP_STATUS p.val) 8 4 = rate.toNat)) ∧
    (s.dev.dispState p.val ≠ 2 ∨ waits → exec (.trainFail p) s = .next s) ∧
    (s.dev.dispState p.val = 2 → ¬ waits →
      Does (.trainFail p) s fun d' =>
        Dev.Frame (fun d => { d with disp := [] }) (among [Reg.DISP_TRAIN_FAIL p.val, Reg.DISP_EVT p.val]) s.dev d' ∧
        d'.dsp p.val = { s.dev.dsp p.val with retryAt := some (s.dev.lt + 100000000) } ∧ Others s.dev.disp d'.disp p.val ∧
        d'.bit (Reg.DISP_EVT p.val) 3 = true ∧
        d'.rd (Reg.DISP_TRAIN_FAIL p.val) = min (s.dev.rd (Reg.DISP_TRAIN_FAIL p.val) + 1) 0xFFFFFFFF)) ∧
  (∀ (s : State) (src : Fin 30) (v : BitVec 32), s.dev.Reach src.val (Reg.DISP_PSR 2) →
    let q := s.dev.dsp 2
    let st := s.dev.dispState 2
    let body := fun (d : Dev) => { d with disp := [] }
    let own := among [Reg.DISP_PSR 2, Reg.DISP_STATUS 2, Reg.DISP_EVT 2]
    let stored := fun (d' : Dev) =>
      Dev.Frame body own s.dev d' ∧ d'.fld (Reg.DISP_PSR 2) 0 3 = bits v.toNat 0 3 ∧ Others s.dev.disp d'.disp 2
    (tb v.toNat 5 = false → q.psr = false →
      Does (.psrEnter src v) s fun d' => stored d' ∧ d'.bit (Reg.DISP_EVT 2) 6 = true ∧ d'.dsp 2 = q ∧ d'.dispState 2 = st) ∧
    (tb v.toNat 5 = false → q.psr = true → tb v.toNat 0 = true → st = 3 →
      Does (.psrEnter src v) s fun d' => stored d' ∧ d'.dsp 2 = { q with entering := 1 } ∧ d'.dispState 2 = st) ∧
    (tb v.toNat 4 = false → (st = 4 ∨ st = 5) →
      Does (.psrExit src v) s fun d' =>
        stored d' ∧ d'.dispState 2 = 3 ∧ d'.dsp 2 = { q with su := none, entering := 0 } ∧ d'.bit (Reg.DISP_EVT 2) 5 = true) ∧
    (tb v.toNat 4 = false → st ≠ 4 → st ≠ 5 → Does (.psrExit src v) s fun d' => stored d' ∧ d'.dsp 2 = q ∧ d'.dispState 2 = st)) ∧
  (∀ (s : State) (src : Fin 30) (p : Fin 3) (v : BitVec 32), s.dev.Reach src.val (Reg.DISP_SU p.val) →
    (p.val ≠ 2 → exec (.dispSu src p v) s = .next s) ∧
    (p.val = 2 →
      Does (.dispSu src p v) s fun d' =>
        Dev.Frame (fun d => { d with disp := [] }) (among [Reg.DISP_SU 2]) s.dev d' ∧ Others s.dev.disp d'.disp 2 ∧
        d'.fld (Reg.DISP_SU 2) 0 13 = bits v.toNat 0 13 ∧ d'.fld (Reg.DISP_SU 2) 16 13 = bits v.toNat 16 13 ∧
        (s.dev.dispState 2 = 5 → d'.dsp 2 = { s.dev.dsp 2 with su := some (bits v.toNat 0 13, bits v.toNat 16 13) }) ∧
        (s.dev.dispState 2 ≠ 5 → d'.dsp 2 = s.dev.dsp 2))) ∧
  (∀ (s : State) (src : Fin 30) (p : Fin 3) (v : BitVec 32), s.dev.Reach src.val (Reg.DISP_AUX_CMD p.val) →
    (s.dev.bit (Reg.DISP_AUX_STATUS p.val) 0 = true → exec (.dispAuxCmd src p v) s = .next s) ∧
    (s.dev.bit (Reg.DISP_AUX_STATUS p.val) 0 = false →
      Does (.dispAuxCmd src p v) s fun d' =>
        Dev.Frame id (among [Reg.DISP_AUX_STATUS p.val, Reg.DISP_AUX_CMD p.val]) s.dev d' ∧ d'.rd (Reg.DISP_AUX_STATUS p.val) = 1 ∧
        ∃ data, d'.sent = s.dev.sent ++ [.aux p.val ([v.toNat % 2 ^ 26] ++ data)] ∧
          data.length = if tb v.toNat 24 = true then 0 else bits v.toNat 20 4 + 1)) ∧
  (∀ (s : State) (p : Fin 3) (outcome : Fin 4) (bs : List Byte),
    let own := among [Reg.DISP_AUX_STATUS p.val, Reg.DISP_EVT p.val, Reg.DISP_AUX_DATA p.val 0, Reg.DISP_AUX_DATA p.val 1,
      Reg.DISP_AUX_DATA p.val 2, Reg.DISP_AUX_DATA p.val 3]
    let taken := fun (i : Nat) => outcome.val = 0 ∧ s.dev.bit (Reg.DISP_AUX_CMD p.val) 24 = true ∧ i < bs.length ∧
      i ≤ s.dev.fld (Reg.DISP_AUX_CMD p.val) 20 4
    (s.dev.bit (Reg.DISP_AUX_STATUS p.val) 0 = false → exec (.auxDone p outcome bs) s = .next s) ∧
    (s.dev.bit (Reg.DISP_AUX_STATUS p.val) 0 = true →
      Does (.auxDone p outcome bs) s fun d' =>
        Dev.Frame id own s.dev d' ∧ d'.rd (Reg.DISP_AUX_STATUS p.val) = 2 ^ (outcome.val + 1) ∧ d'.bit (Reg.DISP_EVT p.val) 4 = true ∧
        (∀ i < 16, taken i → d'.fld (Reg.DISP_AUX_DATA p.val (i / 4)) (8 * (i % 4)) 8 = (nats bs).getD i 0) ∧
        (∀ i < 16, ¬ taken i →
          d'.fld (Reg.DISP_AUX_DATA p.val (i / 4)) (8 * (i % 4)) 8 = s.dev.fld (Reg.DISP_AUX_DATA p.val (i / 4)) (8 * (i % 4)) 8)))

/-- Audio: a frame of domain A or V computes every output of the active bank from the inputs and sends what it had; a TDM frame enters the elastic
buffer or is malformed; unlocking; keys start and release voices; a completed segment is learned band by band, or dropped. -/
def Obligations.Audio : Prop :=
  (∀ (s : State) (dom : Fin 3), s.dev.audOn dom.val = false → exec (.audioFrame dom) s = .next s) ∧
  (∀ (s : State) (dom : Fin 3),
    let q := s.dev.audDom dom.val
    let cur := fun (p : Nat) =>
      if s.dev.fld (Reg.AUD_TDMI_CFG p) 30 1 = dom.val then
        (match (tget s.dev.aud.tdm p).buf with | x :: _ => x | [] => (tget s.dev.aud.tdm p).cur)
      else (tget s.dev.aud.tdm p).cur
    dom.val < 2 → s.dev.audOn dom.val = true → q.swap = none → q.ramp = none → (∀ v < 32, (s.dev.voice v).st = 0) →
    Does (.audioFrame dom) s fun d' =>
      Dev.Frame (fun d => { d with aud := default }) (among [Reg.AUD_CLIP, Reg.AUD_SLIP, Reg.AUD_EVT]) s.dev d' ∧
      Others s.dev.aud.doms d'.aud.doms dom.val ∧ (d'.audDom dom.val).sel = q.sel ∧
      (∀ p < 4, (tget d'.aud.tdm p).cur = cur p) ∧
      (∀ p < 4, s.dev.bit (Reg.AUD_TDMO_CFG p) 31 = true → s.dev.fld (Reg.AUD_TDMO_CFG p) 30 1 = dom.val →
        tdmValid (s.dev.rd (Reg.AUD_TDMO_CFG p)) = true →
        let c := s.dev.rd (Reg.AUD_TDMO_CFG p)
        let ws := s.dev.tdmWords p q.sel q.out
        Emit.tdm p ws (if tb c 29 = true then tdmSync c else []) (tdmBits c ws) (tb c 18) ∈ d'.sent) ∧
      ∃ xs : List Int, xs.length = 96 ∧
        (∀ i < 96, (s.dev.audSrc q.sel i).2.1 ≠ dom.val → xs.getD i 0 = 0) ∧
        (∀ i < 96, ∀ p k, s.dev.audSrc q.sel i = (.tdm p k, dom.val, false) → xs.getD i 0 = (cur p).getD k 0) ∧
        (∀ i < 96, ∀ v b, s.dev.audSrc q.sel i = (.voice v, dom.val, b) → v < 32 → xs.getD i 0 = 0) ∧
        (∀ o < 48, (s.dev.audSink q.sel o).1 ≠ dom.val → tget (d'.audDom dom.val).out o = 0) ∧
        (∀ o < 48, (s.dev.audSink q.sel o).1 = dom.val →
          tget (d'.audDom dom.val).out o =
            max (-(2 ^ 23)) (min (2 ^ 23 - 1) (((((xs.zipIdx).map fun x => s.dev.audGain q.sel x.2 o * x.1).sum) + 2048) / 4096)))) ∧
  (∀ (s : State) (p : Fin 4) (clocks : BitVec 16) (words : List (BitVec 32)),
    let c := s.dev.rd (Reg.AUD_TDMI_CFG p.val)
    let dom := bits c 30 1
    let lock := if dom = 1 then Reg.AUD_DOM_V else Reg.AUD_DOM_A
    let q := tget s.dev.aud.tdm p.val
    let width := (tdmWidth c).getD 32
    let whole := tb c 29 = true ∨ clocks.toNat = tdmSlots c * (tdmWidth c).getD 32
    s.dev.audOn dom = true → tb c 31 = true → tdmValid c = true → ¬ (s.dev.bit lock 31 = true ∧ s.dev.fld lock 0 2 = p.val) → q.buf.length < 4 →
    (whole →
      Does (.tdmFrame p clocks words) s fun d' =>
        Dev.Frame (fun d => { d with aud := default }) (among []) s.dev d' ∧
        d'.aud = { s.dev.aud with tdm := tput s.dev.aud.tdm p.val { q with
          buf := q.buf ++ [((words.map BitVec.toNat).take (tdmSlots c)).map fun w =>
            if tb c 21 = true then sx 24 (w * 2 ^ 24 / 2 ^ width) else sx 16 (w * 2 ^ 16 / 2 ^ width) * 256] } }) ∧
    (¬ whole →
      Does (.tdmFrame p clocks words) s fun d' =>
        Dev.Frame (fun d => { d with aud := default }) (among [Reg.AUD_FRAME_ERR, Reg.AUD_EVT]) s.dev d' ∧ d'.bit Reg.AUD_EVT 2 = true ∧
        d'.rd Reg.AUD_FRAME_ERR = min (s.dev.rd Reg.AUD_FRAME_ERR + 1) 0xFFFFFFFF ∧
        d'.aud = { s.dev.aud with tdm := tput s.dev.aud.tdm p.val { q with buf := q.buf ++ [q.buf.getLast?.getD q.cur] } })) ∧
  (∀ (s : State) (dom : Fin 3),
    ((s.dev.audDom dom.val).locked = false → exec (.unlock dom) s = .next s) ∧
    ((s.dev.audDom dom.val).locked = true →
      Does (.unlock dom) s fun d' =>
        Dev.Frame (fun d => { d with aud := default }) (among [Reg.AUD_EVT]) s.dev d' ∧ d'.bit Reg.AUD_EVT 3 = true ∧
        d'.audDom dom.val = { s.dev.audDom dom.val with locked := false } ∧ Others s.dev.aud.doms d'.aud.doms dom.val)) ∧
  (∀ (s : State) (src : Fin 30) (m : BitVec 32), s.dev.Reach src.val Reg.AUD_KEY_ON → s.dev.Reach src.val Reg.AUD_KEY_OFF →
    (Does (.audKeyOn src m) s fun d' =>
      Dev.Frame (fun d => { d with aud := default }) (among []) s.dev d' ∧ d'.aud = { s.dev.aud with voices := d'.aud.voices } ∧
      ∀ v < 32, d'.voice v = if tb m.toNat v = true then { s.dev.voice v with st := 1, phase := 0, pos := 0 } else s.dev.voice v) ∧
    (Does (.audKeyOff src m) s fun d' =>
      Dev.Frame (fun d => { d with aud := default }) (among []) s.dev d' ∧ d'.aud = { s.dev.aud with voices := d'.aud.voices } ∧
      ∀ v < 32, d'.voice v = if tb m.toNat v = true ∧ (s.dev.voice v).st ≠ 0 then { s.dev.voice v with st := 4 } else s.dev.voice v)) ∧
  (∀ (s : State) (c : Fin 8),
    let q := s.dev.oa c.val
    let g := s.dev.rd (Reg.AUD_OA_CFG c.val)
    (q.done = none → exec (.orderAnalysisSegment c) s = .next s) ∧
    (∀ g0 f xs, q.done = some (g0, f, xs, true) → bits g 0 2 = 1 →
      Does (.orderAnalysisSegment c) s fun d' =>
        Dev.Frame (fun d => { d with aud := default }) (among [Reg.AUD_SEG_DROP, Reg.AUD_EVT]) s.dev d' ∧ d'.oa c.val = { q with done := none } ∧
        d'.bit Reg.AUD_EVT 5 = true ∧ d'.rd Reg.AUD_SEG_DROP = min (s.dev.rd Reg.AUD_SEG_DROP + 1) 0xFFFFFFFF) ∧
    (∀ k f xs, q.done = some (k, f, xs, false) → bits g 0 2 = 1 →
      let a := s.dev.fld Reg.AUD_OA_BASE 12 36 * 4096 + 4096 * c.val + 64 * k
      s.dev.Open a 64 →
      Does (.orderAnalysisSegment c) s fun d' =>
        Dev.FrameAt (fun d => { d with aud := default }) (among []) a 64 s.dev d' ∧ d'.oa c.val = { q with done := none } ∧
        ∀ b < 16,
          let band := s.dev.rd (Reg.AUD_OA_BAND b)
          let e := bandEnergy xs (bits band 0 10) (bits band 16 10)
          let mu : Int := (s.dev.num (a + 4 * b) 2 : Nat)
          let de : Int := (s.dev.num (a + 4 * b + 2) 2 : Nat)
          let sh : Int := (2 ^ (bits g 5 3 + 1) : Nat)
          let mu' := mu + ((e : Int) - mu) / sh
          d'.num (a + 4 * b) 2 = tw 16 mu' ∧
          d'.num (a + 4 * b + 2) 2 = tw 16 (de + (((((e : Int) - mu').natAbs : Nat) : Int) - de) / sh)))

/-- The memory controller and the DMA engines: training starts and ends, scrub finds an error, channels take descriptors, COPY moves and FILL writes
every byte, NOP moves nothing, a descriptor completes with its record, RESUME returns a channel to service. -/
def Obligations.MemoryAndDma : Prop :=
  (∀ (s : State) (src : Fin 30), s.dev.Reach src.val Reg.MEMC_CTRL → s.dev.dataOff = false →
    Does (.memcTrain src) s fun d' =>
      Dev.Frame (fun d => { d with memcCfg := 0 }) (fun k => among [Reg.MEMC_STATUS] k || (List.range 8).any fun c => k == Reg.MEMC_CH_STATUS c)
        s.dev d' ∧ d'.memcCfg = s.dev.rd Reg.MEMC_CFG ∧ d'.rd Reg.MEMC_STATUS = 1 ∧ ∀ c < 8, d'.rd (Reg.MEMC_CH_STATUS c) = 0) ∧
  (∀ s : State,
    (s.dev.fld Reg.MEMC_STATUS 0 2 ≠ 1 → exec .trained s = .next s) ∧
    (s.dev.fld Reg.MEMC_STATUS 0 2 = 1 → s.dev.dataOff = false → bits s.dev.memcCfg 0 2 = 3 →
      Does .trained s fun d' =>
        Dev.Frame id (among [Reg.MEMC_STATUS, Reg.MEMC_EVT]) s.dev d' ∧ d'.rd Reg.MEMC_STATUS = 0 ∧ d'.bit Reg.MEMC_EVT 1 = true) ∧
    (s.dev.fld Reg.MEMC_STATUS 0 2 = 1 → s.dev.dataOff = false → bits s.dev.memcCfg 0 2 ≠ 3 →
      Does .trained s fun d' =>
        Dev.Frame id (fun k => among [Reg.MEMC_STATUS, Reg.MEMC_EVT] k || (List.range 8).any fun c => k == Reg.MEMC_CH_STATUS c) s.dev d' ∧
        d'.fld Reg.MEMC_STATUS 0 2 = 2 ∧ d'.bit Reg.MEMC_EVT 0 = true ∧ d'.bit Reg.MEMC_STATUS 16 = tb s.dev.memcCfg 8 ∧
        ∀ c < 8, d'.fld (Reg.MEMC_CH_STATUS c) 0 8 = 0xF1)) ∧
  (∀ (s : State) (line : BitVec 31) (found : Fin 3),
    let a := line.toNat * 64
    (s.dev.bit Reg.MEMC_CFG 16 = false ∨ found.val = 0 → exec (.scrub line found) s = .next s) ∧
    (s.dev.bit Reg.MEMC_CFG 16 = true → s.dev.bit Reg.MEMC_STATUS 16 = true → a < s.dev.dramSize → s.dev.hasTarget a = true →
      (found.val = 1 →
        Does (.scrub line found) s fun d' =>
          Dev.Frame id (among [Reg.MEMC_CE_CNT, Reg.MEMC_CH_CE (dramChan a), Reg.MEMC_EVT]) s.dev d' ∧ d'.bit Reg.MEMC_EVT 2 = true ∧
          d'.rd Reg.MEMC_CE_CNT = min (s.dev.rd Reg.MEMC_CE_CNT + 1) 0xFFFFFFFF) ∧
      (found.val = 2 →
        Does (.scrub line found) s fun d' =>
          Dev.Frame id (fun k => among [Reg.MEMC_UE_CNT, Reg.MEMC_UE_ADDR, Reg.MEMC_EVT] k || logReg k) s.dev d' ∧
          d'.bit Reg.MEMC_EVT 3 = true ∧ d'.rd Reg.MEMC_UE_ADDR = a ∧
          d'.rd Reg.MEMC_UE_CNT = min (s.dev.rd Reg.MEMC_UE_CNT + 1) 0xFFFFFFFF))) ∧
  (∀ (s : State) (c : Fin 8),
    (s.dev.fld Reg.MEMC_STATUS 0 2 ≠ 2 ∨ s.dev.dataOff = true → exec (.wck2dqTracking c) s = .next s) ∧
    (s.dev.fld Reg.MEMC_STATUS 0 2 = 2 → s.dev.dataOff = false →
      Does (.wck2dqTracking c) s fun d' =>
        Dev.Frame id (among [Reg.MEMC_CH_RETRAIN c.val]) s.dev d' ∧
        d'.rd (Reg.MEMC_CH_RETRAIN c.val) = min (s.dev.rd (Reg.MEMC_CH_RETRAIN c.val) + 1) 0xFFFFFFFF)) ∧
  (∀ (s : State) (src : Fin 30) (e : Fin 3) (c : Fin 16) (v : BitVec 32),
    (s.dev.Reach src.val (dmaCh e.val c.val 0x10) →
      let n := (v.toNat % 2 ^ 17 + 2 ^ 17 - s.dev.rd (dmaCh e.val c.val 0x14) % 2 ^ 17) % 2 ^ 17
      (2 ^ s.dev.dmaK e.val c.val < n → exec (.dmaChWr src e c v) s = .next s) ∧
      (n ≤ 2 ^ s.dev.dmaK e.val c.val →
        Does (.dmaChWr src e c v) s fun d' =>
          Dev.Frame id (among [dmaCh e.val c.val 0x10]) s.dev d' ∧ d'.rd (dmaCh e.val c.val 0x10) = v.toNat % 2 ^ 17)) ∧
    (s.dev.Reach src.val (dmaCh e.val c.val 0x1C) →
      Does (.dmaResume src e c) s fun d' =>
        Dev.Frame (fun d => { d with dma := [] }) (among []) s.dev d' ∧ Others s.dev.dma d'.dma e.val ∧
        d'.dmaEng e.val = { s.dev.dmaEng e.val with halted := (s.dev.dmaEng e.val).halted.filter (· != c.val) })) ∧
  (∀ (s : State) (e : Fin 3) (c : Nat) (ws : List Nat),
    let q := s.dev.dmaEng e.val
    let w0 := ws.getD 0 0
    let len := ws.getD 1 0
    let from_ := dmaAddr ws 2
    let dest := dmaAddr ws 4
    let body := fun (d : Dev) => { d with dma := [] }
    let due := fun (d' : Dev) (st n : Nat) =>
      Others s.dev.dma d'.dma e.val ∧
      d'.dmaEng e.val = { q with
        last := (c + 1) % 16, credit := if s.dev.bit (dmaCh e.val c 0) 27 = true then q.credit.filter (· != c) else q.credit,
        busy := some (c, ws, st, n, s.dev.rd (dmaCh e.val c 0x14) % 2 ^ 17), halt := s.dev.bit (dmaCh e.val c 0) 30 }
    q.busy = none → s.dev.dmaPowered e.val = true → s.dev.dmaSelect e.val = some c → s.dev.dmaDesc e.val c = ws →
    (dmaBad ws = true → Does (.dmaNop e) s fun d' => Dev.Frame body (among []) s.dev d' ∧ (bits w0 0 4 = 2 → due d' 1 0)) ∧
    (dmaBad ws = false → bits w0 0 4 = 2 → Does (.dmaNop e) s fun d' => Dev.Frame body (among []) s.dev d' ∧ due d' 0 0) ∧
    (dmaBad ws = false → bits w0 0 4 = 1 → bits w0 5 1 = 0 → bits w0 16 5 = 0 → s.dev.Open dest len →
      e.val = 0 → s.dev.stemUp = false → exec (.dmaFill e) s = .next s) ∧
    (dmaBad ws = false → bits w0 4 2 = 0 → bits w0 16 5 = 0 → s.dev.Open dest len → (e.val = 0 → s.dev.stemUp = true) →
      (bits w0 0 4 = 1 →
        Does (.dmaFill e) s fun d' =>
          Dev.FrameAt body (among []) dest len s.dev d' ∧ due d' 0 len ∧
          ∀ j < len, d'.byte (dest + j) = BitVec.ofNat 8 ((leBytes 4 (ws.getD 2 0) ++ leBytes 4 (ws.getD 3 0)).getD (j % 8) 0)) ∧
      (bits w0 0 4 = 0 → bits w0 8 5 = 0 → s.dev.Open from_ len → (from_ + len ≤ dest ∨ dest + len ≤ from_) →
        Does (.dmaCopy e none) s fun d' =>
          Dev.FrameAt body (among []) dest len s.dev d' ∧ due d' 0 len ∧ ∀ j < len, d'.byte (dest + j) = s.dev.byte (from_ + j)))) ∧
  (∀ (s : State) (e : Fin 3), (s.dev.dmaEng e.val).busy = none → exec (.descriptorComplete e) s = .next s) ∧
  (∀ (s : State) (e : Fin 3) (c : Fin 16) (ws : List Nat) (st n rdc : Nat), (s.dev.dmaEng e.val).busy = some (c.val, ws, st, n, rdc) →
    let w0 := ws.getD 0 0
    let cr := dmaAddr ws 6 / 16 * 16
    let rd := dmaCh e.val c.val 0x14
    let cnt := dmaCh e.val c.val 0x20
    let evt := if e.val = 0 then Reg.DMAB_EVT else Reg.DMAI_EVT (e.val - 1)
    st = 0 → rdc < 2 ^ 17 →
    (tb w0 6 = false →
      Does (.descriptorComplete e) s fun d' =>
        Dev.Frame (fun d => { d with dma := [] }) (among [rd, cnt, evt]) s.dev d' ∧ Others s.dev.dma d'.dma e.val ∧
        d'.dmaEng e.val = { s.dev.dmaEng e.val with busy := none } ∧ d'.rd rd = (rdc + 1) % 2 ^ 17 ∧
        d'.rd cnt = min (s.dev.rd cnt + n) 0xFFFFFFFF ∧ (tb w0 7 = true → d'.bit evt c.val = true)) ∧
    (tb w0 6 = true → s.dev.Open cr 16 →
      Does (.descriptorComplete e) s fun d' =>
        Dev.FrameAt (fun d => { d with dma := [] }) (among [rd, cnt, evt]) cr 16 s.dev d' ∧
        d'.dmaEng e.val = { s.dev.dmaEng e.val with busy := none } ∧ d'.rd rd = (rdc + 1) % 2 ^ 17 ∧
        (tb w0 7 = false → d'.num cr 4 = (rdc + c.val * 2 ^ 24) % 2 ^ 32 ∧ d'.num (cr + 4) 4 = n % 2 ^ 32 ∧
          d'.num (cr + 8) 8 = s.dev.lt % 2 ^ 64)))

/-- Trellis links: lane lock, loss and HELLO move a port's state; a ROUTE is stored and its destination routed by the best routes known; ids are
asked for, granted and taken; SYNC and its reply give delay and offset; line beams are flooded and received; unacknowledged cells are replayed;
held cells go on or are dropped; alarms reach a collector or open a merge window, and log cells reach a collector's tail. -/
def Obligations.FabricLinks : Prop :=
  (∀ (s : State) (p : Fin 8),
    let st := s.dev.trlState p.val
    (st ≠ 1 → exec (.trellisLaneLock p) s = .next s) ∧
    (st = 1 →
      Does (.trellisLaneLock p) s fun d' =>
        Dev.Frame (fun d => { d with trl := default }) (among [Reg.TRL_PORT_STATUS p.val]) s.dev d' ∧ d'.trlState p.val = 2 ∧
        d'.fld (Reg.TRL_PORT_STATUS p.val) 4 4 = 15 ∧ d'.trlPort p.val = { s.dev.trlPort p.val with hellos := 0 }) ∧
    (st < 2 → exec (.portDown p) s = .next s) ∧
    (st = 2 →
      Does (.portDown p) s fun d' =>
        Dev.Frame (fun d => { d with trl := default }) (among [Reg.TRL_PORT_STATUS p.val, Reg.TRL_PORT_UID p.val]) s.dev d' ∧
        d'.trlState p.val = 1 ∧ d'.rd (Reg.TRL_PORT_UID p.val) = 0 ∧ d'.trlPort p.val = default ∧ Others s.dev.trl.ports d'.trl.ports p.val) ∧
    (st = 3 →
      Does (.portDown p) s fun d' =>
        Dev.Frame (fun d => { d with trl := default, nodeId := 0 }) (fun k => trlReg k || logReg k) s.dev d' ∧ d'.trlState p.val = 1 ∧
        d'.bit Reg.TRL_EVT 1 = true ∧
        d'.rd (Reg.TRL_PORT_DOWN p.val) = min (s.dev.rd (Reg.TRL_PORT_DOWN p.val) + 1) 0xFFFFFFFF)) ∧
  (∀ (s : State) (h : CellHdr) (bs : List Byte),
    let p := h.port.val
    let q := s.dev.trlPort p
    let x := nats bs
    let uid := leAt x 0 8
    let n := if uid ≠ ownUid then q.hellos + 1 else 0
    let rise := s.dev.trlState p = 2 ∧ 2 ≤ n ∧ s.dev.trlHeld = false
    cellGood h 4 0 x = true → (s.dev.trlState p = 2 ∨ s.dev.trlState p = 3) → q.window = [] → q.waiting = [] →
    Does (.hello h bs) s fun d' =>
      Dev.Frame (fun d => { d with trl := default, nodeId := 0 }) (fun k => trlReg k || logReg k) s.dev d' ∧
      d'.rd (Reg.TRL_PORT_UID p) = uid ∧ (d'.trlPort p).hellos = n ∧ (d'.trlPort p).rootSeen = leAt x 8 8 ∧
      (d'.trlPort p).hopsSeen = bits (leAt x 18 1) 0 6 ∧ (d'.trlPort p).parentSeen = leAt x 24 8 ∧
      (rise → d'.trlState p = 3 ∧ d'.bit Reg.TRL_EVT 0 = true) ∧ (¬ rise → d'.trlState p = s.dev.trlState p)) ∧
  (∀ (s : State) (h : CellHdr) (bs : List Byte),
    let p := h.port.val
    let x := nats bs
    let body := fun (d : Dev) => { d with trl := default }
    let code := fun (o : Option (Nat × Route)) => match o with | some r => r.1 + 1 | none => 0
    let dest := leAt x 0 2 % 4096
    let hops := leAt x 2 1
    let path := ((List.range 32).map fun j => leAt x (8 + 2 * j) 2 % 4096).take (hops + 1)
    let routed := fun (v : Option Route) (d' : Dev) =>
      Dev.Frame body (among []) s.dev d' ∧ (d'.trlPort p).routes = aset (s.dev.trlPort p).routes dest v ∧
      (∀ j, j ≠ p → (d'.trlPort j).routes = (s.dev.trlPort j).routes) ∧ tget d'.trl.prim dest = code (d'.nextHops dest).1 ∧
      tget d'.trl.alt dest = code (d'.nextHops dest).2 ∧ aget d'.trl.adv dest = (d'.nextHops dest).1.map Prod.snd
    s.dev.Hears h 4 1 x true → x.length = 72 →
    (tb (leAt x 0 2) 15 = false → hops < 32 → (s.dev.trl.idValid = true → s.dev.nodeId ∉ path ∧ dest ≠ s.dev.nodeId) →
      Does (.route h bs) s (routed (some ⟨hops, leAt x 4 2, path⟩))) ∧
    (tb (leAt x 0 2) 15 = true → Does (.route h bs) s (routed none))) ∧
  (∀ (s : State) (h : CellHdr) (bs : List Byte),
    let p := h.port.val
    let x := nats bs
    let d := s.dev
    let body := fun (d : Dev) => { d with trl := default }
    let uid := leAt x 0 8
    let pref := if tb (leAt x 8 2) 15 = true then some (leAt x 8 2 % 4096) else none
    let id := d.grantFor uid pref
    (d.Hears h 4 2 x true → d.isRoot = true →
      Does (.idReq h bs) s fun d' =>
        Dev.Frame body (among []) d d' ∧ aget d'.trl.uids id = some uid ∧
        d.SendsCell d' p ⟨0, 4, 3, 0, d.nodeId, 0, false, false, leBytes 8 uid ++ leBytes 2 (id + 2 ^ 15) ++ [0, 0], d.lt⟩) ∧
    (∀ up, d.Hears h 4 2 x true → d.isRoot = false → d.trl.parent = some up → 2 ≤ d.trlState up →
      Does (.idReq h bs) s fun d' =>
        Dev.Frame body (among []) d d' ∧ aget d'.trl.asked uid = some p ∧
        d.SendsCell d' up ⟨0, 4, 2, 0, 0, h.hops.toNat + 1, false, false, x, d.lt⟩) ∧
    (d.Hears h 4 3 x true → uid = ownUid → tb (leAt x 8 2) 15 = true → d.bit Reg.TRL_CFG 1 = false → d.trl.idValid = false →
      Does (.idGrant h bs) s fun d' =>
        Dev.Frame (fun d => { d with trl := default, nodeId := 0 }) (among [Reg.TRL_EVT]) d d' ∧ d'.nodeId = leAt x 8 2 % 4096 ∧
        d'.trl.idValid = true ∧ d'.bit Reg.TRL_EVT 3 = true) ∧
    (∀ down, d.Hears h 4 3 x true → uid ≠ ownUid → aget d.trl.asked uid = some down → 2 ≤ d.trlState down →
      Does (.idGrant h bs) s fun d' =>
        Dev.Frame body (among []) d d' ∧ aget d'.trl.asked uid = none ∧
        d.SendsCell d' down ⟨0, 4, 3, 0, d.nodeId, 0, false, false,
          leBytes 8 uid ++ leBytes 2 (leAt x 8 2 % 4096 + 2 ^ 15) ++ [0, 0], d.lt⟩)) ∧
  (∀ (s : State) (h : CellHdr) (bs : List Byte),
    let p := h.port.val
    let x := nats bs
    let d := s.dev
    let body := fun (d : Dev) => { d with trl := default }
    (d.bit Reg.BEAM_LT_CTRL 0 = false ∨ d.trl.parent = none ∨ d.lt < d.trl.syncAt → exec (.sync none bs) s = .next s) ∧
    (∀ up, d.bit Reg.BEAM_LT_CTRL 0 = true → d.trl.parent = some up → d.trl.syncAt ≤ d.lt → 2 ≤ d.trlState up →
      Does (.sync none bs) s fun d' =>
        Dev.Frame body (among []) d d' ∧ d'.trl.syncAt = d.lt + 10000 ∧
        d.SendsCell d' up ⟨0, 0, 0, 0, d.nodeId, 0, false, false, leBytes 8 d.lt, d.lt⟩) ∧
    (d.Hears h 0 0 x true →
      Does (.sync (some h) bs) s fun d' =>
        Dev.Frame body (among []) d d' ∧
        d.SendsCell d' p ⟨0, 0, 1, 0, d.nodeId, 0, false, false, leBytes 8 (leAt x 0 8) ++ leBytes 8 d.lt ++ leBytes 8 d.lt, d.lt⟩) ∧
    (let t1 := leAt x 0 8
     let t2 := leAt x 8 8
     let t3 := leAt x 16 8
     let delay : Int := (((d.lt : Int) - t1) - ((t3 : Int) - t2)) / 2
     let ofs : Int := (t2 : Int) - t1 - delay
     let near := -(2 + (d.trl.rootHops : Int)) ≤ ofs ∧ ofs ≤ 2 + (d.trl.rootHops : Int)
     d.Hears h 0 1 x true → d.trl.parent = some p → d.bit Reg.BEAM_LT_CTRL 0 = true → d.follows = false → d.tick.firstLock = true →
     Does (.syncReply h bs) s fun d' =>
      Dev.Frame (fun d => { d with trl := default, tick := default })
        (among [Reg.TRL_PORT_DELAY p, Reg.BEAM_LT_OFS, Reg.BEAM_LT_STATUS]) d d' ∧ d'.trl.sync = d.trl.sync + 1 ∧
      d'.tick = { d.tick with ltAdj := if 3 ≤ d.trl.sync + 1 then ofs * 100000 else d.tick.ltAdj } ∧
      d'.rd (Reg.TRL_PORT_DELAY p) = min delay.toNat 65535 ∧ d'.rd Reg.BEAM_LT_OFS = (ofs % 2 ^ 32).toNat ∧
      d'.fld Reg.BEAM_LT_STATUS 2 6 = d.trl.rootHops % 64 ∧ (d'.bit Reg.BEAM_LT_STATUS 0 = true ↔ near))) ∧
  (∀ (s : State) (k : Fin 64),
    let e := s.dev.rd (Reg.TRL_LB_EXP k.val)
    (tb e 31 = false ∨ s.dev.lt < tget s.dev.trl.lbNext k.val → exec (.lbeam k) s = .next s) ∧
    (tb e 31 = true → tget s.dev.trl.lbNext k.val ≤ s.dev.lt →
      Does (.lbeam k) s fun d' =>
        Dev.Frame (fun d => { d with trl := default }) (among []) s.dev d' ∧
        d'.trl.lbNext = tput s.dev.trl.lbNext k.val (s.dev.lt + max 1000 (s.dev.fld Reg.TRL_LB_PERIOD 0 16)) ∧
        d'.sent = s.dev.sent ++ ((List.range 8).filter fun p => s.dev.trlTree p).map fun p =>
          d'.cellEmit p ⟨0, 0, 2, 0, s.dev.nodeId, 0, true, false, [k.val, 0, 0, 0] ++ (s.dev.record (bits e 0 3) 0).bytes, s.dev.lt⟩)) ∧
  (∀ (s : State) (h : CellHdr) (bs : List Byte),
    let p := h.port.val
    let k := leAt (nats bs) 0 1 % 64
    let r := recOfBytes ((nats bs).drop 4)
    let flooded := fun (d' : Dev) =>
      d'.sent = s.dev.sent ++ ((List.range 8).filter fun x => s.dev.trlTree x && x != p).map fun x =>
        d'.cellEmit x ⟨0, 0, 2, h.dst.toNat, h.src.toNat, h.hops.toNat + 1, true, h.alt, nats bs, s.dev.lt⟩
    cellGood h 0 2 (nats bs) = true → s.dev.trlState p = 3 → (s.dev.trlPort p).window = [] → (s.dev.trlPort p).waiting = [] → h.tree = true →
    h.hops.toNat < 32 →
    (∀ n r0 t0, aget s.dev.trl.lbeam k = some (n, r0, t0) → n < h.src.toNat → s.dev.lt < t0 + 131070 →
      Does (.lbeamReceive h bs) s fun d' =>
        Dev.Frame (fun d => { d with trl := default }) (among [Reg.TRL_EVT]) s.dev d' ∧ d'.bit Reg.TRL_EVT 10 = true ∧
        d'.trl.lbeam = s.dev.trl.lbeam ∧ flooded d') ∧
    ((aget s.dev.trl.lbeam k = none ∨ ∃ r0 t0, aget s.dev.trl.lbeam k = some (h.src.toNat, r0, t0)) →
    Does (.lbeamReceive h bs) s fun d' =>
      Dev.Frame (fun d => { d with trl := default, est := [], beams := [] }) (among []) s.dev d' ∧
      aget d'.trl.lbeam k = some (h.src.toNat, r, s.dev.lt) ∧ Others s.dev.est d'.est (16 + k) ∧ (tget d'.est (16 + k)).last = r ∧ flooded d' ∧
      ∀ b < 8, d'.beam b = if s.dev.fld (Reg.BEAM_CTRL b) 1 3 = 2 ∧ s.dev.fld (Reg.BEAM_SRC_SEL b) 0 6 = k then
        { s.dev.beam b with lossTicks := 0 } else s.dev.beam b)) ∧
  (∀ (s : State) (p : Fin 8),
    let q := s.dev.trlPort p.val
    (q.window = [] → exec (.cellReplay p) s = .next s) ∧
    (∀ c t, q.window = c :: t → s.dev.lt < c.at0 + 1000 ∨ s.dev.trlUp p.val = false → exec (.cellReplay p) s = .next s) ∧
    (∀ c t, q.window = c :: t → c.at0 + 1000 ≤ s.dev.lt → s.dev.trlUp p.val = true →
      Does (.cellReplay p) s fun d' =>
        Dev.Frame (fun d => { d with trl := default }) (among [Reg.TRL_PORT_REPLAY p.val]) s.dev d' ∧
        d'.trlPort p.val = { q with
          window := q.window.map fun c => { c with at0 := s.dev.lt }
          sentAt := s.dev.lt, bytes := q.bytes + (q.window.map fun c => 16 + c.payload.length).sum } ∧
        Others s.dev.trl.ports d'.trl.ports p.val ∧
        d'.sent = s.dev.sent ++ q.window.map (fun c => d'.cellEmit p.val c) ∧
        d'.rd (Reg.TRL_PORT_REPLAY p.val) = min (s.dev.rd (Reg.TRL_PORT_REPLAY p.val) + 1) 0xFFFFFFFF)) ∧
  (∀ s : State, s.dev.trl.held = [] → exec .unreachableHoldExpiry s = .next s) ∧
  (∀ (s : State) (c : Cell) (t : List Cell), s.dev.trl.held = c :: t →
    (s.dev.lt < c.at0 + 1000000 → exec .unreachableHoldExpiry s = .next s) ∧
    (c.at0 + 1000000 ≤ s.dev.lt → tget s.dev.trl.prim c.dst = 0 → tget s.dev.trl.alt c.dst = 0 → c.cls ≠ 1 →
      Does .unreachableHoldExpiry s fun d' =>
        Dev.Frame (fun d => { d with trl := default }) (among []) s.dev d' ∧ d'.trl = { s.dev.trl with held := t } ∧ d'.sent = s.dev.sent) ∧
    (∀ p, c.at0 + 1000000 ≤ s.dev.lt → tget s.dev.trl.prim c.dst = p + 1 → (s.dev.trlPort p).window.length < 64 → relClass c.cls = true →
      2 ≤ s.dev.trlState p →
      Does .unreachableHoldExpiry s fun d' =>
        Dev.Frame (fun d => { d with trl := default }) (among []) s.dev d' ∧ d'.trl.held = t ∧
        s.dev.SendsCell d' p { c with seq := (s.dev.trlPort p).txSeq })) ∧
  (∀ (s : State) (h : CellHdr) (bs : List Byte), s.dev.Hears h 1 0 (nats bs) false → s.dev.bit Reg.LOG_CFG 1 = true →
    let x := nats bs
    let subject := leAt x 0 2 % 4096
    Does (.alarm h bs) s fun d' =>
      Dev.Frame (fun d => { d with trl := default }) logReg s.dev d' ∧ d'.bit Reg.LOG_EVT 0 = true ∧
      ((findAlm s.dev.log.alm subject (leAt x 2 2) = none ∧ freeAlm s.dev.log.alm 960 0 < 960) →
        ∃ a, aget d'.log.alm (freeAlm s.dev.log.alm 960 0) = some a ∧ a.subject = subject ∧ a.fclass = leAt x 2 2 ∧ a.count = leAt x 4 4 ∧
          a.bitmap = leAt x 8 8 ∧ a.firstLt = leAt x 16 8 ∧ a.detail = leAt x 32 4 ∧ a.reporter = leAt x 36 2 % 4096)) ∧
  (∀ (s : State) (h : CellHdr) (bs : List Byte) (p : Nat), cellGood h 1 0 (nats bs) = true → s.dev.trlState h.port.val = 3 →
    h.seq.toNat = (s.dev.trlPort h.port.val).rxNext → (s.dev.trlPort h.port.val).window = [] → (s.dev.trlPort h.port.val).waiting = [] →
    h.tree = false → s.dev.nodeId ≠ h.dst.toNat → h.hops.toNat < 32 → s.dev.Routed h.dst.toNat p → s.dev.trl.merge = [] →
    Does (.alarm h bs) s fun d' =>
      Dev.Frame (fun d => { d with trl := default }) (among []) s.dev d' ∧
      d'.trl.merge = [⟨h.dst.toNat, leAt (nats bs) 0 2 % 4096, leAt (nats bs) 2 2, 0, 0, 0, 0, 0, 0, s.dev.lt + 1000000, false⟩] ∧
      s.dev.SendsCell d' p
        ⟨(s.dev.trlPort p).txSeq, 1, 0, h.dst.toNat, h.src.toNat, h.hops.toNat + 1, false, h.alt, nats bs, s.dev.lt⟩) ∧
  (∀ (s : State) (m : AlmWin) (p : Nat), s.dev.trl.merge = [m] →
    (s.dev.lt < m.ends → exec .alarmWindowEnd s = .next s) ∧
    (m.ends ≤ s.dev.lt → m.merged = false →
      Does .alarmWindowEnd s fun d' => Dev.Frame (fun d => { d with trl := default }) (among []) s.dev d' ∧
        d'.trl = { s.dev.trl with merge := [] } ∧ d'.sent = s.dev.sent) ∧
    (m.ends ≤ s.dev.lt → m.merged = true → s.dev.Routed m.dst p →
      Does .alarmWindowEnd s fun d' => Dev.Frame (fun d => { d with trl := default }) (among []) s.dev d' ∧ d'.trl.merge = [] ∧
        s.dev.SendsCell d' p ⟨(s.dev.trlPort p).txSeq, 1, 0, m.dst, s.dev.nodeId, 0, false, false,
          almPayload m.subject m.fclass m.count m.bitmap m.firstLt m.lastLt m.detail m.reporter true, s.dev.lt⟩)) ∧
  (∀ (s : State) (h : CellHdr) (bs : List Byte), bs.length = 32 → s.dev.Hears h 6 0 (nats bs) false → s.dev.bit Reg.LOG_CFG 1 = true → s.dev.bit Reg.LOG_CFG 0 = true → s.dev.log.tail.length < 512 →
    Does (.logTraceCell h false bs) s fun d' =>
      Dev.Frame (fun d => { d with trl := default }) (among []) s.dev d' ∧ d'.log = { s.dev.log with tail := s.dev.log.tail ++ [recOf (nats bs)] })

/-- Handoff and export space: an offer is refused with its cause or reserves a slot, ACCEPT harvests the item upstream, REFUSE and the offer's
deadline make it LIVE again, DONE sows the reserved record, ABORT and the hold release it; WRITE, RD_REQ and REG_RD act or are denied, RD_RESP and
the timeout complete a read, REG_RESP leaves the block. -/
def Obligations.FabricHandoff : Prop :=
  (∀ (s : State) (h : CellHdr) (bs : List Byte) (p : Nat), s.dev.Hears h 3 0 (nats bs) false → s.dev.feeds = false →
    s.dev.Routed h.src.toNat p →
    let x := nats bs
    let txn := leAt x 0 4
    let ch := leAt x 4 1 % 16
    let cfg := s.dev.rd (Reg.TRL_HIN_CFG ch)
    let i := itemOfBytes (x.drop 16)
    let node := h.src.toNat
    let body := fun (d : Dev) => { d with trl := default, items := default }
    let refused := fun (cause : Nat) (d' : Dev) =>
      Dev.Frame body (among ([Reg.TRL_HO_REFUSED, Reg.TRL_EVT] ++ if cause = 3 then [Reg.ITEM_SOW_DROP] else [])) s.dev d' ∧ d'.items = s.dev.items ∧ d'.trl.resv = s.dev.trl.resv ∧
      d'.bit Reg.TRL_EVT 6 = true ∧ d'.rd Reg.TRL_HO_REFUSED = min (s.dev.rd Reg.TRL_HO_REFUSED + 1) 0xFFFFFFFF ∧
      d'.cellEmit p ⟨(s.dev.trlPort p).txSeq, 3, 2, node, s.dev.nodeId, 0, false, false,
        leBytes 4 txn ++ leBytes 4 i.id ++ [cause, 0, 0, 0], s.dev.lt⟩ ∈ d'.sent
    let admits := tb cfg 31 = true ∧ (tb cfg 30 = true ∨ bits cfg 0 12 = node)
    let runs := (s.dev.beam (bits cfg 20 3)).mode = .run
    let fresh := s.dev.lt ≤ leAt x 8 8 + s.dev.fld Reg.TRL_HO_AGE 0 16 * 1000
    (node, txn) ∉ s.dev.trl.seenTxn →
    (tb cfg 31 = false → Does (.offer h bs) s (refused 1)) ∧
    (tb cfg 31 = true → tb cfg 30 = false → bits cfg 0 12 ≠ node → Does (.offer h bs) s (refused 2)) ∧
    (admits → s.dev.bit Reg.ITEM_CTRL 0 = false →
      Does (.offer h bs) s fun d' => refused 3 d' ∧ d'.rd Reg.ITEM_SOW_DROP = min (s.dev.rd Reg.ITEM_SOW_DROP + 1) 0xFFFFFFFF) ∧
    (∀ n, admits → s.dev.bit Reg.ITEM_CTRL 0 = true → (s.dev.takeSlot false).1 = some n →
      (¬ runs → Does (.offer h bs) s (refused 4)) ∧ (runs → ¬ fresh → Does (.offer h bs) s (refused 5)) ∧
      (runs → fresh → 64 ≤ s.dev.trl.resv.length → Does (.offer h bs) s (refused 6)) ∧
      (runs → fresh → s.dev.trl.resv.length < 64 →
      Does (.offer h bs) s fun d' =>
        Dev.Frame body (among []) s.dev d' ∧ d'.items.store = s.dev.items.store ∧ d'.items.lists = s.dev.items.lists ∧
        (node, txn) ∈ d'.trl.seenTxn ∧
        s.dev.SendsCell d' p ⟨(s.dev.trlPort p).txSeq, 3, 1, node, s.dev.nodeId, 0, false, false, leBytes 4 txn ++ leBytes 4 i.id, s.dev.lt⟩ ∧
        ∃ r, d'.trl.resv = s.dev.trl.resv ++ [⟨txn, node, n, i.id, s.dev.lt, some r, false⟩] ∧ r.id = i.id ∧ r.state = 1 ∧ r.origin = 3 ∧
          r.beam = bits cfg 20 3 ∧ r.vpend = 0 ∧ r.cls = i.cls ∧ r.len = i.len * s.dev.rd (Reg.TRL_HIN_SCALE ch) / 65536 % 2 ^ 32))) ∧
  (∀ (s : State) (h : CellHdr) (bs : List Byte) (p : Nat) (o : Offer), s.dev.feeds = false →
    s.dev.Routed h.src.toNat p → s.dev.findOffer h.src.toNat (leAt (nats bs) 0 4) = some o →
    let body := fun (d : Dev) => { d with trl := default, items := default }
    let i := s.dev.item o.slot
    let offers := s.dev.trl.offers.filter (· != o)
    let hears := fun (sub : Nat) => s.dev.Hears h 3 sub (nats bs) false
    (hears 1 → i.state = 2 → i.id = o.id → s.dev.bit Reg.ITEM_HRING_CFG 0 = false →
      Does (.accept h bs) s fun d' =>
        Dev.Frame body (among [Reg.TRL_HO_OUT]) s.dev d' ∧ d'.trl.offers = offers ∧ d'.item o.slot = default ∧
        Others s.dev.items.store d'.items.store o.slot ∧ d'.items.freed = s.dev.items.freed ++ [o.slot] ∧
        d'.rd Reg.TRL_HO_OUT = min (s.dev.rd Reg.TRL_HO_OUT + 1) 0xFFFFFFFF ∧
        s.dev.SendsCell d' p
          ⟨(s.dev.trlPort p).txSeq, 3, 3, o.node, s.dev.nodeId, 0, false, false, leBytes 4 o.txn ++ leBytes 4 o.id, s.dev.lt⟩) ∧
    (hears 1 → (i.state ≠ 2 ∨ i.id ≠ o.id) →
      Does (.accept h bs) s fun d' =>
        Dev.Frame body (among []) s.dev d' ∧ d'.items = s.dev.items ∧ d'.trl.offers = offers ∧
        s.dev.SendsCell d' p
          ⟨(s.dev.trlPort p).txSeq, 3, 4, o.node, s.dev.nodeId, 0, false, false, leBytes 4 o.txn ++ leBytes 4 o.id, s.dev.lt⟩) ∧
    (hears 2 → i.state = 2 → i.id = o.id →
      Does (.handoffRefuse h bs) s fun d' =>
        Dev.Frame body (among [Reg.ITEM_EVT]) s.dev d' ∧ d'.trl.offers = offers ∧ d'.item o.slot = { i with state := 1 } ∧
        Others s.dev.items.store d'.items.store o.slot ∧ d'.bit Reg.ITEM_EVT 11 = true)) ∧
  (∀ (s : State) (h : CellHdr) (bs : List Byte) (o : Offer), s.dev.feeds = false → s.dev.findResv h.src.toNat (leAt (nats bs) 0 4) = some o →
    let body := fun (d : Dev) => { d with trl := default, items := default }
    let resv := s.dev.trl.resv.filter (· != o)
    (∀ r, s.dev.Hears h 3 3 (nats bs) false → o.record = some r → o.recovered = false → s.dev.stn.rel = [] → s.dev.beamList r.beam = [] →
      let rej := if (verdictBits (r.verdict / 2 * 2) &&& s.dev.rd (Reg.ITEM_CLASS_REJ r.cls)) / 2 ≠ 0 then 1 else 0
      Does (.handoffDone h bs) s fun d' =>
        Dev.Frame body (among [Reg.TRL_HO_IN]) s.dev d' ∧ d'.trl.resv = resv ∧ d'.beamList r.beam = [o.slot] ∧
        d'.item o.slot = { r with verdict := r.verdict ||| verdictBits (r.verdict / 2 * 2) ||| rej } ∧
        Others s.dev.items.store d'.items.store o.slot ∧ d'.rd Reg.TRL_HO_IN = min (s.dev.rd Reg.TRL_HO_IN + 1) 0xFFFFFFFF) ∧
    (s.dev.Hears h 3 4 (nats bs) false →
      Does (.handoffAbort h bs) s fun d' =>
      Dev.Frame body (among []) s.dev d' ∧ d'.trl.resv = resv ∧ d'.items = { s.dev.items with freed := s.dev.items.freed ++ [o.slot] })) ∧
  (∀ s : State, (s.dev.trl.offers = [] → exec .trlHoTmo s = .next s) ∧ (s.dev.trl.resv = [] → exec .hoLost s = .next s)) ∧
  (∀ (s : State) (o : Offer) (t : List Offer) (p : Nat), s.dev.feeds = false →
    let body := fun (d : Dev) => { d with trl := default, items := default }
    let tmo := o.at0 + max 1 (s.dev.fld Reg.TRL_HO_TMO 0 16) * 1000
    let hold := o.at0 + max 1 (s.dev.fld Reg.TRL_HO_HOLD 0 16) * 1000000
    (s.dev.trl.offers = o :: t →
      (s.dev.lt < tmo → exec .trlHoTmo s = .next s) ∧
      (tmo ≤ s.dev.lt → s.dev.Routed o.node p → (s.dev.item o.slot).state = 2 → (s.dev.item o.slot).id = o.id →
        Does .trlHoTmo s fun d' =>
          Dev.Frame body (among [Reg.ITEM_EVT]) s.dev d' ∧ d'.trl.offers = s.dev.trl.offers.filter (· != o) ∧
          d'.item o.slot = { s.dev.item o.slot with state := 1 } ∧ Others s.dev.items.store d'.items.store o.slot ∧
          d'.bit Reg.ITEM_EVT 11 = true ∧ d'.cellEmit p
            ⟨(s.dev.trlPort p).txSeq, 3, 4, o.node, s.dev.nodeId, 0, false, false, leBytes 4 o.txn ++ leBytes 4 o.id, s.dev.lt⟩ ∈ d'.sent)) ∧
    (s.dev.trl.resv = o :: t →
      (s.dev.lt < hold → exec .hoLost s = .next s) ∧
      (hold ≤ s.dev.lt →
        Does .hoLost s fun d' =>
          Dev.Frame body (fun k => among [Reg.TRL_EVT, Reg.TRL_HO_LOST] k || logReg k) s.dev d' ∧
          d'.trl = { s.dev.trl with resv := s.dev.trl.resv.filter (· != o) } ∧
          d'.items = { s.dev.items with freed := s.dev.items.freed ++ [o.slot] } ∧ d'.bit Reg.TRL_EVT 7 = true ∧
          d'.rd Reg.TRL_HO_LOST = min (s.dev.rd Reg.TRL_HO_LOST + 1) 0xFFFFFFFF))) ∧
  (∀ (s : State) (h : CellHdr) (bs : List Byte), s.dev.Hears h 3 8 (nats bs) false →
    let x := nats bs
    let a := s.dev.peerAddr h.src.toNat (leAt x 0 4 / 64 * 64) 64 true
    let body := fun (d : Dev) => { d with trl := default }
    (a = none →
      Does (.write h bs) s fun d' =>
        Dev.Frame body (among [Reg.TRL_EXP_DENY, Reg.TRL_EVT]) s.dev d' ∧ d'.bit Reg.TRL_EVT 11 = true ∧
        d'.rd Reg.TRL_EXP_DENY = min (s.dev.rd Reg.TRL_EXP_DENY + 1) 0xFFFFFFFF) ∧
    (∀ m, a = some m → s.dev.Open m 64 →
      Does (.write h bs) s fun d' =>
        Dev.FrameAt body (among []) m 64 s.dev d' ∧
        ∀ j < 64, d'.byte (m + j) = if tb (leAt x 8 8) j = true then BitVec.ofNat 8 (x.getD (16 + j) 0) else s.dev.byte (m + j))) ∧
  (∀ (s : State) (h : CellHdr) (bs : List Byte) (p : Nat), s.dev.Hears h 5 0 (nats bs) false → s.dev.Routed h.src.toNat p →
    let x := nats bs
    let n := leAt x 8 2
    let a := s.dev.peerAddr h.src.toNat (leAt x 4 4) n false
    let body := fun (d : Dev) => { d with trl := default }
    let answer := fun (l : List Nat) => (⟨0, 5, 1, h.src.toNat, s.dev.nodeId, 0, false, false, l, s.dev.lt⟩ : Cell)
    ((n = 0 ∨ 256 < n ∨ a = none) →
      Does (.rdReq h bs) s fun d' =>
        Dev.Frame body (among []) s.dev d' ∧ s.dev.SendsCell d' p (answer (x.take 4 ++ [1, 0, 0, 0]))) ∧
    (∀ m, 0 < n → n ≤ 256 → a = some m → regionOf m = .isram → s.dev.hasRange m n = true → s.dev.stemUp = true →
      Does (.rdReq h bs) s fun d' =>
        Dev.Frame body (among []) s.dev d' ∧
        s.dev.SendsCell d' p (answer (x.take 4 ++ [0, 0, 0, 0] ++ s.dev.load m n ++ List.replicate ((4 - n % 4) % 4) 0)))) ∧
  (∀ (s : State) (r : ExpRead), s.dev.trl.reads = [r] → r.src < 25 →
    let c := r.src
    let body := fun (d : Dev) => { d with trl := default, cores := [] }
    let answered := fun (ans : List Nat) (d' : Dev) =>
      Dev.Frame body (among []) s.dev d' ∧ d'.trl.reads = [] ∧ (∀ k, k ≠ c → d'.core k = s.dev.core k) ∧
      d'.core c = { s.dev.core c with far := (s.dev.core c).far.map fun f => if f.1 = r.addr ∧ f.2 = none then (r.addr, some ans) else f }
    (∀ (h : CellHdr) (bs : List Byte),
      let l := (nats bs).drop 8
      let got := r.got ++ l.take (min 248 (r.len - r.got.length))
      let node := (r.addr + got.length - 0x100000000000) / 2 ^ 32
      let more := got.length < r.len ∧ l ≠ []
      s.dev.Hears h 5 1 (nats bs) false → leAt (nats bs) 0 4 = r.tag →
      (leAt (nats bs) 4 1 ≠ 0 → Does (.rdResp h bs) s (answered [])) ∧
      (leAt (nats bs) 4 1 = 0 → ¬ more → Does (.rdResp h bs) s (answered got)) ∧
      (∀ p, leAt (nats bs) 4 1 = 0 → more → s.dev.Routed node p →
        Does (.rdResp h bs) s fun d' =>
          Dev.Frame (fun d => { d with trl := default }) (among []) s.dev d' ∧
          d'.trl.reads = [{ r with tag := s.dev.trl.readTag, at0 := s.dev.lt, got := got }] ∧
          s.dev.SendsCell d' p ⟨0, 5, 0, node, s.dev.nodeId, 0, false, false, leBytes 4 s.dev.trl.readTag ++
            leBytes 4 ((r.addr + got.length) % 2 ^ 32) ++ leBytes 2 (min 248 (r.len - got.length)) ++ [0, 0], s.dev.lt⟩)) ∧
    (s.dev.lt < r.at0 + 100000 → exec .exportReadTimeout s = .next s) ∧
    (r.at0 + 100000 ≤ s.dev.lt → Does .exportReadTimeout s (answered []))) ∧
  (∀ (s : State) (h : CellHdr) (bs : List Byte) (p : Nat), s.dev.Routed h.src.toNat p →
    let x := nats bs
    let off := leAt x 4 4
    let body := fun (d : Dev) => { d with trl := default }
    let answer := fun (l : List Nat) => (⟨0, 4, 9, h.src.toNat, s.dev.nodeId, 0, false, false, l, s.dev.lt⟩ : Cell)
    (s.dev.Hears h 4 8 x false → (0x10000 ≤ off ∨ off % 4 ≠ 0) →
      Does (.regRd h bs) s fun d' =>
        Dev.Frame body (among []) s.dev d' ∧
        s.dev.SendsCell d' p (answer (x.take 4 ++ leBytes 4 off ++ [1, 0, 0, 0] ++ leBytes 4 0))) ∧
    (s.dev.Hears h 4 8 x false → off < 0x10000 → off % 4 = 0 →
      Does (.regRd h bs) s fun d' =>
        Dev.Frame body (among []) s.dev d' ∧
        s.dev.SendsCell d' p (answer (x.take 4 ++ leBytes 4 off ++ [0, 0, 0, 0] ++
          leBytes 4 (s.dev.regReadN srcTrellis (idBlock + off) 4).1))) ∧
    (s.dev.Hears h 4 9 x false →
      Does (.regResp h bs) s fun d' =>
        Dev.Frame body (among []) s.dev d' ∧ d'.sent = s.dev.sent ++ [.event 6 [h.src.toNat, leAt x 0 4, leAt x 8 1, leAt x 12 4]]))

/-- Line commits: a peer answers PREPARE with READY or REFUSE, the initiator collects READY and aborts on a REFUSE, at the confirm point it sends
CONFIRM or ABORT; CONFIRM counts 300 ns ahead, an ABORT or a missing CONFIRM returns the peer's group to OPEN or EMPTY with RESULT FAILED, and the
initiator counts each peer's first result. -/
def Obligations.FabricCommits : Prop :=
  (∀ (s : State) (h : CellHdr) (bs : List Byte) (p : Nat), s.dev.Hears h 2 0 (nats bs) false → s.dev.Routed h.src.toNat p →
    let x := nats bs
    let lcid := leAt x 0 4
    let g := leAt x 4 1 % 8
    let t := leAt x 8 8
    let q := s.dev.grp g
    let node := h.src.toNat
    let body := fun (d : Dev) => { d with trl := default }
    let both := fun (d : Dev) => { d with trl := default, commit := default }
    let answer := fun (sub : Nat) (l : List Nat) =>
      (⟨(s.dev.trlPort p).txSeq, 2, sub, node, s.dev.nodeId, 0, false, false, l, s.dev.lt⟩ : Cell)
    let answered := fun (cause : Nat) =>
      Does (.prepare h bs) s fun d' =>
        Dev.Frame body (among []) s.dev d' ∧ (node, lcid) ∈ d'.trl.seenLc ∧
        s.dev.SendsCell d' p (answer 2 (leBytes 4 lcid ++ [cause, 0, 0, 0]))
    ((node, lcid) ∈ s.dev.trl.seenLc → Does (.prepare h bs) s fun d' => Dev.Frame body (among []) s.dev d' ∧ d'.sent = s.dev.sent) ∧
    ((node, lcid) ∉ s.dev.trl.seenLc →
      (s.dev.bit (Reg.COMMIT_GRP_CTRL g) 8 = false → answered 1) ∧
      (s.dev.bit (Reg.COMMIT_GRP_CTRL g) 8 = true →
        ((q.mode = .pending ∨ q.mode = .armed) → answered 2) ∧
        (q.mode ≠ .pending → q.mode ≠ .armed → q.why ≠ 0 → answered 3) ∧
        (q.mode ≠ .pending → q.mode ≠ .armed → q.why = 0 → t ≤ s.dev.lt → answered 4) ∧
        (q.mode ≠ .pending → q.mode ≠ .armed → q.why = 0 → s.dev.lt < t →
          Does (.prepare h bs) s fun d' =>
            Dev.Frame both (among []) s.dev d' ∧ (d'.grp g).mode = .pending ∧ (d'.grp g).bnd = 4 ∧ (d'.grp g).ltTarget = t ∧
            (d'.grp g).peer = true ∧ (d'.grp g).peerTxn = lcid ∧ (d'.grp g).peerFrom = node ∧ (d'.grp g).confirmed = false ∧
            (∀ k, k ≠ g → d'.grp k = s.dev.grp k) ∧ d'.commit.claims = s.dev.commit.claims ∧
            s.dev.SendsCell d' p (answer 1 (leBytes 4 lcid)))))) ∧
  (∀ (s : State) (h : CellHdr) (bs : List Byte) (g : Nat), s.dev.lcGroup (leAt (nats bs) 0 4) = some g →
    let q := s.dev.grp g
    let n := h.src.toNat
    let body := fun (d : Dev) => { d with trl := default, commit := default, stem := [] }
    let hears := fun (sub : Nat) => s.dev.Hears h 2 sub (nats bs) false
    (hears 1 → n ∈ q.peers → n ∉ q.ready →
      Does (.ready h bs) s fun d' =>
        Dev.Frame body (among [Reg.TRL_LC_STATUS g]) s.dev d' ∧ d'.grp g = { q with ready := q.ready ++ [n] } ∧
        d'.fld (Reg.TRL_LC_STATUS g) 0 5 = (q.ready.length + 1) % 32) ∧
    (hears 1 → (n ∉ q.peers ∨ n ∈ q.ready) →
      Does (.ready h bs) s fun d' => Dev.Frame (fun d => { d with trl := default }) (among []) s.dev d') ∧
    (hears 2 → s.dev.feeds = false →
      Does (.lcRefuse h bs) s fun d' =>
        Dev.Frame body (among [Reg.TRL_LC_STATUS g, Reg.COMMIT_RETIRED, Reg.COMMIT_EVT, Reg.TRL_EVT]) s.dev d' ∧
        (d'.grp g).result = 4 ∧ (d'.grp g).mode = (if s.dev.claimsOf g = [] then GrpMode.empty else GrpMode.opened) ∧
        d'.fld (Reg.TRL_LC_STATUS g) 16 3 = 3 ∧ (q.refusedBy = [] → d'.fld (Reg.TRL_LC_STATUS g) 20 12 = n) ∧
        d'.bit Reg.TRL_EVT 8 = true ∧ d'.bit Reg.COMMIT_EVT 2 = true)) ∧
  (∀ (s : State) (g : Fin 8) (n p : Nat),
    let q := s.dev.grp g.val
    let lead := max 2 (s.dev.fld (Reg.TRL_LC_CFG g.val) 8 8) * 1000
    let cell := fun (sub : Nat) => (⟨(s.dev.trlPort p).txSeq, 2, sub, n, s.dev.nodeId, 0, false, false, leBytes 4 q.csn, s.dev.lt⟩ : Cell)
    let body := fun (d : Dev) => { d with trl := default, commit := default, stem := [] }
    ((q.mode ≠ .armed ∨ q.fabric = false ∨ q.peers = [] ∨ q.confirmed = true ∨ s.dev.lt + lead < q.applyLt) →
      exec (.confirmPoint g) s = .next s) ∧
    (q.mode = .armed → q.fabric = true → q.peers = [n] → q.confirmed = false → q.applyLt ≤ s.dev.lt + lead → s.dev.Routed n p →
      (q.ready = [n] → s.dev.lt + 150 ≤ q.applyLt →
        Does (.confirmPoint g) s fun d' =>
          Dev.Frame body (among [Reg.TRL_LC_STATUS g.val]) s.dev d' ∧ d'.grp g.val = { q with confirmed := true } ∧
          (∀ k, k ≠ g.val → d'.grp k = s.dev.grp k) ∧ d'.fld (Reg.TRL_LC_STATUS g.val) 16 3 = 2 ∧
          s.dev.SendsCell d' p (cell 3)) ∧
      ((q.ready = [] ∨ q.applyLt < s.dev.lt + 150) → s.dev.feeds = false →
        Does (.confirmPoint g) s fun d' =>
          Dev.Frame body (among [Reg.TRL_LC_STATUS g.val, Reg.COMMIT_RETIRED, Reg.COMMIT_EVT, Reg.TRL_EVT]) s.dev d' ∧
          (d'.grp g.val).result = 4 ∧ d'.fld (Reg.TRL_LC_STATUS g.val) 16 3 = 3 ∧ d'.cellEmit p (cell 4) ∈ d'.sent))) ∧
  (∀ (s : State) (h : CellHdr) (bs : List Byte) (g p : Nat), s.dev.peerGroup h.src.toNat (leAt (nats bs) 0 4) = some g →
    let q := s.dev.grp g
    let hears := fun (sub : Nat) => s.dev.Hears h 2 sub (nats bs) false
    let failed := fun (csn : Nat) (d' : Dev) =>
      (d'.grp g).result = 4 ∧ (d'.grp g).mode = (if s.dev.claimsOf g = [] then GrpMode.empty else GrpMode.opened) ∧ (d'.grp g).peer = false ∧
      (∀ k, k ≠ g → d'.grp k = s.dev.grp k) ∧
      d'.cellEmit p ⟨(s.dev.trlPort p).txSeq, 2, 5, q.peerFrom, s.dev.nodeId, 0, false, false,
        leBytes 4 q.peerTxn ++ leBytes 4 csn ++ [2, 0, 0, 0], s.dev.lt⟩ ∈ d'.sent
    (hears 3 → s.dev.lt + 300 ≤ q.ltTarget →
      Does (.confirm h bs) s fun d' =>
        Dev.Frame (fun d => { d with trl := default, commit := default }) (among []) s.dev d' ∧ d'.grp g = { q with confirmed := true } ∧
        ∀ k, k ≠ g → d'.grp k = s.dev.grp k) ∧
    (hears 3 → q.ltTarget < s.dev.lt + 300 →
      Does (.confirm h bs) s fun d' => Dev.Frame (fun d => { d with trl := default }) (among []) s.dev d') ∧
    (hears 4 → q.mode = .pending → s.dev.Routed q.peerFrom p →
      Does (.lcAbort h bs) s fun d' =>
        Dev.Frame (fun d => { d with trl := default, commit := default }) (among [Reg.COMMIT_EVT]) s.dev d' ∧ failed 0 d') ∧
    (hears 4 → q.mode = .armed → s.dev.feeds = false → s.dev.Routed q.peerFrom p →
      Does (.lcAbort h bs) s fun d' =>
        Dev.Frame (fun d => { d with trl := default, commit := default }) (among [Reg.COMMIT_EVT, Reg.COMMIT_RETIRED]) s.dev d' ∧
        d'.rd Reg.COMMIT_RETIRED = min (s.dev.rd Reg.COMMIT_RETIRED + 1) 0xFFFFFFFF ∧ failed q.csn d')) ∧
  (∀ (s : State) (g : Fin 8) (p : Nat),
    let q := s.dev.grp g.val
    ((q.peer = false ∨ q.confirmed = true ∨ s.dev.lt + 300 < q.ltTarget) → exec (.lcSplit g) s = .next s) ∧
    (q.peer = true → q.confirmed = false → q.mode = .pending → q.ltTarget ≤ s.dev.lt + 300 → s.dev.Routed q.peerFrom p →
      Does (.lcSplit g) s fun d' =>
        Dev.Frame (fun d => { d with trl := default, commit := default }) (fun k => among [Reg.COMMIT_EVT, Reg.TRL_EVT] k || logReg k) s.dev d' ∧
        (d'.grp g.val).result = 4 ∧ (d'.grp g.val).peer = false ∧ d'.bit Reg.TRL_EVT 9 = true)) ∧
  (∀ (s : State) (h : CellHdr) (bs : List Byte) (g : Nat), s.dev.Hears h 2 5 (nats bs) false →
    ((List.range 8).find? fun k => s.dev.fld (Reg.TRL_LC_STATUS k) 16 3 != 0 && s.dev.armedCsn k == leAt (nats bs) 0 4) = some g →
    let q := s.dev.grp g
    let node := h.src.toNat
    let st := Reg.TRL_LC_STATUS g
    ((node ∈ q.results ∨ node ∉ q.peers) →
      Does (.lcResult h bs) s fun d' => Dev.Frame (fun d => { d with trl := default }) (among []) s.dev d') ∧
    (node ∉ q.results → node ∈ q.peers →
      Does (.lcResult h bs) s fun d' =>
        Dev.Frame (fun d => { d with trl := default, commit := default }) (among [st]) s.dev d' ∧
        d'.grp g = { q with results := q.results ++ [node] } ∧ (∀ k, k ≠ g → d'.grp k = s.dev.grp k) ∧
        d'.fld st 8 5 = (s.dev.fld st 8 5 + if leAt (nats bs) 8 1 = 1 then 1 else 0) % 32 ∧
        (q.results.length + 1 = q.peers.length → d'.fld st 16 3 = 4) ∧
        (q.results.length + 1 ≠ q.peers.length → d'.fld st 16 3 = s.dev.fld st 16 3)))

/-- Graft frames that arrive in turn: HEARTBEAT, COMMIT, CRESULT, FURROW, MEMWR, BEAM, SYNC and its reply, HANDOFF, and the frames of a join take
their effects on a follower or on the ACTIVE member. -/
def Obligations.TwinFrames : Prop :=
  (∀ (s : State) (h : FrameHdr) (bs : List Byte), s.dev.Gets h 1 (nats bs) →
    let x := nats bs
    let uid := leAt x 24 8
    let r := leAt x 20 1 % 8
    let want := s.dev.rd Reg.GRF_PEER_UID
    let tick := leAt x 0 4
    let body := fun (d : Dev) => { d with grf := default }
    let own := s.dev.fld Reg.GRF_CFG 28 2
    let req := bits (leAt x 21 1) 0 2
    let wins := if (own = 1 ∧ req = 1) ∨ (own ≠ 1 ∧ req ≠ 1) then ownUid < uid else own = 1
    let seen := fun (d' : Dev) =>
      d'.rd Reg.GRF_PEER_SEEN = uid ∧ d'.grf.peerUid = uid ∧ d'.grf.peerEpoch = h.epoch.toNat ∧
      d'.grf.rxNext = (s.dev.grf.rxNext + 1) % 2 ^ 32 ∧
      ((tick ≠ s.dev.rd Reg.BEAM_TICK_NUM ∨ s.dev.lt ≤ s.dev.tick.start + s.dev.hbDeadline) → d'.grf.hbTick = tick ∧ d'.grf.missed = 0)
    ((uid = ownUid ∨ want ≠ 0 ∧ uid ≠ want) → s.dev.role = 0 →
      Does (.heartbeat h bs) s fun d' =>
        Dev.Frame body (among [Reg.GRF_PEER_SEEN, Reg.GRF_EVT]) s.dev d' ∧ d'.rd Reg.GRF_PEER_SEEN = uid ∧ d'.bit Reg.GRF_EVT 8 = true) ∧
    (uid ≠ ownUid → (want = 0 ∨ uid = want) →
      (s.dev.role = 0 →
        Does (.heartbeat h bs) s fun d' => Dev.Frame body (among [Reg.GRF_PEER_SEEN]) s.dev d' ∧ seen d' ∧ d'.grf.peerRole = r) ∧
      (s.dev.role = 1 → r = 1 → ¬ wins →
        Does (.heartbeat h bs) s fun d' => Dev.Frame body (among [Reg.GRF_PEER_SEEN]) s.dev d' ∧ seen d' ∧ d'.role = 1) ∧
      (s.dev.role = 1 → r = 1 → wins →
        Does (.heartbeat h bs) s fun d' =>
          Dev.Frame body (among [Reg.GRF_PEER_SEEN, Reg.GRF_STATUS, Reg.GRF_EPOCH]) s.dev d' ∧ d'.role = 2 ∧ d'.grf.pairEnds = 0 ∧
          (csnBefore (s.dev.rd Reg.GRF_EPOCH) (d'.rd Reg.GRF_EPOCH) = true ∨ csnBefore h.epoch.toNat (d'.rd Reg.GRF_EPOCH) = true)) ∧
      (s.dev.role = 2 → r = 2 → s.dev.grf.peerRole ≠ 3 → s.dev.grf.peerRole ≠ 4 →
        csnBefore (s.dev.rd Reg.GRF_EPOCH) h.epoch.toNat = true → s.dev.grf.deposeAt = none →
        Does (.heartbeat h bs) s fun d' =>
          Dev.Frame body (among [Reg.GRF_PEER_SEEN]) s.dev d' ∧ seen d' ∧ d'.grf.deposeAt = some s.dev.tick.next) ∧
      (s.dev.role = 2 → r = 4 → s.dev.grf.peerRole = 3 → s.dev.grf.copied = true → s.dev.bit Reg.GRF_STATUS 3 = false →
        Does (.heartbeat h bs) s fun d' =>
          Dev.Frame body (among [Reg.GRF_PEER_SEEN, Reg.GRF_STATUS, Reg.GRF_EVT]) s.dev d' ∧ seen d' ∧ d'.grf.peerRole = 4 ∧
          d'.bit Reg.GRF_STATUS 3 = true ∧ d'.bit Reg.GRF_EVT 1 = true))) ∧
  (∀ (s : State) (h : FrameHdr) (bs : List Byte), (s.dev.role = 3 ∨ s.dev.role = 4) →
    let x := nats bs
    let body := fun (d : Dev) => { d with grf := default }
    let c : RepCommit := ⟨leAt x 0 4, leAt x 4 1, leAt x 5 1 % 8, leAt x 8 8, repVals (leAt x 6 2) (x.drop 16) [], [], false⟩
    let e := h.epoch.toNat
    let next := (s.dev.grf.rxNext + 1) % 2 ^ 32
    (s.dev.Gets h 2 x → (∀ v, s.dev.repAhead c = some v → 150 ≤ v) →
      Does (.graftCommit h bs) s fun d' =>
        Dev.Frame body (among [Reg.GRF_CSN]) s.dev d' ∧ d'.rd Reg.GRF_CSN = c.csn ∧
        d'.grf = { s.dev.grf with commits := s.dev.grf.commits ++ [c], highCsn := c.csn, peerEpoch := e, rxNext := next }) ∧
    (∀ v, s.dev.Gets h 2 x → s.dev.repAhead c = some v → v < 150 → s.dev.role = 4 → s.dev.trl.idValid = false →
      Does (.graftCommit h bs) s fun d' =>
        Dev.Frame body
          (fun k => among [Reg.GRF_CSN, Reg.GRF_STATUS, Reg.GRF_EVT, Reg.GRF_SYNC_LOSS, Reg.GRF_JOIN_PROG] k || logReg k) s.dev d' ∧
        d'.role = 3 ∧ d'.bit Reg.GRF_EVT 2 = true ∧
        d'.rd Reg.GRF_SYNC_LOSS = min (s.dev.rd Reg.GRF_SYNC_LOSS + 1) 0xFFFFFFFF ∧ d'.grf.commits = [] ∧
        d'.frameEmits 0xA s.dev.grf.gseq [] <:+ d'.sent) ∧
    (s.dev.Gets h 9 x → Does (.graftHandoff h bs) s fun d' =>
      Dev.Frame body (among []) s.dev d' ∧
      d'.grf = { s.dev.grf with peerEpoch := e, rxNext := next, steps := s.dev.grf.steps ++
        [⟨leAt x 0 1, leAt x 2 2, leAt x 4 4, leAt x 8 2 % 4096, if leAt x 0 1 = 2 then some (itemOfBytes (x.drop 12)) else none⟩] })) ∧
  (∀ (s : State) (h : FrameHdr) (bs : List Byte) (c : RepCommit), s.dev.Gets h 3 (nats bs) → s.dev.grf.commits = [c] → c.csn = leAt (nats bs) 0 4 →
    let body := fun (d : Dev) => { d with grf := default }
    let ok := leAt (nats bs) 4 1
    ((ok = 1 ∧ c.swapped = true ∨ ok ≠ 1 ∧ c.swapped = false) →
      Does (.cresult h bs) s fun d' => Dev.Frame body (among []) s.dev d' ∧ d'.grf.commits = []) ∧
    (ok = 1 → c.swapped = false → c.csn ≠ 0 → s.dev.role = 4 → (∀ p ∈ c.vals, hookFree p.1 = true ∧ (regRow p.1).isSome = true) →
      Does (.cresult h bs) s fun d' =>
        Dev.Frame body (fun k => (Reg.COMMIT_CSN :: c.vals.map (·.1)).contains k) s.dev d' ∧ d'.grf.commits = [] ∧
        d'.rd Reg.COMMIT_CSN = c.csn % 2 ^ 32 ∧ ∀ p ∈ c.vals, d'.rd p.1 = afterVals c.vals p.1 (s.dev.rd p.1)) ∧
    (ok ≠ 1 → c.swapped = true → (∀ p ∈ c.undo, hookFree p.1 = true ∧ (regRow p.1).isSome = true) →
      Does (.cresult h bs) s fun d' =>
        Dev.Frame body (fun k => (c.undo.map (·.1)).contains k) s.dev d' ∧ d'.grf.commits = [] ∧
        ∀ p ∈ c.undo, d'.rd p.1 = afterVals c.undo p.1 (s.dev.rd p.1))) ∧
  (∀ (s : State) (h : FrameHdr) (bs : List Byte), s.dev.Gets h 4 (nats bs) → s.dev.role = 4 →
    let x := nats bs
    let b := leAt x 0 1 % 8
    let body := fun (d : Dev) => { d with grf := default, items := default }
    let regs := [Reg.ITEM_SEQ_NEXT, Reg.ITEM_PJOB b, Reg.GRF_LAG]
    let heads := fun (d' : Dev) =>
      Dev.Frame body (among regs) s.dev d' ∧ d'.fld Reg.ITEM_SEQ_NEXT 0 20 = leAt x 16 4 % 2 ^ 20 ∧ d'.rd (Reg.ITEM_PJOB b) = leAt x 20 4 ∧
      tget d'.grf.cut b = leAt x 24 8 ∧
      d'.rd Reg.GRF_LAG = max (s.dev.rd Reg.GRF_LAG) (min (s.dev.furrowAge b (leAt x 8 8)) 0xFFFFFFFF) % 2 ^ 32
    (leAt x 2 2 = 0 → Does (.furrow h bs) s fun d' => heads d' ∧ d'.items = s.dev.items) ∧
    (leAt x 2 2 = 1 → (x.drop 32).headD 3 = 0 →
      let slot := leAt x 34 2
      let r := itemOfBytes (x.drop 36)
      Does (.furrow h bs) s fun d' =>
        heads d' ∧ Others s.dev.items.store d'.items.store slot ∧
        d'.item slot = (if r.state = 1 ∨ r.state = 2 then r else default))) ∧
  (∀ (s : State) (h : FrameHdr) (bs : List Byte),
    let x := nats bs
    let a := leAt x 0 6
    let n := x.length - 8
    let body := fun (d : Dev) => { d with grf := default }
    (s.dev.Gets h 5 x → s.dev.role = 4 → s.dev.Open a n →
      Does (.memwr h bs) s fun d' =>
        Dev.FrameAt body (among []) a n s.dev d' ∧ ∀ j < n, d'.byte (a + j) = BitVec.ofNat 8 (x.getD (8 + j) 0)) ∧
    (s.dev.Gets h 5 x → s.dev.role = 3 → s.dev.grf.units.contains (a / 256) = false →
      Does (.memwr h bs) s fun d' => Dev.Frame body (among []) s.dev d') ∧
    (s.dev.Gets h 12 x → s.dev.role = 3 → s.dev.Open a n → s.dev.grf.units.contains (a / 256) = false →
      Does (.graftCopy h bs) s fun d' =>
        Dev.FrameAt body (among [Reg.GRF_JOIN_PROG]) a n s.dev d' ∧ d'.grf.units = s.dev.grf.units ++ [a / 256] ∧
        (∀ j < n, d'.byte (a + j) = BitVec.ofNat 8 (x.getD (8 + j) 0)) ∧
        d'.rd Reg.GRF_JOIN_PROG = min 1000 ((s.dev.grf.units.length + 1) * 1000 / (s.dev.joinRanges.map (·.2)).sum))) ∧
  (∀ (s : State) (h : FrameHdr) (bs : List Byte), s.dev.Gets h 6 (nats bs) → (s.dev.role = 3 ∨ s.dev.role = 4) →
    let x := nats bs
    let b := leAt x 0 1 % 8
    let r := recOfBytes (x.drop 4)
    let p := r.at s.dev.lt
    let diff := distL (s.dev.fpf b) (s.dev.beam b).l p
    let small := (-(64 * dotUnit) ≤ diff ∧ diff ≤ 64 * dotUnit) ∧ r.jump = false
    let mode := if (s.dev.beam b).mode = .off then BeamMode.off else if r.stale then .stale else if r.hold then .hold else .run
    let body := fun (d : Dev) => { d with grf := default, beams := [], est := [] }
    (small →
      Does (.graftBeam h bs) s fun d' =>
        Dev.Frame body (among []) s.dev d' ∧ Others s.dev.beams d'.beams b ∧
        d'.beam b = { s.dev.beam b with mode := mode, corrK := 0, corrTot := 0, corrCarry := 0 } ∧
        Others s.dev.est d'.est (24 + b) ∧ tget d'.est (24 + b) = ⟨true, r, diff, s.dev.lt, (s.dev.beam b).l, 0⟩) ∧
    (¬ small →
      Does (.graftBeam h bs) s fun d' =>
        Dev.Frame body (among [Reg.BEAM_EVT b]) s.dev d' ∧ Others s.dev.beams d'.beams b ∧ (d'.beam b).l = p % modL (s.dev.fpf b) ∧
        (d'.beam b).mode = mode ∧ d'.bit (Reg.BEAM_EVT b) 3 = true)) ∧
  (∀ (s : State) (reply : Bool) (bs : List Byte),
    let body := fun (d : Dev) => { d with grf := default }
    ((s.dev.follows = false ∨ s.dev.lt < s.dev.grf.syncs) → exec (.graftSync none reply bs) s = .next s) ∧
    (s.dev.follows = true → s.dev.grf.syncs ≤ s.dev.lt →
      Does (.graftSync none reply bs) s fun d' =>
        Dev.Frame body (among []) s.dev d' ∧ d'.grf.syncs = s.dev.lt + 10000 ∧
        d'.sent = s.dev.sent ++ d'.frameEmits 7 s.dev.grf.gseq (leBytes 8 s.dev.lt))) ∧
  (∀ (s : State) (h : FrameHdr) (bs : List Byte),
    let x := nats bs
    let body := fun (d : Dev) => { d with grf := default }
    let t1 := leAt x 0 8
    let delay := (((s.dev.lt : Int) - t1) - ((leAt x 16 8 : Int) - leAt x 8 8)) / 2
    let ofs := (leAt x 8 8 : Int) - t1 - delay
    (s.dev.Gets h 7 x → s.dev.role = 2 →
      Does (.graftSync (some h) false bs) s fun d' =>
        Dev.Frame body (among []) s.dev d' ∧
        d'.sent = s.dev.sent ++ d'.frameEmits 8 s.dev.grf.gseq (leBytes 8 t1 ++ leBytes 8 s.dev.lt ++ leBytes 8 s.dev.lt)) ∧
    (s.dev.Gets h 8 x → s.dev.follows = true → s.dev.tick.firstLock = true →
      Does (.graftSync (some h) true bs) s fun d' =>
        Dev.Frame (fun d => { d with grf := default, tick := { d.tick with ltAdj := 0 } })
          (among [Reg.BEAM_LT_OFS, Reg.BEAM_LT_STATUS]) s.dev d' ∧
        d'.tick.ltAdj = ofs * 100000 ∧ d'.rd Reg.BEAM_LT_OFS = tw 32 ofs ∧
        (d'.bit Reg.BEAM_LT_STATUS 0 = true ↔ -2 ≤ ofs ∧ ofs ≤ 2))) ∧
  (∀ (s : State) (h : FrameHdr) (bs : List Byte),
    let x := nats bs
    let body := fun (d : Dev) => { d with grf := default }
    (s.dev.Gets h 10 x → s.dev.role ≠ 2 → Does (.joinReq h bs) s fun d' => Dev.Frame body (among []) s.dev d' ∧ d'.sent = s.dev.sent) ∧
    ((s.dev.grf.peerRole = 3 ∨ s.dev.grf.peerRole = 4) → s.dev.grf.fedUid ≠ s.dev.grf.peerUid → s.dev.Gets h 10 x → s.dev.role = 2 →
      Does (.joinReq h bs) s fun d' => Dev.Frame body (among []) s.dev d' ∧ d'.sent = s.dev.sent ∧ d'.grf.peerRole = s.dev.grf.peerRole) ∧
    (s.dev.Gets h 10 x → s.dev.role = 2 → s.dev.bit Reg.GRF_STATUS 3 = false → s.dev.grf.peerRole ≠ 3 → s.dev.grf.peerRole ≠ 4 →
      s.dev.commit.snapOpen = false → (∀ p ∈ s.dev.commit.grps, p.1 < 8) → (∀ g < 8, (s.dev.grp g).mode ≠ .pending) →
      s.dev.claimsOf 8 = [] → s.dev.dataOff = false → s.dev.writesOut s.dev.commit.order 24 = false →
      Does (.joinReq h bs) s fun d' =>
        Dev.Frame (fun d => { d with grf := default, commit := default, stem := [], items := { d.items with dirty := [] } })
          (among [Reg.COMMIT_NEXT_CSN, Reg.COMMIT_SNAP_CSN]) s.dev d' ∧
        d'.grf.peerRole = 3 ∧ d'.grf.fedUid = s.dev.grf.peerUid ∧ d'.grf.c0 = 0 ∧ d'.grf.copied = false ∧ d'.commit.snapOpen = true ∧ d'.commit.snapOwner = 24 ∧
        (d'.grp 8).mode = .armed ∧ (d'.grp 8).csn = s.dev.rd Reg.COMMIT_NEXT_CSN ∧ d'.commit.claims = s.dev.commit.claims) ∧
    (s.dev.Gets h 11 x → s.dev.role = 3 → Does (.joinAck h bs) s fun d' => Dev.Frame body (among []) s.dev d' ∧ d'.grf.c0 = leAt x 0 4) ∧
    (s.dev.Gets h 13 x → s.dev.role = 3 →
      let vals := (repVals (x.length / 8) x []).filter fun p => !s.dev.grf.setKeys.contains p.1
      (∀ p ∈ vals, hookFree p.1 = true ∧ (regRow p.1).isSome = true) →
      Does (.regimg h bs) s fun d' =>
        Dev.Frame body (fun k => (vals.map (·.1)).contains k) s.dev d' ∧ ∀ p ∈ vals, d'.rd p.1 = afterVals vals p.1 (s.dev.rd p.1)) ∧
    (s.dev.Gets h 14 x → s.dev.role = 3 → (∃ b < 8, s.dev.bit (Reg.BEAM_CTRL b) 0 = true ∧ b ∉ s.dev.grf.furrows) →
      Does (.joinDone h bs) s fun d' => Dev.Frame body (among []) s.dev d' ∧ d'.grf.joinDone = true) ∧
    (s.dev.Gets h 14 x → s.dev.role = 3 → s.dev.trl.idValid = false → (∀ b < 8, s.dev.bit (Reg.BEAM_CTRL b) 0 = true → b ∈ s.dev.grf.furrows) →
      Does (.joinDone h bs) s fun d' =>
        Dev.Frame body (among [Reg.GRF_STATUS, Reg.GRF_JOIN_PROG, Reg.GRF_EVT]) s.dev d' ∧
        d'.role = 4 ∧ d'.bit Reg.GRF_STATUS 3 = true ∧ d'.rd Reg.GRF_JOIN_PROG = 1000 ∧ d'.bit Reg.GRF_EVT 1 = true))

/-- Graft ports, roles and takeover: lock, loss, resending, missed heartbeats, deposition, the end of the pairing time, the three commands of
GRF_CTRL, and a takeover of a standby that tracks no item. -/
def Obligations.TwinRoles : Prop :=
  (∀ (s : State) (p : Fin 2),
    let body := fun (d : Dev) => { d with grf := default }
    let q := p.val
    (s.dev.grfState q ≠ 1 → exec (.graftLaneLock p) s = .next s) ∧
    (s.dev.grfState q = 1 →
      Does (.graftLaneLock p) s fun d' =>
        Dev.Frame body (among [Reg.GRF_PORT_STATUS q, Reg.GRF_STATUS]) s.dev d' ∧ d'.grfState q = 2 ∧ tget d'.grf.hellos q = 0 ∧
        d'.fld (Reg.GRF_PORT_STATUS q) 4 4 = 15) ∧
    (s.dev.grfState q < 2 → exec (.graftPortLoss p) s = .next s) ∧
    (s.dev.grfState q = 3 →
      Does (.graftPortLoss p) s fun d' =>
        Dev.Frame body (among [Reg.GRF_PORT_STATUS q, Reg.GRF_STATUS, Reg.GRF_PORT_DOWN q, Reg.GRF_EVT]) s.dev d' ∧ d'.grfState q = 1 ∧
        d'.bit Reg.GRF_STATUS (6 + q) = false ∧ d'.rd (Reg.GRF_PORT_DOWN q) = min (s.dev.rd (Reg.GRF_PORT_DOWN q) + 1) 0xFFFFFFFF ∧
        d'.bit Reg.GRF_EVT 7 = true)) ∧
  (∀ s : State, ((∀ f ∈ s.dev.grf.sentF, s.dev.lt < f.2.2.2 + 2000) ∨ s.dev.grfState 0 ≠ 3 ∧ s.dev.grfState 1 ≠ 3) → exec .graftResend s = .next s) ∧
  (∀ (s : State) (n ty at0 : Nat) (bs : List Nat), s.dev.grf.sentF = [(n, ty, bs, at0)] → at0 + 2000 ≤ s.dev.lt → s.dev.grfState 0 = 3 →
    s.dev.grfState 1 ≠ 3 →
    Does .graftResend s fun d' =>
      Dev.Frame (fun d => { d with grf := default }) (among [Reg.GRF_PORT_REPLAY 0]) s.dev d' ∧
      d'.grf.sentF = [(n, ty, bs, s.dev.lt)] ∧ d'.sent = s.dev.sent ++ d'.frameEmits ty n bs ∧
      d'.rd (Reg.GRF_PORT_REPLAY 0) = min (s.dev.rd (Reg.GRF_PORT_REPLAY 0) + 1) 0xFFFFFFFF) ∧
  (∀ s : State,
    let body := fun (d : Dev) => { d with grf := default }
    ((s.dev.follows = false ∧ s.dev.feeds = false ∨ s.dev.grf.hbSeen = true ∨ s.dev.lt < s.dev.tick.start + s.dev.hbDeadline) →
      exec .heartbeatMissed s = .next s) ∧
    (s.dev.role = 4 → s.dev.grf.hbSeen = false → s.dev.tick.start + s.dev.hbDeadline ≤ s.dev.lt →
      (s.dev.grf.hbTick = s.dev.rd Reg.BEAM_TICK_NUM →
        Does .heartbeatMissed s fun d' => Dev.Frame body (among []) s.dev d' ∧ d'.grf = { s.dev.grf with hbSeen := true }) ∧
      (s.dev.grf.hbTick ≠ s.dev.rd Reg.BEAM_TICK_NUM →
        (s.dev.grf.missed = 0 →
          Does .heartbeatMissed s fun d' => Dev.Frame body (among []) s.dev d' ∧ d'.grf = { s.dev.grf with hbSeen := true, missed := 1 }) ∧
        (0 < s.dev.grf.missed → s.dev.bit Reg.GRF_CFG 30 = true →
          Does .heartbeatMissed s fun d' =>
            Dev.Frame body (among [Reg.GRF_EVT]) s.dev d' ∧ d'.bit Reg.GRF_EVT 5 = true ∧
            d'.grf = { s.dev.grf with hbSeen := true, missed := 0, takeAt := some s.dev.tick.next }) ∧
        (0 < s.dev.grf.missed → s.dev.bit Reg.GRF_CFG 30 = false →
          Does .heartbeatMissed s fun d' =>
            Dev.Frame body (fun k => among [Reg.GRF_EVT] k || logReg k) s.dev d' ∧ d'.bit Reg.GRF_EVT 5 = true ∧
            d'.grf = { s.dev.grf with hbSeen := true, missed := 0 })))) ∧
  (∀ s : State,
    let body := fun (d : Dev) => { d with grf := default, drv := [], pins := [], stn := default, items := { d.items with dirty := [] }, trl := default }
    (s.dev.grf.deposeAt = none → exec .deposed s = .next s) ∧
    (∀ t, s.dev.grf.deposeAt = some t → s.dev.lt < t → exec .deposed s = .next s) ∧
    (∀ t, s.dev.grf.deposeAt = some t → t ≤ s.dev.lt → s.dev.role = 2 → s.dev.trlOn = false → (∀ p < 8, s.dev.trlUp p = false) →
      Does .deposed s fun d' =>
        Dev.Frame body (fun k => among [Reg.GRF_STATUS, Reg.GRF_EVT, Reg.PIN_SWITCHES] k || trlReg k || logReg k) s.dev d' ∧
        d'.role = 5 ∧ d'.bit Reg.GRF_STATUS 3 = false ∧ d'.bit Reg.GRF_EVT 4 = true ∧ d'.stn.sched = [] ∧ d'.stn.rel = [] ∧
        d'.grf.deposeAt = none ∧ d'.grf.sentF = [] ∧ ∀ i < 248, roleSleep i = true → s.dev.fld (Reg.PIN_CFG i) 10 2 ≠ 3 → (d'.pin i).sleep = some (s.dev.pinSleepState i))) ∧
  (∀ s : State,
    let g := s.dev.grf
    ((s.dev.role ≠ 1 ∨ g.pairEnds = 0 ∨ s.dev.lt < g.pairEnds) → exec .pairTimeout s = .next s) ∧
    (s.dev.role = 1 → g.pairEnds ≠ 0 → g.pairEnds ≤ s.dev.lt →
      (s.dev.fld Reg.GRF_CFG 28 2 = 1 →
        Does .pairTimeout s fun d' =>
          Dev.Frame (fun d => { d with grf := default }) (among [Reg.GRF_STATUS, Reg.GRF_EPOCH]) s.dev d' ∧ d'.role = 2 ∧
          d'.rd Reg.GRF_EPOCH = s.dev.nextEpoch ∧ d'.grf.pairEnds = 0) ∧
      (s.dev.fld Reg.GRF_CFG 28 2 ≠ 1 →
        Does .pairTimeout s fun d' =>
          Dev.Frame (fun d => { d with grf := default }) logReg s.dev d' ∧ d'.role = 1 ∧ d'.grf.pairEnds = 0 ∧
          d'.bit Reg.LOG_EVT 0 = true))) ∧
  (∀ (s : State) (src : Fin 30), s.dev.Reach src.val Reg.GRF_CTRL →
    (s.dev.role ≠ 1 → s.dev.role ≠ 5 → exec (.grfJoin src) s = .next s) ∧
    ((s.dev.role = 1 ∨ s.dev.role = 5) → s.dev.trlOn = false → s.dev.trl.idValid = false → (∀ p < 8, s.dev.trlUp p = false) →
      Does (.grfJoin src) s fun d' =>
        Dev.Frame (fun d => { d with grf := default, pins := [], trl := default })
          (fun k => among [Reg.GRF_STATUS, Reg.GRF_JOIN_PROG, Reg.PIN_SWITCHES] k || trlReg k || logReg k) s.dev d' ∧
        d'.role = 3 ∧ d'.rd Reg.GRF_JOIN_PROG = 0 ∧ d'.grf.joinDone = false ∧ d'.grf.units = [] ∧
        d'.frameEmits 0xA s.dev.grf.gseq [] <:+ d'.sent) ∧
    (s.dev.role = 0 ∨ s.dev.role = 5 → exec (.grfLeave src) s = .next s) ∧
    ((s.dev.role = 1 ∨ s.dev.role = 2) → s.dev.grf.await = [] →
      Does (.grfLeave src) s fun d' =>
        Dev.Frame (fun d => { d with grf := default, items := { d.items with dirty := [] } }) (among [Reg.GRF_STATUS]) s.dev d' ∧
        d'.role = 0 ∧ d'.bit Reg.GRF_STATUS 3 = false ∧ d'.grf.sentF = [] ∧ d'.grf.peerRole = 0 ∧ d'.grf.pairEnds = 0) ∧
    ((s.dev.role = 3 ∨ s.dev.role = 4) → s.dev.grf.await = [] → s.dev.trlOn = false →
      Does (.grfLeave src) s fun d' =>
        Dev.Frame (fun d => { d with grf := default, pins := [], items := { d.items with dirty := [] } })
          (among [Reg.GRF_STATUS, Reg.PIN_SWITCHES]) s.dev d' ∧ d'.role = 0 ∧ d'.grf.commits = [] ∧
        ∀ i < 248, roleSleep i = true → (d'.pin i).sleep = none) ∧
    (s.dev.role ≠ 4 → exec (.grfTakeover src) s = .next s) ∧
    (s.dev.role = 4 →
      Does (.grfTakeover src) s fun d' =>
        Dev.Frame (fun d => { d with grf := default }) (among []) s.dev d' ∧ ∃ t, d'.grf = { s.dev.grf with takeAt := some t } ∧
        s.dev.tick.next ≤ t ∧ (s.dev.tickNs ≠ 0 → s.dev.lt + 2000 ≤ t ∧ (t - s.dev.tick.next) % s.dev.tickNs = 0 ∧
          (s.dev.tick.next < t → t < s.dev.lt + 2000 + s.dev.tickNs)))) ∧
  (∀ s : State,
    (s.dev.role ≠ 4 → exec .takeover s = .next s) ∧
    (s.dev.grf.takeAt = none → exec .takeover s = .next s) ∧
    (∀ t, s.dev.grf.takeAt = some t → s.dev.lt < t → exec .takeover s = .next s) ∧
    (∀ t, s.dev.grf.takeAt = some t → t ≤ s.dev.lt → s.dev.role = 4 → s.dev.trlOn = false → s.dev.grf.commits = [] → s.dev.grf.steps = [] →
      s.dev.grf.caps = [] → s.dev.items.store = [] → (∀ k < 512, s.dev.bit (Reg.STN_CFG k) 31 = false) →
      Does .takeover s fun d' =>
        Dev.Frame (fun d => { d with grf := default, drv := [], pins := [], stn := default })
          (fun k => among [Reg.GRF_STATUS, Reg.GRF_EPOCH, Reg.GRF_TAKEOVER_LT, Reg.GRF_TAKEOVERS, Reg.COMMIT_NEXT_CSN, Reg.ITEM_SEQ_NEXT,
            Reg.GRF_EVT, Reg.PIN_SWITCHES] k || ((List.range 8).map Reg.ITEM_PJOB).contains k || ((List.range 512).map Reg.STN_STATUS).contains k ||
            logReg k) s.dev d' ∧
        d'.role = 2 ∧ d'.rd Reg.GRF_EPOCH = s.dev.nextEpoch ∧ d'.rd Reg.GRF_TAKEOVER_LT = t % 2 ^ 64 ∧
        d'.rd Reg.GRF_TAKEOVERS = min (s.dev.rd Reg.GRF_TAKEOVERS + 1) 0xFFFFFFFF ∧
        (s.dev.grf.highCsn + 65536 < 2 ^ 32 → d'.rd Reg.COMMIT_NEXT_CSN = s.dev.grf.highCsn + 65536) ∧
        (∀ b < 8, d'.rd (Reg.ITEM_PJOB b) = (s.dev.rd (Reg.ITEM_PJOB b) + 64 * s.dev.fld (Reg.ITEM_PJOB_CFG b) 0 16) % 2 ^ 32) ∧
        d'.bit Reg.GRF_EVT 3 = true ∧ d'.grf.takeAt = none ∧ ∀ i < 248, roleSleep i = true → (d'.pin i).sleep = none))

/-- Power domains and states: a request of domains is taken or refused, Flagar switches one domain, refuses it or asks the image die for it, an access to an
off domain acts as R553 gives it, a low state is refused with its cause or entered, and a wake undoes, follows or ends it. -/
def Obligations.PowerStates : Prop :=
  (∀ (s : State) (src : Fin 30) (w : Fin 3) (v : BitVec 32), s.dev.Reach src.val (Reg.PWR_DOM_REQ w.val) →
    Does (.pwrDomReq src w v) s fun d' =>
      Dev.Frame (fun d => { d with pwr := default }) (among [Reg.PWR_DOM_REQ w.val, Reg.PWR_EVT]) s.dev d' ∧
      { d'.pwr with refused := [] } = { s.dev.pwr with refused := [] } ∧
      (∀ i < 32, d'.bit (Reg.PWR_DOM_REQ w.val) i =
        if 32 * w.val + i < 68 ∧ domFixed (32 * w.val + i) = false then tb v.toNat i else s.dev.bit (Reg.PWR_DOM_REQ w.val) i) ∧
      (∀ k, (k / 32 ≠ w.val ∨ domFixed k = true) → (k ∈ d'.pwr.refused ↔ k ∈ s.dev.pwr.refused)) ∧
      ∀ k < 68, k / 32 = w.val → domFixed k = false →
        (k ∈ d'.pwr.refused ↔ tb v.toNat (k % 32) = false ∧ s.dev.domOn k = true ∧ s.dev.domRefused k = true) ∧
        (k ∈ d'.pwr.refused → d'.bit Reg.PWR_EVT 2 = true)) ∧
  (∀ s : State,
    let p := s.dev.pwr
    (p.step = 3 → exec .domainSwitch s = .next s) ∧
    (p.step = 0 → p.switching.isSome = true → exec .domainSwitch s = .next s) ∧
    (p.step = 0 → s.dev.nextDom = none → exec .domainSwitch s = .next s) ∧
    (∀ k, p.step = 0 → p.switching = none → s.dev.nextDom = some k →
      (s.dev.domReq k = false → s.dev.domRefused k = true →
        Does .domainSwitch s fun d' =>
          Dev.Frame (fun d => { d with pwr := default }) (among [Reg.PWR_EVT]) s.dev d' ∧ d'.bit Reg.PWR_EVT 2 = true ∧
          d'.pwr = { p with refused := p.refused ++ [k] } ∧ ∀ j < 96, d'.domOn j = s.dev.domOn j) ∧
      ((s.dev.domReq k = true ∨ s.dev.domRefused k = false) → k < 39 → domRetains k = true →
        Does .domainSwitch s fun d' =>
          Dev.Frame id (among [Reg.PWR_DOM_STAT (k / 32)]) s.dev d' ∧ (∀ j < 96, d'.domOn j = if j = k then s.dev.domReq k else s.dev.domOn j)) ∧
      ((s.dev.domReq k = true ∨ s.dev.domRefused k = false) → 33 ≤ k → k < 36 →
        Does .domainSwitch s fun d' =>
          Dev.Frame id (fun r => among [Reg.PWR_DOM_STAT (k / 32)] r || powDomain r == k) s.dev d' ∧ d'.domOn k = s.dev.domReq k ∧
          ∀ r w, powDomain r = k → irqReg r = false → regRow r = some w → w.kept = false → d'.rd r = resetOf r) ∧
      ((s.dev.domReq k = true ∨ s.dev.domRefused k = false) → 39 ≤ k →
        Does .domainSwitch s fun d' =>
          Dev.Frame (fun d => { d with pwr := default, stem := [] }) (among []) s.dev d' ∧
          d'.pwr = { p with switching := some (k, s.dev.domReq k) } ∧
          ((s.dev.stemEnd 0).retry.length < 64 → (s.dev.stemEnd 0).queue = [] → s.dev.stemUp = true →
            (d'.stemEnd 0).retry = (s.dev.stemEnd 0).retry ++
              [⟨(s.dev.stemEnd 0).txSeq, 5, 0, leBytes 4 (putBits s.dev.imageDoms (k - 39) 1 (b2n (s.dev.domReq k)))⟩]))) ∧
    ((p.step = 1 ∨ p.step = 2) → p.low = 2 → p.woke = [] → (∀ k ∈ entryDoms 2, s.dev.domOn k = false) →
      Does .domainSwitch s fun d' =>
        Dev.Frame (fun d => { d with pwr := default }) (among [Reg.PWR_STATE, Reg.PWR_LAST, Reg.PWR_LAST_ENTRY]) s.dev d' ∧
        d'.pwr = { p with step := 3 } ∧ d'.fld Reg.PWR_STATE 0 3 = 2 ∧ d'.fld Reg.PWR_LAST 0 3 = 2 ∧
        d'.rd Reg.PWR_LAST_ENTRY = min 65535 ((s.dev.lt - p.began) / 10000))) ∧
  (∀ (s : State) (src : Fin 30) (a : BitVec 48) (r : RegDef), isReg a.toNat r = true → (crosses src.val a.toNat = true → s.dev.stemUp = true) →
    s.dev.domOn (powDomain a.toNat) = false →
    (∀ bs : List Byte, bs.length = 4 →
      Does (.offAccess src false a bs) s fun d' =>
        Dev.Frame id (among [Reg.PWR_EVT]) s.dev d' ∧ d'.bit Reg.PWR_EVT 3 = true ∧ Emit.event 4 [src.val, a.toNat, 0] ∈ d'.sent) ∧
    (∀ bs : List Byte, bs.length = 4 → s.dev.standbyDrops src.val = false → r.cmt = 0 →
      Does (.offAccess src true a bs) s fun d' => Dev.Frame id (among [Reg.PWR_EVT]) s.dev d' ∧ d'.bit Reg.PWR_EVT 3 = true) ∧
    (∀ bs : List Byte, bs.length = 4 → s.dev.standbyDrops src.val = false → r.cmt ≠ 0 →
      let g := s.dev.srcGrp src.val
      Does (.offAccess src true a bs) s fun d' =>
        Dev.Frame noCommit (among [Reg.PWR_EVT, Reg.COMMIT_CONFLICTS, Reg.COMMIT_EVT]) s.dev d' ∧ d'.bit Reg.PWR_EVT 3 = true ∧
        d'.commit.claims = s.dev.commit.claims ∧ (d'.grp g).why = (if (s.dev.grp g).why = 0 then 1 else (s.dev.grp g).why) ∧
        d'.rd Reg.COMMIT_CONFLICTS = min (s.dev.rd Reg.COMMIT_CONFLICTS + 1) 0xFFFFFFFF)) ∧
  (∀ (s : State) (src : Fin 30) (a : BitVec 48) (bs : List Byte) (write : Bool), 0x10000000000 ≤ a.toNat → a.toNat + bs.length ≤ 0x10001000000 →
    bs ≠ [] → s.dev.domOn 64 = false → (write = true → s.dev.standbyDrops src.val = false) →
    Does (.offAccess src write a bs) s fun d' =>
      Dev.Frame id (fun k => among [Reg.PWR_EVT] k || (src.val == 25 && among [Reg.HOST_NT, Reg.HOST_EVT] k)) s.dev d' ∧
      d'.bit Reg.PWR_EVT 3 = true) ∧
  (∀ (s : State) (src : Fin 30), s.dev.Reach src.val Reg.PWR_STATE_REQ →
    let p := s.dev.pwr
    let dram := s.dev.fld Reg.MEMC_STATUS 0 2
    let refused := fun (low : Nat) (d' : Dev) =>
      Dev.Frame id (among [Reg.PWR_STATE, Reg.PWR_EVT]) s.dev d' ∧ d'.fld Reg.PWR_STATE 4 3 = low ∧
      d'.fld Reg.PWR_STATE 8 4 = s.dev.stateRefuse low ∧ d'.bit Reg.PWR_EVT 0 = true
    let entered := fun (low : Nat) (d' : Dev) =>
      Dev.Frame (fun d => { d with pwr := default, pins := [] }) (among [Reg.PWR_STATE, Reg.MEMC_STATUS, Reg.PIN_SWITCHES]) s.dev d' ∧
      d'.fld Reg.PWR_STATE 4 3 = low ∧ d'.pwr = { p with low := low, step := 1, began := s.dev.lt, woke := [] } ∧
      d'.fld Reg.MEMC_STATUS 0 2 = (if dram = 2 then 3 else dram) ∧
      (p.step = 0 → ∀ i < 248, s.dev.fld (Reg.PIN_CFG i) 10 2 ≠ 3 → (d'.pin i).sleep = some (s.dev.pinSleepState i))
    ((p.step ≠ 3 ∨ p.low ≠ 2) →
      (s.dev.stateRefuse 2 ≠ 0 → Does (.standby src) s (refused 2)) ∧ (s.dev.stateRefuse 2 = 0 → Does (.standby src) s (entered 2))) ∧
    ((p.step ≠ 3 ∨ p.low ≠ 3) →
      (s.dev.stateRefuse 3 ≠ 0 → Does (.cloche src) s (refused 3)) ∧ (s.dev.stateRefuse 3 = 0 → Does (.cloche src) s (entered 3))) ∧
    (p.step ≠ 3 → exec (.pwrRun src) s = .next s) ∧
    (p.step = 3 → p.low = 2 → (∀ k < 68, s.dev.domReq k = true ∨ domFixed k = true → s.dev.domOn k = true) →
      s.dev.follows = false → s.dev.role ≠ 5 →
      Does (.pwrRun src) s fun d' =>
        Dev.Frame (fun d => { d with pwr := default, pins := [] })
          (among [Reg.PWR_STATE, Reg.PWR_LAST, Reg.PWR_EVT, Reg.MEMC_STATUS, Reg.PIN_SWITCHES]) s.dev d' ∧
        d'.fld Reg.PWR_STATE 0 3 = 0 ∧ d'.fld Reg.PWR_STATE 4 3 = 0 ∧ d'.pwr = { p with low := 0, step := 0, woke := [] } ∧
        d'.bit Reg.PWR_EVT 5 = true ∧ d'.fld Reg.MEMC_STATUS 0 2 = (if dram = 3 then 2 else dram) ∧
        ∀ i < 248, (d'.pin i).sleep = none)) ∧
  (∀ (s : State) (src : Fin 8) (k : Fin 512),
    let p := s.dev.pwr
    ((p.step = 0 ∨ s.dev.wakeOk src.val k.val = false) → exec (.wakeEvent src k) s = .next s) ∧
    (p.step = 2 → s.dev.wakeOk src.val k.val = true → (src ≠ 0 ∨ s.dev.cloche = false) →
      exec (.wakeEvent src k) s = .next { s with dev := { s.dev with pwr := { p with woke := p.woke ++ [src.val] } } }) ∧
    (p.step = 1 → s.dev.wakeOk src.val k.val = true → (src ≠ 0 ∨ s.dev.cloche = false) → s.dev.follows = false → s.dev.role ≠ 5 →
      Does (.wakeEvent src k) s fun d' =>
        Dev.Frame (fun d => { d with pwr := default, pins := [] }) (among [Reg.PWR_EVT, Reg.MEMC_STATUS, Reg.PIN_SWITCHES]) s.dev d' ∧
        d'.pwr = { p with low := 0, step := 0, woke := [] } ∧ d'.bit Reg.PWR_EVT 1 = true ∧ ∀ i < 248, (d'.pin i).sleep = none)) ∧
  (∀ (s : State) (m : BitVec 28),
    s.dev.domOn 66 = tb m.toNat 27 →
    Does (.domReq m) s fun d' =>
      Dev.Frame (fun d => { d with camin := [], quads := [], pipes := [], ras := [], disp := [], draw := [], stem := [] })
        (fun r => among [Reg.PWR_DOM_STAT 1, Reg.PWR_DOM_STAT 2] r || (decide (39 ≤ powDomain r) && decide (powDomain r < 66))) s.dev d' ∧
      (∀ k < 28, d'.domOn (39 + k) = if domFixed (39 + k) = true then s.dev.domOn (39 + k) else tb m.toNat k) ∧
      ∃ f : Flit, f.ty = 5 ∧ f.targ = 2 ^ 36 ∧ f.payload = leBytes 4 d'.imageDoms ++ leBytes 4 0 ∧
        ((d'.stemEnd 1).retry.getLast? = some f ∨ (d'.stemEnd 1).queue.getLast? = some f)) ∧
  (∀ (s : State) (on failed : BitVec 28),
    Does (.domAck on failed) s fun d' =>
      Dev.Frame (fun d => { d with pwr := default }) (among [Reg.PWR_DOM_STAT 1, Reg.PWR_DOM_STAT 2]) s.dev d' ∧
      d'.pwr = { s.dev.pwr with switching := none } ∧
      ∀ k < 68, d'.domOn k =
        if k < 39 ∨ 66 < k ∨ domFixed k = true then s.dev.domOn k else tb on.toNat (k - 39) && !tb failed.toNat (k - 39))

/-- Clocks and health: a cluster's wanted clock is committed in group 7, at once or after the wait of R569; readings, droops and monitors change
the health registers and their counts, and a margin plan ends with its epoch counted and the worst margins renewed. -/
def Obligations.ClocksAndHealth : Prop :=
  (∀ (s : State) (c : Fin 6),
    let k := Reg.CLK_CLUS_SEL c.val
    let want := s.dev.clusWant c.val
    let now := s.dev.fld k 0 11
    ((want = now ∨ s.dev.grp7Free = false ∨ (s.dev.pwr.capWait.isSome = true ∧ want < now)) → exec (.clusterClockChange c) s = .next s) ∧
    (want ≠ now → s.dev.grp7Free = true → s.dev.pwr.capWait = none → s.dev.follows = false → (s.dev.grp 7).why = 0 →
      aget s.dev.commit.claims k = none →
      Does (.clusterClockChange c) s fun d' =>
        Dev.Frame noCommit (among [Reg.CLK_STATUS, Reg.COMMIT_GRP_CTRL 7]) s.dev d' ∧ d'.fld Reg.CLK_STATUS (2 * c.val) 2 = 3 ∧
        aget d'.commit.claims k = some ⟨7, BitVec.ofNat 64 (mergeMask (s.dev.rd k) want 0x7FF)⟩ ∧
        (∀ j, j ≠ k → aget d'.commit.claims j = aget s.dev.commit.claims j) ∧ (d'.grp 7).mode = .pending ∧ (d'.grp 7).bnd = 0 ∧
        (d'.grp 7).goSrc = 24 ∧ Others s.dev.commit.grps d'.commit.grps 7)) ∧
  (∀ s : State,
    let b := s.dev.fld Reg.HEALTH_CFG 24 3
    let body := fun (d : Dev) => { d with pwr := default, commit := default }
    (s.dev.pwr.capWait = none → exec .capCommitWait s = .next s) ∧
    (∀ t : Nat × Bool, s.dev.pwr.capWait = some t →
      (s.dev.capLowers = [] →
        exec .capCommitWait s = .next { s with dev := { s.dev with pwr := { s.dev.pwr with capWait := none } } }) ∧
      (s.dev.capLowers ≠ [] → s.dev.grp7Free = false → exec .capCommitWait s = .next s) ∧
      (s.dev.capLowers ≠ [] → (s.dev.beam b).mode = .run → s.dev.beamLive b ≠ 0 → s.dev.lt < t.1 → t.2 = false →
        exec .capCommitWait s = .next s) ∧
      (s.dev.capLowers ≠ [] → s.dev.grp7Free = true → s.dev.follows = false → (s.dev.grp 7).why = 0 →
        (∀ c < 6, aget s.dev.commit.claims (Reg.CLK_CLUS_SEL c) = none) →
        ((s.dev.beam b).mode ≠ .run ∨ s.dev.beamLive b = 0 ∨ t.1 ≤ s.dev.lt ∨ t.2 = true) →
        Does .capCommitWait s fun d' =>
          Dev.Frame body (among [Reg.CLK_STATUS, Reg.COMMIT_GRP_CTRL 7]) s.dev d' ∧ d'.pwr = { s.dev.pwr with capWait := none } ∧
          (d'.grp 7).mode = .pending ∧ (d'.grp 7).bnd = (if (s.dev.beam b).mode = .run then 3 else 0) ∧ (d'.grp 7).beam = b ∧
          ∀ c ∈ s.dev.capLowers, aget d'.commit.claims (Reg.CLK_CLUS_SEL c) =
            some ⟨7, BitVec.ofNat 64 (mergeMask (s.dev.rd (Reg.CLK_CLUS_SEL c)) (s.dev.clusWant c) 0x7FF)⟩))) ∧
  (∀ s : State,
    Does .refLoss s fun d' =>
      Dev.Frame (fun d => { d with pwr := default }) (fun k => among [Reg.CLK_STATUS, Reg.BEAM_LT_STATUS, Reg.CLK_EVT] k || logReg k) s.dev d' ∧
      d'.pwr = { s.dev.pwr with refLost := true } ∧ d'.bit Reg.CLK_STATUS 16 = false ∧ d'.bit Reg.BEAM_LT_STATUS 0 = false ∧
      d'.bit Reg.CLK_EVT 2 = true) ∧
  (∀ (s : State) (ts : List (BitVec 16)),
    let v := fun (i : Nat) => (ts.getD i 0).toNat
    (∀ i < 10, sx 16 (v i) < (s.dev.fld Reg.HEALTH_THERM 0 8 : Int) * 16 ∧ sx 16 (v i) < (s.dev.fld Reg.HEALTH_THERM 8 8 : Int) * 16 ∧
      sx 16 (v i) < 1920) →
    (∀ i < 24, 10 ≤ i → s.dev.temp i < 1920) → s.dev.pwr.caps = [] → s.dev.pwr.trip = false → s.dev.cloche = false →
    s.dev.pwr.ms + 1 < 3600000 →
    Does (.thermalSample ts) s fun d' =>
      Dev.Frame (fun d => { d with pwr := default })
        (fun k => among [Reg.HEALTH_TJ, Reg.HEALTH_TJ_MAX] k || ((List.range 10).map Reg.HEALTH_TEMP).contains k) s.dev d' ∧
      d'.pwr = { s.dev.pwr with ms := s.dev.pwr.ms + 1 } ∧ (∀ i < 10, d'.temp i = sx 16 (v i)) ∧
      ∃ m < 24, (∀ i < 24, d'.temp i ≤ d'.temp m) ∧ d'.rd Reg.HEALTH_TJ = (d'.rd (Reg.HEALTH_TEMP m) + m * 2 ^ 16) % 2 ^ 32 ∧
        d'.temp m ≤ sx 16 (d'.rd Reg.HEALTH_TJ_MAX)) ∧
  (∀ (s : State) (i v : BitVec 16),
    let warn := (s.dev.fld Reg.HEALTH_THERM 0 8 : Int) * 16
    let crit := (s.dev.fld Reg.HEALTH_THERM 8 8 : Int) * 16
    let k := Reg.HEALTH_TEMP i.toNat
    let body := fun (d : Dev) => { d with pwr := default }
    ((i.toNat < 10 ∨ 24 ≤ i.toNat) → exec (.therm i v) s = .next s) ∧
    (10 ≤ i.toNat → i.toNat < 24 → s.dev.pwr.caps = [] → s.dev.pwr.trip = false → sx 16 v.toNat < 1920 →
      (∀ j < 24, j ≠ i.toNat → s.dev.temp j < 1920) → sx 16 v.toNat < crit →
      (sx 16 v.toNat < warn →
        Does (.therm i v) s fun d' =>
          Dev.Frame body (among [Reg.HEALTH_TJ, Reg.HEALTH_TJ_MAX, k]) s.dev d' ∧ d'.temp i.toNat = sx 16 v.toNat ∧ d'.pwr = s.dev.pwr) ∧
      (warn ≤ sx 16 v.toNat → s.dev.temp i.toNat < warn →
        Does (.therm i v) s fun d' =>
          Dev.Frame body (fun r => among [Reg.HEALTH_TJ, Reg.HEALTH_TJ_MAX, k, Reg.HEALTH_EVT] r || logReg r) s.dev d' ∧
          d'.temp i.toNat = sx 16 v.toNat ∧ d'.bit Reg.HEALTH_EVT 1 = true))) ∧
  (∀ (s : State) (m : Fin 16) (n : BitVec 32),
    let p := s.dev.pwr
    let fresh := p.droopAt + 1000000000 ≤ s.dev.lt ∨ p.droops = 0
    let was := if fresh then 0 else p.droops
    let pass := 64 < was + n.toNat ∧ was ≤ 64
    let done := fun (d' : Dev) =>
      Dev.Frame (fun d => { d with pwr := default, cores := [] })
        (fun k => among [Reg.HEALTH_DROOP] k || (decide pass && (among [Reg.HEALTH_EVT] k || logReg k))) s.dev d' ∧
      d'.rd Reg.HEALTH_DROOP = min (s.dev.rd Reg.HEALTH_DROOP + n.toNat) 0xFFFFFFFF ∧
      d'.pwr = { p with droops := was + n.toNat, droopAt := if fresh then s.dev.lt else p.droopAt, planDue := p.planDue || decide pass } ∧
      (∀ c, d'.core c = if m.val < 6 ∧ n ≠ 0 ∧ c / 4 = m.val then { s.dev.core c with slow := 4000 } else s.dev.core c) ∧
      (pass → d'.bit Reg.HEALTH_EVT 3 = true)
    Does (.droop m n) s done ∧ Does (.droopReport m n) s done) ∧
  (∀ (s : State) (first : BitVec 16) (n : Fin 16),
    let q := s.dev.stemEnd 1
    q.retry.length < 64 → q.queue = [] → s.dev.stemUp = true →
    Does (.monRead first n) s fun d' =>
      Dev.Frame (fun d => { d with stem := [] }) (among []) s.dev d' ∧
      ∃ l : List Nat, l.length = 4 * n.val ∧
        (d'.stemEnd 1).retry = q.retry ++ [⟨q.txSeq, 5, 3 * 2 ^ 36, leBytes 4 first.toNat ++ l⟩]) ∧
  (∀ (s : State) (first : BitVec 16) (vs : List (BitVec 32)) (m : Nat), m < 16 → first.toNat = 6 * m → vs.length = 6 →
    Does (.monData first vs) s fun d' =>
      Dev.Frame (fun d => { d with pwr := default }) (among [Reg.HEALTH_MARGIN m]) s.dev d' ∧
      { d'.pwr with slack := [], planDue := false } = { s.dev.pwr with slack := [], planDue := false } ∧
      (∀ i < 6, tget d'.pwr.slack (6 * m + i) = (vs.getD i 0).toNat) ∧
      (∀ j, (j < 6 * m ∨ 6 * m + 6 ≤ j) → tget d'.pwr.slack j = tget s.dev.pwr.slack j) ∧
      ∃ least : Int, (∀ i < 6, least ≤ sx 32 (vs.getD i 0).toNat) ∧ (∃ i < 6, least = sx 32 (vs.getD i 0).toNat) ∧
        let plain := least - (s.dev.fld Reg.HEALTH_GB 0 8 : Int)
        let v := if s.dev.overClocked m then min plain (-1) else plain
        let urgent : Int := s.dev.fld Reg.HEALTH_CFG 16 8
        d'.fld (Reg.HEALTH_MARGIN m) 0 16 = tw 16 v ∧ d'.fld (Reg.HEALTH_MARGIN m) 16 16 = tw 16 (min v (s.dev.marginWorst m)) ∧
        (d'.pwr.planDue = true ↔ s.dev.pwr.planDue = true ∨ (v < urgent ∧ urgent ≤ s.dev.marginNow m))) ∧
  (∀ (s : State) (l : List (List (BitVec 16))) (bad : BitVec 8), s.dev.pwr.planDue = false → exec (.healthPlan l bad) s = .next s) ∧
  (∀ (s : State) (ms : List (BitVec 16)) (bad : BitVec 8), s.dev.pwr.planDue = true →
    (∀ r < 8, s.dev.bit (Reg.PWR_RAIL_CFG r) 31 = false) →
    Does (.healthPlan [ms] bad) s fun d' =>
      Dev.Frame (fun d => { d with pwr := default })
        (fun k => decide (k / 0x10000 = 0x3FF0003) || ((List.range 6).map Reg.CLK_CLUS_CAP).contains k || logReg k) s.dev d' ∧
      d'.rd Reg.HEALTH_EPOCH = (s.dev.rd Reg.HEALTH_EPOCH + 1) % 2 ^ 32 ∧ d'.bit Reg.HEALTH_EVT 0 = true ∧
      d'.pwr.planDue = false ∧ d'.pwr.planAt = s.dev.rd Reg.HEALTH_HOURS ∧
      ∀ m < 16, d'.marginWorst m = d'.marginNow m ∧
        d'.marginNow m = if s.dev.overClocked m then min (sx 16 (ms.getD m 0).toNat) (-1) else sx 16 (ms.getD m 0).toNat)

/-- Log records and alarms: LOG_PUT appends the next record or makes the oldest two one GAP, a report opens or merges an alarm entry, a pending entry
goes to a path within its credits, an entry written everywhere is freed, the tail drains in order, and the read counts move as R585 and R185 let them. -/
def Obligations.LogsAndAlarms : Prop :=
  (∀ (s : State) (src : Fin 30) (v : BitVec 32), s.dev.Reach src.val Reg.LOG_PUT →
    let d := s.dev
    let w := fun (i : Nat) => tget d.log.put (4 * src.val + i)
    let seq := d.rd Reg.LOG_SEQ
    let r : LogRec := ⟨d.lt, seq, d.nodeId, 0, bits v.toNat 16 3, src.val, bits v.toNat 0 16, w 0, w 1, w 2⟩
    (d.bit Reg.LOG_CFG 0 = false → exec (.logPut src v) s = .next s) ∧
    (d.bit Reg.LOG_CFG 0 = true → d.log.tail.length < 512 →
      Does (.logPut src v) s fun d' =>
        Dev.Frame id (among [Reg.LOG_SEQ]) d d' ∧ d'.rd Reg.LOG_SEQ = (seq + 1) % 2 ^ 32 ∧ d'.log = { d.log with tail := d.log.tail ++ [r] } ∧
        d'.sent = d.sent) ∧
    (∀ r0 r1 t, d.bit Reg.LOG_CFG 0 = true → d.log.tail = r0 :: r1 :: t → 512 ≤ d.log.tail.length → r0.kind ≠ 1 →
      Does (.logPut src v) s fun d' =>
        Dev.Frame id (among [Reg.LOG_SEQ, Reg.LOG_DROP, Reg.LOG_EVT]) d d' ∧ d'.rd Reg.LOG_SEQ = (seq + 1) % 2 ^ 32 ∧
        d'.rd Reg.LOG_DROP = min (d.rd Reg.LOG_DROP + 2) 0xFFFFFFFF ∧ d'.bit Reg.LOG_EVT 3 = true ∧
        d'.log.tail = { r1 with kind := 1, sev := 0, src := 32, code := 0, d0 := 2, d1 := r0.seq, d2 := 0 } :: (t ++ [r]))) ∧
  (∀ (s : State) (subject reporter : BitVec 12) (cls : BitVec 8) (bitmap at0 : BitVec 64) (detail : BitVec 32) (held : Bool),
    let d := s.dev
    let report := Instr.alarmReport subject cls bitmap at0 detail reporter held
    let marked := fun (was : Tab Nat) (e : Alm) (d' : Dev) =>
      Dev.Frame id logReg d d' ∧ d'.bit Reg.LOG_EVT 0 = true ∧ d'.rd Reg.LOG_ALM_USED = almUsed d'.log.alm % 2 ^ 32 ∧
      ∀ p < 3, tget e.new p = min (tget was p + 1) 65535 ∧ (d.logPath p = true → tget e.pend p = true)
    (∀ i a, findAlm d.log.alm subject.toNat cls.toNat = some i → aget d.log.alm i = some a →
      Does report s fun d' => ∃ e, aget d'.log.alm i = some e ∧ marked a.new e d' ∧ (∀ j, j ≠ i → aget d'.log.alm j = aget d.log.alm j) ∧
        e.subject = a.subject ∧ e.fclass = a.fclass ∧ e.count = min (a.count + 1) 0xFFFFFFFF ∧ e.bitmap = a.bitmap ||| bitmap.toNat ∧
        e.firstLt = a.firstLt ∧ e.lastLt = d.lt ∧ e.detail = a.detail ∧ e.reporter = a.reporter ∧ e.held = (a.held || held)) ∧
    (∀ i, findAlm d.log.alm subject.toNat cls.toNat = none → freeAlm d.log.alm 960 0 = i → i < 960 →
      Does report s fun d' => ∃ e, aget d'.log.alm i = some e ∧ marked [] e d' ∧ (∀ j, j ≠ i → aget d'.log.alm j = aget d.log.alm j) ∧
        e.subject = subject.toNat ∧ e.fclass = cls.toNat ∧ e.count = 1 ∧ e.bitmap = bitmap.toNat ∧ e.firstLt = at0.toNat ∧ e.lastLt = d.lt ∧
        e.detail = detail.toNat ∧ e.reporter = reporter.toNat ∧ e.held = held ∧ e.mixed = false)) ∧
  (∀ (s : State) (src : Fin 30) (v : BitVec 32), s.dev.Reach src.val Reg.LOG_ALM_RAISE →
    let c := bits v.toNat 0 16
    let n := bits v.toNat 16 12
    ((c < 0x40 ∨ 0x7F < c) → exec (.logAlmRaise src v) s = .next s) ∧
    (∀ i, 0x40 ≤ c → c ≤ 0x7F → findAlm s.dev.log.alm n c = none → freeAlm s.dev.log.alm 960 0 = i → i < 960 →
      Does (.logAlmRaise src v) s fun d' =>
        Dev.Frame id logReg s.dev d' ∧ d'.bit Reg.LOG_EVT 0 = true ∧
        ∃ e, aget d'.log.alm i = some e ∧ e.subject = n ∧ e.fclass = c ∧ e.count = 1 ∧ e.bitmap = 2 ^ (s.dev.nodeId % 64) ∧
          e.firstLt = s.dev.lt ∧ e.reporter = s.dev.nodeId ∧ e.detail = tget s.dev.log.put (4 * src.val))) ∧
  (∀ (s : State) (p : Fin 3) (n : Fin 1024),
    let d := s.dev
    let q := p.val
    (aget d.log.alm n.val = none → exec (.alarmEntryWrite p n) s = .next s) ∧
    (∀ a, aget d.log.alm n.val = some a →
      let a' := { a with new := tput a.new q 0, pend := tput a.pend q false, written := tput a.written q (d.lt + 1) }
      let written := fun (d' : Dev) =>
        aget d'.log.alm n.val = some a' ∧ (∀ j, j ≠ n.val → aget d'.log.alm j = aget d.log.alm j) ∧
        tget d'.log.spentA q = tget d.log.spentA q + 32
      ((d.almPends q a = false ∨ d.almHeldOff q a = false ∨ d.resAlm q < tget d.log.spentA q + 32) →
        exec (.alarmEntryWrite p n) s = .next s) ∧
      (d.almPends q a = true → d.almHeldOff q a = true → tget d.log.spentA q + 32 ≤ d.resAlm q →
        (∀ k wr_ at_, q = 0 → k = clampN 4 16 (d.fld Reg.LOG_ARING_CFG 0 5) → wr_ = d.fld Reg.LOG_ARING_WR 0 17 →
          at_ = d.fld Reg.LOG_ARING_BASE 0 48 + 32 * (wr_ % 2 ^ k) → (wr_ + 2 ^ 17 - d.fld Reg.LOG_ARING_RD 0 17) % 2 ^ 17 < 2 ^ k →
          d.Open at_ 32 → (∀ j < 32, d.inRing (at_ + j) = false) →
          Does (.alarmEntryWrite p n) s fun d' =>
            Dev.FrameAt id (among [Reg.LOG_ARING_WR, Reg.LOG_EVT, Reg.LOG_ALM_USED]) at_ 32 d d' ∧ written d' ∧
            d'.rd Reg.LOG_ARING_WR = (wr_ + 1) % 2 ^ 17 ∧ d'.bit Reg.LOG_EVT 1 = true ∧ d'.load at_ 32 = a.bytes 0) ∧
        (∀ m, q = 1 → d.ethPeer = some m →
          Does (.alarmEntryWrite p n) s fun d' =>
            Dev.Frame id (among [Reg.LOG_ALM_USED]) d d' ∧ written d' ∧ d'.sent = (d.ethFrame m 5 0 32 0 0 (a.bytes 1)).sent) ∧
        (∀ port, q = 2 → d.Routed (d.fld Reg.LOG_CFG 16 12) port →
          Does (.alarmEntryWrite p n) s fun d' =>
            Dev.Frame (fun d => { d with trl := default }) (among [Reg.LOG_ALM_USED]) d d' ∧ written d' ∧
            d.SendsCell d' port ⟨(d.trlPort port).txSeq, 1, 0, d.fld Reg.LOG_CFG 16 12, d.nodeId, 0, false, false,
              almPayload a.subject a.fclass (tget a.new 2) a.bitmap a.firstLt a.lastLt a.detail a.reporter (tget a.written 2 != 0), d.lt⟩)))) ∧
  (∀ (s : State) (src : Fin 30) (v : BitVec 32) (n : Fin 1024) (a : Alm), s.dev.Reach src.val Reg.LOG_ALM_ACK →
    bits v.toNat 0 10 = n.val → aget s.dev.log.alm n.val = some a →
    let freed := fun (d' : Dev) =>
      Dev.Frame id (among [Reg.LOG_ALM_USED]) s.dev d' ∧ aget d'.log.alm n.val = none ∧
      (∀ j, j ≠ n.val → aget d'.log.alm j = aget s.dev.log.alm j) ∧ d'.rd Reg.LOG_ALM_USED = almUsed d'.log.alm % 2 ^ 32
    let quiet := ∀ p < 3, s.dev.almPends p a = false ∧ (s.dev.logPath p = true → tget a.new p = 0)
    let aged := s.dev.bit Reg.LOG_CFG 3 = true ∧ (∀ p < 3, s.dev.logPath p = true → tget a.written p ≠ 0) ∧ a.lastLt + 10 * s.dev.almHold ≤ s.dev.lt
    (quiet → Does (.logAlmAck src v) s freed) ∧ (¬ quiet → exec (.logAlmAck src v) s = .next s) ∧
    (quiet → aged → Does (.autoAck n) s freed) ∧ (¬ quiet ∨ ¬ aged → exec (.autoAck n) s = .next s)) ∧
  (∀ (s : State) (p : Fin 3), (s.dev.logWaits p.val = false ∨ s.dev.logCredit p.val < 32) → exec (.logTailDrain p) s = .next s) ∧
  (∀ (s : State) (r : LogRec) (t : List LogRec), s.dev.log.tail = r :: t → r.kind ≠ 1 →
    let d := s.dev
    let first := fun (p : Nat) => d.logPath p = true ∧ (∀ q < 3, q ≠ p → d.logPath q = false) ∧ tget d.log.next p = 0 ∧ 32 ≤ d.logCredit p ∧
      d.logCredit p < 64
    let w := d.rd Reg.LOG_RING_WR
    let taken := fun (p : Nat) (d' : Dev) => d'.log.tail = t ∧ tget d'.log.next p = 0 ∧ tget d'.log.spentL p = tget d.log.spentL p + 32
    (first 0 → d.Open (d.ringAt w) 32 → (w + 2 ^ 32 - d.rd Reg.LOG_RING_RD) % 2 ^ 32 ≠ 2 ^ (d.ringK - 5) →
      Does (.logTailDrain 0) s fun d' =>
        Dev.FrameAt id (among [Reg.LOG_RING_WR]) (d.ringAt w) 32 d d' ∧ taken 0 d' ∧ d'.rd Reg.LOG_RING_WR = (w + 1) % 2 ^ 32 ∧
        d'.load (d.ringAt w) 32 = r.bytes.map (· % 256)) ∧
    (∀ m, first 1 → d.ethPeer = some m →
      Does (.logTailDrain 1) s fun d' => Dev.Frame id (among []) d d' ∧ taken 1 d' ∧ d'.sent = (d.ethFrame m 4 0 32 0 0 r.bytes).sent) ∧
    (∀ port, first 2 → d.Routed (d.fld Reg.LOG_CFG 16 12) port →
      Does (.logTailDrain 2) s fun d' =>
        Dev.Frame (fun d => { d with trl := default }) (among []) d d' ∧ taken 2 d' ∧
        d.SendsCell d' port ⟨0, 6, 0, d.fld Reg.LOG_CFG 16 12, d.nodeId, 0, false, false, r.bytes, d.lt⟩)) ∧
  (∀ (s : State) (src : Fin 30) (v : BitVec 32), s.dev.Reach src.val Reg.LOG_RING_RD →
    let rd := s.dev.rd Reg.LOG_RING_RD
    let step := (v.toNat + 2 ^ 32 - rd) % 2 ^ 32
    let room := (s.dev.rd Reg.LOG_RING_WR + 2 ^ 32 - rd) % 2 ^ 32
    (0 < step → step ≤ room →
      Does (.logRingRd src v) s fun d' => Dev.Frame id (among [Reg.LOG_RING_RD]) s.dev d' ∧ d'.rd Reg.LOG_RING_RD = v.toNat) ∧
    ((step = 0 ∨ room < step) → exec (.logRingRd src v) s = .next s)) ∧
  (∀ (s : State) (src : Fin 30) (v : BitVec 32), s.dev.Reach src.val Reg.LOG_TRING_RD →
    let held := (s.dev.rd Reg.LOG_TRING_WR % 2 ^ 21 + 2 ^ 21 - v.toNat % 2 ^ 21) % 2 ^ 21
    (held ≤ 2 ^ s.dev.tringK →
      Does (.logTringRd src v) s fun d' =>
        Dev.Frame id (among [Reg.LOG_TRING_RD]) s.dev d' ∧ d'.rd Reg.LOG_TRING_RD = v.toNat % 2 ^ 21) ∧
    (2 ^ s.dev.tringK < held → exec (.logTringRd src v) s = .next s)) ∧
  (∀ (s : State) (src : Fin 30) (t : Fin 64) (v : BitVec 64), s.dev.Reach src.val (Reg.LOG_TRC_PUT t.val) →
    let d := s.dev
    let n := tget d.log.offers t.val + 1
    let k := d.trcShift t.val
    let offers := tput d.log.offers t.val n
    let key := among [Reg.LOG_TRC_PUT t.val]
    let buf := tget d.log.buf 0
    let r : TraceRec := ⟨d.lt % 2 ^ 32, d.nodeId, k, t.val, n, v.toNat⟩
    (d.bit Reg.LOG_CFG 0 = false → Does (.logTrcPut src t v) s fun d' => Dev.Frame id key d d' ∧ d'.log = d.log) ∧
    (d.bit Reg.LOG_CFG 0 = true → (n % 2 ^ k ≠ 0 ∨ ∀ p < 3, d.logPath p = false) →
      Does (.logTrcPut src t v) s fun d' => Dev.Frame id key d d' ∧ d'.log = { d.log with offers := offers }) ∧
    (d.bit Reg.LOG_CFG 0 = true → n % 2 ^ k = 0 → d.logPath 0 = true → d.logPath 1 = false → d.logPath 2 = false →
      d.bit (Reg.LOG_TRC_CFG t.val) 0 = true → buf.length < 64 → d.trcCredit 0 < 16 →
      Does (.logTrcPut src t v) s fun d' =>
        Dev.Frame id key d d' ∧
        d'.log = { d.log with offers := offers, offered := tput d.log.offered 0 (tget d.log.offered 0 + 16), buf := tput d.log.buf 0 (buf ++ [r]) })) ∧
  (∀ s : State,
    let d := s.dev
    let m := d.lt / 1000000
    (m = d.log.ms → exec .creditBoundary s = .next s) ∧
    (m ≠ d.log.ms → (∀ p < 3, d.logPath p = false) →
      Does .creditBoundary s fun d' =>
        Dev.Frame id (among []) d d' ∧ d'.log = { d.log with ms := m, spentA := [], spentL := [], spentT := [] }) ∧
    (m ≠ d.log.ms → d.logPath 0 = true → d.logPath 1 = false → d.logPath 2 = false → tget d.log.buf 0 = [] → d.resTrc 0 < tget d.log.offered 0 →
      Does .creditBoundary s fun d' =>
        Dev.Frame id (among [Reg.LOG_EVT]) d d' ∧ d'.log.ms = m ∧ d'.log.spentT = [] ∧ tget d'.log.offered 0 = 0 ∧
        ∀ t < 64, d'.trcShift t =
          if d.bit (Reg.LOG_TRC_CFG t) 0 = true ∧ d.trcShift t < 15 then d.trcShift t + 1 else d.trcShift t))

/-- Security: SEC_CMD acts for HOST and Flagar as the state admits; LOCK and OTP_PROG start a programming or are refused, PASSWORD and RESPOND unlock
or count a failure with its back-off, CHALLENGE opens a nonce, RELOCK closes the session, VERIFY reads an image that is then loaded or refused. -/
def Obligations.Security : Prop :=
  (∀ (s : State) (src : Fin 30) (confirm : BitVec 16), s.dev.Reach src.val Reg.SEC_CMD →
    let d := s.dev
    let ok := fun (v : Nat) => d.secAdmits src.val Reg.SEC_CMD v = true ∧ d.bit Reg.SEC_RESULT 31 = false
    let st := d.fld Reg.SEC_STATE 0 2
    let sec := fun (x : SecSt) (l : List Nat) (d' : Dev) => Dev.Frame (fun d => { d with sec := default }) (among l) d d' ∧ d'.sec = x
    let refused := fun (x : SecSt) (r : Nat) (d' : Dev) =>
      sec x [Reg.SEC_RESULT, Reg.SEC_EVT] d' ∧ d'.rd Reg.SEC_RESULT = r ∧ d'.bit Reg.SEC_EVT 2 = true
    let unlocked := fun (x : SecSt) (d' : Dev) =>
      sec { x with fails := 0, backAt := 0 } [Reg.SEC_RESULT, Reg.SEC_STATE, Reg.SEC_EVT] d' ∧ d'.rd Reg.SEC_RESULT = 0 ∧
      d'.fld Reg.SEC_STATE 0 2 = (if d.locked = true then 2 else st) ∧ d'.bit Reg.SEC_EVT 0 = true
    let failed := fun (x : SecSt) (r : Nat) (d' : Dev) =>
      sec { x with fails := d.sec.fails + 1,
                   backAt := if d.sec.fails + 1 < 16 then d.lt + 100000000 * 2 ^ d.sec.fails else d.sec.backAt }
        [Reg.SEC_RESULT, Reg.SEC_FAILS_TOTAL, Reg.SEC_EVT] d' ∧ d'.rd Reg.SEC_RESULT = r ∧
      d'.rd Reg.SEC_FAILS_TOTAL = min (d.rd Reg.SEC_FAILS_TOTAL + 1) 0xFFFFFFFF ∧ d'.bit Reg.SEC_EVT 1 = true
    let f := d.fld Reg.SEC_OTP_SEL 0 4
    let denied := 8 < f ∨ (st = 2 ∧ (f = 7 ∨ f = 8)) ∨ d.sec.programmed f = true
    let started := fun (x : SecSt) (d' : Dev) => sec x [Reg.SEC_RESULT] d' ∧ d'.rd Reg.SEC_RESULT = 2 ^ 31
    let ready := d.sec.programmed 7 = true ∧ d.sec.programmed 8 = true ∧ d.sec.pkSet = true
    (¬ ok (1 + confirm.toNat * 65536) ∨ confirm ≠ 0xC10C#16 → exec (.lock src confirm) s = .next s) ∧
    (ok (1 + confirm.toNat * 65536) → confirm = 0xC10C#16 →
      (st ≠ 0 → exec (.lock src confirm) s = .next s) ∧
      (st = 0 → ready → Does (.lock src confirm) s (started { d.sec with busy := some (9, []) })) ∧
      (st = 0 → ¬ ready → Does (.lock src confirm) s fun d' => sec d.sec [Reg.SEC_RESULT] d' ∧ d'.rd Reg.SEC_RESULT = 7)) ∧
    (¬ ok (7 + confirm.toNat * 65536) ∨ confirm ≠ 0xC10C#16 → exec (.otpProg src confirm) s = .next s) ∧
    (ok (7 + confirm.toNat * 65536) → confirm = 0xC10C#16 →
      (denied → Does (.otpProg src confirm) s fun d' => sec d.sec [Reg.SEC_RESULT] d' ∧ d'.rd Reg.SEC_RESULT = 12) ∧
      (¬ denied → Does (.otpProg src confirm) s (started { d.sec with busy := some (f, d.secData 32) }))) ∧
    (¬ ok 2 → exec (.password src) s = .next s) ∧
    (ok 2 →
      (16 ≤ d.sec.fails → Does (.password src) s (refused d.sec 5)) ∧
      (d.sec.fails < 16 → d.lt < d.sec.backAt → Does (.password src) s (refused d.sec 4)) ∧
      (d.sec.fails < 16 → d.sec.backAt ≤ d.lt →
        (d.sec.programmed 7 = true ∧ sha256 (d.secData 16) = d.sec.field 7 → Does (.password src) s (unlocked d.sec)) ∧
        (¬ (d.sec.programmed 7 = true ∧ sha256 (d.secData 16) = d.sec.field 7) → Does (.password src) s (failed d.sec 2)))) ∧
    (ok 3 →
      Does (.challenge src) s fun d' =>
        sec { d.sec with nonceAt := d.lt + 60000000000 } [Reg.SEC_NONCE 0, Reg.SEC_NONCE 1, Reg.SEC_NONCE 2, Reg.SEC_NONCE 3, Reg.SEC_RESULT] d' ∧
        d'.rd Reg.SEC_RESULT = 0) ∧
    (ok 4 →
      let x := { d.sec with nonceAt := 0 }
      let good := d.sec.programmed 8 = true ∧ hmacSha256 (d.sec.field 8) d.nonceMsg = d.secData 32
      (d.sec.nonceAt ≤ d.lt → Does (.respond src) s fun d' => sec d.sec [Reg.SEC_RESULT] d' ∧ d'.rd Reg.SEC_RESULT = 6) ∧
      (d.lt < d.sec.nonceAt → 16 ≤ d.sec.fails → Does (.respond src) s (refused x 5)) ∧
      (d.lt < d.sec.nonceAt → d.sec.fails < 16 → d.lt < d.sec.backAt → Does (.respond src) s (refused x 4)) ∧
      (d.lt < d.sec.nonceAt → d.sec.fails < 16 → d.sec.backAt ≤ d.lt →
        (good → Does (.respond src) s (unlocked x)) ∧ (¬ good → Does (.respond src) s (failed x 3)))) ∧
    (ok 5 →
      (st = 2 →
        Does (.relock src) s fun d' =>
          Dev.Frame id (fun k => among [Reg.SEC_RESULT, Reg.SEC_STATE, Reg.SEC_EVT] k || ((List.range 24).map Reg.CORECTL_CTRL).contains k) d d' ∧
          d'.fld Reg.SEC_STATE 0 2 = 1 ∧ d'.rd Reg.SEC_RESULT = 0 ∧ d'.bit Reg.SEC_EVT 6 = true ∧
          ∀ c < 24, d'.bit (Reg.CORECTL_CTRL c) 8 = false) ∧
      (st ≠ 2 → Does (.relock src) s fun d' => sec d.sec [Reg.SEC_RESULT] d' ∧ d'.rd Reg.SEC_RESULT = 0)) ∧
    (ok 6 → Does (.verify src) s (started { d.sec with verify := some (d.imgRead (d.fld Reg.SEC_IMG_ADDR 0 48)) }))) ∧
  (∀ s : State, s.dev.sec.verify = none → exec .verifyComplete s = .next s) ∧
  (∀ (s : State) (img : List Nat), s.dev.sec.verify = some img → s.dev.fld Reg.RST_STATUS 1 3 ≠ 5 →
    let h := img.take 256
    let load := imgLoad h
    let n := imgLen h
    let sec := { s.dev.sec with verify := none }
    ((s.dev.imgVerify img).1 ≠ 0 →
      Does .verifyComplete s fun d' =>
        Dev.Frame (fun d => { d with sec := default }) (among [Reg.SEC_RESULT, Reg.SEC_EVT]) s.dev d' ∧ d'.sec = sec ∧
        d'.rd Reg.SEC_RESULT = (s.dev.imgVerify img).1 ∧ d'.bit Reg.SEC_EVT 4 = true) ∧
    (∀ r u, s.dev.imgVerify img = (0, u) → s.dev.freeCode = some r → leAt h 6 1 = 2 → leAt h 12 4 = 0 → tb (leAt h 36 4) 1 = false →
      s.dev.role ≠ 2 → (∀ j < n, s.dev.inRing (load + j) = false) →
      Does .verifyComplete s fun d' =>
        Dev.FrameAt (fun d => { d with sec := default })
          (among [Reg.SEC_CODE r, Reg.SEC_CODE_LEN r, Reg.SEC_IMG_STATUS, Reg.SEC_RESULT, Reg.SEC_EVT]) load n s.dev d' ∧ d'.sec = sec ∧
        d'.rd (Reg.SEC_CODE r) = load ∧ d'.rd (Reg.SEC_CODE_LEN r) = n ∧ d'.rd Reg.SEC_RESULT = 0 ∧ d'.bit Reg.SEC_EVT 3 = true ∧
        ∀ j < n, d'.byte (load + j) = BitVec.ofNat 8 (img.getD (256 + j) 0))) ∧
  (∀ (s : State) (src : Fin 30) (a : BitVec 48) (bs : List Byte), 0x20001000000 ≤ a.toNat → a.toNat + bs.length ≤ 0x20001200000 → bs ≠ [] →
    s.dev.domOn 16 = true → (crosses src.val a.toNat = true → s.dev.stemUp = true) → src.val ≠ 24 →
    s.dev.role ≠ 2 → s.dev.standbyDrops src.val = false →
    (s.dev.locked = true → s.dev.codeHit a.toNat bs.length = true →
      Does (.codeDeny src a bs) s fun d' =>
        Dev.Frame id (among [Reg.SEC_CODE_DENY, Reg.SEC_EVT]) s.dev d' ∧ d'.bit Reg.SEC_EVT 5 = true ∧
        d'.rd Reg.SEC_CODE_DENY = min (s.dev.rd Reg.SEC_CODE_DENY + 1) 0xFFFFFFFF) ∧
    ((s.dev.locked = false ∨ s.dev.codeHit a.toNat bs.length = false) →
      Does (.codeDeny src a bs) s fun d' =>
        Dev.FrameAt id (among []) a.toNat bs.length s.dev d' ∧ ∀ j < bs.length, d'.byte (a.toNat + j) = bs.getD j 0)) ∧
  (∀ s : State,
    let x := { s.dev.sec with busy := none }
    let body := fun (d : Dev) => { d with sec := default }
    (s.dev.sec.busy = none → exec .fuseProgramDone s = .next s) ∧
    (∀ bs, s.dev.sec.busy = some (9, bs) →
      Does .fuseProgramDone s fun d' =>
        Dev.Frame body (fun k => among [Reg.SEC_RESULT, Reg.SEC_STATE, Reg.SEC_EVT, Reg.ID_LOCK] k ||
          ((List.range 24).map Reg.CORECTL_CTRL).contains k) s.dev d' ∧
        d'.sec = { x with lock := 255 } ∧ d'.rd Reg.ID_LOCK = 1 ∧ d'.fld Reg.SEC_STATE 0 2 = 1 ∧ d'.rd Reg.SEC_RESULT = 0 ∧
        d'.bit Reg.SEC_EVT 6 = true ∧ ∀ c < 24, d'.bit (Reg.CORECTL_CTRL c) 8 = false) ∧
    (∀ f bs, s.dev.sec.busy = some (f, bs) → f ≤ 8 → x.spoiled.contains f = false →
      Does .fuseProgramDone s fun d' =>
        Dev.Frame body (among [Reg.SEC_RESULT]) s.dev d' ∧ d'.rd Reg.SEC_RESULT = 0 ∧
        d'.sec =
          if f = 4 then { x with revoke := (x.revoke ||| leNum bs) % 16 }
          else if f = 5 then { x with rollback := (x.rollback ||| leAt bs 0 8) % 2 ^ 64 }
          else if f = 6 then { x with bootCfg := (x.bootCfg ||| leAt bs 0 1) % 256 }
          else if f < 4 then { x with pk := tput x.pk f bs } else if f = 7 then { x with pwd := bs } else { x with oem := bs }))

/-- Boot and resets: BOOT waits for the host, ends with no image, or releases Flagar; each reset class of R608 sets its cause, counts, returns its
own planes to their Reset values and leaves the others; BEAM_STOP holds beams. -/
def Obligations.BootAndResets : Prop :=
  (∀ (s : State) (src : Fin 4) (a b : List Byte),
    let d := s.dev
    let p := (nats a).take 0x200000
    let q := (nats b).take 0x200000
    let ra := d.bootCheck p
    let rb := d.bootCheck q
    let img := p.take (256 + imgLen p)
    let may := d.pwr.trip = false ∧ d.sec.flagar = none ∧ d.fld Reg.RST_STATUS 1 3 = 0 ∧ (src ≠ 1 ∨ tb d.sec.bootCfg 0 = true)
    ((d.pwr.trip = true ∨ d.sec.flagar.isSome = true ∨ d.fld Reg.RST_STATUS 1 3 ≠ 0) → exec (.boot src a b) s = .next s) ∧
    (d.pwr.trip = false → d.sec.flagar = none → d.fld Reg.RST_STATUS 1 3 = 0 → src = 1 → tb d.sec.bootCfg 0 = false →
      Does (.boot src a b) s fun d' =>
        Dev.Frame id (among [Reg.RST_BOOT, Reg.RST_STATUS]) d d' ∧ d'.rd Reg.RST_BOOT = 1 ∧ d'.fld Reg.RST_STATUS 1 3 = 5) ∧
    (may → ra.1 ≠ 0 → rb.1 ≠ 0 →
      Does (.boot src a b) s fun d' =>
        Dev.FrameAt id (among [Reg.RST_BOOT, Reg.RST_STATUS, Reg.RST_EVT]) 0x20001000000 0x200000 d d' ∧
        d'.rd Reg.RST_BOOT = (2 + ra.1 * 2 ^ 4 + rb.1 * 2 ^ 8) % 2 ^ 32 ∧
        d'.fld Reg.RST_STATUS 1 3 = (if tb d.sec.bootCfg 1 = true then 5 else 6) ∧ d'.bit Reg.RST_EVT 1 = true) ∧
    (may → ra.1 = 0 → imgsFrom 8192 (p.drop (imgSpan p)) = [] → d.role ≠ 2 →
      Does (.boot src a b) s fun d' =>
        (∀ k, among [Reg.RST_BOOT, Reg.RST_STATUS, Reg.RST_BOOT_TIME, Reg.SEC_CODE 0, Reg.SEC_CODE_LEN 0, Reg.SEC_IMG_STATUS, Reg.CLK_STATUS,
          Reg.STEM_STATUS, stemReg 1 Reg.STEM_STATUS] k = false → d'.rd k = d.rd k) ∧
        (∀ x, (x < 0x20001000000 ∨ 0x20001200000 ≤ x) → (x < imgLoad img ∨ imgLoad img + imgLen img ≤ x) → d'.byte x = d.byte x) ∧
        d'.fld Reg.RST_STATUS 1 3 = 4 ∧ d'.rd Reg.RST_BOOT_TIME ≤ 8000 ∧ d'.rd Reg.CLK_STATUS = 0x10FFF ∧
        d'.rd (Reg.SEC_CODE 0) = imgLoad img ∧ d'.rd (Reg.SEC_CODE_LEN 0) = imgLen img ∧ d'.sec.flagar = some (imgFlagar img 0) ∧
        (d'.core 24).mode = .run ∧ (d'.core 24).r.pc = leAt img 28 4 / 2 * 2 ∧ (d'.core 24).r.ssp = leAt img 32 4 ∧
        (∀ c, c ≠ 24 → d'.core c = d.core c) ∧ (d'.stemEnd 0).retrain = 2 ∧ (d'.stemEnd 1).retrain = 2 ∧ d'.items = d.items ∧
        d'.commit = d.commit)) ∧
  (∀ s : State, s.dev.sec.busy = none →
    let x := s.dev.sec
    Does .por s fun d' =>
      (x.lockSet = false → ∀ k, d'.rd k = resetOf k) ∧ (x.lockSet = true → d'.rd Reg.ID_LOCK = 1 ∧ d'.fld Reg.SEC_STATE 0 2 = 1) ∧
      d'.mem = [] ∧ d'.lt = 0 ∧ d'.tick.next = 16000 ∧ (∀ c < 24, (d'.core c).mode = .reset ∧ (d'.core c).r.ssp = 0x40000) ∧
      d'.dataStop = true ∧ d'.items = default ∧ d'.commit = default ∧ d'.log = default ∧ d'.sec.flagar = none ∧ d'.sec.verify = none ∧
      d'.sec.fails = 0 ∧ d'.sec.lock = x.lock ∧ d'.sec.pwd = x.pwd ∧ d'.sec.oem = x.oem ∧ d'.sec.pk = x.pk ∧ d'.sec.revoke = x.revoke ∧
      d'.sec.rollback = x.rollback ∧ d'.sec.bootCfg = x.bootCfg ∧ d'.bstopLow = s.dev.bstopLow) ∧
  (∀ (s : State) (src : Fin 30), s.dev.Reach src.val Reg.RST_CTRL → src.val ≠ 24 → src.val ≠ 25 →
    exec (.deviceReset src) s = .next s ∧ exec (.controlPlaneReset src) s = .next s ∧ exec (.dataPlaneReset src) s = .next s ∧
    exec (.managementPlaneReset src) s = .next s) ∧
  (∀ (s : State) (src : Fin 30), s.dev.Reach src.val Reg.RST_CTRL → (src.val = 24 ∨ src.val = 25) → s.dev.sec.busy = none →
    s.dev.sec.verify = none → (∀ g ∈ s.dev.grpKeys, (s.dev.grp g).mode ≠ .armed) → s.dev.bit Reg.GRF_CFG 31 = false → s.dev.role ≠ 2 →
    s.dev.role ≠ 5 → s.dev.fld Reg.MEMC_STATUS 0 2 ≠ 1 → (∀ p ∈ s.dev.items.store, p.2.printing = false) → s.dev.dataOff = false →
    let d := s.dev
    let noted := fun (bit : Nat) (d' : Dev) =>
      d'.bit Reg.RST_CAUSE bit = true ∧ d'.rd Reg.RST_COUNT = min (d.rd Reg.RST_COUNT + 1) 0xFFFFFFFF
    let drops := fun (l : List Nat) (but : List Nat) (d' : Dev) =>
      ∀ k w, inBlocks l k = true → but.contains k = false → irqReg k = false → regRow k = some w → w.kept = false → d'.rd k = resetOf k
    let ctl := fun (d : Dev) => { d with
      commit := default, items := default, tmr := [], cores := [], trl := default, beams := [], stn := default, cam := default, seq := default,
      trig := [], drv := [], est := [], tick := default, pins := [] }
    let data := fun (d : Dev) => { d with
      commit := default, camin := [], quads := [], pipes := [], ras := [], disp := [], draw := [], aud := default, dma := [], memcCfg := 0, seq := default }
    let seq := (List.range 8).map Reg.SEQ_STATUS ++ (List.range 8).map Reg.SEQ_EVT
    Does (.controlPlaneReset src) s (fun d' =>
      Dev.Frame ctl (fun k => inBlocks controlBlocks k || decide (corectlHigh ≤ k) || among [Reg.RST_CAUSE, Reg.RST_COUNT] k) d d' ∧
      noted 4 d' ∧ drops controlBlocks [] d' ∧ d'.commit = default ∧ d'.items = default ∧ d'.beams = [] ∧
      (∀ c < 24, (d'.core c).mode = .reset) ∧ d'.core 24 = d.core 24 ∧ d'.drv = []) ∧
    Does (.dataPlaneReset src) s (fun d' =>
      Dev.Frame data (fun k => inBlocks dataBlocks k || among (Reg.RST_CAUSE :: Reg.RST_COUNT :: seq) k) d d' ∧ noted 5 d' ∧
      drops dataBlocks [Reg.MEMC_STATUS] d' ∧ d'.camin = [] ∧ d'.quads = [] ∧ d'.pipes = [] ∧ d'.ras = [] ∧ d'.disp = [] ∧ d'.draw = [] ∧ d'.dma = [] ∧
      d'.fld Reg.MEMC_STATUS 0 2 = 1 ∧ d'.items = d.items) ∧
    (d.sec.flagar = none → d.sec.next = none → d.fld Reg.SEC_STATE 0 2 ≠ 2 → (∀ b < 8, d.bit (Reg.BEAM_CTRL b) 0 = false) →
      Does (.managementPlaneReset src) s fun d' =>
        Dev.Frame (fun d => { d with trl := default, grf := default, pwr := default, sec := default, cores := [], beams := [] })
          (fun k => inBlocks mgmtBlocks k) d d' ∧ noted 6 d' ∧
        (∀ k w, inBlocks mgmtBlocks k = true → irqReg k = false → regRow k = some w → w.kept = false → mgmtLive k = false →
          k ≠ Reg.SEC_STATE → k ≠ Reg.ID_LOCK → (k < 0x3FF00030040 ∨ 0x3FF000300A0 ≤ k) → k ≠ Reg.RST_CAUSE → k ≠ Reg.RST_COUNT →
          d'.rd k = resetOf k) ∧
        d'.log.alm = d.log.alm ∧ d'.log.tail = d.log.tail ∧ d'.trl.ports = [] ∧ d'.trl.idValid = false ∧ (∀ c < 24, d'.core c = d.core c)) ∧
    (d.fld Reg.SEC_STATE 0 2 ≠ 2 →
      Does (.deviceReset src) s fun d' =>
        noted 3 d' ∧ drops controlBlocks seq d' ∧ drops dataBlocks [] d' ∧ (∀ a, d'.byte a = d.byte a ∨ d.inRing a = true) ∧ d'.commit = default ∧
        d'.items = default ∧ (∀ c < 24, (d'.core c).mode = .reset) ∧ d'.core 24 = d.core 24 ∧ d'.pipes = [] ∧ d'.quads = [] ∧
        (d'.stemEnd 0).retrain = 2 ∧ (d'.stemEnd 1).retrain = 2 ∧ d'.dataStop = true ∧ d'.log = d.log ∧ d'.sec = d.sec)) ∧
  (∀ s : State, s.dev.sec.busy = none → s.dev.sec.verify = none → (∀ g ∈ s.dev.grpKeys, (s.dev.grp g).mode ≠ .armed) → s.dev.bit Reg.GRF_CFG 31 = false →
    s.dev.role ≠ 2 → s.dev.fld Reg.MEMC_STATUS 0 2 ≠ 1 → (∀ p ∈ s.dev.items.store, p.2.printing = false) → s.dev.dataOff = false →
    s.dev.fld Reg.SEC_STATE 0 2 ≠ 2 →
    let d := s.dev
    let drops := fun (l : List Nat) (d' : Dev) =>
      ∀ k w, inBlocks l k = true → among ((List.range 8).map Reg.SEQ_STATUS ++ (List.range 8).map Reg.SEQ_EVT) k = false → irqReg k = false →
        regRow k = some w → w.kept = false → d'.rd k = resetOf k
    Does .pinReset s fun d' =>
      d'.bit Reg.RST_CAUSE 1 = true ∧ d'.rd Reg.RST_COUNT = min (d.rd Reg.RST_COUNT + 1) 0xFFFFFFFF ∧ drops controlBlocks d' ∧
      drops dataBlocks d' ∧ (∀ a, d'.byte a = d.byte a ∨ d.inRing a = true) ∧ d'.commit = default ∧ d'.items = default ∧
      (∀ c < 25, (d'.core c).mode = .reset) ∧ d'.sec.flagar = none ∧ d'.sec.next = none ∧ d'.sec.lock = d.sec.lock ∧ d'.cloche = false ∧
      d'.log.tail = d.log.tail ∧ d'.log.alm = d.log.alm ∧ d'.dataStop = true ∧ (d'.stemEnd 0).retrain = 0) ∧
  (∀ (s : State) (reg : Option (BitVec 9)) (low : Bool), (∀ b < 8, s.dev.bit (Reg.BEAM_CTRL b) 0 = true → (s.dev.beam b).mode = .run) →
    let d := s.dev
    let r := match reg with | some v => v.toNat | none => d.rd Reg.RST_BSTOP
    let stop := fun (b : Nat) => tb r b = true ∨ (tb r 8 = true ∧ low = true)
    Does (.beamStop reg low) s fun d' =>
      Dev.Frame (fun d => { d with beams := [], bstopLow := false }) (among [Reg.RST_BSTOP, Reg.RST_EVT]) d d' ∧ d'.bstopLow = low ∧
      (∀ v, reg = some v → d'.rd Reg.RST_BSTOP = v.toNat) ∧
      (∀ b < 8, d.bit (Reg.BEAM_CTRL b) 0 = true →
        (stop b → (d'.beam b).mode = .hold ∧ (d'.beam b).v = 0 ∧ (d'.beam b).l = (d.beam b).l) ∧
        (¬ stop b → d.bit (Reg.BEAM_CTRL b) 5 = false → d.unitOk b = true → d'.beam b = d.beam b)) ∧
      (∀ b < 8, stop b → d.stopped b = false → d'.bit Reg.RST_EVT 2 = true))

/-- The host interfaces: PCIe and mailbox accesses complete, find no target or are discarded, a read times out, PERST_N drops reads under way, a
vector leaves service, the links change, MDIO runs, a WAKE frame wakes, and the TAP takes its instruction. -/
def Obligations.HostAccess : Prop :=
  (∀ (s : State) (bar0 : Bool) (off : BitVec 32) (size : BitVec 13) (tag : BitVec 16) (bs : List Byte), s.dev.hostIf false = false →
    exec (.hostRead bar0 off size tag) s = .next s ∧ exec (.hostWrite bar0 off bs) s = .next s) ∧
  (∀ (s : State) (off : BitVec 32) (size : BitVec 13) (tag : BitVec 16), s.dev.hostIf false = true → s.dev.host.waiting = [] →
    0 < size.toNat →
    let d := s.dev
    let w := off.toNat / 2 ^ 30
    let x := d.fld (Reg.HOST_WIN_BASE w) 30 18 * 2 ^ 30 + off.toNat % 2 ^ 30
    let n := size.toNat
    (d.bit (Reg.HOST_WIN_CFG w) 0 = true → 0x20001000000 ≤ x → x + n ≤ 0x20001200000 → d.domOn 16 = true →
      Does (.hostRead false off size tag) s fun d' =>
        Dev.Frame id (among []) d d' ∧ d'.host = d.host ∧ d'.sent = d.sent ++ [.completion tag.toNat (nats ((List.range n).map fun j => d.byte (x + j)))]) ∧
    (d.bit (Reg.HOST_WIN_CFG w) 0 = false →
      Does (.hostRead false off size tag) s fun d' =>
        Dev.Frame id (among [Reg.HOST_NT, Reg.HOST_EVT]) d d' ∧ d'.rd Reg.HOST_NT = min (d.rd Reg.HOST_NT + 1) 0xFFFFFFFF ∧
        d'.bit Reg.HOST_EVT 0 = true ∧ Emit.completion tag.toNat (List.replicate n 0xFF) ∈ d'.sent)) ∧
  (∀ (s : State) (off : BitVec 32) (tag : BitVec 16) (k : Nat) (r : RegDef), s.dev.hostIf false = true → s.dev.host.waiting = [] →
    isReg k r = true → plainRead k = true → r.rc = false → r.width = 32 → 0x300000D0000 ≤ k → k < 0x300000E0000 →
    off.toNat = k - 0x300000D0000 → s.dev.domOn (powDomain k) = true →
    Does (.hostRead true off 4 tag) s fun d' =>
      Dev.Frame id (among []) s.dev d' ∧ d'.sent = s.dev.sent ++ [.completion tag.toNat (leBytes 4 (s.dev.rd k))]) ∧
  (∀ (s : State) (off : BitVec 32) (bs : List Byte), s.dev.hostIf false = true → s.dev.host.waiting = [] → bs ≠ [] → s.dev.role ≠ 2 →
    s.dev.role ≠ 4 → s.dev.locked = false →
    let d := s.dev
    let w := off.toNat / 2 ^ 30
    let x := d.fld (Reg.HOST_WIN_BASE w) 30 18 * 2 ^ 30 + off.toNat % 2 ^ 30
    let n := bs.length
    let arrived := fun (d' : Dev) => d'.rd Reg.HOST_WR_PCIE = min (d.rd Reg.HOST_WR_PCIE + 1) 0xFFFFFFFF
    (d.bit (Reg.HOST_WIN_CFG w) 0 = true → d.bit (Reg.HOST_WIN_CFG w) 1 = false → 0x20001000000 ≤ x → x + n ≤ 0x20001200000 →
      d.domOn 16 = true →
      Does (.hostWrite false off bs) s fun d' =>
        Dev.FrameAt id (among [Reg.HOST_WR_PCIE]) x n d d' ∧ arrived d' ∧ d'.host = d.host ∧ ∀ j < n, d'.byte (x + j) = bs.getD j 0) ∧
    (d.bit (Reg.HOST_WIN_CFG w) 0 = true → d.bit (Reg.HOST_WIN_CFG w) 1 = false → regionOf x = .isram → d.fld Reg.RST_STATUS 1 3 ≠ 4 →
      Does (.hostWrite false off bs) s fun d' => Dev.Frame id (among [Reg.HOST_WR_PCIE]) d d' ∧ arrived d' ∧ d'.host = d.host) ∧
    (d.bit (Reg.HOST_WIN_CFG w) 0 = false ∨ d.bit (Reg.HOST_WIN_CFG w) 1 = true →
      Does (.hostWrite false off bs) s fun d' =>
        Dev.Frame id (among [Reg.HOST_WR_PCIE, Reg.HOST_NT, Reg.HOST_EVT]) d d' ∧ arrived d' ∧
        d'.rd Reg.HOST_NT = min (d.rd Reg.HOST_NT + 1) 0xFFFFFFFF ∧ d'.bit Reg.HOST_EVT 0 = true)) ∧
  (∀ s : State,
    ((∀ h ∈ s.dev.host.waiting, h.write = true ∨ s.dev.lt < h.at0 + s.dev.hostTmo) → exec .hostReadTimeout s = .next s) ∧
    (∀ h, s.dev.host.waiting = [h] → h.write = false → h.eth = false → h.at0 + s.dev.hostTmo ≤ s.dev.lt →
      Does .hostReadTimeout s fun d' =>
        Dev.Frame id (among [Reg.HOST_NT, Reg.HOST_EVT]) s.dev d' ∧ d'.host.waiting = [] ∧ d'.bit Reg.HOST_EVT 0 = true ∧
        d'.rd Reg.HOST_NT = min (s.dev.rd Reg.HOST_NT + 1) 0xFFFFFFFF ∧ Emit.completion h.tag (List.replicate h.size 0xFF) ∈ d'.sent)) ∧
  (∀ s : State,
    exec (.perstN false) s = .next s ∧
    ((∀ h ∈ s.dev.host.waiting, h.write = false ∧ h.eth = false) →
      Does (.perstN true) s fun d' =>
        Dev.Frame id (among [Reg.HOST_STATUS, Reg.HOST_EVT]) s.dev d' ∧ d'.fld Reg.HOST_STATUS 0 8 = 0 ∧
        d'.bit Reg.HOST_STATUS 8 = s.dev.bit Reg.HOST_STATUS 8 ∧ d'.host.waiting = [] ∧
        (s.dev.fld Reg.HOST_STATUS 0 2 ≠ 0 → d'.bit Reg.HOST_EVT 1 = true))) ∧
  (∀ (s : State) (src : Fin 30) (v : BitVec 32), s.dev.Reach src.val Reg.HOST_VEC_EOI →
    let d := s.dev
    let n := bits v.toNat 0 5
    let q := d.irq (d.fld (Reg.HOST_VEC_SRC n) 0 9)
    let due := tget d.host.again n = true ∨ (d.isLevel (d.fld (Reg.HOST_VEC_SRC n) 0 9) = true ∧ (q.cause = true ∨ q.latch = true))
    let serv := fun (on : Bool) (d' : Dev) => Dev.Frame id (among []) d d' ∧
      ∀ i < 32, d'.bit Reg.HOST_VEC_SERV i = if i = n then on else d.bit Reg.HOST_VEC_SERV i
    (d.bit Reg.HOST_VEC_SERV n = false → exec (.hostVecEoi src v) s = .next s) ∧
    (d.bit Reg.HOST_VEC_SERV n = true →
      (¬ due → Does (.hostVecEoi src v) s fun d' => serv false d' ∧ d'.host = d.host ∧ d'.sent = d.sent) ∧
      (due → d.vecMasked n = true →
        Does (.hostVecEoi src v) s fun d' => serv false d' ∧ d'.host = { d.host with pend := tput d.host.pend n true } ∧ d'.sent = d.sent) ∧
      (due → d.vecMasked n = false →
        Does (.hostVecEoi src v) s fun d' => serv true d' ∧ tget d'.host.pend n = false ∧ tget d'.host.again n = false ∧
          d'.sent = d.sent ++ [.msix n]))) ∧
  (∀ (s : State) (dst peer : BitVec 48) (ety : BitVec 16) (head data : List Byte) (write : Bool),
    let d := s.dev
    let h := nats head
    let req := if write = true then Instr.mailboxWrite dst peer ety head data else .mailboxRead dst peer ety head data
    let n := leAt h 2 2
    let tag := leAt h 4 4
    let x := leAt h 8 6
    let resp := fun (st len : Nat) (body : List Nat) =>
      Emit.eth (macBytes peer.toNat ++ macBytes (d.fld Reg.HOST_ETH_MAC 0 48) ++ [0x88, 0xB5, 3, st] ++ leBytes 2 len ++ leBytes 4 tag ++ body)
    let fresh := d.host.waiting = [] ∧ d.host.kept.find? (·.1 == tag) = none
    let taken := d.hostIf true = true ∧ d.ethTakes dst.toNat peer.toNat ety.toNat = true
    let answered := fun (st : Nat) (bytes : List Nat) (d' : Dev) => ∃ a : Nat, a < 2 ^ 48 ∧
      (let body := leBytes 8 a ++ leBytes 8 0 ++ bytes
       d'.sent = d.sent ++ [resp st bytes.length body] ∧ d'.host.waiting = [] ∧ d'.host.lastEth = peer.toNat ∧ (tag, st, body) ∈ d'.host.kept)
    (¬ taken → exec req s = .next s) ∧
    (taken → (leAt h 0 1 = 2 ↔ write = true) → ¬ (3 ≤ leAt h 0 1 ∧ leAt h 0 1 ≤ 7) →
      (∀ st body, d.host.kept.find? (·.1 == tag) = some (tag, st, body) →
        Does req s fun d' => Dev.Frame id (among []) d d' ∧ d'.host = d.host ∧ d'.sent = d.sent ++ [resp st (body.length - 16) body]) ∧
      (fresh → mailboxBad h (nats data) = true → Does req s fun d' => Dev.Frame id (among []) d d' ∧ answered 2 [] d') ∧
      (d.host.kept.find? (·.1 == tag) = none → mailboxBad h (nats data) = false → 16 ≤ (d.host.waiting.filter fun g => g.eth && !g.abandoned).length →
        Does req s fun d' => Dev.Frame id (among [Reg.HOST_EVT]) d d' ∧ d'.bit Reg.HOST_EVT 3 = true ∧ d'.host.waiting = d.host.waiting ∧
          ∃ a : Nat, resp 3 0 (leBytes 8 a ++ leBytes 8 0) ∈ d'.sent) ∧
      (fresh → mailboxBad h (nats data) = false → 0x20001000000 ≤ x → x + n ≤ 0x20001200000 → d.domOn 16 = true → d.locked = false → d.role ≠ 2 →
        d.role ≠ 4 →
        (write = false →
          Does req s fun d' => Dev.Frame id (among []) d d' ∧ answered 0 (nats ((List.range n).map fun j => d.byte (x + j))) d') ∧
        (write = true →
          Does req s fun d' => Dev.FrameAt id (among [Reg.HOST_WR_ETH]) x n d d' ∧ answered 0 [] d' ∧
            d'.rd Reg.HOST_WR_ETH = min (d.rd Reg.HOST_WR_ETH + 1) 0xFFFFFFFF ∧ ∀ j < n, d'.byte (x + j) = data.getD j 0)))) ∧
  (∀ (s : State) (dst peer : BitVec 48) (ety : BitVec 16) (head : List Byte),
    let p := s.dev.pwr
    let wakes := p.low = 3 ∧ s.dev.ethTakes dst.toNat peer.toNat ety.toNat = true ∧ leAt (nats head) 0 1 = 7 ∧ s.dev.bit Reg.PWR_WAKE_CFG 2 = true
    (¬ wakes ∨ p.step = 0 → exec (.wakeFrame dst peer ety head) s = .next s) ∧
    (wakes → p.step = 2 → exec (.wakeFrame dst peer ety head) s = .next { s with dev := { s.dev with pwr := { p with woke := p.woke ++ [2] } } }) ∧
    (wakes → p.step = 1 → s.dev.follows = false → s.dev.role ≠ 5 →
      Does (.wakeFrame dst peer ety head) s fun d' =>
        Dev.Frame (fun d => { d with pwr := default, pins := [] }) (among [Reg.PWR_EVT, Reg.MEMC_STATUS, Reg.PIN_SWITCHES]) s.dev d' ∧
        d'.pwr = { p with low := 0, step := 0, woke := [] } ∧ d'.bit Reg.PWR_EVT 1 = true)) ∧
  (∀ (s : State) (src : Fin 30) (v : BitVec 32), s.dev.Reach src.val Reg.HOST_MDIO →
    (s.dev.bit Reg.HOST_MDIO 31 = true → exec (.hostMdio src v) s = .next s) ∧
    (s.dev.bit Reg.HOST_MDIO 31 = false →
      Does (.hostMdio src v) s fun d' =>
        Dev.Frame id (among [Reg.HOST_MDIO]) s.dev d' ∧ d'.rd Reg.HOST_MDIO = v.toNat % 2 ^ 27 + 2 ^ 31 ∧
        d'.sent = s.dev.sent ++ [.mdio [bits v.toNat 21 5, bits v.toNat 16 5, b2n (tb v.toNat 26), bits v.toNat 0 16]])) ∧
  (∀ (s : State) (v : BitVec 16),
    (s.dev.bit Reg.HOST_MDIO 31 = false → exec (.mdioDone v) s = .next s) ∧
    (s.dev.bit Reg.HOST_MDIO 31 = true →
      Does (.mdioDone v) s fun d' =>
        Dev.Frame id (among [Reg.HOST_MDIO]) s.dev d' ∧ d'.bit Reg.HOST_MDIO 31 = false ∧
        d'.fld Reg.HOST_MDIO 16 15 = s.dev.fld Reg.HOST_MDIO 16 15 ∧
        d'.fld Reg.HOST_MDIO 0 16 = if s.dev.bit Reg.HOST_MDIO 26 = true then s.dev.fld Reg.HOST_MDIO 0 16 else v.toNat)) ∧
  (∀ (s : State) (st : Fin 4) (width rate : BitVec 3) (up : Bool),
    let was := s.dev.fld Reg.HOST_STATUS 0 2
    let eth := s.dev.bit Reg.HOST_STATUS 8
    Does (.pcieLinkChange st width rate) s (fun d' =>
      Dev.Frame id (among [Reg.HOST_STATUS, Reg.HOST_EVT]) s.dev d' ∧ d'.fld Reg.HOST_STATUS 0 2 = st.val ∧
      d'.fld Reg.HOST_STATUS 2 3 = (if st.val = 0 then 0 else width.toNat) ∧ d'.fld Reg.HOST_STATUS 5 3 = (if st.val = 0 then 0 else rate.toNat) ∧
      d'.bit Reg.HOST_STATUS 8 = eth ∧ d'.bit Reg.HOST_EVT 1 = (s.dev.bit Reg.HOST_EVT 1 || (decide (was ≠ 0) && decide (st.val = 0)))) ∧
    Does (.ethLinkChange up) s fun d' =>
      Dev.Frame id (among [Reg.HOST_STATUS, Reg.HOST_EVT]) s.dev d' ∧ d'.bit Reg.HOST_STATUS 8 = up ∧
      d'.fld Reg.HOST_STATUS 0 8 = s.dev.fld Reg.HOST_STATUS 0 8 ∧ d'.bit Reg.HOST_EVT 2 = (s.dev.bit Reg.HOST_EVT 2 || (eth && !up))) ∧
  (∀ (s : State) (kind : Fin 5) (levels : BitVec 248),
    let k := if kind.val = 4 ∧ s.dev.locked = true then 0 else kind.val
    Does (.tapInstruction kind levels) s fun d' =>
      Dev.Frame (fun d => { d with sec := default }) (among []) s.dev d' ∧
      d'.sec = { s.dev.sec with tap := k, extest := if k = 3 then scanPins.map fun i => (i, tb levels.toNat i) else [] } ∧
      d'.sent = s.dev.sent ++
        (if k = 1 then [.event 7 [0x20964ED3]]
         else if k = 2 then [.event 7 ((List.range 248).map fun i => b2n (d'.padLevel i))] else []))

/-- While the device is LOCKED, SEC takes from HOST a write to SEC_DATA, SEC_IMG_ADDR or SEC_CMD alone, and of SEC_CMD the operations PASSWORD,
CHALLENGE, RESPOND and VERIFY alone; every other write of HOST to SEC leaves every register and byte as it was. -/
def Obligations.LockedSecWrites : Prop :=
  ∀ (s : State) (v : BitVec 64), s.dev.locked = true → s.dev.Reach 25 Reg.SEC_CMD →
    let data := (List.range 8).map Reg.SEC_DATA
    (∀ (a : BitVec 48) (wide : Bool) (r : RegDef), isReg a.toNat r = true → 0x3FF00050000 ≤ a.toNat → a.toNat < 0x3FF00060000 →
      (wide = true → r.width = 64) → a.toNat ∉ data → a.toNat ≠ Reg.SEC_IMG_ADDR → a.toNat ≠ Reg.SEC_CMD →
      Does (.registerWrite 25 a wide v) s (fun d' => Dev.Frame id (among []) s.dev d') ∧
      (a.toNat ≠ Reg.SEC_EVT → a.toNat ≠ Reg.SEC_EVT_EN → exec (.registerWrite 25 a wide v) s = .next s)) ∧
    (∀ (a : BitVec 48), a.toNat ∈ data →
      Does (.registerWrite 25 a false v) s fun d' => Dev.Frame id (among [a.toNat]) s.dev d' ∧ d'.rd a.toNat = v.toNat % 2 ^ 32) ∧
    (∀ (a : BitVec 48), a.toNat = Reg.SEC_IMG_ADDR →
      Does (.registerWrite 25 a true v) s fun d' => Dev.Frame id (among [a.toNat]) s.dev d' ∧ d'.fld a.toNat 0 48 = v.toNat % 2 ^ 48) ∧
    (∀ (a : BitVec 48), a.toNat = Reg.SEC_CMD →
      let op := v.toNat % 16
      (op ≠ 2 ∧ op ≠ 3 ∧ op ≠ 4 ∧ op ≠ 6 → exec (.registerWrite 25 a false v) s = .next s) ∧
      (op = 2 → exec (.registerWrite 25 a false v) s = exec (.password 25) s) ∧
      (op = 3 → exec (.registerWrite 25 a false v) s = exec (.challenge 25) s) ∧
      (op = 4 → exec (.registerWrite 25 a false v) s = exec (.respond 25) s) ∧
      (op = 6 → exec (.registerWrite 25 a false v) s = exec (.verify 25) s))
end

