-- ==== Sys2Proof/Laws/Tab.lean ====
section
/-! SUPPORT. Laws of the sorted tables: reading after setting, and what keeps the keys rising. -/
namespace Sys2Proof.Machine

variable {α : Type}

theorem aget_aerase_same (t : List (Nat × α)) (k : Nat) : aget (aerase t k) k = none := by
  induction t with
  | nil => rfl
  | cons p t ih =>
    obtain ⟨j, w⟩ := p
    by_cases h : j = k <;> simp [aerase, aget, h, ih]

theorem aget_aerase_other (t : List (Nat × α)) {k k' : Nat} (h : k' ≠ k) : aget (aerase t k) k' = aget t k' := by
  induction t with
  | nil => rfl
  | cons p t ih =>
    obtain ⟨j, w⟩ := p
    by_cases hj : j = k
    · simp [aerase, aget, hj, ih, Ne.symm h]
    · simp [aerase, aget, hj, ih]

theorem aget_aput_same (t : List (Nat × α)) (k : Nat) (v : α) : aget (aput t k v) k = some v := by
  induction t with
  | nil => simp [aput, aget]
  | cons p t ih =>
    obtain ⟨j, w⟩ := p
    by_cases h : j = k
    · simp [aput, aget, h]
    · by_cases h' : k < j <;> simp [aput, aget, h, h', ih]

theorem aget_aput_other (t : List (Nat × α)) {k k' : Nat} (v : α) (h : k' ≠ k) : aget (aput t k v) k' = aget t k' := by
  induction t with
  | nil => simp [aput, aget, Ne.symm h]
  | cons p t ih =>
    obtain ⟨j, w⟩ := p
    by_cases hj : j = k
    · simp [aput, aget, hj, Ne.symm h]
    · by_cases h' : k < j <;> simp [aput, aget, hj, h', ih, Ne.symm h]

@[simp] theorem aget_aset_same (t : List (Nat × α)) (k : Nat) (o : Option α) : aget (aset t k o) k = o := by
  cases o with
  | none => exact aget_aerase_same t k
  | some v => exact aget_aput_same t k v

theorem aget_aset_other (t : List (Nat × α)) {k k' : Nat} (o : Option α) (h : k' ≠ k) : aget (aset t k o) k' = aget t k' := by
  cases o with
  | none => exact aget_aerase_other t h
  | some v => exact aget_aput_other t v h

@[simp] theorem tget_tput_same [Inhabited α] [DecidableEq α] (t : Tab α) (k : Nat) (v : α) : tget (tput t k v) k = v := by
  unfold tget tput
  by_cases h : v = default <;> simp [h]

theorem tget_tput_other [Inhabited α] [DecidableEq α] (t : Tab α) {k k' : Nat} (v : α) (h : k' ≠ k) :
    tget (tput t k v) k' = tget t k' := by
  unfold tget tput
  rw [aget_aset_other _ _ h]

/-- Rising keys from `lo` on, every entry kept by `p`. -/
def tabFrom (p : Nat → α → Bool) : Nat → List (Nat × α) → Bool
  | _, [] => true
  | lo, (k, w) :: t => decide (lo ≤ k) && p k w && tabFrom p (k + 1) t

theorem tabFrom_le {p : Nat → α → Bool} {lo lo' : Nat} (h : lo' ≤ lo) {t : List (Nat × α)} (ht : tabFrom p lo t = true) :
    tabFrom p lo' t = true := by
  cases t with
  | nil => rfl
  | cons q t =>
    simp only [tabFrom, Bool.and_eq_true, decide_eq_true_eq] at ht ⊢
    exact ⟨⟨Nat.le_trans h ht.1.1, ht.1.2⟩, ht.2⟩

theorem tabFrom_aerase {p : Nat → α → Bool} {lo : Nat} (t : List (Nat × α)) (k : Nat) (ht : tabFrom p lo t = true) :
    tabFrom p lo (aerase t k) = true := by
  induction t generalizing lo with
  | nil => rfl
  | cons q t ih =>
    obtain ⟨j, w⟩ := q
    simp only [tabFrom, Bool.and_eq_true, decide_eq_true_eq] at ht
    by_cases h : j = k
    · simp only [aerase, h, if_true]
      exact ih (tabFrom_le (Nat.le_succ_of_le ht.1.1) ht.2)
    · simp only [aerase, h, if_false, tabFrom, Bool.and_eq_true, decide_eq_true_eq]
      exact ⟨ht.1, ih ht.2⟩

theorem tabFrom_aput {p : Nat → α → Bool} {lo : Nat} (t : List (Nat × α)) {k : Nat} {v : α} (hk : lo ≤ k) (hv : p k v = true)
    (ht : tabFrom p lo t = true) : tabFrom p lo (aput t k v) = true := by
  induction t generalizing lo with
  | nil => simp [aput, tabFrom, hk, hv]
  | cons q t ih =>
    obtain ⟨j, w⟩ := q
    simp only [tabFrom, Bool.and_eq_true, decide_eq_true_eq] at ht
    by_cases h : j = k
    · subst h
      simp [aput, tabFrom, hk, hv, ht.2]
    · by_cases h' : k < j
      · simp [aput, h, h', tabFrom, hk, hv, ht.1.2, ht.2]
      · simp only [aput, h, h', if_false, tabFrom, Bool.and_eq_true, decide_eq_true_eq]
        exact ⟨ht.1, ih (by omega) ht.2⟩

theorem tabFrom_filter {p : Nat → α → Bool} {lo : Nat} (t : List (Nat × α)) (f : Nat × α → Bool) (ht : tabFrom p lo t = true) :
    tabFrom p lo (t.filter f) = true := by
  induction t generalizing lo with
  | nil => rfl
  | cons q t ih =>
    obtain ⟨j, w⟩ := q
    simp only [tabFrom, Bool.and_eq_true, decide_eq_true_eq] at ht
    by_cases h : f (j, w) = true
    · simp only [List.filter_cons_of_pos h, tabFrom, Bool.and_eq_true, decide_eq_true_eq]
      exact ⟨ht.1, ih ht.2⟩
    · simp only [List.filter_cons_of_neg h]
      exact ih (tabFrom_le (Nat.le_succ_of_le ht.1.1) ht.2)

end Sys2Proof.Machine
end

