-- ==== Sys2Proof/Laws/Ops.lean ====
section
/-! SUPPORT. Everything the primitive operations over registers, memory, outputs and free values can do: what they read after they write,
what they leave alone, and that they keep the canonical forms. -/
namespace Sys2Proof.Machine

/-! Registers. -/

/-- Every row of the map is at most 64 bits wide. -/
theorem regRows_width : ∀ b ∈ regBlocks, ∀ r ∈ b.2, r.width ≤ 64 := by decide +kernel

theorem regFindIn_mem {l : List RegDef} {a : Nat} {r : RegDef} {k : Nat} (h : regFindIn l a = some (r, k)) : r ∈ l := by
  induction l with
  | nil => simp [regFindIn] at h
  | cons x l ih =>
    unfold regFindIn at h
    cases hx : x.keyOf a with
    | none => rw [hx] at h; exact List.mem_cons_of_mem _ (ih h)
    | some y =>
      rw [hx] at h
      simp only [Option.some.injEq, Prod.mk.injEq] at h
      exact h.1 ▸ List.mem_cons_self ..

theorem blockRegs_width {l : List (Nat × List RegDef)} {n : Nat} (h : ∀ b ∈ l, ∀ r ∈ b.2, r.width ≤ 64) :
    ∀ r ∈ blockRegs l n, r.width ≤ 64 := by
  induction l with
  | nil => simp [blockRegs]
  | cons x l ih =>
    obtain ⟨b, rs⟩ := x
    unfold blockRegs
    split
    · exact fun r hr => h (b, rs) (List.mem_cons_self ..) r hr
    · exact ih fun b hb => h b (List.mem_cons_of_mem _ hb)

theorem regFind_width {a : Nat} {r : RegDef} {k : Nat} (h : regFind a = some (r, k)) : r.width ≤ 64 := by
  have all : ∀ n, ∀ r ∈ blockRegs regBlocks n, r.width ≤ 64 := fun _ => blockRegs_width regRows_width
  unfold regFind at h
  split at h
  · next x hx =>
    cases h
    exact all _ _ (regFindIn_mem hx)
  · split at h
    · rw [Option.map_eq_some_iff] at h
      obtain ⟨x, hx, e⟩ := h
      cases e
      exact all _ _ (regFindIn_mem hx)
    · cases h

theorem regRow_width {k : Nat} {r : RegDef} (h : regRow k = some r) : r.width ≤ 64 := by
  unfold regRow at h
  split at h <;> rw [Option.map_eq_some_iff] at h <;> obtain ⟨⟨x, y⟩, hx, e⟩ := h <;> cases e
  · exact blockRegs_width regRows_width _ (regFindIn_mem hx)
  · exact regFind_width hx

@[simp] theorem Dev.wr_mem (d : Dev) (k v : Nat) : (d.wr k v).mem = d.mem := by
  unfold Dev.wr
  split <;> rfl

theorem Dev.wr_regs_of (d : Dev) (k v : Nat) : ∃ R, d.wr k v = { d with regs := R } := by
  unfold Dev.wr
  split
  · exact ⟨d.regs, rfl⟩
  · exact ⟨_, rfl⟩

/-- A register reads what was written, cut to its width (R8, R12). -/
theorem Dev.rd_wr_same (d : Dev) (v : Nat) {k : Nat} {r : RegDef} (h : regRow k = some r) :
    (d.wr k v).rd k = v % 2 ^ r.width := by
  have hw : r.width ≤ 64 := regRow_width h
  have hlt : v % 2 ^ r.width < 2 ^ 64 :=
    Nat.lt_of_lt_of_le (Nat.mod_lt _ (Nat.two_pow_pos _)) (Nat.pow_le_pow_right (by decide) hw)
  unfold Dev.rd Dev.wr
  rw [h]
  simp only [aget_aset_same]
  split
  · next w hww =>
    split at hww
    · cases hww
    · cases hww
      simp only [BitVec.toNat_ofNat]
      exact Nat.mod_eq_of_lt hlt
  · next hn =>
    split at hn
    · next e =>
      unfold resetOf
      rw [h]
      have e' := congrArg BitVec.toNat e
      have hr : r.reset % 2 ^ r.width < 2 ^ 64 :=
        Nat.lt_of_lt_of_le (Nat.mod_lt _ (Nat.two_pow_pos _)) (Nat.pow_le_pow_right (by decide) hw)
      simp only [BitVec.toNat_ofNat] at e'
      rw [Nat.mod_eq_of_lt hlt, Nat.mod_eq_of_lt hr] at e'
      exact e'.symm
    · cases hn

/-- Register `k` is `w` bits wide. -/
def regWidth (k w : Nat) : Bool :=
  match regRow k with
  | some r => r.width == w
  | none => false

theorem Dev.rd_wr_w (d : Dev) (v : Nat) {k w : Nat} (h : regWidth k w = true) : (d.wr k v).rd k = v % 2 ^ w := by
  unfold regWidth at h
  split at h
  · next r hr => rw [Dev.rd_wr_same d v hr, (by simpa using h : r.width = w)]
  · cases h

/-- A write of a register leaves the others alone. -/
theorem Dev.rd_wr_other (d : Dev) (v : Nat) {k k' : Nat} (h : k' ≠ k) : (d.wr k v).rd k' = d.rd k' := by
  unfold Dev.wr
  split
  · rfl
  · unfold Dev.rd
    simp only
    rw [aget_aset_other _ _ h]

/-! Memory. -/

@[simp] theorem Dev.setByte_regs (d : Dev) (a : Nat) (v : Byte) : (d.setByte a v).regs = d.regs := rfl

@[simp] theorem Dev.setByte_rd (d : Dev) (a : Nat) (v : Byte) (k : Nat) : (d.setByte a v).rd k = d.rd k := rfl

@[simp] theorem Dev.wr_byte (d : Dev) (k v a : Nat) : (d.wr k v).byte a = d.byte a := by
  unfold Dev.byte
  rw [Dev.wr_mem]

@[simp] theorem Dev.byte_setByte_same (d : Dev) (a : Nat) (v : Byte) : (d.setByte a v).byte a = v := by
  unfold Dev.byte Dev.setByte
  simp only [aget_aset_same]
  split
  · next h => exact h.symm
  · rfl

theorem Dev.byte_setByte_other (d : Dev) {a a' : Nat} (v : Byte) (h : a' ≠ a) : (d.setByte a v).byte a' = d.byte a' := by
  unfold Dev.byte Dev.setByte
  simp only
  rw [aget_aset_other _ _ h]

@[simp] theorem Dev.store_rd (d : Dev) (bs : List Nat) (a k : Nat) : (d.store a bs).rd k = d.rd k := by
  induction bs generalizing d a with
  | nil => rfl
  | cons b bs ih => unfold Dev.store; rw [ih]; rfl

/-- Bytes outside what is stored keep their values. -/
theorem Dev.byte_store_out (d : Dev) (bs : List Nat) (a x : Nat) (h : x < a ∨ a + bs.length ≤ x) :
    (d.store a bs).byte x = d.byte x := by
  induction bs generalizing d a with
  | nil => rfl
  | cons b bs ih =>
    unfold Dev.store
    simp only [List.length_cons] at h
    rw [ih _ _ (by omega), Dev.byte_setByte_other _ _ (by omega)]

/-- Byte `i` of what is stored. -/
theorem Dev.byte_store_in (d : Dev) (bs : List Nat) (a i : Nat) (h : i < bs.length) :
    (d.store a bs).byte (a + i) = BitVec.ofNat 8 (bs.getD i 0) := by
  induction bs generalizing d a i with
  | nil => simp at h
  | cons b bs ih =>
    unfold Dev.store
    cases i with
    | zero => rw [Dev.byte_store_out _ _ _ _ (by omega)]; simp
    | succ i =>
      have := ih (d.setByte a (BitVec.ofNat 8 b)) (a + 1) i (by simpa using h)
      rw [show a + (i + 1) = a + 1 + i by omega, this]
      simp

/-- What `load` answers, byte by byte. -/
theorem Dev.load_eq (d : Dev) (a n : Nat) : d.load a n = (List.range n).map fun i => (d.byte (a + i)).toNat := by
  induction n generalizing a with
  | zero => rfl
  | succ n ih =>
    unfold Dev.load
    rw [ih, List.range_succ_eq_map, List.map_cons, List.map_map]
    simp only [Nat.add_zero, List.cons.injEq, true_and]
    refine List.map_congr_left fun i _ => ?_
    simp [Nat.add_assoc, Nat.add_comm 1 i]

/-! The canonical forms. -/

theorem memFrom_tab : ∀ (lo : Nat) (m : List Host.Cell), memFrom lo m = tabFrom (fun _ b => b != 0) lo m
  | _, [] => rfl
  | lo, (a, b) :: t => by simp [memFrom, tabFrom, memFrom_tab (a + 1) t]

theorem regsFrom_tab : ∀ (lo : Nat) (m : Tab Word), regsFrom lo m = tabFrom (fun k w => w != BitVec.ofNat 64 (resetOf k)) lo m
  | _, [] => rfl
  | lo, (a, b) :: t => by simp [regsFrom, tabFrom, regsFrom_tab (a + 1) t]

/-- Storing a byte keeps the memory's canonical form. -/
theorem Dev.setByte_memWf (d : Dev) (a : Nat) (v : Byte) (h : memWf d.mem = true) : memWf (d.setByte a v).mem = true := by
  unfold memWf Dev.setByte at *
  rw [memFrom_tab] at *
  split
  · exact tabFrom_aerase _ _ h
  · exact tabFrom_aput _ (Nat.zero_le _) (by simpa using ‹¬v = 0›) h

theorem Dev.store_memWf (d : Dev) (bs : List Nat) (a : Nat) (h : memWf d.mem = true) : memWf (d.store a bs).mem = true := by
  induction bs generalizing d a with
  | nil => exact h
  | cons b bs ih => unfold Dev.store; exact ih _ _ (d.setByte_memWf a _ h)

theorem Dev.dropMem_memWf (d : Dev) (lo hi : Nat) (h : memWf d.mem = true) : memWf (d.dropMem lo hi).mem = true := by
  unfold memWf Dev.dropMem at *
  rw [memFrom_tab] at *
  exact tabFrom_filter _ _ h

/-- Writing a register keeps the register file's canonical form. -/
theorem Dev.wr_regsWf (d : Dev) (k v : Nat) (h : regsWf d.regs = true) : regsWf (d.wr k v).regs = true := by
  unfold Dev.wr
  split
  · exact h
  · next r hr =>
    unfold regsWf at *
    rw [regsFrom_tab] at *
    simp only
    split
    · exact tabFrom_aerase _ _ h
    · next hn =>
      refine tabFrom_aput _ (Nat.zero_le _) ?_ h
      have e : resetOf k = r.reset % 2 ^ r.width := by unfold resetOf; rw [hr]
      simpa [e] using hn

theorem Dev.dropRegs_regsWf (d : Dev) (p : Nat → Bool) (h : regsWf d.regs = true) : regsWf (d.dropRegs p).regs = true := by
  unfold regsWf Dev.dropRegs at *
  rw [regsFrom_tab] at *
  exact tabFrom_filter _ _ h

/-! Outputs and free values. -/

@[simp] theorem Dev.emit_rd (d : Dev) (e : Emit) (k : Nat) : (d.emit e).rd k = d.rd k := rfl

@[simp] theorem Dev.emit_byte (d : Dev) (e : Emit) (a : Nat) : (d.emit e).byte a = d.byte a := rfl

@[simp] theorem Dev.emit_sent (d : Dev) (e : Emit) : (d.emit e).sent = d.sent ++ [e] := rfl

@[simp] theorem Dev.fresh_rd (d : Dev) (w k : Nat) : (d.fresh w).2.rd k = d.rd k := rfl

@[simp] theorem Dev.fresh_byte (d : Dev) (w a : Nat) : (d.fresh w).2.byte a = d.byte a := rfl

end Sys2Proof.Machine
end

