-- ==== Sys2Proof/Laws/Bus.lean ====
section
/-! SUPPORT. Writes of one register by address: what a command that writes a register comes to. -/
namespace Sys2Proof.Machine

theorem leNum_leBytes : ∀ n v, leNum (leBytes n v) = v % 256 ^ n
  | 0, v => by simp [leNum, leBytes, Nat.mod_one]
  | n + 1, v => by
    rw [leBytes, leNum, leNum_leBytes n, Nat.pow_succ, Nat.mul_comm (256 ^ n) 256, Nat.mod_mul]
    simp

theorem leBytes_len : ∀ n v, (leBytes n v).length = n
  | 0, _ => rfl
  | n + 1, v => by simp [leBytes, leBytes_len n]

/-- A write command of an aligned address of register space that can cross the Stem (R245, R482). -/
theorem Dev.regCommand_space (d : Dev) {src a n : Nat} (v : Nat) (hs : isRegSpace a = true) (hc : crosses src a = true → d.stemUp = true)
    (hd : d.standbyDrops src = false) (ha : aligned a n = true) : d.regCommand src a n v = d.regWriteN src a n (v % 256 ^ n) := by
  have hcond : (crosses src a && !d.stemUp) = false := by
    cases h : crosses src a
    · rfl
    · simp [hc h]
  unfold Dev.regCommand Dev.writeRow Dev.busWrite
  dsimp only
  rw [if_neg (by simp [hd])]
  cases hr : regionOf a with
  | window m => unfold isRegSpace at hs; rw [hr] at hs; cases hs
  | _ => simp only [hs, if_true, hcond, leBytes_len, ha, leNum_leBytes, Bool.false_eq_true, if_false]

/-- A 4-byte write command of a 32-bit register, or of the low word of a 64-bit one. -/
theorem Dev.regCommand4 (d : Dev) {src k : Nat} {r : RegDef} (v : Nat) (hk : isReg k r = true) (hr : d.Reach src k) :
    d.regCommand src k 4 v =
      if r.cmt ≠ 0 then d.regStage src k (v % 2 ^ 32) 0xFFFFFFFF r.cmt else d.regAct src k (v % 2 ^ 32) 0xFFFFFFFF := by
  simp only [isReg, Bool.and_eq_true, beq_iff_eq, decide_eq_true_eq] at hk
  obtain ⟨⟨⟨⟨h1, h2⟩, h3⟩, h4⟩, h5⟩ := hk
  rw [Dev.regCommand_space d v h1 hr.1 hr.2.2 (by simp [aligned, h2])]
  unfold Dev.regWriteN
  rw [if_neg (by decide)]
  unfold Dev.regWrite4
  rw [h3]
  simp only [h4, Nat.not_le.2 h5, if_false, if_true, show ¬ (2 ≤ 0) by decide]
  unfold Dev.regPut
  rw [if_pos hr.2.1]
  simp

/-- An 8-byte write command of a 64-bit register. -/
theorem Dev.regCommand8 (d : Dev) {src k : Nat} {r : RegDef} (v : Nat) (hk : isReg k r = true) (hw : r.width = 64) (h8 : k % 8 = 0)
    (hr : d.Reach src k) :
    d.regCommand src k 8 v =
      if r.cmt ≠ 0 then d.regStage src k (v % 2 ^ 64) 0xFFFFFFFFFFFFFFFF r.cmt
      else d.regAct src k (v % 2 ^ 64) 0xFFFFFFFFFFFFFFFF := by
  simp only [isReg, Bool.and_eq_true, beq_iff_eq, decide_eq_true_eq] at hk
  obtain ⟨⟨⟨⟨h1, h2⟩, h3⟩, h4⟩, h5⟩ := hk
  rw [Dev.regCommand_space d v h1 hr.1 hr.2.2 (by simp [aligned, h8])]
  unfold Dev.regWriteN
  rw [if_pos rfl, h3]
  simp only [h4, Nat.not_le.2 h5, if_false, hw, and_self, if_true, show ¬ (2 ≤ 0) by decide]
  unfold Dev.regPut
  rw [if_pos hr.2.1]
  simp

/-- `k` is a register whose write acts or is kept at once, and not staged. -/
def rowIs (k : Nat) : Bool :=
  match regRow k with
  | some r => isReg k r && r.cmt == 0
  | none => false

/-- A 64-bit register of that kind. -/
def rowIs8 (k : Nat) : Bool :=
  match regRow k with
  | some r => isReg k r && r.cmt == 0 && r.width == 64 && k % 8 == 0
  | none => false

theorem Dev.regCommand4_act (d : Dev) {src k : Nat} (v : Nat) (hk : rowIs k = true) (hr : d.Reach src k) :
    d.regCommand src k 4 v = d.regAct src k (v % 2 ^ 32) 0xFFFFFFFF := by
  unfold rowIs at hk
  split at hk
  · simp only [Bool.and_eq_true, beq_iff_eq] at hk
    rw [Dev.regCommand4 d v hk.1 hr, if_neg (by simp [hk.2])]
  · cases hk

theorem Dev.regCommand8_act (d : Dev) {src k : Nat} (v : Nat) (hk : rowIs8 k = true) (hr : d.Reach src k) :
    d.regCommand src k 8 v = d.regAct src k (v % 2 ^ 64) 0xFFFFFFFFFFFFFFFF := by
  unfold rowIs8 at hk
  split at hk
  · simp only [Bool.and_eq_true, beq_iff_eq] at hk
    rw [Dev.regCommand8 d v hk.1.1.1 hk.1.2 hk.2 hr, if_neg (by simp [hk.1.1.2])]
  · cases hk

theorem Dev.regAct_run (d : Dev) {src k v m : Nat} {f : Dev → Nat → Nat → Nat → Dev} (hk : plainKey k = true) (hf : actRun k = some f) :
    d.regAct src k v m = f d src v m := by
  unfold actRun at hf
  rw [Option.map_eq_some_iff] at hf
  obtain ⟨⟨a, i⟩, ha, rfl⟩ := hf
  unfold plainKey at hk
  simp only [Bool.and_eq_true, Option.isNone_iff_eq_none, Bool.not_eq_true', Bool.and_eq_false_iff, decide_eq_false_iff_not] at hk
  unfold Dev.regAct
  rw [hk.1]
  dsimp only
  rw [if_neg (by omega), ha]

/-- A 4-byte write command of a register whose write acts. -/
theorem Dev.regCommand4_run (d : Dev) {src k : Nat} (v : Nat) {f : Dev → Nat → Nat → Nat → Dev} (hk : (rowIs k && plainKey k) = true)
    (hf : actRun k = some f) (hr : d.Reach src k) : d.regCommand src k 4 v = f d src (v % 2 ^ 32) 0xFFFFFFFF := by
  rw [Bool.and_eq_true] at hk
  rw [Dev.regCommand4_act d v hk.1 hr, Dev.regAct_run d hk.2 hf]

/-- An 8-byte write command of a register whose write acts. -/
theorem Dev.regCommand8_run (d : Dev) {src k : Nat} (v : Nat) {f : Dev → Nat → Nat → Nat → Dev} (hk : (rowIs8 k && plainKey k) = true)
    (hf : actRun k = some f) (hr : d.Reach src k) : d.regCommand src k 8 v = f d src (v % 2 ^ 64) 0xFFFFFFFFFFFFFFFF := by
  rw [Bool.and_eq_true] at hk
  rw [Dev.regCommand8_act d v hk.1 hr, Dev.regAct_run d hk.2 hf]

theorem leNum_leBytes_lt {n v : Nat} (h : v < 256 ^ n) : leNum (leBytes n v) = v := by rw [leNum_leBytes, Nat.mod_eq_of_lt h]

theorem Dev.wordAt_lt (d : Dev) {src k : Nat} {r : RegDef} (hk : isReg k r = true) (hd : d.domOn (powDomain k) = true) :
    d.wordAt src 0 k = d.regValue src r k % 2 ^ 32 := by
  simp only [isReg, Bool.and_eq_true, beq_iff_eq, decide_eq_true_eq] at hk
  obtain ⟨⟨⟨⟨h1, h2⟩, h3⟩, h4⟩, h5⟩ := hk
  unfold Dev.wordAt
  rw [h4]
  simp only [Nat.not_le.2 h5, if_false, hd, if_true]
  unfold Dev.viewValue
  simp

/-- A read of register space through the active view (R245, R482). -/
theorem Dev.busRead_space (d : Dev) {src a n : Nat} (hs : isRegSpace a = true) (hv : viewBits a = (0, a))
    (hc : crosses src a = true → d.stemUp = true) (ha : aligned a n = true) :
    d.busRead src a n = (.ok (leBytes n (d.regReadN src a n).1), (d.regReadN src a n).2) := by
  have hcond : (crosses src a && !d.stemUp) = false := by
    cases h : crosses src a
    · rfl
    · simp [hc h]
  have hb : bits a 28 2 = 0 := congrArg Prod.fst hv
  have hw : d.snapStalls src a = false := by unfold Dev.snapStalls; simp [hb]
  have hl : d.localAcc src a n = (.ok (leBytes n (d.regReadN src a n).1), (d.regReadN src a n).2) := by
    unfold Dev.localAcc Dev.stallDone
    simp only [hs, if_true, hcond, hw, Bool.false_eq_true, if_false, ha, hb, show ¬ (0 = 2) by decide]
  unfold Dev.busRead
  cases hr : regionOf a with
  | window m => unfold isRegSpace at hs; rw [hr] at hs; cases hs
  | _ => exact hl

/-- A read command of register space through the active view. -/
theorem Dev.regReadCommand_space (d : Dev) {src a n : Nat} (hs : isRegSpace a = true) (hv : viewBits a = (0, a))
    (hc : crosses src a = true → d.stemUp = true) (ha : aligned a n = true) :
    d.regReadCommand src a n = (d.regReadN src a n).2.emit (.event 4 [src, a, (d.regReadN src a n).1 % 256 ^ n]) := by
  unfold Dev.regReadCommand Dev.readRow
  rw [d.busRead_space hs hv hc ha]
  dsimp only
  rw [leNum_leBytes]

/-- A 4-byte read command of a register, through the active view (R9, R12). -/
theorem Dev.regRead4_command (d : Dev) {src k : Nat} {r : RegDef} (hk : isReg k r = true) (hr : d.Reach src k) :
    d.regReadCommand src k 4 =
      ((d.readEffect r k true false).bump).emit (.event 4 [src, k, d.regValue src r k % 2 ^ 32]) := by
  have hw := d.wordAt_lt (src := src) hk hr.2.1
  simp only [isReg, Bool.and_eq_true, beq_iff_eq, decide_eq_true_eq] at hk
  obtain ⟨⟨⟨⟨h1, h2⟩, h3⟩, h4⟩, h5⟩ := hk
  rw [d.regReadCommand_space h1 h3 hr.1 (by simp [aligned, h2])]
  have hreg : d.regReadN src k 4 = (d.regValue src r k % 2 ^ 32, (d.readEffect r k true false).bump) := by
    unfold Dev.regReadN
    rw [if_neg (by decide)]
    unfold Dev.regRead4
    rw [h3]
    simp only [h4, Nat.not_le.2 h5, if_false, show ¬ (0 = 3) by decide, hr.2.1, if_true, hw]
    simp
  rw [hreg, show (256 : Nat) ^ 4 = 2 ^ 32 by norm_num, Nat.mod_mod]

/-- An 8-byte read command of a 64-bit register, through the active view. -/
theorem Dev.regRead8_command (d : Dev) {src k : Nat} {r : RegDef} (hk : isReg k r = true) (hw : r.width = 64) (h8 : k % 8 = 0)
    (hr : d.Reach src k) :
    d.regReadCommand src k 8 =
      ((d.readEffect r k true true).bump).emit (.event 4 [src, k, d.regValue src r k % 256 ^ 8]) := by
  simp only [isReg, Bool.and_eq_true, beq_iff_eq, decide_eq_true_eq] at hk
  obtain ⟨⟨⟨⟨h1, h2⟩, h3⟩, h4⟩, h5⟩ := hk
  rw [d.regReadCommand_space h1 h3 hr.1 (by simp [aligned, h8])]
  have hreg : d.regReadN src k 8 = (d.regValue src r k, (d.readEffect r k true true).bump) := by
    unfold Dev.regReadN
    rw [if_pos rfl, h3, h4]
    show (if r.width = 64 ∧ _ ∧ _ then _ else _) = _
    rw [if_pos ⟨hw, if_neg (Nat.not_le.2 h5), by simp⟩]
    unfold Dev.regReadWide
    rw [if_pos hr.2.1]
    unfold Dev.viewValue
    rw [if_pos rfl, if_pos (Or.inr rfl)]
  rw [hreg]

/-- An array element's index. -/
theorem instOf_at {base stride n i : Nat} (hs : 0 < stride) (hi : i < n) : instOf (base + i * stride) base stride n = some i := by
  unfold instOf
  simp [Nat.mul_div_cancel _ hs, hi]

/-- An address outside an array. -/
theorem instOf_out {k base stride n : Nat} (hs : 0 < stride) (h : k < base ∨ base + stride * n ≤ k) : instOf k base stride n = none := by
  unfold instOf
  rw [if_neg]
  rintro ⟨a, _, c⟩
  rcases h with h | h
  · omega
  · rw [Nat.div_lt_iff_lt_mul hs, Nat.mul_comm n] at c; omega

end Sys2Proof.Machine
end

