-- ==== Sys2Proof/Laws/Act.lean ====
section
/-! SUPPORT. For every register whose write acts: what a command that writes it comes to, once the write reaches it. -/
namespace Sys2Proof.Machine

-- One declaration after the other: elaborated side by side, the kernel decisions of this file ask for more threads than memory holds.
set_option Elab.async false

theorem run_grpCtrl : ∀ i < 8, actRun (Reg.COMMIT_GRP_CTRL i) = some (fun d src v m => d.grpCtrl src i v m) := by
  intro i hi
  interval_cases i <;> rfl

theorem row_grpCtrl : ∀ i < 8, (rowIs (Reg.COMMIT_GRP_CTRL i) && plainKey (Reg.COMMIT_GRP_CTRL i)) = true := by decide +kernel

theorem Dev.act_grpCtrl (d : Dev) {src i : Nat} (v : Nat) (hi : i < 8) (hr : d.Reach src (Reg.COMMIT_GRP_CTRL i)) :
    d.regCommand src (Reg.COMMIT_GRP_CTRL i) 4 v = d.grpCtrl src i (v % 2 ^ 32) 0xFFFFFFFF :=
  Dev.regCommand4_run d v (row_grpCtrl i hi) (run_grpCtrl i hi) hr

theorem run_snapCtrl : actRun Reg.COMMIT_SNAP_CTRL = some (fun d src v _ => d.snapCtrl src v) := rfl

theorem Dev.act_snapCtrl (d : Dev) {src : Nat} (v : Nat) (hr : d.Reach src Reg.COMMIT_SNAP_CTRL) :
    d.regCommand src Reg.COMMIT_SNAP_CTRL 4 v = d.snapCtrl src (v % 2 ^ 32) :=
  Dev.regCommand4_run d v (by decide +kernel) run_snapCtrl hr

theorem run_ltSet : actRun Reg.BEAM_LT_SET = some (fun d _ v m => d.wideAct Reg.BEAM_LT_SET v m Dev.ltSet) := rfl

theorem Dev.act_ltSet (d : Dev) {src : Nat} (v : Nat) (hr : d.Reach src Reg.BEAM_LT_SET) :
    d.regCommand src Reg.BEAM_LT_SET 8 v = d.wideAct Reg.BEAM_LT_SET (v % 2 ^ 64) 0xFFFFFFFFFFFFFFFF Dev.ltSet :=
  Dev.regCommand8_run d v (by decide +kernel) run_ltSet hr

theorem run_camOverride : actRun Reg.CAM_OVR_REQ = some (fun d _ v _ => d.camOverride (bits v 0 10)) := rfl

theorem Dev.act_camOverride (d : Dev) {src : Nat} (v : Nat) (hr : d.Reach src Reg.CAM_OVR_REQ) :
    d.regCommand src Reg.CAM_OVR_REQ 4 v = d.camOverride (bits (v % 2 ^ 32) 0 10) :=
  Dev.regCommand4_run d v (by decide +kernel) run_camOverride hr

theorem run_hringRd : actRun Reg.ITEM_HRING_RD = some (fun d _ v _ => d.hringRd v) := rfl

theorem Dev.act_hringRd (d : Dev) {src : Nat} (v : Nat) (hr : d.Reach src Reg.ITEM_HRING_RD) :
    d.regCommand src Reg.ITEM_HRING_RD 4 v = d.hringRd (v % 2 ^ 32) :=
  Dev.regCommand4_run d v (by decide +kernel) run_hringRd hr

theorem run_itemCmd : ∀ i < 8, actRun (Reg.ITEM_CMD i) = some (fun d _ v _ => d.itemCmd i v) := by
  intro i hi
  interval_cases i <;> rfl

theorem row_itemCmd : ∀ i < 8, (rowIs (Reg.ITEM_CMD i) && plainKey (Reg.ITEM_CMD i)) = true := by decide +kernel

theorem Dev.act_itemCmd (d : Dev) {src i : Nat} (v : Nat) (hi : i < 8) (hr : d.Reach src (Reg.ITEM_CMD i)) :
    d.regCommand src (Reg.ITEM_CMD i) 4 v = d.itemCmd i (v % 2 ^ 32) :=
  Dev.regCommand4_run d v (row_itemCmd i hi) (run_itemCmd i hi) hr

theorem run_intcQRd : ∀ i < 16, actRun (Reg.INTC_Q_RD i) = some (fun d _ v _ => d.intcQRd i v) := by
  intro i hi
  interval_cases i <;> rfl

theorem row_intcQRd : ∀ i < 16, (rowIs (Reg.INTC_Q_RD i) && plainKey (Reg.INTC_Q_RD i)) = true := by decide +kernel

theorem Dev.act_intcQRd (d : Dev) {src i : Nat} (v : Nat) (hi : i < 16) (hr : d.Reach src (Reg.INTC_Q_RD i)) :
    d.regCommand src (Reg.INTC_Q_RD i) 4 v = d.intcQRd i (v % 2 ^ 32) :=
  Dev.regCommand4_run d v (row_intcQRd i hi) (run_intcQRd i hi) hr

theorem run_intcRaise : actRun Reg.INTC_RAISE = some (fun d _ v _ => d.intcRaise (bits v 0 9)) := rfl

theorem Dev.act_intcRaise (d : Dev) {src : Nat} (v : Nat) (hr : d.Reach src Reg.INTC_RAISE) :
    d.regCommand src Reg.INTC_RAISE 4 v = d.intcRaise (bits (v % 2 ^ 32) 0 9) :=
  Dev.regCommand4_run d v (by decide +kernel) run_intcRaise hr

theorem run_tmrLoad : ∀ i < 32, actRun (Reg.TMR_LOAD i) = some (fun d _ v _ => d.tmrLoad i v) := by
  intro i hi
  interval_cases i <;> rfl

theorem row_tmrLoad : ∀ i < 32, (rowIs (Reg.TMR_LOAD i) && plainKey (Reg.TMR_LOAD i)) = true := by decide +kernel

theorem Dev.act_tmrLoad (d : Dev) {src i : Nat} (v : Nat) (hi : i < 32) (hr : d.Reach src (Reg.TMR_LOAD i)) :
    d.regCommand src (Reg.TMR_LOAD i) 4 v = d.tmrLoad i (v % 2 ^ 32) :=
  Dev.regCommand4_run d v (row_tmrLoad i hi) (run_tmrLoad i hi) hr

theorem run_tmrReload : ∀ i < 32, actRun (Reg.TMR_RELOAD i) = some (fun d _ v _ => d.tmrPreload i 0 v) := by
  intro i hi
  interval_cases i <;> rfl

theorem row_tmrReload : ∀ i < 32, (rowIs (Reg.TMR_RELOAD i) && plainKey (Reg.TMR_RELOAD i)) = true := by decide +kernel

theorem Dev.act_tmrReload (d : Dev) {src i : Nat} (v : Nat) (hi : i < 32) (hr : d.Reach src (Reg.TMR_RELOAD i)) :
    d.regCommand src (Reg.TMR_RELOAD i) 4 v = d.tmrPreload i 0 (v % 2 ^ 32) :=
  Dev.regCommand4_run d v (row_tmrReload i hi) (run_tmrReload i hi) hr

theorem run_tmrCmp0 : ∀ i < 32, actRun (Reg.TMR_CMP0 i) = some (fun d _ v _ => d.tmrPreload i 1 v) := by
  intro i hi
  interval_cases i <;> rfl

theorem row_tmrCmp0 : ∀ i < 32, (rowIs (Reg.TMR_CMP0 i) && plainKey (Reg.TMR_CMP0 i)) = true := by decide +kernel

theorem Dev.act_tmrCmp0 (d : Dev) {src i : Nat} (v : Nat) (hi : i < 32) (hr : d.Reach src (Reg.TMR_CMP0 i)) :
    d.regCommand src (Reg.TMR_CMP0 i) 4 v = d.tmrPreload i 1 (v % 2 ^ 32) :=
  Dev.regCommand4_run d v (row_tmrCmp0 i hi) (run_tmrCmp0 i hi) hr

theorem run_tmrCmp1 : ∀ i < 32, actRun (Reg.TMR_CMP1 i) = some (fun d _ v _ => d.tmrPreload i 2 v) := by
  intro i hi
  interval_cases i <;> rfl

theorem row_tmrCmp1 : ∀ i < 32, (rowIs (Reg.TMR_CMP1 i) && plainKey (Reg.TMR_CMP1 i)) = true := by decide +kernel

theorem Dev.act_tmrCmp1 (d : Dev) {src i : Nat} (v : Nat) (hi : i < 32) (hr : d.Reach src (Reg.TMR_CMP1 i)) :
    d.regCommand src (Reg.TMR_CMP1 i) 4 v = d.tmrPreload i 2 (v % 2 ^ 32) :=
  Dev.regCommand4_run d v (row_tmrCmp1 i hi) (run_tmrCmp1 i hi) hr

theorem run_keyOn : actRun Reg.AUD_KEY_ON = some (fun d _ v _ => d.keyOn v) := rfl

theorem Dev.act_keyOn (d : Dev) {src : Nat} (v : Nat) (hr : d.Reach src Reg.AUD_KEY_ON) :
    d.regCommand src Reg.AUD_KEY_ON 4 v = d.keyOn (v % 2 ^ 32) :=
  Dev.regCommand4_run d v (by decide +kernel) run_keyOn hr

theorem run_keyOff : actRun Reg.AUD_KEY_OFF = some (fun d _ v _ => d.keyOff v) := rfl

theorem Dev.act_keyOff (d : Dev) {src : Nat} (v : Nat) (hr : d.Reach src Reg.AUD_KEY_OFF) :
    d.regCommand src Reg.AUD_KEY_OFF 4 v = d.keyOff (v % 2 ^ 32) :=
  Dev.regCommand4_run d v (by decide +kernel) run_keyOff hr

theorem run_dmabChWr : ∀ i < 16, actRun (Reg.DMAB_CH_WR i) = some (fun d _ v _ => d.dmaChWr 0 i v) := by
  intro i hi
  interval_cases i <;> rfl

theorem row_dmabChWr : ∀ i < 16, (rowIs (Reg.DMAB_CH_WR i) && plainKey (Reg.DMAB_CH_WR i)) = true := by decide +kernel

theorem Dev.act_dmabChWr (d : Dev) {src i : Nat} (v : Nat) (hi : i < 16) (hr : d.Reach src (Reg.DMAB_CH_WR i)) :
    d.regCommand src (Reg.DMAB_CH_WR i) 4 v = d.dmaChWr 0 i (v % 2 ^ 32) :=
  Dev.regCommand4_run d v (row_dmabChWr i hi) (run_dmabChWr i hi) hr

theorem run_dmabChCtrl : ∀ i < 16, actRun (Reg.DMAB_CH_CTRL i) = some (fun d _ v _ => if tb v 0 then d.dmaResume 0 i else d) := by
  intro i hi
  interval_cases i <;> rfl

theorem row_dmabChCtrl : ∀ i < 16, (rowIs (Reg.DMAB_CH_CTRL i) && plainKey (Reg.DMAB_CH_CTRL i)) = true := by decide +kernel

theorem Dev.act_dmabChCtrl (d : Dev) {src i : Nat} (v : Nat) (hi : i < 16) (hr : d.Reach src (Reg.DMAB_CH_CTRL i)) :
    d.regCommand src (Reg.DMAB_CH_CTRL i) 4 v = if tb (v % 2 ^ 32) 0 then d.dmaResume 0 i else d :=
  Dev.regCommand4_run d v (row_dmabChCtrl i hi) (run_dmabChCtrl i hi) hr

theorem run_grfCtrl : actRun Reg.GRF_CTRL = some (fun d _ v _ => d.grfCtrl v) := rfl

theorem Dev.act_grfCtrl (d : Dev) {src : Nat} (v : Nat) (hr : d.Reach src Reg.GRF_CTRL) :
    d.regCommand src Reg.GRF_CTRL 4 v = d.grfCtrl (v % 2 ^ 32) :=
  Dev.regCommand4_run d v (by decide +kernel) run_grfCtrl hr

theorem run_mdioWrite : actRun Reg.HOST_MDIO = some (fun d _ v _ => d.mdioWrite v) := rfl

theorem Dev.act_mdioWrite (d : Dev) {src : Nat} (v : Nat) (hr : d.Reach src Reg.HOST_MDIO) :
    d.regCommand src Reg.HOST_MDIO 4 v = d.mdioWrite (v % 2 ^ 32) :=
  Dev.regCommand4_run d v (by decide +kernel) run_mdioWrite hr

theorem run_vecEoi : actRun Reg.HOST_VEC_EOI = some (fun d _ v _ => d.vecEoi (bits v 0 5)) := rfl

theorem Dev.act_vecEoi (d : Dev) {src : Nat} (v : Nat) (hr : d.Reach src Reg.HOST_VEC_EOI) :
    d.regCommand src Reg.HOST_VEC_EOI 4 v = d.vecEoi (bits (v % 2 ^ 32) 0 5) :=
  Dev.regCommand4_run d v (by decide +kernel) run_vecEoi hr

theorem run_stemCtrl : actRun Reg.STEM_CTRL = some (fun d _ v _ => d.stemCtrl 0 v) := rfl

theorem Dev.act_stemCtrl (d : Dev) {src : Nat} (v : Nat) (hr : d.Reach src Reg.STEM_CTRL) :
    d.regCommand src Reg.STEM_CTRL 4 v = d.stemCtrl 0 (v % 2 ^ 32) :=
  Dev.regCommand4_run d v (by decide +kernel) run_stemCtrl hr

theorem run_stemiCtrl : actRun Reg.STEMI_CTRL = some (fun d _ v _ => d.stemCtrl 1 v) := rfl

theorem Dev.act_stemiCtrl (d : Dev) {src : Nat} (v : Nat) (hr : d.Reach src Reg.STEMI_CTRL) :
    d.regCommand src Reg.STEMI_CTRL 4 v = d.stemCtrl 1 (v % 2 ^ 32) :=
  Dev.regCommand4_run d v (by decide +kernel) run_stemiCtrl hr

theorem run_i2cCmd : ∀ i < 16, actRun (Reg.CAMIN_I2C_CMD i) = some (fun d _ v _ => d.i2cCmd i v) := by
  intro i hi
  interval_cases i <;> rfl

theorem row_i2cCmd : ∀ i < 16, (rowIs (Reg.CAMIN_I2C_CMD i) && plainKey (Reg.CAMIN_I2C_CMD i)) = true := by decide +kernel

theorem Dev.act_i2cCmd (d : Dev) {src i : Nat} (v : Nat) (hi : i < 16) (hr : d.Reach src (Reg.CAMIN_I2C_CMD i)) :
    d.regCommand src (Reg.CAMIN_I2C_CMD i) 4 v = d.i2cCmd i (v % 2 ^ 32) :=
  Dev.regCommand4_run d v (row_i2cCmd i hi) (run_i2cCmd i hi) hr

theorem run_rrRd : actRun Reg.SIEVE_RR_RD = some (fun d _ v _ => d.rrRd v) := rfl

theorem Dev.act_rrRd (d : Dev) {src : Nat} (v : Nat) (hr : d.Reach src Reg.SIEVE_RR_RD) :
    d.regCommand src Reg.SIEVE_RR_RD 4 v = d.rrRd (v % 2 ^ 32) :=
  Dev.regCommand4_run d v (by decide +kernel) run_rrRd hr

theorem run_compTload : ∀ i < 8, actRun (Reg.COMP_TLOAD i) = some (fun d _ v _ => d.compTload i v) := by
  intro i hi
  interval_cases i <;> rfl

theorem row_compTload : ∀ i < 8, (rowIs (Reg.COMP_TLOAD i) && plainKey (Reg.COMP_TLOAD i)) = true := by decide +kernel

theorem Dev.act_compTload (d : Dev) {src i : Nat} (v : Nat) (hi : i < 8) (hr : d.Reach src (Reg.COMP_TLOAD i)) :
    d.regCommand src (Reg.COMP_TLOAD i) 4 v = d.compTload i (v % 2 ^ 32) :=
  Dev.regCommand4_run d v (row_compTload i hi) (run_compTload i hi) hr

theorem run_compGo : ∀ i < 8, actRun (Reg.COMP_GO i) = some (fun d _ v _ => d.compGo i v) := by
  intro i hi
  interval_cases i <;> rfl

theorem row_compGo : ∀ i < 8, (rowIs (Reg.COMP_GO i) && plainKey (Reg.COMP_GO i)) = true := by decide +kernel

theorem Dev.act_compGo (d : Dev) {src i : Nat} (v : Nat) (hi : i < 8) (hr : d.Reach src (Reg.COMP_GO i)) :
    d.regCommand src (Reg.COMP_GO i) 4 v = d.compGo i (v % 2 ^ 32) :=
  Dev.regCommand4_run d v (row_compGo i hi) (run_compGo i hi) hr

theorem run_drawCtrl : ∀ i < 2, actRun (Reg.DRAW_CTRL i) = some (fun d _ v _ => d.drawCtrl i v) := by
  intro i hi
  interval_cases i <;> rfl

theorem row_drawCtrl : ∀ i < 2, (rowIs (Reg.DRAW_CTRL i) && plainKey (Reg.DRAW_CTRL i)) = true := by decide +kernel

theorem Dev.act_drawCtrl (d : Dev) {src i : Nat} (v : Nat) (hi : i < 2) (hr : d.Reach src (Reg.DRAW_CTRL i)) :
    d.regCommand src (Reg.DRAW_CTRL i) 4 v = d.drawCtrl i (v % 2 ^ 32) :=
  Dev.regCommand4_run d v (row_drawCtrl i hi) (run_drawCtrl i hi) hr

theorem run_drawQWr : ∀ i < 2, actRun (Reg.DRAW_Q_WR i) = some (fun d _ v _ => d.drawQWr i v) := by
  intro i hi
  interval_cases i <;> rfl

theorem row_drawQWr : ∀ i < 2, (rowIs (Reg.DRAW_Q_WR i) && plainKey (Reg.DRAW_Q_WR i)) = true := by decide +kernel

theorem Dev.act_drawQWr (d : Dev) {src i : Nat} (v : Nat) (hi : i < 2) (hr : d.Reach src (Reg.DRAW_Q_WR i)) :
    d.regCommand src (Reg.DRAW_Q_WR i) 4 v = d.drawQWr i (v % 2 ^ 32) :=
  Dev.regCommand4_run d v (row_drawQWr i hi) (run_drawQWr i hi) hr

theorem run_rasTload : ∀ i < 8, actRun (Reg.RASTER_TLOAD i) = some (fun d _ v _ => d.rasTload i v) := by
  intro i hi
  interval_cases i <;> rfl

theorem row_rasTload : ∀ i < 8, (rowIs (Reg.RASTER_TLOAD i) && plainKey (Reg.RASTER_TLOAD i)) = true := by decide +kernel

theorem Dev.act_rasTload (d : Dev) {src i : Nat} (v : Nat) (hi : i < 8) (hr : d.Reach src (Reg.RASTER_TLOAD i)) :
    d.regCommand src (Reg.RASTER_TLOAD i) 4 v = d.rasTload i (v % 2 ^ 32) :=
  Dev.regCommand4_run d v (row_rasTload i hi) (run_rasTload i hi) hr

theorem run_psrCtrl : ∀ i < 3, actRun (Reg.DISP_PSR i) = some (fun d _ v m => d.psrCtrl i v m) := by
  intro i hi
  interval_cases i <;> rfl

theorem row_psrCtrl : ∀ i < 3, (rowIs (Reg.DISP_PSR i) && plainKey (Reg.DISP_PSR i)) = true := by decide +kernel

theorem Dev.act_psrCtrl (d : Dev) {src i : Nat} (v : Nat) (hi : i < 3) (hr : d.Reach src (Reg.DISP_PSR i)) :
    d.regCommand src (Reg.DISP_PSR i) 4 v = d.psrCtrl i (v % 2 ^ 32) 0xFFFFFFFF :=
  Dev.regCommand4_run d v (row_psrCtrl i hi) (run_psrCtrl i hi) hr

theorem run_dispSu : ∀ i < 3, actRun (Reg.DISP_SU i) = some (fun d _ v _ => d.dispSu i v) := by
  intro i hi
  interval_cases i <;> rfl

theorem row_dispSu : ∀ i < 3, (rowIs (Reg.DISP_SU i) && plainKey (Reg.DISP_SU i)) = true := by decide +kernel

theorem Dev.act_dispSu (d : Dev) {src i : Nat} (v : Nat) (hi : i < 3) (hr : d.Reach src (Reg.DISP_SU i)) :
    d.regCommand src (Reg.DISP_SU i) 4 v = d.dispSu i (v % 2 ^ 32) :=
  Dev.regCommand4_run d v (row_dispSu i hi) (run_dispSu i hi) hr

theorem run_auxCmd : ∀ i < 3, actRun (Reg.DISP_AUX_CMD i) = some (fun d _ v _ => d.auxCmd i v) := by
  intro i hi
  interval_cases i <;> rfl

theorem row_auxCmd : ∀ i < 3, (rowIs (Reg.DISP_AUX_CMD i) && plainKey (Reg.DISP_AUX_CMD i)) = true := by decide +kernel

theorem Dev.act_auxCmd (d : Dev) {src i : Nat} (v : Nat) (hi : i < 3) (hr : d.Reach src (Reg.DISP_AUX_CMD i)) :
    d.regCommand src (Reg.DISP_AUX_CMD i) 4 v = d.auxCmd i (v % 2 ^ 32) :=
  Dev.regCommand4_run d v (row_auxCmd i hi) (run_auxCmd i hi) hr

theorem run_memcCtrl : actRun Reg.MEMC_CTRL = some (fun d _ v _ => if tb v 0 then d.memcTrain else d) := rfl

theorem Dev.act_memcCtrl (d : Dev) {src : Nat} (v : Nat) (hr : d.Reach src Reg.MEMC_CTRL) :
    d.regCommand src Reg.MEMC_CTRL 4 v = if tb (v % 2 ^ 32) 0 then d.memcTrain else d :=
  Dev.regCommand4_run d v (by decide +kernel) run_memcCtrl hr

theorem run_dmai0ChWr : ∀ i < 16, actRun (Reg.DMAI_CH_WR 0 i) = some (fun d _ v _ => d.dmaChWr 1 i v) := by
  intro i hi
  interval_cases i <;> rfl

theorem row_dmai0ChWr : ∀ i < 16, (rowIs (Reg.DMAI_CH_WR 0 i) && plainKey (Reg.DMAI_CH_WR 0 i)) = true := by decide +kernel

theorem Dev.act_dmai0ChWr (d : Dev) {src i : Nat} (v : Nat) (hi : i < 16) (hr : d.Reach src (Reg.DMAI_CH_WR 0 i)) :
    d.regCommand src (Reg.DMAI_CH_WR 0 i) 4 v = d.dmaChWr 1 i (v % 2 ^ 32) :=
  Dev.regCommand4_run d v (row_dmai0ChWr i hi) (run_dmai0ChWr i hi) hr

theorem run_dmai1ChWr : ∀ i < 16, actRun (Reg.DMAI_CH_WR 1 i) = some (fun d _ v _ => d.dmaChWr 2 i v) := by
  intro i hi
  interval_cases i <;> rfl

theorem row_dmai1ChWr : ∀ i < 16, (rowIs (Reg.DMAI_CH_WR 1 i) && plainKey (Reg.DMAI_CH_WR 1 i)) = true := by decide +kernel

theorem Dev.act_dmai1ChWr (d : Dev) {src i : Nat} (v : Nat) (hi : i < 16) (hr : d.Reach src (Reg.DMAI_CH_WR 1 i)) :
    d.regCommand src (Reg.DMAI_CH_WR 1 i) 4 v = d.dmaChWr 2 i (v % 2 ^ 32) :=
  Dev.regCommand4_run d v (row_dmai1ChWr i hi) (run_dmai1ChWr i hi) hr

theorem run_dmai0ChCtrl : ∀ i < 16, actRun (Reg.DMAI_CH_CTRL 0 i) = some (fun d _ v _ => if tb v 0 then d.dmaResume 1 i else d) := by
  intro i hi
  interval_cases i <;> rfl

theorem row_dmai0ChCtrl : ∀ i < 16, (rowIs (Reg.DMAI_CH_CTRL 0 i) && plainKey (Reg.DMAI_CH_CTRL 0 i)) = true := by decide +kernel

theorem Dev.act_dmai0ChCtrl (d : Dev) {src i : Nat} (v : Nat) (hi : i < 16) (hr : d.Reach src (Reg.DMAI_CH_CTRL 0 i)) :
    d.regCommand src (Reg.DMAI_CH_CTRL 0 i) 4 v = if tb (v % 2 ^ 32) 0 then d.dmaResume 1 i else d :=
  Dev.regCommand4_run d v (row_dmai0ChCtrl i hi) (run_dmai0ChCtrl i hi) hr

theorem run_dmai1ChCtrl : ∀ i < 16, actRun (Reg.DMAI_CH_CTRL 1 i) = some (fun d _ v _ => if tb v 0 then d.dmaResume 2 i else d) := by
  intro i hi
  interval_cases i <;> rfl

theorem row_dmai1ChCtrl : ∀ i < 16, (rowIs (Reg.DMAI_CH_CTRL 1 i) && plainKey (Reg.DMAI_CH_CTRL 1 i)) = true := by decide +kernel

theorem Dev.act_dmai1ChCtrl (d : Dev) {src i : Nat} (v : Nat) (hi : i < 16) (hr : d.Reach src (Reg.DMAI_CH_CTRL 1 i)) :
    d.regCommand src (Reg.DMAI_CH_CTRL 1 i) 4 v = if tb (v % 2 ^ 32) 0 then d.dmaResume 2 i else d :=
  Dev.regCommand4_run d v (row_dmai1ChCtrl i hi) (run_dmai1ChCtrl i hi) hr

theorem run_stateReq : actRun Reg.PWR_STATE_REQ = some (fun d _ v _ => d.stateReq v) := rfl

theorem Dev.act_stateReq (d : Dev) {src : Nat} (v : Nat) (hr : d.Reach src Reg.PWR_STATE_REQ) :
    d.regCommand src Reg.PWR_STATE_REQ 4 v = d.stateReq (v % 2 ^ 32) :=
  Dev.regCommand4_run d v (by decide +kernel) run_stateReq hr

theorem run_pwrDomReq : ∀ i < 3, actRun (Reg.PWR_DOM_REQ i) = some (fun d _ v _ => d.pwrDomReq i v) := by
  intro i hi
  interval_cases i <;> rfl

theorem row_pwrDomReq : ∀ i < 3, (rowIs (Reg.PWR_DOM_REQ i) && plainKey (Reg.PWR_DOM_REQ i)) = true := by decide +kernel

theorem Dev.act_pwrDomReq (d : Dev) {src i : Nat} (v : Nat) (hi : i < 3) (hr : d.Reach src (Reg.PWR_DOM_REQ i)) :
    d.regCommand src (Reg.PWR_DOM_REQ i) 4 v = d.pwrDomReq i (v % 2 ^ 32) :=
  Dev.regCommand4_run d v (row_pwrDomReq i hi) (run_pwrDomReq i hi) hr

theorem run_logPutReg : actRun Reg.LOG_PUT = some (fun d src v _ => d.logPutReg src v) := rfl

theorem Dev.act_logPutReg (d : Dev) {src : Nat} (v : Nat) (hr : d.Reach src Reg.LOG_PUT) :
    d.regCommand src Reg.LOG_PUT 4 v = d.logPutReg src (v % 2 ^ 32) :=
  Dev.regCommand4_run d v (by decide +kernel) run_logPutReg hr

theorem run_almRaise : actRun Reg.LOG_ALM_RAISE = some (fun d src v _ => d.almRaise src v) := rfl

theorem Dev.act_almRaise (d : Dev) {src : Nat} (v : Nat) (hr : d.Reach src Reg.LOG_ALM_RAISE) :
    d.regCommand src Reg.LOG_ALM_RAISE 4 v = d.almRaise src (v % 2 ^ 32) :=
  Dev.regCommand4_run d v (by decide +kernel) run_almRaise hr

theorem run_almAck : actRun Reg.LOG_ALM_ACK = some (fun d _ v _ => d.almAck (bits v 0 10)) := rfl

theorem Dev.act_almAck (d : Dev) {src : Nat} (v : Nat) (hr : d.Reach src Reg.LOG_ALM_ACK) :
    d.regCommand src Reg.LOG_ALM_ACK 4 v = d.almAck (bits (v % 2 ^ 32) 0 10) :=
  Dev.regCommand4_run d v (by decide +kernel) run_almAck hr

theorem run_logRingRd : actRun Reg.LOG_RING_RD = some (fun d _ v _ => d.logRingRd v) := rfl

theorem Dev.act_logRingRd (d : Dev) {src : Nat} (v : Nat) (hr : d.Reach src Reg.LOG_RING_RD) :
    d.regCommand src Reg.LOG_RING_RD 4 v = d.logRingRd (v % 2 ^ 32) :=
  Dev.regCommand4_run d v (by decide +kernel) run_logRingRd hr

theorem run_logTringRd : actRun Reg.LOG_TRING_RD = some (fun d _ v _ => d.logTringRd v) := rfl

theorem Dev.act_logTringRd (d : Dev) {src : Nat} (v : Nat) (hr : d.Reach src Reg.LOG_TRING_RD) :
    d.regCommand src Reg.LOG_TRING_RD 4 v = d.logTringRd (v % 2 ^ 32) :=
  Dev.regCommand4_run d v (by decide +kernel) run_logTringRd hr

theorem run_trcPut : ∀ i < 64, actRun (Reg.LOG_TRC_PUT i) = some (fun d _ v m => d.wideAct (Reg.LOG_TRC_PUT i) v m fun d x => d.trcPut i x) := by
  intro i hi
  interval_cases i <;> rfl

theorem row_trcPut : ∀ i < 64, (rowIs8 (Reg.LOG_TRC_PUT i) && plainKey (Reg.LOG_TRC_PUT i)) = true := by decide +kernel

theorem Dev.act_trcPut (d : Dev) {src i : Nat} (v : Nat) (hi : i < 64) (hr : d.Reach src (Reg.LOG_TRC_PUT i)) :
    d.regCommand src (Reg.LOG_TRC_PUT i) 8 v = d.wideAct (Reg.LOG_TRC_PUT i) (v % 2 ^ 64) 0xFFFFFFFFFFFFFFFF fun d x => d.trcPut i x :=
  Dev.regCommand8_run d v (row_trcPut i hi) (run_trcPut i hi) hr

theorem run_rstCtrl : actRun Reg.RST_CTRL = some (fun d src v _ => d.rstCtrl src v) := rfl

theorem Dev.act_rstCtrl (d : Dev) {src : Nat} (v : Nat) (hr : d.Reach src Reg.RST_CTRL) :
    d.regCommand src Reg.RST_CTRL 4 v = d.rstCtrl src (v % 2 ^ 32) :=
  Dev.regCommand4_run d v (by decide +kernel) run_rstCtrl hr

theorem row_corrIn : ∀ i < 1024, (rowIs (Reg.CAM_CORR_IN i) && plainKey (Reg.CAM_CORR_IN i)) = true := by decide +kernel

theorem Dev.act_corrIn (d : Dev) {src i : Nat} (v : Nat) (hi : i < 1024) (hr : d.Reach src (Reg.CAM_CORR_IN i)) :
    d.regCommand src (Reg.CAM_CORR_IN i) 4 v = d.corrIn i (v % 2 ^ 32) := by
  have hk : Reg.CAM_CORR_IN i = Reg.CAM_CORR_IN 0 + i * 32 := by simp [Reg.CAM_CORR_IN]
  have h0 : ∀ b s n, 0 < s → Reg.CAM_CORR_IN 1023 < b → instOf (Reg.CAM_CORR_IN i) b s n = none := fun b s n hs hb =>
    instOf_out hs (.inl (by simp only [Reg.CAM_CORR_IN] at *; omega))
  have h1 : ∀ b s n, 0 < s → b + s * n ≤ Reg.CAM_CORR_IN 0 → instOf (Reg.CAM_CORR_IN i) b s n = none := fun b s n hs hb =>
    instOf_out hs (.inr (by simp only [Reg.CAM_CORR_IN] at *; omega))
  have hact : actOf (Reg.CAM_CORR_IN i) = some (⟨Reg.CAM_CORR_IN 0, 32, 1024, fun d _ c v _ => d.corrIn c v⟩, i) := by
    unfold actOf
    rw [if_pos (by simp only [Reg.CAM_CORR_IN]; omega)]
    unfold actsControl
    simp only [actFind, h1 _ _ _ (by decide : 0 < 4) (by decide : Reg.COMMIT_SRC_GRP 0 + 4 * 32 ≤ _),
      h1 _ _ _ (by decide : 0 < 64) (by decide : Reg.COMMIT_GRP_CTRL 0 + 64 * 8 ≤ _),
      h1 _ _ _ (by decide : 0 < 4) (by decide : Reg.COMMIT_SNAP_CTRL + 4 * 1 ≤ _),
      h1 _ _ _ (by decide : 0 < 8) (by decide : Reg.BEAM_LT_SET + 8 * 1 ≤ _),
      h1 _ _ _ (by decide : 0 < 4) (by decide : Reg.BEAM_LT_CTRL + 4 * 1 ≤ _)]
    rw [hk, instOf_at (by decide) hi]
  exact Dev.regCommand4_run d v (row_corrIn i hi) (by unfold actRun; rw [hact]; rfl) hr

end Sys2Proof.Machine
end

