-- ==== Sys2Proof/Laws/Report.lean ====
section
/-! SUPPORT. What raising an interrupt source, setting an event bit and reporting an alarm leave alone. -/
namespace Sys2Proof.Machine

variable {b : Dev → Dev} {p q : Nat → Bool} {d e e' : Dev}

/-! Frames. -/

theorem Dev.Frame.refl (b : Dev → Dev) (p : Nat → Bool) (d : Dev) : Dev.Frame b p d d := ⟨rfl, fun _ _ _ => rfl, fun _ _ => rfl⟩

theorem Dev.Frame.mono (h : Dev.Frame b p d e) (hp : ∀ k, q k = false → p k = false) : Dev.Frame b q d e :=
  ⟨h.body, fun k a b => h.regs k (hp k a) b, h.mem⟩

/-- The configuration of the interrupt rings is not among the registers that `p` holds. -/
def ringSafe (p : Nat → Bool) : Bool := (List.range 16).all fun q => !p (Reg.INTC_Q_BASE q) && !p (Reg.INTC_Q_CFG q)

/-- A list of registers outside the rings' block is safe for the rings. -/
theorem ringSafe_among {l : List Nat} (h : ∀ k ∈ l, k < Reg.INTC_Q_BASE 0 ∨ Reg.INTC_Q_BASE 16 ≤ k) : ringSafe (among l) = true := by
  unfold ringSafe
  rw [List.all_eq_true]
  intro q hq
  have hq := List.mem_range.1 hq
  have key : ∀ k, Reg.INTC_Q_BASE 0 ≤ k → k < Reg.INTC_Q_BASE 16 → among l k = false := fun k h1 h2 => by
    unfold among
    rw [List.contains_eq_mem, decide_eq_false_iff_not]
    intro hm
    rcases h k hm with c | c <;> omega
  rw [key _ (by simp only [Reg.INTC_Q_BASE]; omega) (by simp only [Reg.INTC_Q_BASE]; omega),
    key _ (by simp only [Reg.INTC_Q_BASE, Reg.INTC_Q_CFG]; omega) (by simp only [Reg.INTC_Q_BASE, Reg.INTC_Q_CFG]; omega)]
  rfl

theorem irqReg_ring : ∀ q < 16, irqReg (Reg.INTC_Q_BASE q) = false ∧ irqReg (Reg.INTC_Q_CFG q) = false := by decide

theorem Dev.qK_congr {q : Nat} (h : e.rd (Reg.INTC_Q_CFG q) = d.rd (Reg.INTC_Q_CFG q)) : e.qK q = d.qK q := by
  unfold Dev.qK Dev.fld; rw [h]

theorem Dev.inRing_congr (h : ∀ q < 16, e.rd (Reg.INTC_Q_BASE q) = d.rd (Reg.INTC_Q_BASE q) ∧
    e.rd (Reg.INTC_Q_CFG q) = d.rd (Reg.INTC_Q_CFG q)) (a : Nat) : e.inRing a = d.inRing a := by
  unfold Dev.inRing
  rw [Bool.eq_iff_iff, List.any_eq_true, List.any_eq_true]
  have key : ∀ q ∈ List.range 16, e.qK q = d.qK q ∧ e.fld (Reg.INTC_Q_BASE q) 0 48 = d.fld (Reg.INTC_Q_BASE q) 0 48 := fun q hq =>
    ⟨Dev.qK_congr (h q (List.mem_range.1 hq)).2, by unfold Dev.fld; rw [(h q (List.mem_range.1 hq)).1]⟩
  constructor
  · rintro ⟨q, hq, hx⟩
    refine ⟨q, hq, ?_⟩
    rw [← (key q hq).1, ← (key q hq).2]
    exact hx
  · rintro ⟨q, hq, hx⟩
    refine ⟨q, hq, ?_⟩
    rw [(key q hq).1, (key q hq).2]
    exact hx

theorem Dev.Frame.ring (h : Dev.Frame b p d e) (hp : ringSafe p = true) (a : Nat) : e.inRing a = d.inRing a := by
  refine Dev.inRing_congr (fun q hq => ?_) a
  unfold ringSafe at hp
  rw [List.all_eq_true] at hp
  have := hp q (List.mem_range.2 hq)
  simp only [Bool.and_eq_true, Bool.not_eq_true'] at this
  exact ⟨h.regs _ this.1 (irqReg_ring q hq).1, h.regs _ this.2 (irqReg_ring q hq).2⟩

theorem Dev.Frame.trans (h : Dev.Frame b p d e) (g : Dev.Frame b p e e') (hp : ringSafe p = true) : Dev.Frame b p d e' :=
  ⟨g.body.trans h.body, fun k a b => (g.regs k a b).trans (h.regs k a b),
    fun a ha => (g.mem a (by rw [h.ring hp]; exact ha)).trans (h.mem a ha)⟩

theorem Dev.Frame.same (h : Dev.Frame b p d e) (hb : b e'.body = b e.body) (hr : e'.regs = e.regs) (hm : e'.mem = e.mem) :
    Dev.Frame b p d e' :=
  ⟨hb.trans h.body, fun k a b => by rw [← h.regs k a b]; unfold Dev.rd; rw [hr],
    fun a ha => by rw [← h.mem a ha]; unfold Dev.byte; rw [hm]⟩

theorem Dev.Frame.withHost (h : Dev.Frame b p d e) (x : HostSt) : Dev.Frame b p d { e with host := x } := h.same rfl rfl rfl

theorem Dev.Frame.withIntc (h : Dev.Frame b p d e) (x : IntcSt) : Dev.Frame b p d { e with intc := x } := h.same rfl rfl rfl

theorem Dev.Frame.withLog (h : Dev.Frame b p d e) (x : LogSt) : Dev.Frame b p d { e with log := x } := h.same rfl rfl rfl

@[simp] theorem Dev.wr_body (d : Dev) (k v : Nat) : (d.wr k v).body = d.body := by
  unfold Dev.wr; split <;> rfl

theorem Dev.Frame.wr (h : Dev.Frame b p d e) {k : Nat} (v : Nat) (hk : p k = true ∨ irqReg k = true) : Dev.Frame b p d (e.wr k v) :=
  ⟨(congrArg b (Dev.wr_body e k v)).trans h.body,
    fun j a b => by
      rw [Dev.rd_wr_other]
      · exact h.regs j a b
      · rintro rfl; rcases hk with hk | hk <;> simp_all,
    fun a ha => by rw [Dev.wr_byte]; exact h.mem a ha⟩

theorem Dev.Frame.store (h : Dev.Frame b p d e) (a : Nat) (bs : List Nat)
    (hr : ∀ x, a ≤ x → x < a + bs.length → d.inRing x = true) : Dev.Frame b p d (e.store a bs) := by
  refine ⟨?_, fun j x y => by rw [Dev.store_rd]; exact h.regs j x y, fun x hx => ?_⟩
  · rw [← h.body]
    have : ∀ (bs : List Nat) (e : Dev) (a : Nat), (e.store a bs).body = e.body := by
      intro bs
      induction bs with
      | nil => exact fun _ _ => rfl
      | cons b bs ih => intro e a; unfold Dev.store; rw [ih]; rfl
    exact congrArg b (this bs e a)
  · rw [Dev.byte_store_out]
    · exact h.mem x hx
    · rcases Nat.lt_or_ge x a with c | c
      · exact .inl c
      · refine .inr (Nat.le_of_not_lt fun c' => ?_)
        rw [hr x c c'] at hx; cases hx

theorem Dev.Frame.inc (h : Dev.Frame b p d e) {k : Nat} (hk : p k = true ∨ irqReg k = true) : Dev.Frame b p d (e.inc k) := h.wr _ hk

theorem Dev.Frame.orBits (h : Dev.Frame b p d e) {k : Nat} (m : Nat) (hk : p k = true ∨ irqReg k = true) :
    Dev.Frame b p d (e.orBits k m) := h.wr _ hk

theorem Dev.Frame.setIrq (h : Dev.Frame b p d e) (k : Nat) (x : Irq) : Dev.Frame b p d (e.setIrq k x) := h.same rfl rfl rfl

theorem Dev.Frame.emit (h : Dev.Frame b p d e) (x : Emit) : Dev.Frame b p d (e.emit x) := h.same rfl rfl rfl

theorem Dev.Frame.forN {f : Nat → Dev → Dev} {n : Nat} (h : Dev.Frame b p d e)
    (hf : ∀ i < n, ∀ e, Dev.Frame b p d e → Dev.Frame b p d (f i e)) : Dev.Frame b p d (Machine.forN n f e) := by
  unfold Machine.forN
  have : ∀ (l : List Nat), (∀ i ∈ l, i < n) → ∀ e, Dev.Frame b p d e → Dev.Frame b p d (l.foldl (fun x i => f i x) e) := by
    intro l
    induction l with
    | nil => exact fun _ _ h => h
    | cons i l ih =>
      intro hl e he
      exact ih (fun j hj => hl j (List.mem_cons_of_mem _ hj)) _ (hf i (hl i (List.mem_cons_self ..)) e he)
  exact this _ (fun i hi => List.mem_range.1 hi) e h

theorem Dev.stemEnd_ite (d : Dev) (die k : Nat) (s : StemSt) : (d.setStem die s).stemEnd k = if k = die then s else d.stemEnd k := by
  unfold Dev.stemEnd Dev.setStem
  split
  · next h => rw [h]; exact tget_tput_same ..
  · next h => exact tget_tput_other _ _ h

/-- What sending moves of an end of the Stem is no part of `Dev.body`. -/
theorem Dev.setStem_body (d : Dev) {die : Nat} {s : StemSt} (h : s.still = (d.stemEnd die).still) : (d.setStem die s).body = d.body := by
  have key : ∀ k, ((d.setStem die s).stemEnd k).still = (d.stemEnd k).still := fun k => by
    rw [Dev.stemEnd_ite]
    split
    · next e => rw [e, h]
    · rfl
  unfold Dev.body
  rw [key, key]
  rfl

theorem Dev.Frame.setEnd (h : Dev.Frame b p d e) {die : Nat} {s : StemSt} (hs : s.still = (e.stemEnd die).still) :
    Dev.Frame b p d (e.setStem die s) := h.same (congrArg b (e.setStem_body hs)) rfl rfl

theorem Dev.Frame.flitOut (h : Dev.Frame b p d e) (die : Nat) (f : Flit) : Dev.Frame b p d (e.flitOut die f) := by
  unfold Dev.flitOut
  exact (h.setEnd (by rfl)).emit _

/-- Sending a message over the Stem moves the sending end alone (R19, R22, R23). -/
theorem Dev.Frame.stemSend (h : Dev.Frame b p d e) (die ty targ : Nat) (l : List Nat) : Dev.Frame b p d (e.stemSend die ty targ l) := by
  unfold Dev.stemSend Dev.stemTx
  dsimp only
  split
  · exact (h.setEnd (by rfl)).flitOut _ _
  · exact h.setEnd (by rfl)

/-! Raising. -/

theorem irqReg_q : ∀ q < 16, irqReg (Reg.INTC_Q_WR q) = true ∧ irqReg (Reg.INTC_Q_DROP q) = true ∧ irqReg (Reg.INTC_Q_SEQ q) = true := by
  decide

theorem Dev.Frame.vecSend (h : Dev.Frame b p d e) (v : Nat) : Dev.Frame b p d (e.vecSend v) := by
  unfold Dev.vecSend
  split
  · exact Dev.Frame.emit (Dev.Frame.orBits (h.withHost _) (k := Reg.HOST_VEC_SERV) _ (.inr (by decide))) _
  · exact h

theorem Dev.Frame.vecRaise (h : Dev.Frame b p d e) (k : Nat) : Dev.Frame b p d (e.vecRaise k) := by
  unfold Dev.vecRaise
  refine h.forN fun v _ e h => ?_
  split
  · split
    · exact h.withHost _
    · exact Dev.Frame.vecSend (h.withHost _) v
  · exact h

theorem Dev.Frame.pulseDirect (h : Dev.Frame b p d e) (k pay : Nat) : Dev.Frame b p d (e.pulseDirect k pay) := by
  unfold Dev.pulseDirect
  dsimp only
  split
  · exact h.inc (.inr (by decide))
  · split
    · split
      · exact h.inc (.inr (by decide))
      · exact h.setIrq _ _
    · exact h.setIrq _ _

theorem Dev.Frame.ctlFault (h : Dev.Frame b p d e) (a x c : Nat) : Dev.Frame b p d (e.ctlFault a x c) := by
  unfold Dev.ctlFault
  exact (((h.wr _ (.inr (by decide))).orBits _ (.inr (by decide))).vecRaise _).pulseDirect _ _

theorem Dev.Frame.queueLevel (h : Dev.Frame b p d e) (q : Nat) : Dev.Frame b p d (e.queueLevel q) := by
  unfold Dev.queueLevel
  dsimp only
  split
  · exact (h.setIrq _ _).vecRaise _
  · exact h.setIrq _ _

theorem Dev.Frame.queueDrop (h : Dev.Frame b p d e) {q : Nat} (hq : q < 16) : Dev.Frame b p d (e.queueDrop q) := by
  unfold Dev.queueDrop
  dsimp only
  split <;> exact Dev.Frame.withIntc (Dev.Frame.orBits (h.inc (.inr (irqReg_q q hq).2.1)) _ (.inr (by decide))) _

theorem Dev.Frame.queueWritten (h : Dev.Frame b p d e) {q : Nat} (hq : q < 16) : Dev.Frame b p d (e.queueWritten q) := by
  unfold Dev.queueWritten
  exact Dev.Frame.queueLevel (Dev.Frame.wr (h.withIntc _) _ (.inr (irqReg_q q hq).1)) q

theorem bits_lt (v lo w : Nat) : bits v lo w < 2 ^ w := Nat.mod_lt _ (Nat.two_pow_pos _)

theorem ring_slot (base n w : Nat) (x : Nat) (h1 : base + 16 * (w % 2 ^ n) ≤ x) (h2 : x < base + 16 * (w % 2 ^ n) + 16) :
    base ≤ x ∧ x < base + 2 ^ (4 + n) := by
  have h := Nat.mod_lt w (Nat.two_pow_pos n)
  rw [Nat.pow_add]
  generalize w % 2 ^ n = m at *
  generalize 2 ^ n = z at *
  omega

theorem leBytes_length : ∀ n v, (leBytes n v).length = n
  | 0, _ => rfl
  | n + 1, v => by simp [leBytes, leBytes_length n]

/-- A record that is written at once does not lie in list memory (R118, R536). -/
theorem Dev.blockStore_now (d : Dev) {q a : Nat} (bs : List Nat) (h : d.postsNow q a = true) : d.blockStore a bs = d.store a bs := by
  unfold Dev.blockStore
  split
  · next hl =>
    have : d.mirrored a = true := by unfold Dev.mirrored; rw [hl]
    unfold Dev.postsNow at h
    simp [this] at h
  · rfl

theorem Dev.Frame.queueRecord (h : Dev.Frame b p d e) (k pay bm t pos : Nat) (hp : ringSafe p = true) :
    Dev.Frame b p d (e.queueRecord k pay bm t pos) := by
  have hq : e.fld (Reg.INTC_SRC_CFG k) 24 4 < 16 := bits_lt _ _ _
  unfold Dev.queueRecord
  generalize e.fld (Reg.INTC_SRC_CFG k) 24 4 = q at hq
  dsimp only
  have hw : Dev.Frame b p d (e.wr (Reg.INTC_Q_SEQ q) ((e.rd (Reg.INTC_Q_SEQ q) % 65536 + 1) % 65536)) :=
    h.wr _ (.inr (irqReg_q q hq).2.2)
  generalize e.wr (Reg.INTC_Q_SEQ q) ((e.rd (Reg.INTC_Q_SEQ q) % 65536 + 1) % 65536) = f at hw
  split
  · exact hw.queueDrop hq
  · split
    · exact hw.queueDrop hq
    · split
      · exact hw.withIntc _
      · split
        · next hn _ =>
          refine Dev.Frame.queueWritten ?_ hq
          rw [Dev.blockStore_now _ _ (by simpa using hn)]
          refine hw.store _ _ fun x h1 h2 => ?_
          rw [← hw.ring hp]
          unfold Dev.inRing
          rw [List.any_eq_true]
          refine ⟨q, List.mem_range.2 hq, ?_⟩
          simp only [List.length_append, leBytes_length] at h2
          have := ring_slot _ _ _ x h1 (by omega)
          simpa using this
        · exact (hw.queueDrop hq).ctlFault _ _ _

theorem Dev.Frame.raiseAt (h : Dev.Frame b p d e) (k pay bm t pos : Nat) (hp : ringSafe p = true) :
    Dev.Frame b p d (e.raiseAt k pay bm t pos) := by
  unfold Dev.raiseAt
  split
  · exact h
  · dsimp only
    split
    · exact h.vecRaise k
    · split
      · exact (h.vecRaise k).queueRecord _ _ _ _ _ hp
      · exact (h.vecRaise k).pulseDirect _ _

/-- Raising a pulse source changes nothing outside the interrupt controller (R318, R336). -/
theorem Dev.Frame.raise (h : Dev.Frame b p d e) (k pay : Nat) (hp : ringSafe p = true) : Dev.Frame b p d (e.raise k pay) :=
  h.raiseAt _ _ _ _ _ hp

theorem Dev.Frame.levelAt (h : Dev.Frame b p d e) (k : Nat) (c : Bool) (pay bm t pos : Nat) (hp : ringSafe p = true) :
    Dev.Frame b p d (e.levelAt k c pay bm t pos) := by
  unfold Dev.levelAt
  dsimp only
  split
  · split
    · exact (h.setIrq _ _).vecRaise _
    · split
      · exact ((h.setIrq _ _).vecRaise _).queueRecord _ _ _ _ _ hp
      · split
        · exact ((h.setIrq _ _).vecRaise _).setIrq _ _
        · exact (h.setIrq _ _).vecRaise _
  · split <;> exact h.setIrq _ _

/-- Re-evaluating a level source changes nothing outside the interrupt controller (R317, R318). -/
theorem Dev.Frame.refresh (h : Dev.Frame b p d e) (k : Nat) (hp : ringSafe p = true) : Dev.Frame b p d (e.refresh k) := by
  unfold Dev.refresh
  dsimp only
  split
  · unfold Dev.eventSend
    dsimp only
    split
    · exact h
    · exact (h.withIntc _).stemSend _ _ _ _
  · split
    · exact h.queueLevel _
    · exact h.levelAt _ _ _ _ _ _ hp

/-- Setting event bits changes the block's event register and nothing else outside the interrupt controller. -/
theorem Dev.Frame.evt (h : Dev.Frame b p d e) {k r en : Nat} (m : Nat) (hk : evtOf k = some (r, en)) (hr : p r = true)
    (hp : ringSafe p = true) : Dev.Frame b p d (e.evt k m) := by
  unfold Dev.evt
  rw [hk]
  exact (h.orBits m (.inl hr)).refresh k hp

/-- The event bits are set. -/
theorem Dev.rd_evt {k r en : Nat} (m : Nat) (hk : evtOf k = some (r, en)) (hr : irqReg r = false) {w : RegDef} (hw : regRow r = some w) :
    (d.evt k m).rd r = (d.rd r ||| m) % 2 ^ w.width := by
  unfold Dev.evt
  rw [hk]
  dsimp only
  rw [((Dev.Frame.refl id (fun _ => false) (d.orBits r m)).refresh k (by decide)).regs r rfl hr]
  exact Dev.rd_wr_same d _ hw

theorem Dev.rd_evt_w {k r en w : Nat} (m : Nat) (hk : evtOf k = some (r, en)) (hr : irqReg r = false) (hw : regWidth r w = true) :
    (d.evt k m).rd r = (d.rd r ||| m) % 2 ^ w := by
  unfold regWidth at hw
  split at hw
  · next x hx => rw [Dev.rd_evt m hk hr hx, (by simpa using hw : x.width = w)]
  · cases hw

/-! The log. -/

theorem logReg_keys : logReg Reg.LOG_SEQ = true ∧ logReg Reg.LOG_DROP = true ∧ logReg Reg.LOG_EVT = true ∧ logReg Reg.LOG_ALM_USED = true := by
  decide

theorem Dev.Frame.logEvt (h : Dev.Frame b p d e) (m : Nat) (hl : ∀ k, logReg k = true → p k = true) (hp : ringSafe p = true) :
    Dev.Frame b p d (e.evt 452 m) := h.evt (k := 452) (r := Reg.LOG_EVT) (en := Reg.LOG_EVT_EN) m (by decide) (hl _ logReg_keys.2.2.1) hp

theorem Dev.Frame.logPush (h : Dev.Frame b p d e) (r : LogRec) (hl : ∀ k, logReg k = true → p k = true) (hp : ringSafe p = true) :
    Dev.Frame b p d (e.logPush r) := by
  unfold Dev.logPush
  dsimp only
  split
  · exact h.same rfl rfl rfl
  · split
    · exact Dev.Frame.logEvt (Dev.Frame.wr (h.withLog _) _ (.inl (hl _ logReg_keys.2.1))) _ hl hp
    · exact h

theorem Dev.Frame.logPut (h : Dev.Frame b p d e) (a x c f g i j : Nat) (hl : ∀ k, logReg k = true → p k = true) (hp : ringSafe p = true) :
    Dev.Frame b p d (e.logPut a x c f g i j) := by
  unfold Dev.logPut
  split
  · exact h
  · exact (h.wr _ (.inl (hl _ logReg_keys.1))).logPush _ hl hp

theorem Dev.Frame.almReport (h : Dev.Frame b p d e) (a x c f g i j : Nat) (y : Bool) (hl : ∀ k, logReg k = true → p k = true)
    (hp : ringSafe p = true) : Dev.Frame b p d (e.almReport a x c f g i j y) := by
  unfold Dev.almReport
  dsimp only
  repeat' split
  all_goals first
    | exact Dev.Frame.logPut (Dev.Frame.logEvt (Dev.Frame.wr (h.withLog _) _ (.inl (hl _ logReg_keys.2.2.2))) _ hl hp) _ _ _ _ _ _ _ hl hp
    | exact Dev.Frame.logEvt (Dev.Frame.wr (h.withLog _) _ (.inl (hl _ logReg_keys.2.2.2))) _ hl hp

/-- Reporting an alarm changes nothing outside the log and the interrupt controller (R579 to R581). -/
theorem Dev.Frame.alarm (h : Dev.Frame b p d e) (a x : Nat) (hl : ∀ k, logReg k = true → p k = true) (hp : ringSafe p = true) :
    Dev.Frame b p d (e.alarm a x) := h.almReport _ _ _ _ _ _ _ _ hl hp

/-! Registers that reports leave alone. -/

theorem Dev.rd_raise (d : Dev) (a x : Nat) {k : Nat} (h : irqReg k = false) : (d.raise a x).rd k = d.rd k :=
  ((Dev.Frame.refl id (fun _ => false) d).raise a x (by decide)).regs k rfl h

theorem Dev.rd_refresh (d : Dev) (a : Nat) {k : Nat} (h : irqReg k = false) : (d.refresh a).rd k = d.rd k :=
  ((Dev.Frame.refl id (fun _ => false) d).refresh a (by decide)).regs k rfl h

theorem Dev.rd_evt_other (d : Dev) (a m : Nat) {k : Nat} (h : irqReg k = false) (hk : (evtOf a).map (·.1) ≠ some k) :
    (d.evt a m).rd k = d.rd k := by
  unfold Dev.evt
  split
  · next e en he =>
    rw [Dev.rd_refresh _ _ h]
    exact Dev.rd_wr_other _ _ fun hh => hk (by rw [he, hh]; rfl)
  · rfl

theorem Dev.rd_almReport (d : Dev) (a x c f g i j : Nat) (y : Bool) {k : Nat} (h : irqReg k = false) (hl : logReg k = false) :
    (d.almReport a x c f g i j y).rd k = d.rd k :=
  ((Dev.Frame.refl id logReg d).almReport a x c f g i j y (fun _ h => h) (by decide)).regs k hl h

theorem Dev.rd_alarm (d : Dev) (a x : Nat) {k : Nat} (h : irqReg k = false) (hl : logReg k = false) : (d.alarm a x).rd k = d.rd k :=
  Dev.rd_almReport _ _ _ _ _ _ _ _ _ h hl

theorem Dev.rd_logPut (d : Dev) (a x c f g i j : Nat) {k : Nat} (h : irqReg k = false) (hl : logReg k = false) :
    (d.logPut a x c f g i j).rd k = d.rd k :=
  ((Dev.Frame.refl id logReg d).logPut a x c f g i j (fun _ h => h) (by decide)).regs k hl h

end Sys2Proof.Machine
end

