-- ==== Sys2Proof/Laws/Field.lean ====
section
/-! SUPPORT. Bit fields and masks, bit by bit; what a stored register reads. -/
namespace Sys2Proof.Machine

theorem tb_eq (v i : Nat) : tb v i = v.testBit i := by
  unfold tb
  rw [Nat.testBit_eq_decide_div_mod_eq]
  simp [beq_eq_decide]

theorem bits_testBit (v lo w i : Nat) : (bits v lo w).testBit i = (decide (i < w) && v.testBit (lo + i)) := by
  unfold bits
  rw [Nat.testBit_mod_two_pow, Nat.testBit_div_two_pow, Nat.add_comm]

theorem mergeMask_testBit (v x m i : Nat) : (mergeMask v x m).testBit i = if m.testBit i then x.testBit i else v.testBit i := by
  unfold mergeMask
  simp only [Nat.testBit_or, Nat.testBit_and, Nat.testBit_xor]
  cases v.testBit i <;> cases x.testBit i <;> cases m.testBit i <;> rfl

theorem clearMask_testBit (v m i : Nat) : (clearMask v m).testBit i = (v.testBit i && !m.testBit i) := by
  unfold clearMask
  simp only [Nat.testBit_and, Nat.testBit_xor]
  cases v.testBit i <;> cases m.testBit i <;> rfl

/-- A field that the mask takes whole. -/
theorem bits_mergeMask_in {v x m lo w : Nat} (h : ∀ i < w, m.testBit (lo + i) = true) : bits (mergeMask v x m) lo w = bits x lo w := by
  refine Nat.eq_of_testBit_eq fun i => ?_
  simp only [bits_testBit, mergeMask_testBit]
  by_cases hi : i < w
  · simp [hi, h i hi]
  · simp [hi]

theorem bits_clearMask_out {v m lo w : Nat} (h : ∀ i < w, m.testBit (lo + i) = false) : bits (clearMask v m) lo w = bits v lo w := by
  refine Nat.eq_of_testBit_eq fun i => ?_
  simp only [bits_testBit, clearMask_testBit]
  by_cases hi : i < w
  · simp [hi, h i hi]
  · simp [hi]

theorem bits_mod {v lo w n : Nat} (h : lo + w ≤ n) : bits (v % 2 ^ n) lo w = bits v lo w := by
  refine Nat.eq_of_testBit_eq fun i => ?_
  simp only [bits_testBit, Nat.testBit_mod_two_pow]
  by_cases hi : i < w
  · simp [hi, show lo + i < n by omega]
  · simp [hi]

theorem bits_or_out {v m lo w : Nat} (h : ∀ i < w, m.testBit (lo + i) = false) : bits (v ||| m) lo w = bits v lo w := by
  refine Nat.eq_of_testBit_eq fun i => ?_
  simp only [bits_testBit, Nat.testBit_or]
  by_cases hi : i < w
  · simp [hi, h i hi]
  · simp [hi]

/-- Bit `i` of an operand with action bits forced. -/
theorem tb_or (v m n i : Nat) : tb ((v ||| m) % 2 ^ n) i = (decide (i < n) && (tb v i || tb m i)) := by
  simp only [tb_eq, Nat.testBit_mod_two_pow, Nat.testBit_or]

theorem tb_mod (v n i : Nat) : tb (v % 2 ^ n) i = (decide (i < n) && tb v i) := by
  simp only [tb_eq, Nat.testBit_mod_two_pow]

/-- What a register whose fields keep their values reads after a write (R12). -/
theorem Dev.rd_storeReg (d : Dev) (v m : Nat) {k : Nat} {r : RegDef} (h : regRow k = some r) :
    (d.storeReg k v m).rd k = clearMask (mergeMask (d.rd k) v (r.rw &&& m)) (v &&& r.w1c &&& m) % 2 ^ r.width := by
  unfold Dev.storeReg
  rw [h]
  exact Dev.rd_wr_same d _ h

theorem Dev.rd_storeReg_other (d : Dev) (v m : Nat) {k j : Nat} (h : j ≠ k) : (d.storeReg k v m).rd j = d.rd j := by
  unfold Dev.storeReg
  split
  · rfl
  · exact Dev.rd_wr_other d _ h

theorem Dev.Frame.storeReg {b : Dev → Dev} {p : Nat → Bool} {d e : Dev} (h : Dev.Frame b p d e) {k : Nat} (v m : Nat) (hk : p k = true ∨ irqReg k = true) :
    Dev.Frame b p d (e.storeReg k v m) := by
  unfold Dev.storeReg
  split
  · exact h
  · exact h.wr _ hk

/-! A register whose write only stores. -/

theorem evtSource_safe {k j : Nat} (h : evtSource k = some j) : ringSafe (among [k]) = true := by
  refine ringSafe_among ?_
  intro x hx
  rw [List.mem_singleton] at hx
  subst hx
  have hb : x / 0x10000 ≠ 0x3000008 := by
    intro hb
    unfold evtSource at h
    rw [hb] at h
    simp at h
  simp only [Reg.INTC_Q_BASE]; omega

theorem Dev.Frame.evtWritten {b : Dev → Dev} {d e : Dev} {k : Nat} (h : Dev.Frame b (among [k]) d e) : Dev.Frame b (among [k]) d (e.evtWritten k) := by
  unfold Dev.evtWritten
  split
  · next s hs => exact h.refresh _ (evtSource_safe hs)
  · exact h

theorem rd_evtWritten (d : Dev) (k : Nat) {j : Nat} (h : irqReg j = false) : (d.evtWritten k).rd j = d.rd j := by
  unfold Dev.evtWritten
  split
  · exact Dev.rd_refresh _ _ h
  · rfl

theorem regAct_store (d : Dev) {src k v m : Nat} (hp : plainKey k = true) (ha : actRun k = none) : d.regAct src k v m = (d.storeReg k v m).evtWritten k := by
  unfold actRun at ha
  rw [Option.map_eq_none_iff] at ha
  unfold plainKey at hp
  simp only [Bool.and_eq_true, Option.isNone_iff_eq_none, Bool.not_eq_true', Bool.and_eq_false_iff, decide_eq_false_iff_not] at hp
  unfold Dev.regAct
  rw [hp.1]
  dsimp only
  rw [if_neg (by omega), ha]

theorem isReg_row {k : Nat} {r : RegDef} (h : isReg k r = true) : regRow k = some r := by
  simp only [isReg, Bool.and_eq_true, beq_iff_eq, decide_eq_true_eq] at h
  unfold regRow
  rw [if_neg (by omega), h.1.2]; rfl

theorem putBits_testBit (v lo w x i : Nat) :
    (putBits v lo w x).testBit i = if lo ≤ i ∧ i < lo + w then x.testBit (i - lo) else v.testBit i := by
  have h : putBits v lo w x = 2 ^ lo * (2 ^ w * (v / 2 ^ (lo + w)) + x % 2 ^ w) + v % 2 ^ lo := by
    unfold putBits; rw [pow_add]; ring
  rw [h, Nat.testBit_two_pow_mul_add _ (Nat.mod_lt _ (by positivity)), Nat.testBit_two_pow_mul_add _ (Nat.mod_lt _ (by positivity))]
  by_cases h1 : i < lo
  · simp [h1, Nat.testBit_mod_two_pow, show ¬ (lo ≤ i ∧ i < lo + w) by omega]
  · by_cases h2 : i < lo + w
    · simp [h1, Nat.testBit_mod_two_pow, show i - lo < w by omega, show lo ≤ i ∧ i < lo + w by omega]
    · simp [h1, show ¬ (i - lo < w) by omega, show ¬ (lo ≤ i ∧ i < lo + w) by omega, Nat.testBit_div_two_pow]
      congr 1; omega

theorem bits_putBits (v lo w x : Nat) : bits (putBits v lo w x) lo w = x % 2 ^ w := by
  apply Nat.eq_of_testBit_eq; intro i
  rw [bits_testBit, putBits_testBit, Nat.testBit_mod_two_pow]
  by_cases h : i < w
  · simp [h]
  · simp [h]

theorem bits_putBits_other {v lo w x lo' w' : Nat} (h : lo' + w' ≤ lo ∨ lo + w ≤ lo') : bits (putBits v lo w x) lo' w' = bits v lo' w' := by
  apply Nat.eq_of_testBit_eq; intro i
  rw [bits_testBit, bits_testBit, putBits_testBit]
  by_cases hi : i < w'
  · rw [if_neg (by omega)]
  · simp [hi]

theorem tb_putBits (v lo w x i : Nat) : tb (putBits v lo w x) i = if lo ≤ i ∧ i < lo + w then tb x (i - lo) else tb v i := by
  simp only [tb_eq, putBits_testBit]

/-- A field of a register after the field is set. -/
theorem Dev.fld_setF (d : Dev) {k lo w n : Nat} (x : Nat) (hw : regWidth k n = true) (h : lo + w ≤ n) :
    (d.setF k lo w x).fld k lo w = x % 2 ^ w := by
  unfold Dev.fld Dev.setF
  rw [Dev.rd_wr_w _ _ hw, bits_mod h, bits_putBits]

/-- Another field of a register after a field is set. -/
theorem Dev.fld_setF_other (d : Dev) {k lo w n lo' w' : Nat} (x : Nat) (hw : regWidth k n = true) (h : lo' + w' ≤ n)
    (ho : lo' + w' ≤ lo ∨ lo + w ≤ lo') : (d.setF k lo w x).fld k lo' w' = d.fld k lo' w' := by
  unfold Dev.fld Dev.setF
  rw [Dev.rd_wr_w _ _ hw, bits_mod h, bits_putBits_other ho]

theorem Dev.bit_setF (d : Dev) {k lo w n i : Nat} (x : Nat) (hw : regWidth k n = true) (h : i < n) :
    (d.setF k lo w x).bit k i = if lo ≤ i ∧ i < lo + w then tb x (i - lo) else d.bit k i := by
  unfold Dev.bit Dev.setF
  rw [Dev.rd_wr_w _ _ hw, tb_mod, tb_putBits]
  simp [h]

theorem Dev.rd_setF_other (d : Dev) {k k' : Nat} (lo w x : Nat) (h : k' ≠ k) : (d.setF k lo w x).rd k' = d.rd k' := Dev.rd_wr_other _ _ h

end Sys2Proof.Machine
end

