-- ==== Sys2Proof/Laws/State.lean ====
section
/-! SUPPORT. What the shared operations leave of each part of the device, one lemma for each part and operation, and of the state. -/
namespace Sys2Proof.Machine

@[simp] theorem State.onDev_dev (s : State) (f : Dev → Dev) : (s.onDev f).dev = f s.dev := rfl

@[simp] theorem State.onDev_pending (s : State) (f : Dev → Dev) : (s.onDev f).pending = s.pending := rfl

@[simp] theorem State.reset_dev : State.reset.dev = Dev.initial := rfl

@[simp] theorem State.reset_pending : State.reset.pending = [] := rfl

@[simp] theorem Dev.fresh_body (d : Dev) (w : Nat) : (d.fresh w).2.body = d.body := rfl

theorem Dev.store_body (d : Dev) (a : Nat) (l : List Nat) : (d.store a l).body = d.body := by
  induction l generalizing d a with
  | nil => rfl
  | cons b l ih => unfold Dev.store; rw [ih]; rfl

theorem Dev.evt_body (d : Dev) (k m : Nat) : (d.evt k m).body = d.body := by
  unfold Dev.evt
  split
  · exact ((Dev.Frame.refl id (fun _ => false) _).refresh k (by decide)).body.trans (Dev.wr_body _ _ _)
  · rfl

theorem Dev.store_of (d : Dev) (a : Nat) (l : List Nat) : ∃ m, d.store a l = { d with mem := m } := by
  induction l generalizing d a with
  | nil => exact ⟨d.mem, rfl⟩
  | cons b l ih => unfold Dev.store; obtain ⟨m, h⟩ := ih (d.setByte a (BitVec.ofNat 8 b)) (a + 1); rw [h]; exact ⟨m, rfl⟩

/-! The parts that `Dev.body` keeps. -/

theorem Dev.lt_of_body {d e : Dev} (h : e.body = d.body) : e.lt = d.lt := (congrArg Dev.lt h :)

theorem Dev.beams_of_body {d e : Dev} (h : e.body = d.body) : e.beams = d.beams := (congrArg Dev.beams h :)

theorem Dev.encs_of_body {d e : Dev} (h : e.body = d.body) : e.encs = d.encs := (congrArg Dev.encs h :)

theorem Dev.est_of_body {d e : Dev} (h : e.body = d.body) : e.est = d.est := (congrArg Dev.est h :)

theorem Dev.tick_of_body {d e : Dev} (h : e.body = d.body) : e.tick = d.tick := (congrArg Dev.tick h :)

theorem Dev.commit_of_body {d e : Dev} (h : e.body = d.body) : e.commit = d.commit := (congrArg Dev.commit h :)

/-- Of an end of the Stem, `Dev.body` keeps all but what sending moves. -/
theorem Dev.stem_of_body {d e : Dev} (h : e.body = d.body) :
    (e.stemEnd 0).still = (d.stemEnd 0).still ∧ (e.stemEnd 1).still = (d.stemEnd 1).still := by
  have hs : e.body.stem = d.body.stem := congrArg Dev.stem h
  unfold Dev.body at hs
  simpa using hs

theorem Dev.cores_of_body {d e : Dev} (h : e.body = d.body) : e.cores = d.cores := (congrArg Dev.cores h :)

theorem Dev.nodeId_of_body {d e : Dev} (h : e.body = d.body) : e.nodeId = d.nodeId := (congrArg Dev.nodeId h :)

theorem Dev.items_of_body {d e : Dev} (h : e.body = d.body) : e.items = d.items := (congrArg Dev.items h :)

theorem Dev.stn_of_body {d e : Dev} (h : e.body = d.body) : e.stn = d.stn := (congrArg Dev.stn h :)

theorem Dev.seq_of_body {d e : Dev} (h : e.body = d.body) : e.seq = d.seq := (congrArg Dev.seq h :)

theorem Dev.cam_of_body {d e : Dev} (h : e.body = d.body) : e.cam = d.cam := (congrArg Dev.cam h :)

theorem Dev.drv_of_body {d e : Dev} (h : e.body = d.body) : e.drv = d.drv := (congrArg Dev.drv h :)

theorem Dev.tmr_of_body {d e : Dev} (h : e.body = d.body) : e.tmr = d.tmr := (congrArg Dev.tmr h :)

theorem Dev.pins_of_body {d e : Dev} (h : e.body = d.body) : e.pins = d.pins := (congrArg Dev.pins h :)

theorem Dev.trig_of_body {d e : Dev} (h : e.body = d.body) : e.trig = d.trig := (congrArg Dev.trig h :)

theorem Dev.camin_of_body {d e : Dev} (h : e.body = d.body) : e.camin = d.camin := (congrArg Dev.camin h :)

theorem Dev.quads_of_body {d e : Dev} (h : e.body = d.body) : e.quads = d.quads := (congrArg Dev.quads h :)

theorem Dev.pipes_of_body {d e : Dev} (h : e.body = d.body) : e.pipes = d.pipes := (congrArg Dev.pipes h :)

theorem Dev.ras_of_body {d e : Dev} (h : e.body = d.body) : e.ras = d.ras := (congrArg Dev.ras h :)

theorem Dev.disp_of_body {d e : Dev} (h : e.body = d.body) : e.disp = d.disp := (congrArg Dev.disp h :)

theorem Dev.draw_of_body {d e : Dev} (h : e.body = d.body) : e.draw = d.draw := (congrArg Dev.draw h :)

theorem Dev.aud_of_body {d e : Dev} (h : e.body = d.body) : e.aud = d.aud := (congrArg Dev.aud h :)

theorem Dev.dma_of_body {d e : Dev} (h : e.body = d.body) : e.dma = d.dma := (congrArg Dev.dma h :)

theorem Dev.pwr_of_body {d e : Dev} (h : e.body = d.body) : e.pwr = d.pwr := (congrArg Dev.pwr h :)

theorem Dev.sec_of_body {d e : Dev} (h : e.body = d.body) : e.sec = d.sec := (congrArg Dev.sec h :)

theorem Dev.cloche_of_body {d e : Dev} (h : e.body = d.body) : e.cloche = d.cloche := (congrArg Dev.cloche h :)

theorem Dev.trl_of_body {d e : Dev} (h : e.body = d.body) : e.trl = d.trl := (congrArg Dev.trl h :)

theorem Dev.grf_of_body {d e : Dev} (h : e.body = d.body) : e.grf = d.grf := (congrArg Dev.grf h :)

theorem Dev.bstopLow_of_body {d e : Dev} (h : e.body = d.body) : e.bstopLow = d.bstopLow := (congrArg Dev.bstopLow h :)

theorem Dev.dataStop_of_body {d e : Dev} (h : e.body = d.body) : e.dataStop = d.dataStop := (congrArg Dev.dataStop h :)

theorem Dev.memcCfg_of_body {d e : Dev} (h : e.body = d.body) : e.memcCfg = d.memcCfg := (congrArg Dev.memcCfg h :)

@[simp] theorem Dev.wr_lt (d : Dev) (k v : Nat) : (d.wr k v).lt = d.lt :=
  Dev.lt_of_body (Dev.wr_body d k v)

@[simp] theorem Dev.wr_beams (d : Dev) (k v : Nat) : (d.wr k v).beams = d.beams :=
  Dev.beams_of_body (Dev.wr_body d k v)

@[simp] theorem Dev.wr_encs (d : Dev) (k v : Nat) : (d.wr k v).encs = d.encs :=
  Dev.encs_of_body (Dev.wr_body d k v)

@[simp] theorem Dev.wr_est (d : Dev) (k v : Nat) : (d.wr k v).est = d.est :=
  Dev.est_of_body (Dev.wr_body d k v)

@[simp] theorem Dev.wr_tick (d : Dev) (k v : Nat) : (d.wr k v).tick = d.tick :=
  Dev.tick_of_body (Dev.wr_body d k v)

@[simp] theorem Dev.wr_commit (d : Dev) (k v : Nat) : (d.wr k v).commit = d.commit :=
  Dev.commit_of_body (Dev.wr_body d k v)

@[simp] theorem Dev.wr_stem (d : Dev) (k v : Nat) : (d.wr k v).stem = d.stem := by
  unfold Dev.wr; split <;> rfl

@[simp] theorem Dev.wr_cores (d : Dev) (k v : Nat) : (d.wr k v).cores = d.cores :=
  Dev.cores_of_body (Dev.wr_body d k v)

@[simp] theorem Dev.wr_nodeId (d : Dev) (k v : Nat) : (d.wr k v).nodeId = d.nodeId :=
  Dev.nodeId_of_body (Dev.wr_body d k v)

@[simp] theorem Dev.wr_items (d : Dev) (k v : Nat) : (d.wr k v).items = d.items :=
  Dev.items_of_body (Dev.wr_body d k v)

@[simp] theorem Dev.wr_stn (d : Dev) (k v : Nat) : (d.wr k v).stn = d.stn :=
  Dev.stn_of_body (Dev.wr_body d k v)

@[simp] theorem Dev.wr_seq (d : Dev) (k v : Nat) : (d.wr k v).seq = d.seq :=
  Dev.seq_of_body (Dev.wr_body d k v)

@[simp] theorem Dev.wr_cam (d : Dev) (k v : Nat) : (d.wr k v).cam = d.cam :=
  Dev.cam_of_body (Dev.wr_body d k v)

@[simp] theorem Dev.wr_drv (d : Dev) (k v : Nat) : (d.wr k v).drv = d.drv :=
  Dev.drv_of_body (Dev.wr_body d k v)

@[simp] theorem Dev.wr_tmr (d : Dev) (k v : Nat) : (d.wr k v).tmr = d.tmr :=
  Dev.tmr_of_body (Dev.wr_body d k v)

@[simp] theorem Dev.wr_pins (d : Dev) (k v : Nat) : (d.wr k v).pins = d.pins :=
  Dev.pins_of_body (Dev.wr_body d k v)

@[simp] theorem Dev.wr_trig (d : Dev) (k v : Nat) : (d.wr k v).trig = d.trig :=
  Dev.trig_of_body (Dev.wr_body d k v)

@[simp] theorem Dev.wr_camin (d : Dev) (k v : Nat) : (d.wr k v).camin = d.camin :=
  Dev.camin_of_body (Dev.wr_body d k v)

@[simp] theorem Dev.wr_quads (d : Dev) (k v : Nat) : (d.wr k v).quads = d.quads :=
  Dev.quads_of_body (Dev.wr_body d k v)

@[simp] theorem Dev.wr_pipes (d : Dev) (k v : Nat) : (d.wr k v).pipes = d.pipes :=
  Dev.pipes_of_body (Dev.wr_body d k v)

@[simp] theorem Dev.wr_ras (d : Dev) (k v : Nat) : (d.wr k v).ras = d.ras :=
  Dev.ras_of_body (Dev.wr_body d k v)

@[simp] theorem Dev.wr_disp (d : Dev) (k v : Nat) : (d.wr k v).disp = d.disp :=
  Dev.disp_of_body (Dev.wr_body d k v)

@[simp] theorem Dev.wr_draw (d : Dev) (k v : Nat) : (d.wr k v).draw = d.draw :=
  Dev.draw_of_body (Dev.wr_body d k v)

@[simp] theorem Dev.wr_aud (d : Dev) (k v : Nat) : (d.wr k v).aud = d.aud :=
  Dev.aud_of_body (Dev.wr_body d k v)

@[simp] theorem Dev.wr_dma (d : Dev) (k v : Nat) : (d.wr k v).dma = d.dma :=
  Dev.dma_of_body (Dev.wr_body d k v)

@[simp] theorem Dev.wr_pwr (d : Dev) (k v : Nat) : (d.wr k v).pwr = d.pwr :=
  Dev.pwr_of_body (Dev.wr_body d k v)

@[simp] theorem Dev.wr_sec (d : Dev) (k v : Nat) : (d.wr k v).sec = d.sec :=
  Dev.sec_of_body (Dev.wr_body d k v)

@[simp] theorem Dev.wr_cloche (d : Dev) (k v : Nat) : (d.wr k v).cloche = d.cloche :=
  Dev.cloche_of_body (Dev.wr_body d k v)

@[simp] theorem Dev.wr_trl (d : Dev) (k v : Nat) : (d.wr k v).trl = d.trl :=
  Dev.trl_of_body (Dev.wr_body d k v)

@[simp] theorem Dev.wr_grf (d : Dev) (k v : Nat) : (d.wr k v).grf = d.grf :=
  Dev.grf_of_body (Dev.wr_body d k v)

@[simp] theorem Dev.wr_bstopLow (d : Dev) (k v : Nat) : (d.wr k v).bstopLow = d.bstopLow :=
  Dev.bstopLow_of_body (Dev.wr_body d k v)

@[simp] theorem Dev.wr_dataStop (d : Dev) (k v : Nat) : (d.wr k v).dataStop = d.dataStop :=
  Dev.dataStop_of_body (Dev.wr_body d k v)

@[simp] theorem Dev.wr_memcCfg (d : Dev) (k v : Nat) : (d.wr k v).memcCfg = d.memcCfg :=
  Dev.memcCfg_of_body (Dev.wr_body d k v)

@[simp] theorem Dev.wr_free (d : Dev) (k v : Nat) : (d.wr k v).free = d.free := by unfold Dev.wr; split <;> rfl

@[simp] theorem Dev.wr_sent (d : Dev) (k v : Nat) : (d.wr k v).sent = d.sent := by unfold Dev.wr; split <;> rfl

@[simp] theorem Dev.wr_intc (d : Dev) (k v : Nat) : (d.wr k v).intc = d.intc := by unfold Dev.wr; split <;> rfl

@[simp] theorem Dev.wr_log (d : Dev) (k v : Nat) : (d.wr k v).log = d.log := by unfold Dev.wr; split <;> rfl

@[simp] theorem Dev.wr_host (d : Dev) (k v : Nat) : (d.wr k v).host = d.host := by unfold Dev.wr; split <;> rfl

theorem Dev.orBits_body (d : Dev) (k m : Nat) : (d.orBits k m).body = d.body := Dev.wr_body _ _ _

@[simp] theorem Dev.orBits_lt (d : Dev) (k m : Nat) : (d.orBits k m).lt = d.lt :=
  Dev.lt_of_body (Dev.orBits_body d k m)

@[simp] theorem Dev.orBits_beams (d : Dev) (k m : Nat) : (d.orBits k m).beams = d.beams :=
  Dev.beams_of_body (Dev.orBits_body d k m)

@[simp] theorem Dev.orBits_encs (d : Dev) (k m : Nat) : (d.orBits k m).encs = d.encs :=
  Dev.encs_of_body (Dev.orBits_body d k m)

@[simp] theorem Dev.orBits_est (d : Dev) (k m : Nat) : (d.orBits k m).est = d.est :=
  Dev.est_of_body (Dev.orBits_body d k m)

@[simp] theorem Dev.orBits_tick (d : Dev) (k m : Nat) : (d.orBits k m).tick = d.tick :=
  Dev.tick_of_body (Dev.orBits_body d k m)

@[simp] theorem Dev.orBits_commit (d : Dev) (k m : Nat) : (d.orBits k m).commit = d.commit :=
  Dev.commit_of_body (Dev.orBits_body d k m)

@[simp] theorem Dev.orBits_stem (d : Dev) (k m : Nat) : (d.orBits k m).stem = d.stem := Dev.wr_stem _ _ _

@[simp] theorem Dev.orBits_cores (d : Dev) (k m : Nat) : (d.orBits k m).cores = d.cores :=
  Dev.cores_of_body (Dev.orBits_body d k m)

@[simp] theorem Dev.orBits_nodeId (d : Dev) (k m : Nat) : (d.orBits k m).nodeId = d.nodeId :=
  Dev.nodeId_of_body (Dev.orBits_body d k m)

@[simp] theorem Dev.orBits_items (d : Dev) (k m : Nat) : (d.orBits k m).items = d.items :=
  Dev.items_of_body (Dev.orBits_body d k m)

@[simp] theorem Dev.orBits_stn (d : Dev) (k m : Nat) : (d.orBits k m).stn = d.stn :=
  Dev.stn_of_body (Dev.orBits_body d k m)

@[simp] theorem Dev.orBits_seq (d : Dev) (k m : Nat) : (d.orBits k m).seq = d.seq :=
  Dev.seq_of_body (Dev.orBits_body d k m)

@[simp] theorem Dev.orBits_cam (d : Dev) (k m : Nat) : (d.orBits k m).cam = d.cam :=
  Dev.cam_of_body (Dev.orBits_body d k m)

@[simp] theorem Dev.orBits_drv (d : Dev) (k m : Nat) : (d.orBits k m).drv = d.drv :=
  Dev.drv_of_body (Dev.orBits_body d k m)

@[simp] theorem Dev.orBits_tmr (d : Dev) (k m : Nat) : (d.orBits k m).tmr = d.tmr :=
  Dev.tmr_of_body (Dev.orBits_body d k m)

@[simp] theorem Dev.orBits_pins (d : Dev) (k m : Nat) : (d.orBits k m).pins = d.pins :=
  Dev.pins_of_body (Dev.orBits_body d k m)

@[simp] theorem Dev.orBits_trig (d : Dev) (k m : Nat) : (d.orBits k m).trig = d.trig :=
  Dev.trig_of_body (Dev.orBits_body d k m)

@[simp] theorem Dev.orBits_camin (d : Dev) (k m : Nat) : (d.orBits k m).camin = d.camin :=
  Dev.camin_of_body (Dev.orBits_body d k m)

@[simp] theorem Dev.orBits_quads (d : Dev) (k m : Nat) : (d.orBits k m).quads = d.quads :=
  Dev.quads_of_body (Dev.orBits_body d k m)

@[simp] theorem Dev.orBits_pipes (d : Dev) (k m : Nat) : (d.orBits k m).pipes = d.pipes :=
  Dev.pipes_of_body (Dev.orBits_body d k m)

@[simp] theorem Dev.orBits_ras (d : Dev) (k m : Nat) : (d.orBits k m).ras = d.ras :=
  Dev.ras_of_body (Dev.orBits_body d k m)

@[simp] theorem Dev.orBits_disp (d : Dev) (k m : Nat) : (d.orBits k m).disp = d.disp :=
  Dev.disp_of_body (Dev.orBits_body d k m)

@[simp] theorem Dev.orBits_draw (d : Dev) (k m : Nat) : (d.orBits k m).draw = d.draw :=
  Dev.draw_of_body (Dev.orBits_body d k m)

@[simp] theorem Dev.orBits_aud (d : Dev) (k m : Nat) : (d.orBits k m).aud = d.aud :=
  Dev.aud_of_body (Dev.orBits_body d k m)

@[simp] theorem Dev.orBits_dma (d : Dev) (k m : Nat) : (d.orBits k m).dma = d.dma :=
  Dev.dma_of_body (Dev.orBits_body d k m)

@[simp] theorem Dev.orBits_pwr (d : Dev) (k m : Nat) : (d.orBits k m).pwr = d.pwr :=
  Dev.pwr_of_body (Dev.orBits_body d k m)

@[simp] theorem Dev.orBits_sec (d : Dev) (k m : Nat) : (d.orBits k m).sec = d.sec :=
  Dev.sec_of_body (Dev.orBits_body d k m)

@[simp] theorem Dev.orBits_cloche (d : Dev) (k m : Nat) : (d.orBits k m).cloche = d.cloche :=
  Dev.cloche_of_body (Dev.orBits_body d k m)

@[simp] theorem Dev.orBits_trl (d : Dev) (k m : Nat) : (d.orBits k m).trl = d.trl :=
  Dev.trl_of_body (Dev.orBits_body d k m)

@[simp] theorem Dev.orBits_grf (d : Dev) (k m : Nat) : (d.orBits k m).grf = d.grf :=
  Dev.grf_of_body (Dev.orBits_body d k m)

@[simp] theorem Dev.orBits_bstopLow (d : Dev) (k m : Nat) : (d.orBits k m).bstopLow = d.bstopLow :=
  Dev.bstopLow_of_body (Dev.orBits_body d k m)

@[simp] theorem Dev.orBits_dataStop (d : Dev) (k m : Nat) : (d.orBits k m).dataStop = d.dataStop :=
  Dev.dataStop_of_body (Dev.orBits_body d k m)

@[simp] theorem Dev.orBits_memcCfg (d : Dev) (k m : Nat) : (d.orBits k m).memcCfg = d.memcCfg :=
  Dev.memcCfg_of_body (Dev.orBits_body d k m)

@[simp] theorem Dev.orBits_free (d : Dev) (k m : Nat) : (d.orBits k m).free = d.free := by unfold Dev.orBits; exact Dev.wr_free _ _ _

@[simp] theorem Dev.orBits_sent (d : Dev) (k m : Nat) : (d.orBits k m).sent = d.sent := by unfold Dev.orBits; exact Dev.wr_sent _ _ _

@[simp] theorem Dev.orBits_intc (d : Dev) (k m : Nat) : (d.orBits k m).intc = d.intc := by unfold Dev.orBits; exact Dev.wr_intc _ _ _

@[simp] theorem Dev.orBits_log (d : Dev) (k m : Nat) : (d.orBits k m).log = d.log := by unfold Dev.orBits; exact Dev.wr_log _ _ _

@[simp] theorem Dev.orBits_host (d : Dev) (k m : Nat) : (d.orBits k m).host = d.host := by unfold Dev.orBits; exact Dev.wr_host _ _ _

@[simp] theorem Dev.orBits_mem (d : Dev) (k m : Nat) : (d.orBits k m).mem = d.mem := by unfold Dev.orBits; exact Dev.wr_mem _ _ _

theorem Dev.addSat_body (d : Dev) (k n : Nat) : (d.addSat k n).body = d.body := Dev.wr_body _ _ _

@[simp] theorem Dev.addSat_lt (d : Dev) (k n : Nat) : (d.addSat k n).lt = d.lt :=
  Dev.lt_of_body (Dev.addSat_body d k n)

@[simp] theorem Dev.addSat_beams (d : Dev) (k n : Nat) : (d.addSat k n).beams = d.beams :=
  Dev.beams_of_body (Dev.addSat_body d k n)

@[simp] theorem Dev.addSat_encs (d : Dev) (k n : Nat) : (d.addSat k n).encs = d.encs :=
  Dev.encs_of_body (Dev.addSat_body d k n)

@[simp] theorem Dev.addSat_est (d : Dev) (k n : Nat) : (d.addSat k n).est = d.est :=
  Dev.est_of_body (Dev.addSat_body d k n)

@[simp] theorem Dev.addSat_tick (d : Dev) (k n : Nat) : (d.addSat k n).tick = d.tick :=
  Dev.tick_of_body (Dev.addSat_body d k n)

@[simp] theorem Dev.addSat_commit (d : Dev) (k n : Nat) : (d.addSat k n).commit = d.commit :=
  Dev.commit_of_body (Dev.addSat_body d k n)

@[simp] theorem Dev.addSat_stem (d : Dev) (k n : Nat) : (d.addSat k n).stem = d.stem := Dev.wr_stem _ _ _

@[simp] theorem Dev.addSat_cores (d : Dev) (k n : Nat) : (d.addSat k n).cores = d.cores :=
  Dev.cores_of_body (Dev.addSat_body d k n)

@[simp] theorem Dev.addSat_nodeId (d : Dev) (k n : Nat) : (d.addSat k n).nodeId = d.nodeId :=
  Dev.nodeId_of_body (Dev.addSat_body d k n)

@[simp] theorem Dev.addSat_items (d : Dev) (k n : Nat) : (d.addSat k n).items = d.items :=
  Dev.items_of_body (Dev.addSat_body d k n)

@[simp] theorem Dev.addSat_stn (d : Dev) (k n : Nat) : (d.addSat k n).stn = d.stn :=
  Dev.stn_of_body (Dev.addSat_body d k n)

@[simp] theorem Dev.addSat_seq (d : Dev) (k n : Nat) : (d.addSat k n).seq = d.seq :=
  Dev.seq_of_body (Dev.addSat_body d k n)

@[simp] theorem Dev.addSat_cam (d : Dev) (k n : Nat) : (d.addSat k n).cam = d.cam :=
  Dev.cam_of_body (Dev.addSat_body d k n)

@[simp] theorem Dev.addSat_drv (d : Dev) (k n : Nat) : (d.addSat k n).drv = d.drv :=
  Dev.drv_of_body (Dev.addSat_body d k n)

@[simp] theorem Dev.addSat_tmr (d : Dev) (k n : Nat) : (d.addSat k n).tmr = d.tmr :=
  Dev.tmr_of_body (Dev.addSat_body d k n)

@[simp] theorem Dev.addSat_pins (d : Dev) (k n : Nat) : (d.addSat k n).pins = d.pins :=
  Dev.pins_of_body (Dev.addSat_body d k n)

@[simp] theorem Dev.addSat_trig (d : Dev) (k n : Nat) : (d.addSat k n).trig = d.trig :=
  Dev.trig_of_body (Dev.addSat_body d k n)

@[simp] theorem Dev.addSat_camin (d : Dev) (k n : Nat) : (d.addSat k n).camin = d.camin :=
  Dev.camin_of_body (Dev.addSat_body d k n)

@[simp] theorem Dev.addSat_quads (d : Dev) (k n : Nat) : (d.addSat k n).quads = d.quads :=
  Dev.quads_of_body (Dev.addSat_body d k n)

@[simp] theorem Dev.addSat_pipes (d : Dev) (k n : Nat) : (d.addSat k n).pipes = d.pipes :=
  Dev.pipes_of_body (Dev.addSat_body d k n)

@[simp] theorem Dev.addSat_ras (d : Dev) (k n : Nat) : (d.addSat k n).ras = d.ras :=
  Dev.ras_of_body (Dev.addSat_body d k n)

@[simp] theorem Dev.addSat_disp (d : Dev) (k n : Nat) : (d.addSat k n).disp = d.disp :=
  Dev.disp_of_body (Dev.addSat_body d k n)

@[simp] theorem Dev.addSat_draw (d : Dev) (k n : Nat) : (d.addSat k n).draw = d.draw :=
  Dev.draw_of_body (Dev.addSat_body d k n)

@[simp] theorem Dev.addSat_aud (d : Dev) (k n : Nat) : (d.addSat k n).aud = d.aud :=
  Dev.aud_of_body (Dev.addSat_body d k n)

@[simp] theorem Dev.addSat_dma (d : Dev) (k n : Nat) : (d.addSat k n).dma = d.dma :=
  Dev.dma_of_body (Dev.addSat_body d k n)

@[simp] theorem Dev.addSat_pwr (d : Dev) (k n : Nat) : (d.addSat k n).pwr = d.pwr :=
  Dev.pwr_of_body (Dev.addSat_body d k n)

@[simp] theorem Dev.addSat_sec (d : Dev) (k n : Nat) : (d.addSat k n).sec = d.sec :=
  Dev.sec_of_body (Dev.addSat_body d k n)

@[simp] theorem Dev.addSat_cloche (d : Dev) (k n : Nat) : (d.addSat k n).cloche = d.cloche :=
  Dev.cloche_of_body (Dev.addSat_body d k n)

@[simp] theorem Dev.addSat_trl (d : Dev) (k n : Nat) : (d.addSat k n).trl = d.trl :=
  Dev.trl_of_body (Dev.addSat_body d k n)

@[simp] theorem Dev.addSat_grf (d : Dev) (k n : Nat) : (d.addSat k n).grf = d.grf :=
  Dev.grf_of_body (Dev.addSat_body d k n)

@[simp] theorem Dev.addSat_bstopLow (d : Dev) (k n : Nat) : (d.addSat k n).bstopLow = d.bstopLow :=
  Dev.bstopLow_of_body (Dev.addSat_body d k n)

@[simp] theorem Dev.addSat_dataStop (d : Dev) (k n : Nat) : (d.addSat k n).dataStop = d.dataStop :=
  Dev.dataStop_of_body (Dev.addSat_body d k n)

@[simp] theorem Dev.addSat_memcCfg (d : Dev) (k n : Nat) : (d.addSat k n).memcCfg = d.memcCfg :=
  Dev.memcCfg_of_body (Dev.addSat_body d k n)

@[simp] theorem Dev.addSat_free (d : Dev) (k n : Nat) : (d.addSat k n).free = d.free := by unfold Dev.addSat; exact Dev.wr_free _ _ _

@[simp] theorem Dev.addSat_sent (d : Dev) (k n : Nat) : (d.addSat k n).sent = d.sent := by unfold Dev.addSat; exact Dev.wr_sent _ _ _

@[simp] theorem Dev.addSat_intc (d : Dev) (k n : Nat) : (d.addSat k n).intc = d.intc := by unfold Dev.addSat; exact Dev.wr_intc _ _ _

@[simp] theorem Dev.addSat_log (d : Dev) (k n : Nat) : (d.addSat k n).log = d.log := by unfold Dev.addSat; exact Dev.wr_log _ _ _

@[simp] theorem Dev.addSat_host (d : Dev) (k n : Nat) : (d.addSat k n).host = d.host := by unfold Dev.addSat; exact Dev.wr_host _ _ _

@[simp] theorem Dev.addSat_mem (d : Dev) (k n : Nat) : (d.addSat k n).mem = d.mem := by unfold Dev.addSat; exact Dev.wr_mem _ _ _

theorem Dev.inc_body (d : Dev) (k : Nat) : (d.inc k).body = d.body := Dev.wr_body _ _ _

@[simp] theorem Dev.inc_lt (d : Dev) (k : Nat) : (d.inc k).lt = d.lt :=
  Dev.lt_of_body (Dev.inc_body d k)

@[simp] theorem Dev.inc_beams (d : Dev) (k : Nat) : (d.inc k).beams = d.beams :=
  Dev.beams_of_body (Dev.inc_body d k)

@[simp] theorem Dev.inc_encs (d : Dev) (k : Nat) : (d.inc k).encs = d.encs :=
  Dev.encs_of_body (Dev.inc_body d k)

@[simp] theorem Dev.inc_est (d : Dev) (k : Nat) : (d.inc k).est = d.est :=
  Dev.est_of_body (Dev.inc_body d k)

@[simp] theorem Dev.inc_tick (d : Dev) (k : Nat) : (d.inc k).tick = d.tick :=
  Dev.tick_of_body (Dev.inc_body d k)

@[simp] theorem Dev.inc_commit (d : Dev) (k : Nat) : (d.inc k).commit = d.commit :=
  Dev.commit_of_body (Dev.inc_body d k)

@[simp] theorem Dev.inc_stem (d : Dev) (k : Nat) : (d.inc k).stem = d.stem := Dev.wr_stem _ _ _

@[simp] theorem Dev.inc_cores (d : Dev) (k : Nat) : (d.inc k).cores = d.cores :=
  Dev.cores_of_body (Dev.inc_body d k)

@[simp] theorem Dev.inc_nodeId (d : Dev) (k : Nat) : (d.inc k).nodeId = d.nodeId :=
  Dev.nodeId_of_body (Dev.inc_body d k)

@[simp] theorem Dev.inc_items (d : Dev) (k : Nat) : (d.inc k).items = d.items :=
  Dev.items_of_body (Dev.inc_body d k)

@[simp] theorem Dev.inc_stn (d : Dev) (k : Nat) : (d.inc k).stn = d.stn :=
  Dev.stn_of_body (Dev.inc_body d k)

@[simp] theorem Dev.inc_seq (d : Dev) (k : Nat) : (d.inc k).seq = d.seq :=
  Dev.seq_of_body (Dev.inc_body d k)

@[simp] theorem Dev.inc_cam (d : Dev) (k : Nat) : (d.inc k).cam = d.cam :=
  Dev.cam_of_body (Dev.inc_body d k)

@[simp] theorem Dev.inc_drv (d : Dev) (k : Nat) : (d.inc k).drv = d.drv :=
  Dev.drv_of_body (Dev.inc_body d k)

@[simp] theorem Dev.inc_tmr (d : Dev) (k : Nat) : (d.inc k).tmr = d.tmr :=
  Dev.tmr_of_body (Dev.inc_body d k)

@[simp] theorem Dev.inc_pins (d : Dev) (k : Nat) : (d.inc k).pins = d.pins :=
  Dev.pins_of_body (Dev.inc_body d k)

@[simp] theorem Dev.inc_trig (d : Dev) (k : Nat) : (d.inc k).trig = d.trig :=
  Dev.trig_of_body (Dev.inc_body d k)

@[simp] theorem Dev.inc_camin (d : Dev) (k : Nat) : (d.inc k).camin = d.camin :=
  Dev.camin_of_body (Dev.inc_body d k)

@[simp] theorem Dev.inc_quads (d : Dev) (k : Nat) : (d.inc k).quads = d.quads :=
  Dev.quads_of_body (Dev.inc_body d k)

@[simp] theorem Dev.inc_pipes (d : Dev) (k : Nat) : (d.inc k).pipes = d.pipes :=
  Dev.pipes_of_body (Dev.inc_body d k)

@[simp] theorem Dev.inc_ras (d : Dev) (k : Nat) : (d.inc k).ras = d.ras :=
  Dev.ras_of_body (Dev.inc_body d k)

@[simp] theorem Dev.inc_disp (d : Dev) (k : Nat) : (d.inc k).disp = d.disp :=
  Dev.disp_of_body (Dev.inc_body d k)

@[simp] theorem Dev.inc_draw (d : Dev) (k : Nat) : (d.inc k).draw = d.draw :=
  Dev.draw_of_body (Dev.inc_body d k)

@[simp] theorem Dev.inc_aud (d : Dev) (k : Nat) : (d.inc k).aud = d.aud :=
  Dev.aud_of_body (Dev.inc_body d k)

@[simp] theorem Dev.inc_dma (d : Dev) (k : Nat) : (d.inc k).dma = d.dma :=
  Dev.dma_of_body (Dev.inc_body d k)

@[simp] theorem Dev.inc_pwr (d : Dev) (k : Nat) : (d.inc k).pwr = d.pwr :=
  Dev.pwr_of_body (Dev.inc_body d k)

@[simp] theorem Dev.inc_sec (d : Dev) (k : Nat) : (d.inc k).sec = d.sec :=
  Dev.sec_of_body (Dev.inc_body d k)

@[simp] theorem Dev.inc_cloche (d : Dev) (k : Nat) : (d.inc k).cloche = d.cloche :=
  Dev.cloche_of_body (Dev.inc_body d k)

@[simp] theorem Dev.inc_trl (d : Dev) (k : Nat) : (d.inc k).trl = d.trl :=
  Dev.trl_of_body (Dev.inc_body d k)

@[simp] theorem Dev.inc_grf (d : Dev) (k : Nat) : (d.inc k).grf = d.grf :=
  Dev.grf_of_body (Dev.inc_body d k)

@[simp] theorem Dev.inc_bstopLow (d : Dev) (k : Nat) : (d.inc k).bstopLow = d.bstopLow :=
  Dev.bstopLow_of_body (Dev.inc_body d k)

@[simp] theorem Dev.inc_dataStop (d : Dev) (k : Nat) : (d.inc k).dataStop = d.dataStop :=
  Dev.dataStop_of_body (Dev.inc_body d k)

@[simp] theorem Dev.inc_memcCfg (d : Dev) (k : Nat) : (d.inc k).memcCfg = d.memcCfg :=
  Dev.memcCfg_of_body (Dev.inc_body d k)

@[simp] theorem Dev.inc_free (d : Dev) (k : Nat) : (d.inc k).free = d.free := by unfold Dev.inc; exact Dev.addSat_free _ _ _

@[simp] theorem Dev.inc_sent (d : Dev) (k : Nat) : (d.inc k).sent = d.sent := by unfold Dev.inc; exact Dev.addSat_sent _ _ _

@[simp] theorem Dev.inc_intc (d : Dev) (k : Nat) : (d.inc k).intc = d.intc := by unfold Dev.inc; exact Dev.addSat_intc _ _ _

@[simp] theorem Dev.inc_log (d : Dev) (k : Nat) : (d.inc k).log = d.log := by unfold Dev.inc; exact Dev.addSat_log _ _ _

@[simp] theorem Dev.inc_host (d : Dev) (k : Nat) : (d.inc k).host = d.host := by unfold Dev.inc; exact Dev.addSat_host _ _ _

@[simp] theorem Dev.inc_mem (d : Dev) (k : Nat) : (d.inc k).mem = d.mem := by unfold Dev.inc; exact Dev.addSat_mem _ _ _

theorem Dev.setF_body (d : Dev) (k lo w x : Nat) : (d.setF k lo w x).body = d.body := Dev.wr_body _ _ _

@[simp] theorem Dev.setF_lt (d : Dev) (k lo w x : Nat) : (d.setF k lo w x).lt = d.lt :=
  Dev.lt_of_body (Dev.setF_body d k lo w x)

@[simp] theorem Dev.setF_beams (d : Dev) (k lo w x : Nat) : (d.setF k lo w x).beams = d.beams :=
  Dev.beams_of_body (Dev.setF_body d k lo w x)

@[simp] theorem Dev.setF_encs (d : Dev) (k lo w x : Nat) : (d.setF k lo w x).encs = d.encs :=
  Dev.encs_of_body (Dev.setF_body d k lo w x)

@[simp] theorem Dev.setF_est (d : Dev) (k lo w x : Nat) : (d.setF k lo w x).est = d.est :=
  Dev.est_of_body (Dev.setF_body d k lo w x)

@[simp] theorem Dev.setF_tick (d : Dev) (k lo w x : Nat) : (d.setF k lo w x).tick = d.tick :=
  Dev.tick_of_body (Dev.setF_body d k lo w x)

@[simp] theorem Dev.setF_commit (d : Dev) (k lo w x : Nat) : (d.setF k lo w x).commit = d.commit :=
  Dev.commit_of_body (Dev.setF_body d k lo w x)

@[simp] theorem Dev.setF_stem (d : Dev) (k lo w x : Nat) : (d.setF k lo w x).stem = d.stem := Dev.wr_stem _ _ _

@[simp] theorem Dev.setF_cores (d : Dev) (k lo w x : Nat) : (d.setF k lo w x).cores = d.cores :=
  Dev.cores_of_body (Dev.setF_body d k lo w x)

@[simp] theorem Dev.setF_nodeId (d : Dev) (k lo w x : Nat) : (d.setF k lo w x).nodeId = d.nodeId :=
  Dev.nodeId_of_body (Dev.setF_body d k lo w x)

@[simp] theorem Dev.setF_items (d : Dev) (k lo w x : Nat) : (d.setF k lo w x).items = d.items :=
  Dev.items_of_body (Dev.setF_body d k lo w x)

@[simp] theorem Dev.setF_stn (d : Dev) (k lo w x : Nat) : (d.setF k lo w x).stn = d.stn :=
  Dev.stn_of_body (Dev.setF_body d k lo w x)

@[simp] theorem Dev.setF_seq (d : Dev) (k lo w x : Nat) : (d.setF k lo w x).seq = d.seq :=
  Dev.seq_of_body (Dev.setF_body d k lo w x)

@[simp] theorem Dev.setF_cam (d : Dev) (k lo w x : Nat) : (d.setF k lo w x).cam = d.cam :=
  Dev.cam_of_body (Dev.setF_body d k lo w x)

@[simp] theorem Dev.setF_drv (d : Dev) (k lo w x : Nat) : (d.setF k lo w x).drv = d.drv :=
  Dev.drv_of_body (Dev.setF_body d k lo w x)

@[simp] theorem Dev.setF_tmr (d : Dev) (k lo w x : Nat) : (d.setF k lo w x).tmr = d.tmr :=
  Dev.tmr_of_body (Dev.setF_body d k lo w x)

@[simp] theorem Dev.setF_pins (d : Dev) (k lo w x : Nat) : (d.setF k lo w x).pins = d.pins :=
  Dev.pins_of_body (Dev.setF_body d k lo w x)

@[simp] theorem Dev.setF_trig (d : Dev) (k lo w x : Nat) : (d.setF k lo w x).trig = d.trig :=
  Dev.trig_of_body (Dev.setF_body d k lo w x)

@[simp] theorem Dev.setF_camin (d : Dev) (k lo w x : Nat) : (d.setF k lo w x).camin = d.camin :=
  Dev.camin_of_body (Dev.setF_body d k lo w x)

@[simp] theorem Dev.setF_quads (d : Dev) (k lo w x : Nat) : (d.setF k lo w x).quads = d.quads :=
  Dev.quads_of_body (Dev.setF_body d k lo w x)

@[simp] theorem Dev.setF_pipes (d : Dev) (k lo w x : Nat) : (d.setF k lo w x).pipes = d.pipes :=
  Dev.pipes_of_body (Dev.setF_body d k lo w x)

@[simp] theorem Dev.setF_ras (d : Dev) (k lo w x : Nat) : (d.setF k lo w x).ras = d.ras :=
  Dev.ras_of_body (Dev.setF_body d k lo w x)

@[simp] theorem Dev.setF_disp (d : Dev) (k lo w x : Nat) : (d.setF k lo w x).disp = d.disp :=
  Dev.disp_of_body (Dev.setF_body d k lo w x)

@[simp] theorem Dev.setF_draw (d : Dev) (k lo w x : Nat) : (d.setF k lo w x).draw = d.draw :=
  Dev.draw_of_body (Dev.setF_body d k lo w x)

@[simp] theorem Dev.setF_aud (d : Dev) (k lo w x : Nat) : (d.setF k lo w x).aud = d.aud :=
  Dev.aud_of_body (Dev.setF_body d k lo w x)

@[simp] theorem Dev.setF_dma (d : Dev) (k lo w x : Nat) : (d.setF k lo w x).dma = d.dma :=
  Dev.dma_of_body (Dev.setF_body d k lo w x)

@[simp] theorem Dev.setF_pwr (d : Dev) (k lo w x : Nat) : (d.setF k lo w x).pwr = d.pwr :=
  Dev.pwr_of_body (Dev.setF_body d k lo w x)

@[simp] theorem Dev.setF_sec (d : Dev) (k lo w x : Nat) : (d.setF k lo w x).sec = d.sec :=
  Dev.sec_of_body (Dev.setF_body d k lo w x)

@[simp] theorem Dev.setF_cloche (d : Dev) (k lo w x : Nat) : (d.setF k lo w x).cloche = d.cloche :=
  Dev.cloche_of_body (Dev.setF_body d k lo w x)

@[simp] theorem Dev.setF_trl (d : Dev) (k lo w x : Nat) : (d.setF k lo w x).trl = d.trl :=
  Dev.trl_of_body (Dev.setF_body d k lo w x)

@[simp] theorem Dev.setF_grf (d : Dev) (k lo w x : Nat) : (d.setF k lo w x).grf = d.grf :=
  Dev.grf_of_body (Dev.setF_body d k lo w x)

@[simp] theorem Dev.setF_bstopLow (d : Dev) (k lo w x : Nat) : (d.setF k lo w x).bstopLow = d.bstopLow :=
  Dev.bstopLow_of_body (Dev.setF_body d k lo w x)

@[simp] theorem Dev.setF_dataStop (d : Dev) (k lo w x : Nat) : (d.setF k lo w x).dataStop = d.dataStop :=
  Dev.dataStop_of_body (Dev.setF_body d k lo w x)

@[simp] theorem Dev.setF_memcCfg (d : Dev) (k lo w x : Nat) : (d.setF k lo w x).memcCfg = d.memcCfg :=
  Dev.memcCfg_of_body (Dev.setF_body d k lo w x)

@[simp] theorem Dev.setF_free (d : Dev) (k lo w x : Nat) : (d.setF k lo w x).free = d.free := by unfold Dev.setF; exact Dev.wr_free _ _ _

@[simp] theorem Dev.setF_sent (d : Dev) (k lo w x : Nat) : (d.setF k lo w x).sent = d.sent := by unfold Dev.setF; exact Dev.wr_sent _ _ _

@[simp] theorem Dev.setF_intc (d : Dev) (k lo w x : Nat) : (d.setF k lo w x).intc = d.intc := by unfold Dev.setF; exact Dev.wr_intc _ _ _

@[simp] theorem Dev.setF_log (d : Dev) (k lo w x : Nat) : (d.setF k lo w x).log = d.log := by unfold Dev.setF; exact Dev.wr_log _ _ _

@[simp] theorem Dev.setF_host (d : Dev) (k lo w x : Nat) : (d.setF k lo w x).host = d.host := by unfold Dev.setF; exact Dev.wr_host _ _ _

@[simp] theorem Dev.setF_mem (d : Dev) (k lo w x : Nat) : (d.setF k lo w x).mem = d.mem := by unfold Dev.setF; exact Dev.wr_mem _ _ _

theorem Dev.storeReg_body (d : Dev) (k v m : Nat) : (d.storeReg k v m).body = d.body := by unfold Dev.storeReg; split <;> simp

@[simp] theorem Dev.storeReg_lt (d : Dev) (k v m : Nat) : (d.storeReg k v m).lt = d.lt :=
  Dev.lt_of_body (Dev.storeReg_body d k v m)

@[simp] theorem Dev.storeReg_beams (d : Dev) (k v m : Nat) : (d.storeReg k v m).beams = d.beams :=
  Dev.beams_of_body (Dev.storeReg_body d k v m)

@[simp] theorem Dev.storeReg_encs (d : Dev) (k v m : Nat) : (d.storeReg k v m).encs = d.encs :=
  Dev.encs_of_body (Dev.storeReg_body d k v m)

@[simp] theorem Dev.storeReg_est (d : Dev) (k v m : Nat) : (d.storeReg k v m).est = d.est :=
  Dev.est_of_body (Dev.storeReg_body d k v m)

@[simp] theorem Dev.storeReg_tick (d : Dev) (k v m : Nat) : (d.storeReg k v m).tick = d.tick :=
  Dev.tick_of_body (Dev.storeReg_body d k v m)

@[simp] theorem Dev.storeReg_commit (d : Dev) (k v m : Nat) : (d.storeReg k v m).commit = d.commit :=
  Dev.commit_of_body (Dev.storeReg_body d k v m)

@[simp] theorem Dev.storeReg_stem (d : Dev) (k v m : Nat) : (d.storeReg k v m).stem = d.stem := by
  unfold Dev.storeReg; split <;> simp

@[simp] theorem Dev.storeReg_cores (d : Dev) (k v m : Nat) : (d.storeReg k v m).cores = d.cores :=
  Dev.cores_of_body (Dev.storeReg_body d k v m)

@[simp] theorem Dev.storeReg_nodeId (d : Dev) (k v m : Nat) : (d.storeReg k v m).nodeId = d.nodeId :=
  Dev.nodeId_of_body (Dev.storeReg_body d k v m)

@[simp] theorem Dev.storeReg_items (d : Dev) (k v m : Nat) : (d.storeReg k v m).items = d.items :=
  Dev.items_of_body (Dev.storeReg_body d k v m)

@[simp] theorem Dev.storeReg_stn (d : Dev) (k v m : Nat) : (d.storeReg k v m).stn = d.stn :=
  Dev.stn_of_body (Dev.storeReg_body d k v m)

@[simp] theorem Dev.storeReg_seq (d : Dev) (k v m : Nat) : (d.storeReg k v m).seq = d.seq :=
  Dev.seq_of_body (Dev.storeReg_body d k v m)

@[simp] theorem Dev.storeReg_cam (d : Dev) (k v m : Nat) : (d.storeReg k v m).cam = d.cam :=
  Dev.cam_of_body (Dev.storeReg_body d k v m)

@[simp] theorem Dev.storeReg_drv (d : Dev) (k v m : Nat) : (d.storeReg k v m).drv = d.drv :=
  Dev.drv_of_body (Dev.storeReg_body d k v m)

@[simp] theorem Dev.storeReg_tmr (d : Dev) (k v m : Nat) : (d.storeReg k v m).tmr = d.tmr :=
  Dev.tmr_of_body (Dev.storeReg_body d k v m)

@[simp] theorem Dev.storeReg_pins (d : Dev) (k v m : Nat) : (d.storeReg k v m).pins = d.pins :=
  Dev.pins_of_body (Dev.storeReg_body d k v m)

@[simp] theorem Dev.storeReg_trig (d : Dev) (k v m : Nat) : (d.storeReg k v m).trig = d.trig :=
  Dev.trig_of_body (Dev.storeReg_body d k v m)

@[simp] theorem Dev.storeReg_camin (d : Dev) (k v m : Nat) : (d.storeReg k v m).camin = d.camin :=
  Dev.camin_of_body (Dev.storeReg_body d k v m)

@[simp] theorem Dev.storeReg_quads (d : Dev) (k v m : Nat) : (d.storeReg k v m).quads = d.quads :=
  Dev.quads_of_body (Dev.storeReg_body d k v m)

@[simp] theorem Dev.storeReg_pipes (d : Dev) (k v m : Nat) : (d.storeReg k v m).pipes = d.pipes :=
  Dev.pipes_of_body (Dev.storeReg_body d k v m)

@[simp] theorem Dev.storeReg_ras (d : Dev) (k v m : Nat) : (d.storeReg k v m).ras = d.ras :=
  Dev.ras_of_body (Dev.storeReg_body d k v m)

@[simp] theorem Dev.storeReg_disp (d : Dev) (k v m : Nat) : (d.storeReg k v m).disp = d.disp :=
  Dev.disp_of_body (Dev.storeReg_body d k v m)

@[simp] theorem Dev.storeReg_draw (d : Dev) (k v m : Nat) : (d.storeReg k v m).draw = d.draw :=
  Dev.draw_of_body (Dev.storeReg_body d k v m)

@[simp] theorem Dev.storeReg_aud (d : Dev) (k v m : Nat) : (d.storeReg k v m).aud = d.aud :=
  Dev.aud_of_body (Dev.storeReg_body d k v m)

@[simp] theorem Dev.storeReg_dma (d : Dev) (k v m : Nat) : (d.storeReg k v m).dma = d.dma :=
  Dev.dma_of_body (Dev.storeReg_body d k v m)

@[simp] theorem Dev.storeReg_pwr (d : Dev) (k v m : Nat) : (d.storeReg k v m).pwr = d.pwr :=
  Dev.pwr_of_body (Dev.storeReg_body d k v m)

@[simp] theorem Dev.storeReg_sec (d : Dev) (k v m : Nat) : (d.storeReg k v m).sec = d.sec :=
  Dev.sec_of_body (Dev.storeReg_body d k v m)

@[simp] theorem Dev.storeReg_cloche (d : Dev) (k v m : Nat) : (d.storeReg k v m).cloche = d.cloche :=
  Dev.cloche_of_body (Dev.storeReg_body d k v m)

@[simp] theorem Dev.storeReg_trl (d : Dev) (k v m : Nat) : (d.storeReg k v m).trl = d.trl :=
  Dev.trl_of_body (Dev.storeReg_body d k v m)

@[simp] theorem Dev.storeReg_grf (d : Dev) (k v m : Nat) : (d.storeReg k v m).grf = d.grf :=
  Dev.grf_of_body (Dev.storeReg_body d k v m)

@[simp] theorem Dev.storeReg_bstopLow (d : Dev) (k v m : Nat) : (d.storeReg k v m).bstopLow = d.bstopLow :=
  Dev.bstopLow_of_body (Dev.storeReg_body d k v m)

@[simp] theorem Dev.storeReg_dataStop (d : Dev) (k v m : Nat) : (d.storeReg k v m).dataStop = d.dataStop :=
  Dev.dataStop_of_body (Dev.storeReg_body d k v m)

@[simp] theorem Dev.storeReg_memcCfg (d : Dev) (k v m : Nat) : (d.storeReg k v m).memcCfg = d.memcCfg :=
  Dev.memcCfg_of_body (Dev.storeReg_body d k v m)

@[simp] theorem Dev.storeReg_free (d : Dev) (k v m : Nat) : (d.storeReg k v m).free = d.free := by unfold Dev.storeReg; split <;> simp

@[simp] theorem Dev.storeReg_sent (d : Dev) (k v m : Nat) : (d.storeReg k v m).sent = d.sent := by unfold Dev.storeReg; split <;> simp

@[simp] theorem Dev.storeReg_intc (d : Dev) (k v m : Nat) : (d.storeReg k v m).intc = d.intc := by unfold Dev.storeReg; split <;> simp

@[simp] theorem Dev.storeReg_log (d : Dev) (k v m : Nat) : (d.storeReg k v m).log = d.log := by unfold Dev.storeReg; split <;> simp

@[simp] theorem Dev.storeReg_host (d : Dev) (k v m : Nat) : (d.storeReg k v m).host = d.host := by unfold Dev.storeReg; split <;> simp

@[simp] theorem Dev.storeReg_mem (d : Dev) (k v m : Nat) : (d.storeReg k v m).mem = d.mem := by unfold Dev.storeReg; split <;> simp

theorem Dev.emit_body (d : Dev) (x : Emit) : (d.emit x).body = d.body := rfl

@[simp] theorem Dev.emit_lt (d : Dev) (x : Emit) : (d.emit x).lt = d.lt :=
  Dev.lt_of_body (Dev.emit_body d x)

@[simp] theorem Dev.emit_beams (d : Dev) (x : Emit) : (d.emit x).beams = d.beams :=
  Dev.beams_of_body (Dev.emit_body d x)

@[simp] theorem Dev.emit_encs (d : Dev) (x : Emit) : (d.emit x).encs = d.encs :=
  Dev.encs_of_body (Dev.emit_body d x)

@[simp] theorem Dev.emit_est (d : Dev) (x : Emit) : (d.emit x).est = d.est :=
  Dev.est_of_body (Dev.emit_body d x)

@[simp] theorem Dev.emit_tick (d : Dev) (x : Emit) : (d.emit x).tick = d.tick :=
  Dev.tick_of_body (Dev.emit_body d x)

@[simp] theorem Dev.emit_commit (d : Dev) (x : Emit) : (d.emit x).commit = d.commit :=
  Dev.commit_of_body (Dev.emit_body d x)

@[simp] theorem Dev.emit_stem (d : Dev) (x : Emit) : (d.emit x).stem = d.stem := rfl

@[simp] theorem Dev.emit_cores (d : Dev) (x : Emit) : (d.emit x).cores = d.cores :=
  Dev.cores_of_body (Dev.emit_body d x)

@[simp] theorem Dev.emit_nodeId (d : Dev) (x : Emit) : (d.emit x).nodeId = d.nodeId :=
  Dev.nodeId_of_body (Dev.emit_body d x)

@[simp] theorem Dev.emit_items (d : Dev) (x : Emit) : (d.emit x).items = d.items :=
  Dev.items_of_body (Dev.emit_body d x)

@[simp] theorem Dev.emit_stn (d : Dev) (x : Emit) : (d.emit x).stn = d.stn :=
  Dev.stn_of_body (Dev.emit_body d x)

@[simp] theorem Dev.emit_seq (d : Dev) (x : Emit) : (d.emit x).seq = d.seq :=
  Dev.seq_of_body (Dev.emit_body d x)

@[simp] theorem Dev.emit_cam (d : Dev) (x : Emit) : (d.emit x).cam = d.cam :=
  Dev.cam_of_body (Dev.emit_body d x)

@[simp] theorem Dev.emit_drv (d : Dev) (x : Emit) : (d.emit x).drv = d.drv :=
  Dev.drv_of_body (Dev.emit_body d x)

@[simp] theorem Dev.emit_tmr (d : Dev) (x : Emit) : (d.emit x).tmr = d.tmr :=
  Dev.tmr_of_body (Dev.emit_body d x)

@[simp] theorem Dev.emit_pins (d : Dev) (x : Emit) : (d.emit x).pins = d.pins :=
  Dev.pins_of_body (Dev.emit_body d x)

@[simp] theorem Dev.emit_trig (d : Dev) (x : Emit) : (d.emit x).trig = d.trig :=
  Dev.trig_of_body (Dev.emit_body d x)

@[simp] theorem Dev.emit_camin (d : Dev) (x : Emit) : (d.emit x).camin = d.camin :=
  Dev.camin_of_body (Dev.emit_body d x)

@[simp] theorem Dev.emit_quads (d : Dev) (x : Emit) : (d.emit x).quads = d.quads :=
  Dev.quads_of_body (Dev.emit_body d x)

@[simp] theorem Dev.emit_pipes (d : Dev) (x : Emit) : (d.emit x).pipes = d.pipes :=
  Dev.pipes_of_body (Dev.emit_body d x)

@[simp] theorem Dev.emit_ras (d : Dev) (x : Emit) : (d.emit x).ras = d.ras :=
  Dev.ras_of_body (Dev.emit_body d x)

@[simp] theorem Dev.emit_disp (d : Dev) (x : Emit) : (d.emit x).disp = d.disp :=
  Dev.disp_of_body (Dev.emit_body d x)

@[simp] theorem Dev.emit_draw (d : Dev) (x : Emit) : (d.emit x).draw = d.draw :=
  Dev.draw_of_body (Dev.emit_body d x)

@[simp] theorem Dev.emit_aud (d : Dev) (x : Emit) : (d.emit x).aud = d.aud :=
  Dev.aud_of_body (Dev.emit_body d x)

@[simp] theorem Dev.emit_dma (d : Dev) (x : Emit) : (d.emit x).dma = d.dma :=
  Dev.dma_of_body (Dev.emit_body d x)

@[simp] theorem Dev.emit_pwr (d : Dev) (x : Emit) : (d.emit x).pwr = d.pwr :=
  Dev.pwr_of_body (Dev.emit_body d x)

@[simp] theorem Dev.emit_sec (d : Dev) (x : Emit) : (d.emit x).sec = d.sec :=
  Dev.sec_of_body (Dev.emit_body d x)

@[simp] theorem Dev.emit_cloche (d : Dev) (x : Emit) : (d.emit x).cloche = d.cloche :=
  Dev.cloche_of_body (Dev.emit_body d x)

@[simp] theorem Dev.emit_trl (d : Dev) (x : Emit) : (d.emit x).trl = d.trl :=
  Dev.trl_of_body (Dev.emit_body d x)

@[simp] theorem Dev.emit_grf (d : Dev) (x : Emit) : (d.emit x).grf = d.grf :=
  Dev.grf_of_body (Dev.emit_body d x)

@[simp] theorem Dev.emit_bstopLow (d : Dev) (x : Emit) : (d.emit x).bstopLow = d.bstopLow :=
  Dev.bstopLow_of_body (Dev.emit_body d x)

@[simp] theorem Dev.emit_dataStop (d : Dev) (x : Emit) : (d.emit x).dataStop = d.dataStop :=
  Dev.dataStop_of_body (Dev.emit_body d x)

@[simp] theorem Dev.emit_memcCfg (d : Dev) (x : Emit) : (d.emit x).memcCfg = d.memcCfg :=
  Dev.memcCfg_of_body (Dev.emit_body d x)

@[simp] theorem Dev.emit_regs (d : Dev) (x : Emit) : (d.emit x).regs = d.regs := rfl

@[simp] theorem Dev.emit_mem (d : Dev) (x : Emit) : (d.emit x).mem = d.mem := rfl

@[simp] theorem Dev.emit_free (d : Dev) (x : Emit) : (d.emit x).free = d.free := rfl

@[simp] theorem Dev.emit_intc (d : Dev) (x : Emit) : (d.emit x).intc = d.intc := rfl

@[simp] theorem Dev.emit_log (d : Dev) (x : Emit) : (d.emit x).log = d.log := rfl

@[simp] theorem Dev.emit_host (d : Dev) (x : Emit) : (d.emit x).host = d.host := rfl

theorem Dev.setByte_body (d : Dev) (a : Nat) (v : Byte) : (d.setByte a v).body = d.body := rfl

@[simp] theorem Dev.setByte_lt (d : Dev) (a : Nat) (v : Byte) : (d.setByte a v).lt = d.lt :=
  Dev.lt_of_body (Dev.setByte_body d a v)

@[simp] theorem Dev.setByte_beams (d : Dev) (a : Nat) (v : Byte) : (d.setByte a v).beams = d.beams :=
  Dev.beams_of_body (Dev.setByte_body d a v)

@[simp] theorem Dev.setByte_encs (d : Dev) (a : Nat) (v : Byte) : (d.setByte a v).encs = d.encs :=
  Dev.encs_of_body (Dev.setByte_body d a v)

@[simp] theorem Dev.setByte_est (d : Dev) (a : Nat) (v : Byte) : (d.setByte a v).est = d.est :=
  Dev.est_of_body (Dev.setByte_body d a v)

@[simp] theorem Dev.setByte_tick (d : Dev) (a : Nat) (v : Byte) : (d.setByte a v).tick = d.tick :=
  Dev.tick_of_body (Dev.setByte_body d a v)

@[simp] theorem Dev.setByte_commit (d : Dev) (a : Nat) (v : Byte) : (d.setByte a v).commit = d.commit :=
  Dev.commit_of_body (Dev.setByte_body d a v)

@[simp] theorem Dev.setByte_stem (d : Dev) (a : Nat) (v : Byte) : (d.setByte a v).stem = d.stem := rfl

@[simp] theorem Dev.setByte_cores (d : Dev) (a : Nat) (v : Byte) : (d.setByte a v).cores = d.cores :=
  Dev.cores_of_body (Dev.setByte_body d a v)

@[simp] theorem Dev.setByte_nodeId (d : Dev) (a : Nat) (v : Byte) : (d.setByte a v).nodeId = d.nodeId :=
  Dev.nodeId_of_body (Dev.setByte_body d a v)

@[simp] theorem Dev.setByte_items (d : Dev) (a : Nat) (v : Byte) : (d.setByte a v).items = d.items :=
  Dev.items_of_body (Dev.setByte_body d a v)

@[simp] theorem Dev.setByte_stn (d : Dev) (a : Nat) (v : Byte) : (d.setByte a v).stn = d.stn :=
  Dev.stn_of_body (Dev.setByte_body d a v)

@[simp] theorem Dev.setByte_seq (d : Dev) (a : Nat) (v : Byte) : (d.setByte a v).seq = d.seq :=
  Dev.seq_of_body (Dev.setByte_body d a v)

@[simp] theorem Dev.setByte_cam (d : Dev) (a : Nat) (v : Byte) : (d.setByte a v).cam = d.cam :=
  Dev.cam_of_body (Dev.setByte_body d a v)

@[simp] theorem Dev.setByte_drv (d : Dev) (a : Nat) (v : Byte) : (d.setByte a v).drv = d.drv :=
  Dev.drv_of_body (Dev.setByte_body d a v)

@[simp] theorem Dev.setByte_tmr (d : Dev) (a : Nat) (v : Byte) : (d.setByte a v).tmr = d.tmr :=
  Dev.tmr_of_body (Dev.setByte_body d a v)

@[simp] theorem Dev.setByte_pins (d : Dev) (a : Nat) (v : Byte) : (d.setByte a v).pins = d.pins :=
  Dev.pins_of_body (Dev.setByte_body d a v)

@[simp] theorem Dev.setByte_trig (d : Dev) (a : Nat) (v : Byte) : (d.setByte a v).trig = d.trig :=
  Dev.trig_of_body (Dev.setByte_body d a v)

@[simp] theorem Dev.setByte_camin (d : Dev) (a : Nat) (v : Byte) : (d.setByte a v).camin = d.camin :=
  Dev.camin_of_body (Dev.setByte_body d a v)

@[simp] theorem Dev.setByte_quads (d : Dev) (a : Nat) (v : Byte) : (d.setByte a v).quads = d.quads :=
  Dev.quads_of_body (Dev.setByte_body d a v)

@[simp] theorem Dev.setByte_pipes (d : Dev) (a : Nat) (v : Byte) : (d.setByte a v).pipes = d.pipes :=
  Dev.pipes_of_body (Dev.setByte_body d a v)

@[simp] theorem Dev.setByte_ras (d : Dev) (a : Nat) (v : Byte) : (d.setByte a v).ras = d.ras :=
  Dev.ras_of_body (Dev.setByte_body d a v)

@[simp] theorem Dev.setByte_disp (d : Dev) (a : Nat) (v : Byte) : (d.setByte a v).disp = d.disp :=
  Dev.disp_of_body (Dev.setByte_body d a v)

@[simp] theorem Dev.setByte_draw (d : Dev) (a : Nat) (v : Byte) : (d.setByte a v).draw = d.draw :=
  Dev.draw_of_body (Dev.setByte_body d a v)

@[simp] theorem Dev.setByte_aud (d : Dev) (a : Nat) (v : Byte) : (d.setByte a v).aud = d.aud :=
  Dev.aud_of_body (Dev.setByte_body d a v)

@[simp] theorem Dev.setByte_dma (d : Dev) (a : Nat) (v : Byte) : (d.setByte a v).dma = d.dma :=
  Dev.dma_of_body (Dev.setByte_body d a v)

@[simp] theorem Dev.setByte_pwr (d : Dev) (a : Nat) (v : Byte) : (d.setByte a v).pwr = d.pwr :=
  Dev.pwr_of_body (Dev.setByte_body d a v)

@[simp] theorem Dev.setByte_sec (d : Dev) (a : Nat) (v : Byte) : (d.setByte a v).sec = d.sec :=
  Dev.sec_of_body (Dev.setByte_body d a v)

@[simp] theorem Dev.setByte_cloche (d : Dev) (a : Nat) (v : Byte) : (d.setByte a v).cloche = d.cloche :=
  Dev.cloche_of_body (Dev.setByte_body d a v)

@[simp] theorem Dev.setByte_trl (d : Dev) (a : Nat) (v : Byte) : (d.setByte a v).trl = d.trl :=
  Dev.trl_of_body (Dev.setByte_body d a v)

@[simp] theorem Dev.setByte_grf (d : Dev) (a : Nat) (v : Byte) : (d.setByte a v).grf = d.grf :=
  Dev.grf_of_body (Dev.setByte_body d a v)

@[simp] theorem Dev.setByte_bstopLow (d : Dev) (a : Nat) (v : Byte) : (d.setByte a v).bstopLow = d.bstopLow :=
  Dev.bstopLow_of_body (Dev.setByte_body d a v)

@[simp] theorem Dev.setByte_dataStop (d : Dev) (a : Nat) (v : Byte) : (d.setByte a v).dataStop = d.dataStop :=
  Dev.dataStop_of_body (Dev.setByte_body d a v)

@[simp] theorem Dev.setByte_memcCfg (d : Dev) (a : Nat) (v : Byte) : (d.setByte a v).memcCfg = d.memcCfg :=
  Dev.memcCfg_of_body (Dev.setByte_body d a v)

@[simp] theorem Dev.setByte_free (d : Dev) (a : Nat) (v : Byte) : (d.setByte a v).free = d.free := rfl

@[simp] theorem Dev.setByte_sent (d : Dev) (a : Nat) (v : Byte) : (d.setByte a v).sent = d.sent := rfl

@[simp] theorem Dev.setByte_intc (d : Dev) (a : Nat) (v : Byte) : (d.setByte a v).intc = d.intc := rfl

@[simp] theorem Dev.setByte_log (d : Dev) (a : Nat) (v : Byte) : (d.setByte a v).log = d.log := rfl

@[simp] theorem Dev.setByte_host (d : Dev) (a : Nat) (v : Byte) : (d.setByte a v).host = d.host := rfl

@[simp] theorem Dev.store_lt (d : Dev) (a : Nat) (l : List Nat) : (d.store a l).lt = d.lt :=
  Dev.lt_of_body (Dev.store_body d a l)

@[simp] theorem Dev.store_beams (d : Dev) (a : Nat) (l : List Nat) : (d.store a l).beams = d.beams :=
  Dev.beams_of_body (Dev.store_body d a l)

@[simp] theorem Dev.store_encs (d : Dev) (a : Nat) (l : List Nat) : (d.store a l).encs = d.encs :=
  Dev.encs_of_body (Dev.store_body d a l)

@[simp] theorem Dev.store_est (d : Dev) (a : Nat) (l : List Nat) : (d.store a l).est = d.est :=
  Dev.est_of_body (Dev.store_body d a l)

@[simp] theorem Dev.store_tick (d : Dev) (a : Nat) (l : List Nat) : (d.store a l).tick = d.tick :=
  Dev.tick_of_body (Dev.store_body d a l)

@[simp] theorem Dev.store_commit (d : Dev) (a : Nat) (l : List Nat) : (d.store a l).commit = d.commit :=
  Dev.commit_of_body (Dev.store_body d a l)

@[simp] theorem Dev.store_stem (d : Dev) (a : Nat) (l : List Nat) : (d.store a l).stem = d.stem := by
  obtain ⟨m, h⟩ := d.store_of a l; rw [h]

@[simp] theorem Dev.store_cores (d : Dev) (a : Nat) (l : List Nat) : (d.store a l).cores = d.cores :=
  Dev.cores_of_body (Dev.store_body d a l)

@[simp] theorem Dev.store_nodeId (d : Dev) (a : Nat) (l : List Nat) : (d.store a l).nodeId = d.nodeId :=
  Dev.nodeId_of_body (Dev.store_body d a l)

@[simp] theorem Dev.store_items (d : Dev) (a : Nat) (l : List Nat) : (d.store a l).items = d.items :=
  Dev.items_of_body (Dev.store_body d a l)

@[simp] theorem Dev.store_stn (d : Dev) (a : Nat) (l : List Nat) : (d.store a l).stn = d.stn :=
  Dev.stn_of_body (Dev.store_body d a l)

@[simp] theorem Dev.store_seq (d : Dev) (a : Nat) (l : List Nat) : (d.store a l).seq = d.seq :=
  Dev.seq_of_body (Dev.store_body d a l)

@[simp] theorem Dev.store_cam (d : Dev) (a : Nat) (l : List Nat) : (d.store a l).cam = d.cam :=
  Dev.cam_of_body (Dev.store_body d a l)

@[simp] theorem Dev.store_drv (d : Dev) (a : Nat) (l : List Nat) : (d.store a l).drv = d.drv :=
  Dev.drv_of_body (Dev.store_body d a l)

@[simp] theorem Dev.store_tmr (d : Dev) (a : Nat) (l : List Nat) : (d.store a l).tmr = d.tmr :=
  Dev.tmr_of_body (Dev.store_body d a l)

@[simp] theorem Dev.store_pins (d : Dev) (a : Nat) (l : List Nat) : (d.store a l).pins = d.pins :=
  Dev.pins_of_body (Dev.store_body d a l)

@[simp] theorem Dev.store_trig (d : Dev) (a : Nat) (l : List Nat) : (d.store a l).trig = d.trig :=
  Dev.trig_of_body (Dev.store_body d a l)

@[simp] theorem Dev.store_camin (d : Dev) (a : Nat) (l : List Nat) : (d.store a l).camin = d.camin :=
  Dev.camin_of_body (Dev.store_body d a l)

@[simp] theorem Dev.store_quads (d : Dev) (a : Nat) (l : List Nat) : (d.store a l).quads = d.quads :=
  Dev.quads_of_body (Dev.store_body d a l)

@[simp] theorem Dev.store_pipes (d : Dev) (a : Nat) (l : List Nat) : (d.store a l).pipes = d.pipes :=
  Dev.pipes_of_body (Dev.store_body d a l)

@[simp] theorem Dev.store_ras (d : Dev) (a : Nat) (l : List Nat) : (d.store a l).ras = d.ras :=
  Dev.ras_of_body (Dev.store_body d a l)

@[simp] theorem Dev.store_disp (d : Dev) (a : Nat) (l : List Nat) : (d.store a l).disp = d.disp :=
  Dev.disp_of_body (Dev.store_body d a l)

@[simp] theorem Dev.store_draw (d : Dev) (a : Nat) (l : List Nat) : (d.store a l).draw = d.draw :=
  Dev.draw_of_body (Dev.store_body d a l)

@[simp] theorem Dev.store_aud (d : Dev) (a : Nat) (l : List Nat) : (d.store a l).aud = d.aud :=
  Dev.aud_of_body (Dev.store_body d a l)

@[simp] theorem Dev.store_dma (d : Dev) (a : Nat) (l : List Nat) : (d.store a l).dma = d.dma :=
  Dev.dma_of_body (Dev.store_body d a l)

@[simp] theorem Dev.store_pwr (d : Dev) (a : Nat) (l : List Nat) : (d.store a l).pwr = d.pwr :=
  Dev.pwr_of_body (Dev.store_body d a l)

@[simp] theorem Dev.store_sec (d : Dev) (a : Nat) (l : List Nat) : (d.store a l).sec = d.sec :=
  Dev.sec_of_body (Dev.store_body d a l)

@[simp] theorem Dev.store_cloche (d : Dev) (a : Nat) (l : List Nat) : (d.store a l).cloche = d.cloche :=
  Dev.cloche_of_body (Dev.store_body d a l)

@[simp] theorem Dev.store_trl (d : Dev) (a : Nat) (l : List Nat) : (d.store a l).trl = d.trl :=
  Dev.trl_of_body (Dev.store_body d a l)

@[simp] theorem Dev.store_grf (d : Dev) (a : Nat) (l : List Nat) : (d.store a l).grf = d.grf :=
  Dev.grf_of_body (Dev.store_body d a l)

@[simp] theorem Dev.store_bstopLow (d : Dev) (a : Nat) (l : List Nat) : (d.store a l).bstopLow = d.bstopLow :=
  Dev.bstopLow_of_body (Dev.store_body d a l)

@[simp] theorem Dev.store_dataStop (d : Dev) (a : Nat) (l : List Nat) : (d.store a l).dataStop = d.dataStop :=
  Dev.dataStop_of_body (Dev.store_body d a l)

@[simp] theorem Dev.store_memcCfg (d : Dev) (a : Nat) (l : List Nat) : (d.store a l).memcCfg = d.memcCfg :=
  Dev.memcCfg_of_body (Dev.store_body d a l)

@[simp] theorem Dev.store_regs (d : Dev) (a : Nat) (l : List Nat) : (d.store a l).regs = d.regs := by obtain ⟨m, h⟩ := d.store_of a l; rw [h]

@[simp] theorem Dev.store_free (d : Dev) (a : Nat) (l : List Nat) : (d.store a l).free = d.free := by obtain ⟨m, h⟩ := d.store_of a l; rw [h]

@[simp] theorem Dev.store_sent (d : Dev) (a : Nat) (l : List Nat) : (d.store a l).sent = d.sent := by obtain ⟨m, h⟩ := d.store_of a l; rw [h]

@[simp] theorem Dev.store_intc (d : Dev) (a : Nat) (l : List Nat) : (d.store a l).intc = d.intc := by obtain ⟨m, h⟩ := d.store_of a l; rw [h]

@[simp] theorem Dev.store_log (d : Dev) (a : Nat) (l : List Nat) : (d.store a l).log = d.log := by obtain ⟨m, h⟩ := d.store_of a l; rw [h]

@[simp] theorem Dev.store_host (d : Dev) (a : Nat) (l : List Nat) : (d.store a l).host = d.host := by obtain ⟨m, h⟩ := d.store_of a l; rw [h]

theorem Dev.raise_body (d : Dev) (k pay : Nat) : (d.raise k pay).body = d.body := ((Dev.Frame.refl id (fun _ => false) d).raise k pay (by decide)).body

@[simp] theorem Dev.raise_lt (d : Dev) (k pay : Nat) : (d.raise k pay).lt = d.lt :=
  Dev.lt_of_body (Dev.raise_body d k pay)

@[simp] theorem Dev.raise_beams (d : Dev) (k pay : Nat) : (d.raise k pay).beams = d.beams :=
  Dev.beams_of_body (Dev.raise_body d k pay)

@[simp] theorem Dev.raise_encs (d : Dev) (k pay : Nat) : (d.raise k pay).encs = d.encs :=
  Dev.encs_of_body (Dev.raise_body d k pay)

@[simp] theorem Dev.raise_est (d : Dev) (k pay : Nat) : (d.raise k pay).est = d.est :=
  Dev.est_of_body (Dev.raise_body d k pay)

@[simp] theorem Dev.raise_tick (d : Dev) (k pay : Nat) : (d.raise k pay).tick = d.tick :=
  Dev.tick_of_body (Dev.raise_body d k pay)

@[simp] theorem Dev.raise_commit (d : Dev) (k pay : Nat) : (d.raise k pay).commit = d.commit :=
  Dev.commit_of_body (Dev.raise_body d k pay)

theorem Dev.raise_stem (d : Dev) (k pay : Nat) :
    ((d.raise k pay).stemEnd 0).still = (d.stemEnd 0).still ∧ ((d.raise k pay).stemEnd 1).still = (d.stemEnd 1).still :=
  Dev.stem_of_body (Dev.raise_body d k pay)

@[simp] theorem Dev.raise_cores (d : Dev) (k pay : Nat) : (d.raise k pay).cores = d.cores :=
  Dev.cores_of_body (Dev.raise_body d k pay)

@[simp] theorem Dev.raise_nodeId (d : Dev) (k pay : Nat) : (d.raise k pay).nodeId = d.nodeId :=
  Dev.nodeId_of_body (Dev.raise_body d k pay)

@[simp] theorem Dev.raise_items (d : Dev) (k pay : Nat) : (d.raise k pay).items = d.items :=
  Dev.items_of_body (Dev.raise_body d k pay)

@[simp] theorem Dev.raise_stn (d : Dev) (k pay : Nat) : (d.raise k pay).stn = d.stn :=
  Dev.stn_of_body (Dev.raise_body d k pay)

@[simp] theorem Dev.raise_seq (d : Dev) (k pay : Nat) : (d.raise k pay).seq = d.seq :=
  Dev.seq_of_body (Dev.raise_body d k pay)

@[simp] theorem Dev.raise_cam (d : Dev) (k pay : Nat) : (d.raise k pay).cam = d.cam :=
  Dev.cam_of_body (Dev.raise_body d k pay)

@[simp] theorem Dev.raise_drv (d : Dev) (k pay : Nat) : (d.raise k pay).drv = d.drv :=
  Dev.drv_of_body (Dev.raise_body d k pay)

@[simp] theorem Dev.raise_tmr (d : Dev) (k pay : Nat) : (d.raise k pay).tmr = d.tmr :=
  Dev.tmr_of_body (Dev.raise_body d k pay)

@[simp] theorem Dev.raise_pins (d : Dev) (k pay : Nat) : (d.raise k pay).pins = d.pins :=
  Dev.pins_of_body (Dev.raise_body d k pay)

@[simp] theorem Dev.raise_trig (d : Dev) (k pay : Nat) : (d.raise k pay).trig = d.trig :=
  Dev.trig_of_body (Dev.raise_body d k pay)

@[simp] theorem Dev.raise_camin (d : Dev) (k pay : Nat) : (d.raise k pay).camin = d.camin :=
  Dev.camin_of_body (Dev.raise_body d k pay)

@[simp] theorem Dev.raise_quads (d : Dev) (k pay : Nat) : (d.raise k pay).quads = d.quads :=
  Dev.quads_of_body (Dev.raise_body d k pay)

@[simp] theorem Dev.raise_pipes (d : Dev) (k pay : Nat) : (d.raise k pay).pipes = d.pipes :=
  Dev.pipes_of_body (Dev.raise_body d k pay)

@[simp] theorem Dev.raise_ras (d : Dev) (k pay : Nat) : (d.raise k pay).ras = d.ras :=
  Dev.ras_of_body (Dev.raise_body d k pay)

@[simp] theorem Dev.raise_disp (d : Dev) (k pay : Nat) : (d.raise k pay).disp = d.disp :=
  Dev.disp_of_body (Dev.raise_body d k pay)

@[simp] theorem Dev.raise_draw (d : Dev) (k pay : Nat) : (d.raise k pay).draw = d.draw :=
  Dev.draw_of_body (Dev.raise_body d k pay)

@[simp] theorem Dev.raise_aud (d : Dev) (k pay : Nat) : (d.raise k pay).aud = d.aud :=
  Dev.aud_of_body (Dev.raise_body d k pay)

@[simp] theorem Dev.raise_dma (d : Dev) (k pay : Nat) : (d.raise k pay).dma = d.dma :=
  Dev.dma_of_body (Dev.raise_body d k pay)

@[simp] theorem Dev.raise_pwr (d : Dev) (k pay : Nat) : (d.raise k pay).pwr = d.pwr :=
  Dev.pwr_of_body (Dev.raise_body d k pay)

@[simp] theorem Dev.raise_sec (d : Dev) (k pay : Nat) : (d.raise k pay).sec = d.sec :=
  Dev.sec_of_body (Dev.raise_body d k pay)

@[simp] theorem Dev.raise_cloche (d : Dev) (k pay : Nat) : (d.raise k pay).cloche = d.cloche :=
  Dev.cloche_of_body (Dev.raise_body d k pay)

@[simp] theorem Dev.raise_trl (d : Dev) (k pay : Nat) : (d.raise k pay).trl = d.trl :=
  Dev.trl_of_body (Dev.raise_body d k pay)

@[simp] theorem Dev.raise_grf (d : Dev) (k pay : Nat) : (d.raise k pay).grf = d.grf :=
  Dev.grf_of_body (Dev.raise_body d k pay)

@[simp] theorem Dev.raise_bstopLow (d : Dev) (k pay : Nat) : (d.raise k pay).bstopLow = d.bstopLow :=
  Dev.bstopLow_of_body (Dev.raise_body d k pay)

@[simp] theorem Dev.raise_dataStop (d : Dev) (k pay : Nat) : (d.raise k pay).dataStop = d.dataStop :=
  Dev.dataStop_of_body (Dev.raise_body d k pay)

@[simp] theorem Dev.raise_memcCfg (d : Dev) (k pay : Nat) : (d.raise k pay).memcCfg = d.memcCfg :=
  Dev.memcCfg_of_body (Dev.raise_body d k pay)

theorem Dev.refresh_body (d : Dev) (k : Nat) : (d.refresh k).body = d.body := ((Dev.Frame.refl id (fun _ => false) d).refresh k (by decide)).body

@[simp] theorem Dev.refresh_lt (d : Dev) (k : Nat) : (d.refresh k).lt = d.lt :=
  Dev.lt_of_body (Dev.refresh_body d k)

@[simp] theorem Dev.refresh_beams (d : Dev) (k : Nat) : (d.refresh k).beams = d.beams :=
  Dev.beams_of_body (Dev.refresh_body d k)

@[simp] theorem Dev.refresh_encs (d : Dev) (k : Nat) : (d.refresh k).encs = d.encs :=
  Dev.encs_of_body (Dev.refresh_body d k)

@[simp] theorem Dev.refresh_est (d : Dev) (k : Nat) : (d.refresh k).est = d.est :=
  Dev.est_of_body (Dev.refresh_body d k)

@[simp] theorem Dev.refresh_tick (d : Dev) (k : Nat) : (d.refresh k).tick = d.tick :=
  Dev.tick_of_body (Dev.refresh_body d k)

@[simp] theorem Dev.refresh_commit (d : Dev) (k : Nat) : (d.refresh k).commit = d.commit :=
  Dev.commit_of_body (Dev.refresh_body d k)

theorem Dev.refresh_stem (d : Dev) (k : Nat) :
    ((d.refresh k).stemEnd 0).still = (d.stemEnd 0).still ∧ ((d.refresh k).stemEnd 1).still = (d.stemEnd 1).still :=
  Dev.stem_of_body (Dev.refresh_body d k)

@[simp] theorem Dev.refresh_cores (d : Dev) (k : Nat) : (d.refresh k).cores = d.cores :=
  Dev.cores_of_body (Dev.refresh_body d k)

@[simp] theorem Dev.refresh_nodeId (d : Dev) (k : Nat) : (d.refresh k).nodeId = d.nodeId :=
  Dev.nodeId_of_body (Dev.refresh_body d k)

@[simp] theorem Dev.refresh_items (d : Dev) (k : Nat) : (d.refresh k).items = d.items :=
  Dev.items_of_body (Dev.refresh_body d k)

@[simp] theorem Dev.refresh_stn (d : Dev) (k : Nat) : (d.refresh k).stn = d.stn :=
  Dev.stn_of_body (Dev.refresh_body d k)

@[simp] theorem Dev.refresh_seq (d : Dev) (k : Nat) : (d.refresh k).seq = d.seq :=
  Dev.seq_of_body (Dev.refresh_body d k)

@[simp] theorem Dev.refresh_cam (d : Dev) (k : Nat) : (d.refresh k).cam = d.cam :=
  Dev.cam_of_body (Dev.refresh_body d k)

@[simp] theorem Dev.refresh_drv (d : Dev) (k : Nat) : (d.refresh k).drv = d.drv :=
  Dev.drv_of_body (Dev.refresh_body d k)

@[simp] theorem Dev.refresh_tmr (d : Dev) (k : Nat) : (d.refresh k).tmr = d.tmr :=
  Dev.tmr_of_body (Dev.refresh_body d k)

@[simp] theorem Dev.refresh_pins (d : Dev) (k : Nat) : (d.refresh k).pins = d.pins :=
  Dev.pins_of_body (Dev.refresh_body d k)

@[simp] theorem Dev.refresh_trig (d : Dev) (k : Nat) : (d.refresh k).trig = d.trig :=
  Dev.trig_of_body (Dev.refresh_body d k)

@[simp] theorem Dev.refresh_camin (d : Dev) (k : Nat) : (d.refresh k).camin = d.camin :=
  Dev.camin_of_body (Dev.refresh_body d k)

@[simp] theorem Dev.refresh_quads (d : Dev) (k : Nat) : (d.refresh k).quads = d.quads :=
  Dev.quads_of_body (Dev.refresh_body d k)

@[simp] theorem Dev.refresh_pipes (d : Dev) (k : Nat) : (d.refresh k).pipes = d.pipes :=
  Dev.pipes_of_body (Dev.refresh_body d k)

@[simp] theorem Dev.refresh_ras (d : Dev) (k : Nat) : (d.refresh k).ras = d.ras :=
  Dev.ras_of_body (Dev.refresh_body d k)

@[simp] theorem Dev.refresh_disp (d : Dev) (k : Nat) : (d.refresh k).disp = d.disp :=
  Dev.disp_of_body (Dev.refresh_body d k)

@[simp] theorem Dev.refresh_draw (d : Dev) (k : Nat) : (d.refresh k).draw = d.draw :=
  Dev.draw_of_body (Dev.refresh_body d k)

@[simp] theorem Dev.refresh_aud (d : Dev) (k : Nat) : (d.refresh k).aud = d.aud :=
  Dev.aud_of_body (Dev.refresh_body d k)

@[simp] theorem Dev.refresh_dma (d : Dev) (k : Nat) : (d.refresh k).dma = d.dma :=
  Dev.dma_of_body (Dev.refresh_body d k)

@[simp] theorem Dev.refresh_pwr (d : Dev) (k : Nat) : (d.refresh k).pwr = d.pwr :=
  Dev.pwr_of_body (Dev.refresh_body d k)

@[simp] theorem Dev.refresh_sec (d : Dev) (k : Nat) : (d.refresh k).sec = d.sec :=
  Dev.sec_of_body (Dev.refresh_body d k)

@[simp] theorem Dev.refresh_cloche (d : Dev) (k : Nat) : (d.refresh k).cloche = d.cloche :=
  Dev.cloche_of_body (Dev.refresh_body d k)

@[simp] theorem Dev.refresh_trl (d : Dev) (k : Nat) : (d.refresh k).trl = d.trl :=
  Dev.trl_of_body (Dev.refresh_body d k)

@[simp] theorem Dev.refresh_grf (d : Dev) (k : Nat) : (d.refresh k).grf = d.grf :=
  Dev.grf_of_body (Dev.refresh_body d k)

@[simp] theorem Dev.refresh_bstopLow (d : Dev) (k : Nat) : (d.refresh k).bstopLow = d.bstopLow :=
  Dev.bstopLow_of_body (Dev.refresh_body d k)

@[simp] theorem Dev.refresh_dataStop (d : Dev) (k : Nat) : (d.refresh k).dataStop = d.dataStop :=
  Dev.dataStop_of_body (Dev.refresh_body d k)

@[simp] theorem Dev.refresh_memcCfg (d : Dev) (k : Nat) : (d.refresh k).memcCfg = d.memcCfg :=
  Dev.memcCfg_of_body (Dev.refresh_body d k)

theorem Dev.vecRaise_body (d : Dev) (k : Nat) : (d.vecRaise k).body = d.body := ((Dev.Frame.refl id (fun _ => false) d).vecRaise k).body

@[simp] theorem Dev.vecRaise_lt (d : Dev) (k : Nat) : (d.vecRaise k).lt = d.lt :=
  Dev.lt_of_body (Dev.vecRaise_body d k)

@[simp] theorem Dev.vecRaise_beams (d : Dev) (k : Nat) : (d.vecRaise k).beams = d.beams :=
  Dev.beams_of_body (Dev.vecRaise_body d k)

@[simp] theorem Dev.vecRaise_encs (d : Dev) (k : Nat) : (d.vecRaise k).encs = d.encs :=
  Dev.encs_of_body (Dev.vecRaise_body d k)

@[simp] theorem Dev.vecRaise_est (d : Dev) (k : Nat) : (d.vecRaise k).est = d.est :=
  Dev.est_of_body (Dev.vecRaise_body d k)

@[simp] theorem Dev.vecRaise_tick (d : Dev) (k : Nat) : (d.vecRaise k).tick = d.tick :=
  Dev.tick_of_body (Dev.vecRaise_body d k)

@[simp] theorem Dev.vecRaise_commit (d : Dev) (k : Nat) : (d.vecRaise k).commit = d.commit :=
  Dev.commit_of_body (Dev.vecRaise_body d k)

theorem Dev.vecRaise_stem (d : Dev) (k : Nat) :
    ((d.vecRaise k).stemEnd 0).still = (d.stemEnd 0).still ∧ ((d.vecRaise k).stemEnd 1).still = (d.stemEnd 1).still :=
  Dev.stem_of_body (Dev.vecRaise_body d k)

@[simp] theorem Dev.vecRaise_cores (d : Dev) (k : Nat) : (d.vecRaise k).cores = d.cores :=
  Dev.cores_of_body (Dev.vecRaise_body d k)

@[simp] theorem Dev.vecRaise_nodeId (d : Dev) (k : Nat) : (d.vecRaise k).nodeId = d.nodeId :=
  Dev.nodeId_of_body (Dev.vecRaise_body d k)

@[simp] theorem Dev.vecRaise_items (d : Dev) (k : Nat) : (d.vecRaise k).items = d.items :=
  Dev.items_of_body (Dev.vecRaise_body d k)

@[simp] theorem Dev.vecRaise_stn (d : Dev) (k : Nat) : (d.vecRaise k).stn = d.stn :=
  Dev.stn_of_body (Dev.vecRaise_body d k)

@[simp] theorem Dev.vecRaise_seq (d : Dev) (k : Nat) : (d.vecRaise k).seq = d.seq :=
  Dev.seq_of_body (Dev.vecRaise_body d k)

@[simp] theorem Dev.vecRaise_cam (d : Dev) (k : Nat) : (d.vecRaise k).cam = d.cam :=
  Dev.cam_of_body (Dev.vecRaise_body d k)

@[simp] theorem Dev.vecRaise_drv (d : Dev) (k : Nat) : (d.vecRaise k).drv = d.drv :=
  Dev.drv_of_body (Dev.vecRaise_body d k)

@[simp] theorem Dev.vecRaise_tmr (d : Dev) (k : Nat) : (d.vecRaise k).tmr = d.tmr :=
  Dev.tmr_of_body (Dev.vecRaise_body d k)

@[simp] theorem Dev.vecRaise_pins (d : Dev) (k : Nat) : (d.vecRaise k).pins = d.pins :=
  Dev.pins_of_body (Dev.vecRaise_body d k)

@[simp] theorem Dev.vecRaise_trig (d : Dev) (k : Nat) : (d.vecRaise k).trig = d.trig :=
  Dev.trig_of_body (Dev.vecRaise_body d k)

@[simp] theorem Dev.vecRaise_camin (d : Dev) (k : Nat) : (d.vecRaise k).camin = d.camin :=
  Dev.camin_of_body (Dev.vecRaise_body d k)

@[simp] theorem Dev.vecRaise_quads (d : Dev) (k : Nat) : (d.vecRaise k).quads = d.quads :=
  Dev.quads_of_body (Dev.vecRaise_body d k)

@[simp] theorem Dev.vecRaise_pipes (d : Dev) (k : Nat) : (d.vecRaise k).pipes = d.pipes :=
  Dev.pipes_of_body (Dev.vecRaise_body d k)

@[simp] theorem Dev.vecRaise_ras (d : Dev) (k : Nat) : (d.vecRaise k).ras = d.ras :=
  Dev.ras_of_body (Dev.vecRaise_body d k)

@[simp] theorem Dev.vecRaise_disp (d : Dev) (k : Nat) : (d.vecRaise k).disp = d.disp :=
  Dev.disp_of_body (Dev.vecRaise_body d k)

@[simp] theorem Dev.vecRaise_draw (d : Dev) (k : Nat) : (d.vecRaise k).draw = d.draw :=
  Dev.draw_of_body (Dev.vecRaise_body d k)

@[simp] theorem Dev.vecRaise_aud (d : Dev) (k : Nat) : (d.vecRaise k).aud = d.aud :=
  Dev.aud_of_body (Dev.vecRaise_body d k)

@[simp] theorem Dev.vecRaise_dma (d : Dev) (k : Nat) : (d.vecRaise k).dma = d.dma :=
  Dev.dma_of_body (Dev.vecRaise_body d k)

@[simp] theorem Dev.vecRaise_pwr (d : Dev) (k : Nat) : (d.vecRaise k).pwr = d.pwr :=
  Dev.pwr_of_body (Dev.vecRaise_body d k)

@[simp] theorem Dev.vecRaise_sec (d : Dev) (k : Nat) : (d.vecRaise k).sec = d.sec :=
  Dev.sec_of_body (Dev.vecRaise_body d k)

@[simp] theorem Dev.vecRaise_cloche (d : Dev) (k : Nat) : (d.vecRaise k).cloche = d.cloche :=
  Dev.cloche_of_body (Dev.vecRaise_body d k)

@[simp] theorem Dev.vecRaise_trl (d : Dev) (k : Nat) : (d.vecRaise k).trl = d.trl :=
  Dev.trl_of_body (Dev.vecRaise_body d k)

@[simp] theorem Dev.vecRaise_grf (d : Dev) (k : Nat) : (d.vecRaise k).grf = d.grf :=
  Dev.grf_of_body (Dev.vecRaise_body d k)

@[simp] theorem Dev.vecRaise_bstopLow (d : Dev) (k : Nat) : (d.vecRaise k).bstopLow = d.bstopLow :=
  Dev.bstopLow_of_body (Dev.vecRaise_body d k)

@[simp] theorem Dev.vecRaise_dataStop (d : Dev) (k : Nat) : (d.vecRaise k).dataStop = d.dataStop :=
  Dev.dataStop_of_body (Dev.vecRaise_body d k)

@[simp] theorem Dev.vecRaise_memcCfg (d : Dev) (k : Nat) : (d.vecRaise k).memcCfg = d.memcCfg :=
  Dev.memcCfg_of_body (Dev.vecRaise_body d k)

@[simp] theorem Dev.evt_lt (d : Dev) (k m : Nat) : (d.evt k m).lt = d.lt :=
  Dev.lt_of_body (Dev.evt_body d k m)

@[simp] theorem Dev.evt_beams (d : Dev) (k m : Nat) : (d.evt k m).beams = d.beams :=
  Dev.beams_of_body (Dev.evt_body d k m)

@[simp] theorem Dev.evt_encs (d : Dev) (k m : Nat) : (d.evt k m).encs = d.encs :=
  Dev.encs_of_body (Dev.evt_body d k m)

@[simp] theorem Dev.evt_est (d : Dev) (k m : Nat) : (d.evt k m).est = d.est :=
  Dev.est_of_body (Dev.evt_body d k m)

@[simp] theorem Dev.evt_tick (d : Dev) (k m : Nat) : (d.evt k m).tick = d.tick :=
  Dev.tick_of_body (Dev.evt_body d k m)

@[simp] theorem Dev.evt_commit (d : Dev) (k m : Nat) : (d.evt k m).commit = d.commit :=
  Dev.commit_of_body (Dev.evt_body d k m)

theorem Dev.evt_stem (d : Dev) (k m : Nat) :
    ((d.evt k m).stemEnd 0).still = (d.stemEnd 0).still ∧ ((d.evt k m).stemEnd 1).still = (d.stemEnd 1).still :=
  Dev.stem_of_body (Dev.evt_body d k m)

@[simp] theorem Dev.evt_cores (d : Dev) (k m : Nat) : (d.evt k m).cores = d.cores :=
  Dev.cores_of_body (Dev.evt_body d k m)

@[simp] theorem Dev.evt_nodeId (d : Dev) (k m : Nat) : (d.evt k m).nodeId = d.nodeId :=
  Dev.nodeId_of_body (Dev.evt_body d k m)

@[simp] theorem Dev.evt_items (d : Dev) (k m : Nat) : (d.evt k m).items = d.items :=
  Dev.items_of_body (Dev.evt_body d k m)

@[simp] theorem Dev.evt_stn (d : Dev) (k m : Nat) : (d.evt k m).stn = d.stn :=
  Dev.stn_of_body (Dev.evt_body d k m)

@[simp] theorem Dev.evt_seq (d : Dev) (k m : Nat) : (d.evt k m).seq = d.seq :=
  Dev.seq_of_body (Dev.evt_body d k m)

@[simp] theorem Dev.evt_cam (d : Dev) (k m : Nat) : (d.evt k m).cam = d.cam :=
  Dev.cam_of_body (Dev.evt_body d k m)

@[simp] theorem Dev.evt_drv (d : Dev) (k m : Nat) : (d.evt k m).drv = d.drv :=
  Dev.drv_of_body (Dev.evt_body d k m)

@[simp] theorem Dev.evt_tmr (d : Dev) (k m : Nat) : (d.evt k m).tmr = d.tmr :=
  Dev.tmr_of_body (Dev.evt_body d k m)

@[simp] theorem Dev.evt_pins (d : Dev) (k m : Nat) : (d.evt k m).pins = d.pins :=
  Dev.pins_of_body (Dev.evt_body d k m)

@[simp] theorem Dev.evt_trig (d : Dev) (k m : Nat) : (d.evt k m).trig = d.trig :=
  Dev.trig_of_body (Dev.evt_body d k m)

@[simp] theorem Dev.evt_camin (d : Dev) (k m : Nat) : (d.evt k m).camin = d.camin :=
  Dev.camin_of_body (Dev.evt_body d k m)

@[simp] theorem Dev.evt_quads (d : Dev) (k m : Nat) : (d.evt k m).quads = d.quads :=
  Dev.quads_of_body (Dev.evt_body d k m)

@[simp] theorem Dev.evt_pipes (d : Dev) (k m : Nat) : (d.evt k m).pipes = d.pipes :=
  Dev.pipes_of_body (Dev.evt_body d k m)

@[simp] theorem Dev.evt_ras (d : Dev) (k m : Nat) : (d.evt k m).ras = d.ras :=
  Dev.ras_of_body (Dev.evt_body d k m)

@[simp] theorem Dev.evt_disp (d : Dev) (k m : Nat) : (d.evt k m).disp = d.disp :=
  Dev.disp_of_body (Dev.evt_body d k m)

@[simp] theorem Dev.evt_draw (d : Dev) (k m : Nat) : (d.evt k m).draw = d.draw :=
  Dev.draw_of_body (Dev.evt_body d k m)

@[simp] theorem Dev.evt_aud (d : Dev) (k m : Nat) : (d.evt k m).aud = d.aud :=
  Dev.aud_of_body (Dev.evt_body d k m)

@[simp] theorem Dev.evt_dma (d : Dev) (k m : Nat) : (d.evt k m).dma = d.dma :=
  Dev.dma_of_body (Dev.evt_body d k m)

@[simp] theorem Dev.evt_pwr (d : Dev) (k m : Nat) : (d.evt k m).pwr = d.pwr :=
  Dev.pwr_of_body (Dev.evt_body d k m)

@[simp] theorem Dev.evt_sec (d : Dev) (k m : Nat) : (d.evt k m).sec = d.sec :=
  Dev.sec_of_body (Dev.evt_body d k m)

@[simp] theorem Dev.evt_cloche (d : Dev) (k m : Nat) : (d.evt k m).cloche = d.cloche :=
  Dev.cloche_of_body (Dev.evt_body d k m)

@[simp] theorem Dev.evt_trl (d : Dev) (k m : Nat) : (d.evt k m).trl = d.trl :=
  Dev.trl_of_body (Dev.evt_body d k m)

@[simp] theorem Dev.evt_grf (d : Dev) (k m : Nat) : (d.evt k m).grf = d.grf :=
  Dev.grf_of_body (Dev.evt_body d k m)

@[simp] theorem Dev.evt_bstopLow (d : Dev) (k m : Nat) : (d.evt k m).bstopLow = d.bstopLow :=
  Dev.bstopLow_of_body (Dev.evt_body d k m)

@[simp] theorem Dev.evt_dataStop (d : Dev) (k m : Nat) : (d.evt k m).dataStop = d.dataStop :=
  Dev.dataStop_of_body (Dev.evt_body d k m)

@[simp] theorem Dev.evt_memcCfg (d : Dev) (k m : Nat) : (d.evt k m).memcCfg = d.memcCfg :=
  Dev.memcCfg_of_body (Dev.evt_body d k m)

theorem Dev.alarm_body (d : Dev) (f x : Nat) : (d.alarm f x).body = d.body := ((Dev.Frame.refl id logReg d).alarm f x (fun _ h => h) (by decide)).body

@[simp] theorem Dev.alarm_lt (d : Dev) (f x : Nat) : (d.alarm f x).lt = d.lt :=
  Dev.lt_of_body (Dev.alarm_body d f x)

@[simp] theorem Dev.alarm_beams (d : Dev) (f x : Nat) : (d.alarm f x).beams = d.beams :=
  Dev.beams_of_body (Dev.alarm_body d f x)

@[simp] theorem Dev.alarm_encs (d : Dev) (f x : Nat) : (d.alarm f x).encs = d.encs :=
  Dev.encs_of_body (Dev.alarm_body d f x)

@[simp] theorem Dev.alarm_est (d : Dev) (f x : Nat) : (d.alarm f x).est = d.est :=
  Dev.est_of_body (Dev.alarm_body d f x)

@[simp] theorem Dev.alarm_tick (d : Dev) (f x : Nat) : (d.alarm f x).tick = d.tick :=
  Dev.tick_of_body (Dev.alarm_body d f x)

@[simp] theorem Dev.alarm_commit (d : Dev) (f x : Nat) : (d.alarm f x).commit = d.commit :=
  Dev.commit_of_body (Dev.alarm_body d f x)

theorem Dev.alarm_stem (d : Dev) (f x : Nat) :
    ((d.alarm f x).stemEnd 0).still = (d.stemEnd 0).still ∧ ((d.alarm f x).stemEnd 1).still = (d.stemEnd 1).still :=
  Dev.stem_of_body (Dev.alarm_body d f x)

@[simp] theorem Dev.alarm_cores (d : Dev) (f x : Nat) : (d.alarm f x).cores = d.cores :=
  Dev.cores_of_body (Dev.alarm_body d f x)

@[simp] theorem Dev.alarm_nodeId (d : Dev) (f x : Nat) : (d.alarm f x).nodeId = d.nodeId :=
  Dev.nodeId_of_body (Dev.alarm_body d f x)

@[simp] theorem Dev.alarm_items (d : Dev) (f x : Nat) : (d.alarm f x).items = d.items :=
  Dev.items_of_body (Dev.alarm_body d f x)

@[simp] theorem Dev.alarm_stn (d : Dev) (f x : Nat) : (d.alarm f x).stn = d.stn :=
  Dev.stn_of_body (Dev.alarm_body d f x)

@[simp] theorem Dev.alarm_seq (d : Dev) (f x : Nat) : (d.alarm f x).seq = d.seq :=
  Dev.seq_of_body (Dev.alarm_body d f x)

@[simp] theorem Dev.alarm_cam (d : Dev) (f x : Nat) : (d.alarm f x).cam = d.cam :=
  Dev.cam_of_body (Dev.alarm_body d f x)

@[simp] theorem Dev.alarm_drv (d : Dev) (f x : Nat) : (d.alarm f x).drv = d.drv :=
  Dev.drv_of_body (Dev.alarm_body d f x)

@[simp] theorem Dev.alarm_tmr (d : Dev) (f x : Nat) : (d.alarm f x).tmr = d.tmr :=
  Dev.tmr_of_body (Dev.alarm_body d f x)

@[simp] theorem Dev.alarm_pins (d : Dev) (f x : Nat) : (d.alarm f x).pins = d.pins :=
  Dev.pins_of_body (Dev.alarm_body d f x)

@[simp] theorem Dev.alarm_trig (d : Dev) (f x : Nat) : (d.alarm f x).trig = d.trig :=
  Dev.trig_of_body (Dev.alarm_body d f x)

@[simp] theorem Dev.alarm_camin (d : Dev) (f x : Nat) : (d.alarm f x).camin = d.camin :=
  Dev.camin_of_body (Dev.alarm_body d f x)

@[simp] theorem Dev.alarm_quads (d : Dev) (f x : Nat) : (d.alarm f x).quads = d.quads :=
  Dev.quads_of_body (Dev.alarm_body d f x)

@[simp] theorem Dev.alarm_pipes (d : Dev) (f x : Nat) : (d.alarm f x).pipes = d.pipes :=
  Dev.pipes_of_body (Dev.alarm_body d f x)

@[simp] theorem Dev.alarm_ras (d : Dev) (f x : Nat) : (d.alarm f x).ras = d.ras :=
  Dev.ras_of_body (Dev.alarm_body d f x)

@[simp] theorem Dev.alarm_disp (d : Dev) (f x : Nat) : (d.alarm f x).disp = d.disp :=
  Dev.disp_of_body (Dev.alarm_body d f x)

@[simp] theorem Dev.alarm_draw (d : Dev) (f x : Nat) : (d.alarm f x).draw = d.draw :=
  Dev.draw_of_body (Dev.alarm_body d f x)

@[simp] theorem Dev.alarm_aud (d : Dev) (f x : Nat) : (d.alarm f x).aud = d.aud :=
  Dev.aud_of_body (Dev.alarm_body d f x)

@[simp] theorem Dev.alarm_dma (d : Dev) (f x : Nat) : (d.alarm f x).dma = d.dma :=
  Dev.dma_of_body (Dev.alarm_body d f x)

@[simp] theorem Dev.alarm_pwr (d : Dev) (f x : Nat) : (d.alarm f x).pwr = d.pwr :=
  Dev.pwr_of_body (Dev.alarm_body d f x)

@[simp] theorem Dev.alarm_sec (d : Dev) (f x : Nat) : (d.alarm f x).sec = d.sec :=
  Dev.sec_of_body (Dev.alarm_body d f x)

@[simp] theorem Dev.alarm_cloche (d : Dev) (f x : Nat) : (d.alarm f x).cloche = d.cloche :=
  Dev.cloche_of_body (Dev.alarm_body d f x)

@[simp] theorem Dev.alarm_trl (d : Dev) (f x : Nat) : (d.alarm f x).trl = d.trl :=
  Dev.trl_of_body (Dev.alarm_body d f x)

@[simp] theorem Dev.alarm_grf (d : Dev) (f x : Nat) : (d.alarm f x).grf = d.grf :=
  Dev.grf_of_body (Dev.alarm_body d f x)

@[simp] theorem Dev.alarm_bstopLow (d : Dev) (f x : Nat) : (d.alarm f x).bstopLow = d.bstopLow :=
  Dev.bstopLow_of_body (Dev.alarm_body d f x)

@[simp] theorem Dev.alarm_dataStop (d : Dev) (f x : Nat) : (d.alarm f x).dataStop = d.dataStop :=
  Dev.dataStop_of_body (Dev.alarm_body d f x)

@[simp] theorem Dev.alarm_memcCfg (d : Dev) (f x : Nat) : (d.alarm f x).memcCfg = d.memcCfg :=
  Dev.memcCfg_of_body (Dev.alarm_body d f x)

theorem Dev.almReport_body (d : Dev) (a x c f g i j : Nat) (y : Bool) : (d.almReport a x c f g i j y).body = d.body := ((Dev.Frame.refl id logReg d).almReport a x c f g i j y (fun _ h => h) (by decide)).body

@[simp] theorem Dev.almReport_lt (d : Dev) (a x c f g i j : Nat) (y : Bool) : (d.almReport a x c f g i j y).lt = d.lt :=
  Dev.lt_of_body (Dev.almReport_body d a x c f g i j y)

@[simp] theorem Dev.almReport_beams (d : Dev) (a x c f g i j : Nat) (y : Bool) : (d.almReport a x c f g i j y).beams = d.beams :=
  Dev.beams_of_body (Dev.almReport_body d a x c f g i j y)

@[simp] theorem Dev.almReport_encs (d : Dev) (a x c f g i j : Nat) (y : Bool) : (d.almReport a x c f g i j y).encs = d.encs :=
  Dev.encs_of_body (Dev.almReport_body d a x c f g i j y)

@[simp] theorem Dev.almReport_est (d : Dev) (a x c f g i j : Nat) (y : Bool) : (d.almReport a x c f g i j y).est = d.est :=
  Dev.est_of_body (Dev.almReport_body d a x c f g i j y)

@[simp] theorem Dev.almReport_tick (d : Dev) (a x c f g i j : Nat) (y : Bool) : (d.almReport a x c f g i j y).tick = d.tick :=
  Dev.tick_of_body (Dev.almReport_body d a x c f g i j y)

@[simp] theorem Dev.almReport_commit (d : Dev) (a x c f g i j : Nat) (y : Bool) : (d.almReport a x c f g i j y).commit = d.commit :=
  Dev.commit_of_body (Dev.almReport_body d a x c f g i j y)

theorem Dev.almReport_stem (d : Dev) (a x c f g i j : Nat) (y : Bool) :
    ((d.almReport a x c f g i j y).stemEnd 0).still = (d.stemEnd 0).still ∧ ((d.almReport a x c f g i j y).stemEnd 1).still = (d.stemEnd 1).still :=
  Dev.stem_of_body (Dev.almReport_body d a x c f g i j y)

@[simp] theorem Dev.almReport_cores (d : Dev) (a x c f g i j : Nat) (y : Bool) : (d.almReport a x c f g i j y).cores = d.cores :=
  Dev.cores_of_body (Dev.almReport_body d a x c f g i j y)

@[simp] theorem Dev.almReport_nodeId (d : Dev) (a x c f g i j : Nat) (y : Bool) : (d.almReport a x c f g i j y).nodeId = d.nodeId :=
  Dev.nodeId_of_body (Dev.almReport_body d a x c f g i j y)

@[simp] theorem Dev.almReport_items (d : Dev) (a x c f g i j : Nat) (y : Bool) : (d.almReport a x c f g i j y).items = d.items :=
  Dev.items_of_body (Dev.almReport_body d a x c f g i j y)

@[simp] theorem Dev.almReport_stn (d : Dev) (a x c f g i j : Nat) (y : Bool) : (d.almReport a x c f g i j y).stn = d.stn :=
  Dev.stn_of_body (Dev.almReport_body d a x c f g i j y)

@[simp] theorem Dev.almReport_seq (d : Dev) (a x c f g i j : Nat) (y : Bool) : (d.almReport a x c f g i j y).seq = d.seq :=
  Dev.seq_of_body (Dev.almReport_body d a x c f g i j y)

@[simp] theorem Dev.almReport_cam (d : Dev) (a x c f g i j : Nat) (y : Bool) : (d.almReport a x c f g i j y).cam = d.cam :=
  Dev.cam_of_body (Dev.almReport_body d a x c f g i j y)

@[simp] theorem Dev.almReport_drv (d : Dev) (a x c f g i j : Nat) (y : Bool) : (d.almReport a x c f g i j y).drv = d.drv :=
  Dev.drv_of_body (Dev.almReport_body d a x c f g i j y)

@[simp] theorem Dev.almReport_tmr (d : Dev) (a x c f g i j : Nat) (y : Bool) : (d.almReport a x c f g i j y).tmr = d.tmr :=
  Dev.tmr_of_body (Dev.almReport_body d a x c f g i j y)

@[simp] theorem Dev.almReport_pins (d : Dev) (a x c f g i j : Nat) (y : Bool) : (d.almReport a x c f g i j y).pins = d.pins :=
  Dev.pins_of_body (Dev.almReport_body d a x c f g i j y)

@[simp] theorem Dev.almReport_trig (d : Dev) (a x c f g i j : Nat) (y : Bool) : (d.almReport a x c f g i j y).trig = d.trig :=
  Dev.trig_of_body (Dev.almReport_body d a x c f g i j y)

@[simp] theorem Dev.almReport_camin (d : Dev) (a x c f g i j : Nat) (y : Bool) : (d.almReport a x c f g i j y).camin = d.camin :=
  Dev.camin_of_body (Dev.almReport_body d a x c f g i j y)

@[simp] theorem Dev.almReport_quads (d : Dev) (a x c f g i j : Nat) (y : Bool) : (d.almReport a x c f g i j y).quads = d.quads :=
  Dev.quads_of_body (Dev.almReport_body d a x c f g i j y)

@[simp] theorem Dev.almReport_pipes (d : Dev) (a x c f g i j : Nat) (y : Bool) : (d.almReport a x c f g i j y).pipes = d.pipes :=
  Dev.pipes_of_body (Dev.almReport_body d a x c f g i j y)

@[simp] theorem Dev.almReport_ras (d : Dev) (a x c f g i j : Nat) (y : Bool) : (d.almReport a x c f g i j y).ras = d.ras :=
  Dev.ras_of_body (Dev.almReport_body d a x c f g i j y)

@[simp] theorem Dev.almReport_disp (d : Dev) (a x c f g i j : Nat) (y : Bool) : (d.almReport a x c f g i j y).disp = d.disp :=
  Dev.disp_of_body (Dev.almReport_body d a x c f g i j y)

@[simp] theorem Dev.almReport_draw (d : Dev) (a x c f g i j : Nat) (y : Bool) : (d.almReport a x c f g i j y).draw = d.draw :=
  Dev.draw_of_body (Dev.almReport_body d a x c f g i j y)

@[simp] theorem Dev.almReport_aud (d : Dev) (a x c f g i j : Nat) (y : Bool) : (d.almReport a x c f g i j y).aud = d.aud :=
  Dev.aud_of_body (Dev.almReport_body d a x c f g i j y)

@[simp] theorem Dev.almReport_dma (d : Dev) (a x c f g i j : Nat) (y : Bool) : (d.almReport a x c f g i j y).dma = d.dma :=
  Dev.dma_of_body (Dev.almReport_body d a x c f g i j y)

@[simp] theorem Dev.almReport_pwr (d : Dev) (a x c f g i j : Nat) (y : Bool) : (d.almReport a x c f g i j y).pwr = d.pwr :=
  Dev.pwr_of_body (Dev.almReport_body d a x c f g i j y)

@[simp] theorem Dev.almReport_sec (d : Dev) (a x c f g i j : Nat) (y : Bool) : (d.almReport a x c f g i j y).sec = d.sec :=
  Dev.sec_of_body (Dev.almReport_body d a x c f g i j y)

@[simp] theorem Dev.almReport_cloche (d : Dev) (a x c f g i j : Nat) (y : Bool) : (d.almReport a x c f g i j y).cloche = d.cloche :=
  Dev.cloche_of_body (Dev.almReport_body d a x c f g i j y)

@[simp] theorem Dev.almReport_trl (d : Dev) (a x c f g i j : Nat) (y : Bool) : (d.almReport a x c f g i j y).trl = d.trl :=
  Dev.trl_of_body (Dev.almReport_body d a x c f g i j y)

@[simp] theorem Dev.almReport_grf (d : Dev) (a x c f g i j : Nat) (y : Bool) : (d.almReport a x c f g i j y).grf = d.grf :=
  Dev.grf_of_body (Dev.almReport_body d a x c f g i j y)

@[simp] theorem Dev.almReport_bstopLow (d : Dev) (a x c f g i j : Nat) (y : Bool) : (d.almReport a x c f g i j y).bstopLow = d.bstopLow :=
  Dev.bstopLow_of_body (Dev.almReport_body d a x c f g i j y)

@[simp] theorem Dev.almReport_dataStop (d : Dev) (a x c f g i j : Nat) (y : Bool) : (d.almReport a x c f g i j y).dataStop = d.dataStop :=
  Dev.dataStop_of_body (Dev.almReport_body d a x c f g i j y)

@[simp] theorem Dev.almReport_memcCfg (d : Dev) (a x c f g i j : Nat) (y : Bool) : (d.almReport a x c f g i j y).memcCfg = d.memcCfg :=
  Dev.memcCfg_of_body (Dev.almReport_body d a x c f g i j y)

theorem Dev.logPut_body (d : Dev) (a x c f g i j : Nat) : (d.logPut a x c f g i j).body = d.body := ((Dev.Frame.refl id logReg d).logPut a x c f g i j (fun _ h => h) (by decide)).body

@[simp] theorem Dev.logPut_lt (d : Dev) (a x c f g i j : Nat) : (d.logPut a x c f g i j).lt = d.lt :=
  Dev.lt_of_body (Dev.logPut_body d a x c f g i j)

@[simp] theorem Dev.logPut_beams (d : Dev) (a x c f g i j : Nat) : (d.logPut a x c f g i j).beams = d.beams :=
  Dev.beams_of_body (Dev.logPut_body d a x c f g i j)

@[simp] theorem Dev.logPut_encs (d : Dev) (a x c f g i j : Nat) : (d.logPut a x c f g i j).encs = d.encs :=
  Dev.encs_of_body (Dev.logPut_body d a x c f g i j)

@[simp] theorem Dev.logPut_est (d : Dev) (a x c f g i j : Nat) : (d.logPut a x c f g i j).est = d.est :=
  Dev.est_of_body (Dev.logPut_body d a x c f g i j)

@[simp] theorem Dev.logPut_tick (d : Dev) (a x c f g i j : Nat) : (d.logPut a x c f g i j).tick = d.tick :=
  Dev.tick_of_body (Dev.logPut_body d a x c f g i j)

@[simp] theorem Dev.logPut_commit (d : Dev) (a x c f g i j : Nat) : (d.logPut a x c f g i j).commit = d.commit :=
  Dev.commit_of_body (Dev.logPut_body d a x c f g i j)

theorem Dev.logPut_stem (d : Dev) (a x c f g i j : Nat) :
    ((d.logPut a x c f g i j).stemEnd 0).still = (d.stemEnd 0).still ∧ ((d.logPut a x c f g i j).stemEnd 1).still = (d.stemEnd 1).still :=
  Dev.stem_of_body (Dev.logPut_body d a x c f g i j)

@[simp] theorem Dev.logPut_cores (d : Dev) (a x c f g i j : Nat) : (d.logPut a x c f g i j).cores = d.cores :=
  Dev.cores_of_body (Dev.logPut_body d a x c f g i j)

@[simp] theorem Dev.logPut_nodeId (d : Dev) (a x c f g i j : Nat) : (d.logPut a x c f g i j).nodeId = d.nodeId :=
  Dev.nodeId_of_body (Dev.logPut_body d a x c f g i j)

@[simp] theorem Dev.logPut_items (d : Dev) (a x c f g i j : Nat) : (d.logPut a x c f g i j).items = d.items :=
  Dev.items_of_body (Dev.logPut_body d a x c f g i j)

@[simp] theorem Dev.logPut_stn (d : Dev) (a x c f g i j : Nat) : (d.logPut a x c f g i j).stn = d.stn :=
  Dev.stn_of_body (Dev.logPut_body d a x c f g i j)

@[simp] theorem Dev.logPut_seq (d : Dev) (a x c f g i j : Nat) : (d.logPut a x c f g i j).seq = d.seq :=
  Dev.seq_of_body (Dev.logPut_body d a x c f g i j)

@[simp] theorem Dev.logPut_cam (d : Dev) (a x c f g i j : Nat) : (d.logPut a x c f g i j).cam = d.cam :=
  Dev.cam_of_body (Dev.logPut_body d a x c f g i j)

@[simp] theorem Dev.logPut_drv (d : Dev) (a x c f g i j : Nat) : (d.logPut a x c f g i j).drv = d.drv :=
  Dev.drv_of_body (Dev.logPut_body d a x c f g i j)

@[simp] theorem Dev.logPut_tmr (d : Dev) (a x c f g i j : Nat) : (d.logPut a x c f g i j).tmr = d.tmr :=
  Dev.tmr_of_body (Dev.logPut_body d a x c f g i j)

@[simp] theorem Dev.logPut_pins (d : Dev) (a x c f g i j : Nat) : (d.logPut a x c f g i j).pins = d.pins :=
  Dev.pins_of_body (Dev.logPut_body d a x c f g i j)

@[simp] theorem Dev.logPut_trig (d : Dev) (a x c f g i j : Nat) : (d.logPut a x c f g i j).trig = d.trig :=
  Dev.trig_of_body (Dev.logPut_body d a x c f g i j)

@[simp] theorem Dev.logPut_camin (d : Dev) (a x c f g i j : Nat) : (d.logPut a x c f g i j).camin = d.camin :=
  Dev.camin_of_body (Dev.logPut_body d a x c f g i j)

@[simp] theorem Dev.logPut_quads (d : Dev) (a x c f g i j : Nat) : (d.logPut a x c f g i j).quads = d.quads :=
  Dev.quads_of_body (Dev.logPut_body d a x c f g i j)

@[simp] theorem Dev.logPut_pipes (d : Dev) (a x c f g i j : Nat) : (d.logPut a x c f g i j).pipes = d.pipes :=
  Dev.pipes_of_body (Dev.logPut_body d a x c f g i j)

@[simp] theorem Dev.logPut_ras (d : Dev) (a x c f g i j : Nat) : (d.logPut a x c f g i j).ras = d.ras :=
  Dev.ras_of_body (Dev.logPut_body d a x c f g i j)

@[simp] theorem Dev.logPut_disp (d : Dev) (a x c f g i j : Nat) : (d.logPut a x c f g i j).disp = d.disp :=
  Dev.disp_of_body (Dev.logPut_body d a x c f g i j)

@[simp] theorem Dev.logPut_draw (d : Dev) (a x c f g i j : Nat) : (d.logPut a x c f g i j).draw = d.draw :=
  Dev.draw_of_body (Dev.logPut_body d a x c f g i j)

@[simp] theorem Dev.logPut_aud (d : Dev) (a x c f g i j : Nat) : (d.logPut a x c f g i j).aud = d.aud :=
  Dev.aud_of_body (Dev.logPut_body d a x c f g i j)

@[simp] theorem Dev.logPut_dma (d : Dev) (a x c f g i j : Nat) : (d.logPut a x c f g i j).dma = d.dma :=
  Dev.dma_of_body (Dev.logPut_body d a x c f g i j)

@[simp] theorem Dev.logPut_pwr (d : Dev) (a x c f g i j : Nat) : (d.logPut a x c f g i j).pwr = d.pwr :=
  Dev.pwr_of_body (Dev.logPut_body d a x c f g i j)

@[simp] theorem Dev.logPut_sec (d : Dev) (a x c f g i j : Nat) : (d.logPut a x c f g i j).sec = d.sec :=
  Dev.sec_of_body (Dev.logPut_body d a x c f g i j)

@[simp] theorem Dev.logPut_cloche (d : Dev) (a x c f g i j : Nat) : (d.logPut a x c f g i j).cloche = d.cloche :=
  Dev.cloche_of_body (Dev.logPut_body d a x c f g i j)

@[simp] theorem Dev.logPut_trl (d : Dev) (a x c f g i j : Nat) : (d.logPut a x c f g i j).trl = d.trl :=
  Dev.trl_of_body (Dev.logPut_body d a x c f g i j)

@[simp] theorem Dev.logPut_grf (d : Dev) (a x c f g i j : Nat) : (d.logPut a x c f g i j).grf = d.grf :=
  Dev.grf_of_body (Dev.logPut_body d a x c f g i j)

@[simp] theorem Dev.logPut_bstopLow (d : Dev) (a x c f g i j : Nat) : (d.logPut a x c f g i j).bstopLow = d.bstopLow :=
  Dev.bstopLow_of_body (Dev.logPut_body d a x c f g i j)

@[simp] theorem Dev.logPut_dataStop (d : Dev) (a x c f g i j : Nat) : (d.logPut a x c f g i j).dataStop = d.dataStop :=
  Dev.dataStop_of_body (Dev.logPut_body d a x c f g i j)

@[simp] theorem Dev.logPut_memcCfg (d : Dev) (a x c f g i j : Nat) : (d.logPut a x c f g i j).memcCfg = d.memcCfg :=
  Dev.memcCfg_of_body (Dev.logPut_body d a x c f g i j)

@[simp] theorem Dev.fresh_lt (d : Dev) (w : Nat) : (d.fresh w).2.lt = d.lt := rfl

@[simp] theorem Dev.fresh_beams (d : Dev) (w : Nat) : (d.fresh w).2.beams = d.beams := rfl

@[simp] theorem Dev.fresh_encs (d : Dev) (w : Nat) : (d.fresh w).2.encs = d.encs := rfl

@[simp] theorem Dev.fresh_est (d : Dev) (w : Nat) : (d.fresh w).2.est = d.est := rfl

@[simp] theorem Dev.fresh_tick (d : Dev) (w : Nat) : (d.fresh w).2.tick = d.tick := rfl

@[simp] theorem Dev.fresh_commit (d : Dev) (w : Nat) : (d.fresh w).2.commit = d.commit := rfl

@[simp] theorem Dev.fresh_stem (d : Dev) (w : Nat) : (d.fresh w).2.stem = d.stem := rfl

@[simp] theorem Dev.fresh_cores (d : Dev) (w : Nat) : (d.fresh w).2.cores = d.cores := rfl

@[simp] theorem Dev.fresh_nodeId (d : Dev) (w : Nat) : (d.fresh w).2.nodeId = d.nodeId := rfl

@[simp] theorem Dev.fresh_items (d : Dev) (w : Nat) : (d.fresh w).2.items = d.items := rfl

@[simp] theorem Dev.fresh_stn (d : Dev) (w : Nat) : (d.fresh w).2.stn = d.stn := rfl

@[simp] theorem Dev.fresh_seq (d : Dev) (w : Nat) : (d.fresh w).2.seq = d.seq := rfl

@[simp] theorem Dev.fresh_cam (d : Dev) (w : Nat) : (d.fresh w).2.cam = d.cam := rfl

@[simp] theorem Dev.fresh_drv (d : Dev) (w : Nat) : (d.fresh w).2.drv = d.drv := rfl

@[simp] theorem Dev.fresh_tmr (d : Dev) (w : Nat) : (d.fresh w).2.tmr = d.tmr := rfl

@[simp] theorem Dev.fresh_pins (d : Dev) (w : Nat) : (d.fresh w).2.pins = d.pins := rfl

@[simp] theorem Dev.fresh_trig (d : Dev) (w : Nat) : (d.fresh w).2.trig = d.trig := rfl

@[simp] theorem Dev.fresh_camin (d : Dev) (w : Nat) : (d.fresh w).2.camin = d.camin := rfl

@[simp] theorem Dev.fresh_quads (d : Dev) (w : Nat) : (d.fresh w).2.quads = d.quads := rfl

@[simp] theorem Dev.fresh_pipes (d : Dev) (w : Nat) : (d.fresh w).2.pipes = d.pipes := rfl

@[simp] theorem Dev.fresh_ras (d : Dev) (w : Nat) : (d.fresh w).2.ras = d.ras := rfl

@[simp] theorem Dev.fresh_disp (d : Dev) (w : Nat) : (d.fresh w).2.disp = d.disp := rfl

@[simp] theorem Dev.fresh_draw (d : Dev) (w : Nat) : (d.fresh w).2.draw = d.draw := rfl

@[simp] theorem Dev.fresh_aud (d : Dev) (w : Nat) : (d.fresh w).2.aud = d.aud := rfl

@[simp] theorem Dev.fresh_dma (d : Dev) (w : Nat) : (d.fresh w).2.dma = d.dma := rfl

@[simp] theorem Dev.fresh_pwr (d : Dev) (w : Nat) : (d.fresh w).2.pwr = d.pwr := rfl

@[simp] theorem Dev.fresh_sec (d : Dev) (w : Nat) : (d.fresh w).2.sec = d.sec := rfl

@[simp] theorem Dev.fresh_cloche (d : Dev) (w : Nat) : (d.fresh w).2.cloche = d.cloche := rfl

@[simp] theorem Dev.fresh_trl (d : Dev) (w : Nat) : (d.fresh w).2.trl = d.trl := rfl

@[simp] theorem Dev.fresh_grf (d : Dev) (w : Nat) : (d.fresh w).2.grf = d.grf := rfl

@[simp] theorem Dev.fresh_bstopLow (d : Dev) (w : Nat) : (d.fresh w).2.bstopLow = d.bstopLow := rfl

@[simp] theorem Dev.fresh_dataStop (d : Dev) (w : Nat) : (d.fresh w).2.dataStop = d.dataStop := rfl

@[simp] theorem Dev.fresh_memcCfg (d : Dev) (w : Nat) : (d.fresh w).2.memcCfg = d.memcCfg := rfl

end Sys2Proof.Machine
end

