-- ==== Sys2Proof/Laws/Getter.lean ====
section
/-! SUPPORT. What the accessors of the device's tables read after their setters. -/
namespace Sys2Proof.Machine

@[simp] theorem Dev.grp_setGrp (d : Dev) (i : Nat) (x : Grp) : (d.setGrp i x).grp i = x := by
  unfold Dev.grp Dev.setGrp; simp

theorem Dev.grp_setGrp_other (d : Dev) {i j : Nat} (x : Grp) (h : j ≠ i) : (d.setGrp i x).grp j = d.grp j := by
  unfold Dev.grp Dev.setGrp; simp [tget_tput_other _ _ h]

@[simp] theorem Dev.setGrp_rd (d : Dev) (i : Nat) (x : Grp) (k : Nat) : (d.setGrp i x).rd k = d.rd k := rfl

@[simp] theorem Dev.setGrp_byte (d : Dev) (i : Nat) (x : Grp) (a : Nat) : (d.setGrp i x).byte a = d.byte a := rfl

@[simp] theorem Dev.setGrp_regs (d : Dev) (i : Nat) (x : Grp) : (d.setGrp i x).regs = d.regs := rfl

@[simp] theorem Dev.setGrp_mem (d : Dev) (i : Nat) (x : Grp) : (d.setGrp i x).mem = d.mem := rfl

@[simp] theorem Dev.irq_setIrq (d : Dev) (i : Nat) (x : Irq) : (d.setIrq i x).irq i = x := by
  unfold Dev.irq Dev.setIrq; simp

theorem Dev.irq_setIrq_other (d : Dev) {i j : Nat} (x : Irq) (h : j ≠ i) : (d.setIrq i x).irq j = d.irq j := by
  unfold Dev.irq Dev.setIrq; simp [tget_tput_other _ _ h]

@[simp] theorem Dev.setIrq_rd (d : Dev) (i : Nat) (x : Irq) (k : Nat) : (d.setIrq i x).rd k = d.rd k := rfl

@[simp] theorem Dev.setIrq_byte (d : Dev) (i : Nat) (x : Irq) (a : Nat) : (d.setIrq i x).byte a = d.byte a := rfl

@[simp] theorem Dev.setIrq_regs (d : Dev) (i : Nat) (x : Irq) : (d.setIrq i x).regs = d.regs := rfl

@[simp] theorem Dev.setIrq_mem (d : Dev) (i : Nat) (x : Irq) : (d.setIrq i x).mem = d.mem := rfl

@[simp] theorem Dev.priStack_setStack (d : Dev) (i : Nat) (x : List PriEnt) : (d.setStack i x).priStack i = x := by
  unfold Dev.priStack Dev.setStack; simp

theorem Dev.priStack_setStack_other (d : Dev) {i j : Nat} (x : List PriEnt) (h : j ≠ i) : (d.setStack i x).priStack j = d.priStack j := by
  unfold Dev.priStack Dev.setStack; simp [tget_tput_other _ _ h]

@[simp] theorem Dev.setStack_rd (d : Dev) (i : Nat) (x : List PriEnt) (k : Nat) : (d.setStack i x).rd k = d.rd k := rfl

@[simp] theorem Dev.setStack_byte (d : Dev) (i : Nat) (x : List PriEnt) (a : Nat) : (d.setStack i x).byte a = d.byte a := rfl

@[simp] theorem Dev.setStack_regs (d : Dev) (i : Nat) (x : List PriEnt) : (d.setStack i x).regs = d.regs := rfl

@[simp] theorem Dev.setStack_mem (d : Dev) (i : Nat) (x : List PriEnt) : (d.setStack i x).mem = d.mem := rfl

@[simp] theorem Dev.beam_setBeam (d : Dev) (i : Nat) (x : Beam) : (d.setBeam i x).beam i = x := by
  unfold Dev.beam Dev.setBeam; simp

theorem Dev.beam_setBeam_other (d : Dev) {i j : Nat} (x : Beam) (h : j ≠ i) : (d.setBeam i x).beam j = d.beam j := by
  unfold Dev.beam Dev.setBeam; simp [tget_tput_other _ _ h]

@[simp] theorem Dev.setBeam_rd (d : Dev) (i : Nat) (x : Beam) (k : Nat) : (d.setBeam i x).rd k = d.rd k := rfl

@[simp] theorem Dev.setBeam_byte (d : Dev) (i : Nat) (x : Beam) (a : Nat) : (d.setBeam i x).byte a = d.byte a := rfl

@[simp] theorem Dev.setBeam_regs (d : Dev) (i : Nat) (x : Beam) : (d.setBeam i x).regs = d.regs := rfl

@[simp] theorem Dev.setBeam_mem (d : Dev) (i : Nat) (x : Beam) : (d.setBeam i x).mem = d.mem := rfl

@[simp] theorem Dev.camPort_setCam (d : Dev) (i : Nat) (x : CamIn) : (d.setCam i x).camPort i = x := by
  unfold Dev.camPort Dev.setCam; simp

theorem Dev.camPort_setCam_other (d : Dev) {i j : Nat} (x : CamIn) (h : j ≠ i) : (d.setCam i x).camPort j = d.camPort j := by
  unfold Dev.camPort Dev.setCam; simp [tget_tput_other _ _ h]

@[simp] theorem Dev.setCam_rd (d : Dev) (i : Nat) (x : CamIn) (k : Nat) : (d.setCam i x).rd k = d.rd k := rfl

@[simp] theorem Dev.setCam_byte (d : Dev) (i : Nat) (x : CamIn) (a : Nat) : (d.setCam i x).byte a = d.byte a := rfl

@[simp] theorem Dev.setCam_regs (d : Dev) (i : Nat) (x : CamIn) : (d.setCam i x).regs = d.regs := rfl

@[simp] theorem Dev.setCam_mem (d : Dev) (i : Nat) (x : CamIn) : (d.setCam i x).mem = d.mem := rfl

@[simp] theorem Dev.pipe_setPipe (d : Dev) (i : Nat) (x : Pipe) : (d.setPipe i x).pipe i = x := by
  unfold Dev.pipe Dev.setPipe; simp

theorem Dev.pipe_setPipe_other (d : Dev) {i j : Nat} (x : Pipe) (h : j ≠ i) : (d.setPipe i x).pipe j = d.pipe j := by
  unfold Dev.pipe Dev.setPipe; simp [tget_tput_other _ _ h]

@[simp] theorem Dev.setPipe_rd (d : Dev) (i : Nat) (x : Pipe) (k : Nat) : (d.setPipe i x).rd k = d.rd k := rfl

@[simp] theorem Dev.setPipe_byte (d : Dev) (i : Nat) (x : Pipe) (a : Nat) : (d.setPipe i x).byte a = d.byte a := rfl

@[simp] theorem Dev.setPipe_regs (d : Dev) (i : Nat) (x : Pipe) : (d.setPipe i x).regs = d.regs := rfl

@[simp] theorem Dev.setPipe_mem (d : Dev) (i : Nat) (x : Pipe) : (d.setPipe i x).mem = d.mem := rfl

@[simp] theorem Dev.core_setCore (d : Dev) (i : Nat) (x : Core) : (d.setCore i x).core i = x := by
  unfold Dev.core Dev.setCore; simp

theorem Dev.core_setCore_other (d : Dev) {i j : Nat} (x : Core) (h : j ≠ i) : (d.setCore i x).core j = d.core j := by
  unfold Dev.core Dev.setCore; simp [tget_tput_other _ _ h]

@[simp] theorem Dev.setCore_rd (d : Dev) (i : Nat) (x : Core) (k : Nat) : (d.setCore i x).rd k = d.rd k := rfl

@[simp] theorem Dev.setCore_byte (d : Dev) (i : Nat) (x : Core) (a : Nat) : (d.setCore i x).byte a = d.byte a := rfl

@[simp] theorem Dev.setCore_regs (d : Dev) (i : Nat) (x : Core) : (d.setCore i x).regs = d.regs := rfl

@[simp] theorem Dev.setCore_mem (d : Dev) (i : Nat) (x : Core) : (d.setCore i x).mem = d.mem := rfl

@[simp] theorem Dev.dmaEng_setDma (d : Dev) (i : Nat) (x : DmaEng) : (d.setDma i x).dmaEng i = x := by
  unfold Dev.dmaEng Dev.setDma; simp

theorem Dev.dmaEng_setDma_other (d : Dev) {i j : Nat} (x : DmaEng) (h : j ≠ i) : (d.setDma i x).dmaEng j = d.dmaEng j := by
  unfold Dev.dmaEng Dev.setDma; simp [tget_tput_other _ _ h]

@[simp] theorem Dev.setDma_rd (d : Dev) (i : Nat) (x : DmaEng) (k : Nat) : (d.setDma i x).rd k = d.rd k := rfl

@[simp] theorem Dev.setDma_byte (d : Dev) (i : Nat) (x : DmaEng) (a : Nat) : (d.setDma i x).byte a = d.byte a := rfl

@[simp] theorem Dev.setDma_regs (d : Dev) (i : Nat) (x : DmaEng) : (d.setDma i x).regs = d.regs := rfl

@[simp] theorem Dev.setDma_mem (d : Dev) (i : Nat) (x : DmaEng) : (d.setDma i x).mem = d.mem := rfl

@[simp] theorem Dev.drawEng_setDraw (d : Dev) (i : Nat) (x : DrawEng) : (d.setDraw i x).drawEng i = x := by
  unfold Dev.drawEng Dev.setDraw; simp

theorem Dev.drawEng_setDraw_other (d : Dev) {i j : Nat} (x : DrawEng) (h : j ≠ i) : (d.setDraw i x).drawEng j = d.drawEng j := by
  unfold Dev.drawEng Dev.setDraw; simp [tget_tput_other _ _ h]

@[simp] theorem Dev.setDraw_rd (d : Dev) (i : Nat) (x : DrawEng) (k : Nat) : (d.setDraw i x).rd k = d.rd k := rfl

@[simp] theorem Dev.setDraw_byte (d : Dev) (i : Nat) (x : DrawEng) (a : Nat) : (d.setDraw i x).byte a = d.byte a := rfl

@[simp] theorem Dev.setDraw_regs (d : Dev) (i : Nat) (x : DrawEng) : (d.setDraw i x).regs = d.regs := rfl

@[simp] theorem Dev.setDraw_mem (d : Dev) (i : Nat) (x : DrawEng) : (d.setDraw i x).mem = d.mem := rfl

@[simp] theorem Dev.dport_setDport (d : Dev) (i : Nat) (x : DrvPort) : (d.setDport i x).dport i = x := by
  unfold Dev.dport Dev.setDport; simp

theorem Dev.dport_setDport_other (d : Dev) {i j : Nat} (x : DrvPort) (h : j ≠ i) : (d.setDport i x).dport j = d.dport j := by
  unfold Dev.dport Dev.setDport; simp [tget_tput_other _ _ h]

@[simp] theorem Dev.setDport_rd (d : Dev) (i : Nat) (x : DrvPort) (k : Nat) : (d.setDport i x).rd k = d.rd k := rfl

@[simp] theorem Dev.setDport_byte (d : Dev) (i : Nat) (x : DrvPort) (a : Nat) : (d.setDport i x).byte a = d.byte a := rfl

@[simp] theorem Dev.setDport_regs (d : Dev) (i : Nat) (x : DrvPort) : (d.setDport i x).regs = d.regs := rfl

@[simp] theorem Dev.setDport_mem (d : Dev) (i : Nat) (x : DrvPort) : (d.setDport i x).mem = d.mem := rfl

@[simp] theorem Dev.trlPort_setTrlPort (d : Dev) (i : Nat) (x : TrlPort) : (d.setTrlPort i x).trlPort i = x := by
  unfold Dev.trlPort Dev.setTrlPort; simp

theorem Dev.trlPort_setTrlPort_other (d : Dev) {i j : Nat} (x : TrlPort) (h : j ≠ i) : (d.setTrlPort i x).trlPort j = d.trlPort j := by
  unfold Dev.trlPort Dev.setTrlPort; simp [tget_tput_other _ _ h]

@[simp] theorem Dev.setTrlPort_rd (d : Dev) (i : Nat) (x : TrlPort) (k : Nat) : (d.setTrlPort i x).rd k = d.rd k := rfl

@[simp] theorem Dev.setTrlPort_byte (d : Dev) (i : Nat) (x : TrlPort) (a : Nat) : (d.setTrlPort i x).byte a = d.byte a := rfl

@[simp] theorem Dev.setTrlPort_regs (d : Dev) (i : Nat) (x : TrlPort) : (d.setTrlPort i x).regs = d.regs := rfl

@[simp] theorem Dev.setTrlPort_mem (d : Dev) (i : Nat) (x : TrlPort) : (d.setTrlPort i x).mem = d.mem := rfl

@[simp] theorem Dev.quad_setQuad (d : Dev) (i : Nat) (x : Quad) : (d.setQuad i x).quad i = x := by
  unfold Dev.quad Dev.setQuad; simp

theorem Dev.quad_setQuad_other (d : Dev) {i j : Nat} (x : Quad) (h : j ≠ i) : (d.setQuad i x).quad j = d.quad j := by
  unfold Dev.quad Dev.setQuad; simp [tget_tput_other _ _ h]

@[simp] theorem Dev.setQuad_rd (d : Dev) (i : Nat) (x : Quad) (k : Nat) : (d.setQuad i x).rd k = d.rd k := rfl

@[simp] theorem Dev.setQuad_byte (d : Dev) (i : Nat) (x : Quad) (a : Nat) : (d.setQuad i x).byte a = d.byte a := rfl

@[simp] theorem Dev.setQuad_regs (d : Dev) (i : Nat) (x : Quad) : (d.setQuad i x).regs = d.regs := rfl

@[simp] theorem Dev.setQuad_mem (d : Dev) (i : Nat) (x : Quad) : (d.setQuad i x).mem = d.mem := rfl

@[simp] theorem Dev.rport_setRport (d : Dev) (i : Nat) (x : RasPort) : (d.setRport i x).rport i = x := by
  unfold Dev.rport Dev.setRport; simp

theorem Dev.rport_setRport_other (d : Dev) {i j : Nat} (x : RasPort) (h : j ≠ i) : (d.setRport i x).rport j = d.rport j := by
  unfold Dev.rport Dev.setRport; simp [tget_tput_other _ _ h]

@[simp] theorem Dev.setRport_rd (d : Dev) (i : Nat) (x : RasPort) (k : Nat) : (d.setRport i x).rd k = d.rd k := rfl

@[simp] theorem Dev.setRport_byte (d : Dev) (i : Nat) (x : RasPort) (a : Nat) : (d.setRport i x).byte a = d.byte a := rfl

@[simp] theorem Dev.setRport_regs (d : Dev) (i : Nat) (x : RasPort) : (d.setRport i x).regs = d.regs := rfl

@[simp] theorem Dev.setRport_mem (d : Dev) (i : Nat) (x : RasPort) : (d.setRport i x).mem = d.mem := rfl

@[simp] theorem Dev.dsp_setDsp (d : Dev) (i : Nat) (x : DispPort) : (d.setDsp i x).dsp i = x := by
  unfold Dev.dsp Dev.setDsp; simp

theorem Dev.dsp_setDsp_other (d : Dev) {i j : Nat} (x : DispPort) (h : j ≠ i) : (d.setDsp i x).dsp j = d.dsp j := by
  unfold Dev.dsp Dev.setDsp; simp [tget_tput_other _ _ h]

@[simp] theorem Dev.setDsp_rd (d : Dev) (i : Nat) (x : DispPort) (k : Nat) : (d.setDsp i x).rd k = d.rd k := rfl

@[simp] theorem Dev.setDsp_byte (d : Dev) (i : Nat) (x : DispPort) (a : Nat) : (d.setDsp i x).byte a = d.byte a := rfl

@[simp] theorem Dev.setDsp_regs (d : Dev) (i : Nat) (x : DispPort) : (d.setDsp i x).regs = d.regs := rfl

@[simp] theorem Dev.setDsp_mem (d : Dev) (i : Nat) (x : DispPort) : (d.setDsp i x).mem = d.mem := rfl

@[simp] theorem Dev.trigPort_setTrig (d : Dev) (i : Nat) (x : TrigPort) : (d.setTrig i x).trigPort i = x := by
  unfold Dev.trigPort Dev.setTrig; simp

theorem Dev.trigPort_setTrig_other (d : Dev) {i j : Nat} (x : TrigPort) (h : j ≠ i) : (d.setTrig i x).trigPort j = d.trigPort j := by
  unfold Dev.trigPort Dev.setTrig; simp [tget_tput_other _ _ h]

@[simp] theorem Dev.setTrig_rd (d : Dev) (i : Nat) (x : TrigPort) (k : Nat) : (d.setTrig i x).rd k = d.rd k := rfl

@[simp] theorem Dev.setTrig_byte (d : Dev) (i : Nat) (x : TrigPort) (a : Nat) : (d.setTrig i x).byte a = d.byte a := rfl

@[simp] theorem Dev.setTrig_regs (d : Dev) (i : Nat) (x : TrigPort) : (d.setTrig i x).regs = d.regs := rfl

@[simp] theorem Dev.setTrig_mem (d : Dev) (i : Nat) (x : TrigPort) : (d.setTrig i x).mem = d.mem := rfl

@[simp] theorem Dev.stemEnd_setStem (d : Dev) (i : Nat) (x : StemSt) : (d.setStem i x).stemEnd i = x := by
  unfold Dev.stemEnd Dev.setStem; simp

theorem Dev.stemEnd_setStem_other (d : Dev) {i j : Nat} (x : StemSt) (h : j ≠ i) : (d.setStem i x).stemEnd j = d.stemEnd j := by
  unfold Dev.stemEnd Dev.setStem; simp [tget_tput_other _ _ h]

@[simp] theorem Dev.setStem_rd (d : Dev) (i : Nat) (x : StemSt) (k : Nat) : (d.setStem i x).rd k = d.rd k := rfl

@[simp] theorem Dev.setStem_byte (d : Dev) (i : Nat) (x : StemSt) (a : Nat) : (d.setStem i x).byte a = d.byte a := rfl

@[simp] theorem Dev.setStem_regs (d : Dev) (i : Nat) (x : StemSt) : (d.setStem i x).regs = d.regs := rfl

@[simp] theorem Dev.setStem_mem (d : Dev) (i : Nat) (x : StemSt) : (d.setStem i x).mem = d.mem := rfl

@[simp] theorem Dev.timer_setTimer (d : Dev) (i : Nat) (x : Tmr) : (d.setTimer i x).timer i = x := by
  unfold Dev.timer Dev.setTimer; simp

theorem Dev.timer_setTimer_other (d : Dev) {i j : Nat} (x : Tmr) (h : j ≠ i) : (d.setTimer i x).timer j = d.timer j := by
  unfold Dev.timer Dev.setTimer; simp [tget_tput_other _ _ h]

@[simp] theorem Dev.setTimer_rd (d : Dev) (i : Nat) (x : Tmr) (k : Nat) : (d.setTimer i x).rd k = d.rd k := rfl

@[simp] theorem Dev.setTimer_byte (d : Dev) (i : Nat) (x : Tmr) (a : Nat) : (d.setTimer i x).byte a = d.byte a := rfl

@[simp] theorem Dev.setTimer_regs (d : Dev) (i : Nat) (x : Tmr) : (d.setTimer i x).regs = d.regs := rfl

@[simp] theorem Dev.setTimer_mem (d : Dev) (i : Nat) (x : Tmr) : (d.setTimer i x).mem = d.mem := rfl

@[simp] theorem Dev.pin_setPin (d : Dev) (i : Nat) (x : Pin) : (d.setPin i x).pin i = x := by
  unfold Dev.pin Dev.setPin; simp

theorem Dev.pin_setPin_other (d : Dev) {i j : Nat} (x : Pin) (h : j ≠ i) : (d.setPin i x).pin j = d.pin j := by
  unfold Dev.pin Dev.setPin; simp [tget_tput_other _ _ h]

@[simp] theorem Dev.setPin_rd (d : Dev) (i : Nat) (x : Pin) (k : Nat) : (d.setPin i x).rd k = d.rd k := rfl

@[simp] theorem Dev.setPin_byte (d : Dev) (i : Nat) (x : Pin) (a : Nat) : (d.setPin i x).byte a = d.byte a := rfl

@[simp] theorem Dev.setPin_regs (d : Dev) (i : Nat) (x : Pin) : (d.setPin i x).regs = d.regs := rfl

@[simp] theorem Dev.setPin_mem (d : Dev) (i : Nat) (x : Pin) : (d.setPin i x).mem = d.mem := rfl

@[simp] theorem Dev.audDom_setAudDom (d : Dev) (i : Nat) (x : AudDom) : (d.setAudDom i x).audDom i = x := by
  unfold Dev.audDom Dev.setAudDom; simp

theorem Dev.audDom_setAudDom_other (d : Dev) {i j : Nat} (x : AudDom) (h : j ≠ i) : (d.setAudDom i x).audDom j = d.audDom j := by
  unfold Dev.audDom Dev.setAudDom; simp [tget_tput_other _ _ h]

@[simp] theorem Dev.setAudDom_rd (d : Dev) (i : Nat) (x : AudDom) (k : Nat) : (d.setAudDom i x).rd k = d.rd k := rfl

@[simp] theorem Dev.setAudDom_byte (d : Dev) (i : Nat) (x : AudDom) (a : Nat) : (d.setAudDom i x).byte a = d.byte a := rfl

@[simp] theorem Dev.setAudDom_regs (d : Dev) (i : Nat) (x : AudDom) : (d.setAudDom i x).regs = d.regs := rfl

@[simp] theorem Dev.setAudDom_mem (d : Dev) (i : Nat) (x : AudDom) : (d.setAudDom i x).mem = d.mem := rfl

@[simp] theorem Dev.voice_setVoice (d : Dev) (i : Nat) (x : Voice) : (d.setVoice i x).voice i = x := by
  unfold Dev.voice Dev.setVoice; simp

theorem Dev.voice_setVoice_other (d : Dev) {i j : Nat} (x : Voice) (h : j ≠ i) : (d.setVoice i x).voice j = d.voice j := by
  unfold Dev.voice Dev.setVoice; simp [tget_tput_other _ _ h]

@[simp] theorem Dev.setVoice_rd (d : Dev) (i : Nat) (x : Voice) (k : Nat) : (d.setVoice i x).rd k = d.rd k := rfl

@[simp] theorem Dev.setVoice_byte (d : Dev) (i : Nat) (x : Voice) (a : Nat) : (d.setVoice i x).byte a = d.byte a := rfl

@[simp] theorem Dev.setVoice_regs (d : Dev) (i : Nat) (x : Voice) : (d.setVoice i x).regs = d.regs := rfl

@[simp] theorem Dev.setVoice_mem (d : Dev) (i : Nat) (x : Voice) : (d.setVoice i x).mem = d.mem := rfl

@[simp] theorem Dev.oa_setOa (d : Dev) (i : Nat) (x : OaChan) : (d.setOa i x).oa i = x := by
  unfold Dev.oa Dev.setOa; simp

theorem Dev.oa_setOa_other (d : Dev) {i j : Nat} (x : OaChan) (h : j ≠ i) : (d.setOa i x).oa j = d.oa j := by
  unfold Dev.oa Dev.setOa; simp [tget_tput_other _ _ h]

@[simp] theorem Dev.setOa_rd (d : Dev) (i : Nat) (x : OaChan) (k : Nat) : (d.setOa i x).rd k = d.rd k := rfl

@[simp] theorem Dev.setOa_byte (d : Dev) (i : Nat) (x : OaChan) (a : Nat) : (d.setOa i x).byte a = d.byte a := rfl

@[simp] theorem Dev.setOa_regs (d : Dev) (i : Nat) (x : OaChan) : (d.setOa i x).regs = d.regs := rfl

@[simp] theorem Dev.setOa_mem (d : Dev) (i : Nat) (x : OaChan) : (d.setOa i x).mem = d.mem := rfl

variable {b : Dev → Dev} {p : Nat → Bool} {d e : Dev}

theorem Dev.Frame.setGrp (h : Dev.Frame b p d e) (i : Nat) (x : Grp) (hb : b (e.setGrp i x).body = b e.body) :
    Dev.Frame b p d (e.setGrp i x) := h.same hb rfl rfl

theorem Dev.Frame.setBeam (h : Dev.Frame b p d e) (i : Nat) (x : Beam) (hb : b (e.setBeam i x).body = b e.body) :
    Dev.Frame b p d (e.setBeam i x) := h.same hb rfl rfl

theorem Dev.Frame.setCam (h : Dev.Frame b p d e) (i : Nat) (x : CamIn) (hb : b (e.setCam i x).body = b e.body) :
    Dev.Frame b p d (e.setCam i x) := h.same hb rfl rfl

theorem Dev.Frame.setPipe (h : Dev.Frame b p d e) (i : Nat) (x : Pipe) (hb : b (e.setPipe i x).body = b e.body) :
    Dev.Frame b p d (e.setPipe i x) := h.same hb rfl rfl

theorem Dev.Frame.setCore (h : Dev.Frame b p d e) (i : Nat) (x : Core) (hb : b (e.setCore i x).body = b e.body) :
    Dev.Frame b p d (e.setCore i x) := h.same hb rfl rfl

theorem Dev.Frame.setDma (h : Dev.Frame b p d e) (i : Nat) (x : DmaEng) (hb : b (e.setDma i x).body = b e.body) :
    Dev.Frame b p d (e.setDma i x) := h.same hb rfl rfl

theorem Dev.Frame.setDraw (h : Dev.Frame b p d e) (i : Nat) (x : DrawEng) (hb : b (e.setDraw i x).body = b e.body) :
    Dev.Frame b p d (e.setDraw i x) := h.same hb rfl rfl

theorem Dev.Frame.setDport (h : Dev.Frame b p d e) (i : Nat) (x : DrvPort) (hb : b (e.setDport i x).body = b e.body) :
    Dev.Frame b p d (e.setDport i x) := h.same hb rfl rfl

theorem Dev.Frame.setTrlPort (h : Dev.Frame b p d e) (i : Nat) (x : TrlPort) (hb : b (e.setTrlPort i x).body = b e.body) :
    Dev.Frame b p d (e.setTrlPort i x) := h.same hb rfl rfl

theorem Dev.Frame.setQuad (h : Dev.Frame b p d e) (i : Nat) (x : Quad) (hb : b (e.setQuad i x).body = b e.body) :
    Dev.Frame b p d (e.setQuad i x) := h.same hb rfl rfl

theorem Dev.Frame.setRport (h : Dev.Frame b p d e) (i : Nat) (x : RasPort) (hb : b (e.setRport i x).body = b e.body) :
    Dev.Frame b p d (e.setRport i x) := h.same hb rfl rfl

theorem Dev.Frame.setDsp (h : Dev.Frame b p d e) (i : Nat) (x : DispPort) (hb : b (e.setDsp i x).body = b e.body) :
    Dev.Frame b p d (e.setDsp i x) := h.same hb rfl rfl

theorem Dev.Frame.setTrig (h : Dev.Frame b p d e) (i : Nat) (x : TrigPort) (hb : b (e.setTrig i x).body = b e.body) :
    Dev.Frame b p d (e.setTrig i x) := h.same hb rfl rfl

theorem Dev.Frame.setStem (h : Dev.Frame b p d e) (i : Nat) (x : StemSt) (hb : b (e.setStem i x).body = b e.body) :
    Dev.Frame b p d (e.setStem i x) := h.same hb rfl rfl

theorem Dev.Frame.setTimer (h : Dev.Frame b p d e) (i : Nat) (x : Tmr) (hb : b (e.setTimer i x).body = b e.body) :
    Dev.Frame b p d (e.setTimer i x) := h.same hb rfl rfl

theorem Dev.Frame.setPin (h : Dev.Frame b p d e) (i : Nat) (x : Pin) (hb : b (e.setPin i x).body = b e.body) :
    Dev.Frame b p d (e.setPin i x) := h.same hb rfl rfl

theorem Dev.Frame.setAudDom (h : Dev.Frame b p d e) (i : Nat) (x : AudDom) (hb : b (e.setAudDom i x).body = b e.body) :
    Dev.Frame b p d (e.setAudDom i x) := h.same hb rfl rfl

theorem Dev.Frame.setVoice (h : Dev.Frame b p d e) (i : Nat) (x : Voice) (hb : b (e.setVoice i x).body = b e.body) :
    Dev.Frame b p d (e.setVoice i x) := h.same hb rfl rfl

theorem Dev.Frame.setOa (h : Dev.Frame b p d e) (i : Nat) (x : OaChan) (hb : b (e.setOa i x).body = b e.body) :
    Dev.Frame b p d (e.setOa i x) := h.same hb rfl rfl

theorem Dev.Frame.withLt (h : Dev.Frame b p d e) (x : Nat) (hb : b (Dev.body { e with lt := x }) = b e.body) :
    Dev.Frame b p d { e with lt := x } := h.same hb rfl rfl

theorem Dev.Frame.withBeams (h : Dev.Frame b p d e) (x : Tab Beam) (hb : b (Dev.body { e with beams := x }) = b e.body) :
    Dev.Frame b p d { e with beams := x } := h.same hb rfl rfl

theorem Dev.Frame.withEncs (h : Dev.Frame b p d e) (x : Tab Enc) (hb : b (Dev.body { e with encs := x }) = b e.body) :
    Dev.Frame b p d { e with encs := x } := h.same hb rfl rfl

theorem Dev.Frame.withEst (h : Dev.Frame b p d e) (x : Tab Est) (hb : b (Dev.body { e with est := x }) = b e.body) :
    Dev.Frame b p d { e with est := x } := h.same hb rfl rfl

theorem Dev.Frame.withTick (h : Dev.Frame b p d e) (x : TickSt) (hb : b (Dev.body { e with tick := x }) = b e.body) :
    Dev.Frame b p d { e with tick := x } := h.same hb rfl rfl

theorem Dev.Frame.withCommit (h : Dev.Frame b p d e) (x : CommitSt) (hb : b (Dev.body { e with commit := x }) = b e.body) :
    Dev.Frame b p d { e with commit := x } := h.same hb rfl rfl

theorem Dev.Frame.withStem (h : Dev.Frame b p d e) (x : Tab StemSt) (hb : b (Dev.body { e with stem := x }) = b e.body) :
    Dev.Frame b p d { e with stem := x } := h.same hb rfl rfl

theorem Dev.Frame.withCores (h : Dev.Frame b p d e) (x : Tab Core) (hb : b (Dev.body { e with cores := x }) = b e.body) :
    Dev.Frame b p d { e with cores := x } := h.same hb rfl rfl

theorem Dev.Frame.withNodeId (h : Dev.Frame b p d e) (x : Nat) (hb : b (Dev.body { e with nodeId := x }) = b e.body) :
    Dev.Frame b p d { e with nodeId := x } := h.same hb rfl rfl

theorem Dev.Frame.withItems (h : Dev.Frame b p d e) (x : ItemSt) (hb : b (Dev.body { e with items := x }) = b e.body) :
    Dev.Frame b p d { e with items := x } := h.same hb rfl rfl

theorem Dev.Frame.withStn (h : Dev.Frame b p d e) (x : StnSt) (hb : b (Dev.body { e with stn := x }) = b e.body) :
    Dev.Frame b p d { e with stn := x } := h.same hb rfl rfl

theorem Dev.Frame.withSeq (h : Dev.Frame b p d e) (x : SeqSt) (hb : b (Dev.body { e with seq := x }) = b e.body) :
    Dev.Frame b p d { e with seq := x } := h.same hb rfl rfl

theorem Dev.Frame.withCam (h : Dev.Frame b p d e) (x : CamSt) (hb : b (Dev.body { e with cam := x }) = b e.body) :
    Dev.Frame b p d { e with cam := x } := h.same hb rfl rfl

theorem Dev.Frame.withDrv (h : Dev.Frame b p d e) (x : Tab DrvPort) (hb : b (Dev.body { e with drv := x }) = b e.body) :
    Dev.Frame b p d { e with drv := x } := h.same hb rfl rfl

theorem Dev.Frame.withTmr (h : Dev.Frame b p d e) (x : Tab Tmr) (hb : b (Dev.body { e with tmr := x }) = b e.body) :
    Dev.Frame b p d { e with tmr := x } := h.same hb rfl rfl

theorem Dev.Frame.withPins (h : Dev.Frame b p d e) (x : Tab Pin) (hb : b (Dev.body { e with pins := x }) = b e.body) :
    Dev.Frame b p d { e with pins := x } := h.same hb rfl rfl

theorem Dev.Frame.withTrig (h : Dev.Frame b p d e) (x : Tab TrigPort) (hb : b (Dev.body { e with trig := x }) = b e.body) :
    Dev.Frame b p d { e with trig := x } := h.same hb rfl rfl

theorem Dev.Frame.withCamin (h : Dev.Frame b p d e) (x : Tab CamIn) (hb : b (Dev.body { e with camin := x }) = b e.body) :
    Dev.Frame b p d { e with camin := x } := h.same hb rfl rfl

theorem Dev.Frame.withQuads (h : Dev.Frame b p d e) (x : Tab Quad) (hb : b (Dev.body { e with quads := x }) = b e.body) :
    Dev.Frame b p d { e with quads := x } := h.same hb rfl rfl

theorem Dev.Frame.withPipes (h : Dev.Frame b p d e) (x : Tab Pipe) (hb : b (Dev.body { e with pipes := x }) = b e.body) :
    Dev.Frame b p d { e with pipes := x } := h.same hb rfl rfl

theorem Dev.Frame.withRas (h : Dev.Frame b p d e) (x : Tab RasPort) (hb : b (Dev.body { e with ras := x }) = b e.body) :
    Dev.Frame b p d { e with ras := x } := h.same hb rfl rfl

theorem Dev.Frame.withDisp (h : Dev.Frame b p d e) (x : Tab DispPort) (hb : b (Dev.body { e with disp := x }) = b e.body) :
    Dev.Frame b p d { e with disp := x } := h.same hb rfl rfl

theorem Dev.Frame.withDraw (h : Dev.Frame b p d e) (x : Tab DrawEng) (hb : b (Dev.body { e with draw := x }) = b e.body) :
    Dev.Frame b p d { e with draw := x } := h.same hb rfl rfl

theorem Dev.Frame.withAud (h : Dev.Frame b p d e) (x : AudSt) (hb : b (Dev.body { e with aud := x }) = b e.body) :
    Dev.Frame b p d { e with aud := x } := h.same hb rfl rfl

theorem Dev.Frame.withDma (h : Dev.Frame b p d e) (x : Tab DmaEng) (hb : b (Dev.body { e with dma := x }) = b e.body) :
    Dev.Frame b p d { e with dma := x } := h.same hb rfl rfl

theorem Dev.Frame.withPwr (h : Dev.Frame b p d e) (x : PwrSt) (hb : b (Dev.body { e with pwr := x }) = b e.body) :
    Dev.Frame b p d { e with pwr := x } := h.same hb rfl rfl

theorem Dev.Frame.withSec (h : Dev.Frame b p d e) (x : SecSt) (hb : b (Dev.body { e with sec := x }) = b e.body) :
    Dev.Frame b p d { e with sec := x } := h.same hb rfl rfl

theorem Dev.Frame.withCloche (h : Dev.Frame b p d e) (x : Bool) (hb : b (Dev.body { e with cloche := x }) = b e.body) :
    Dev.Frame b p d { e with cloche := x } := h.same hb rfl rfl

theorem Dev.Frame.withTrl (h : Dev.Frame b p d e) (x : TrlSt) (hb : b (Dev.body { e with trl := x }) = b e.body) :
    Dev.Frame b p d { e with trl := x } := h.same hb rfl rfl

theorem Dev.Frame.withGrf (h : Dev.Frame b p d e) (x : GrfSt) (hb : b (Dev.body { e with grf := x }) = b e.body) :
    Dev.Frame b p d { e with grf := x } := h.same hb rfl rfl

theorem Dev.Frame.withBstopLow (h : Dev.Frame b p d e) (x : Bool) (hb : b (Dev.body { e with bstopLow := x }) = b e.body) :
    Dev.Frame b p d { e with bstopLow := x } := h.same hb rfl rfl

theorem Dev.Frame.withDataStop (h : Dev.Frame b p d e) (x : Bool) (hb : b (Dev.body { e with dataStop := x }) = b e.body) :
    Dev.Frame b p d { e with dataStop := x } := h.same hb rfl rfl

theorem Dev.Frame.withMemcCfg (h : Dev.Frame b p d e) (x : Nat) (hb : b (Dev.body { e with memcCfg := x }) = b e.body) :
    Dev.Frame b p d { e with memcCfg := x } := h.same hb rfl rfl

end Sys2Proof.Machine
end

