-- ==== Sys2Proof/Laws/Links.lean ====
section
/-! SUPPORT. What sending over the Stem, the Trellis and the Graft can change: the links' own state and the outputs. -/
namespace Sys2Proof.Machine

/-- From `d` to `e` only the links and the outputs changed. -/
def Dev.Sends (d e : Dev) : Prop := ∃ st tr gr se, e = { d with stem := st, trl := tr, grf := gr, sent := se }

variable {d e f : Dev}

theorem Dev.Sends.refl (d : Dev) : Dev.Sends d d := ⟨d.stem, d.trl, d.grf, d.sent, rfl⟩

theorem Dev.Sends.trans (h : Dev.Sends d e) (g : Dev.Sends e f) : Dev.Sends d f := by
  obtain ⟨a, b, c, x, rfl⟩ := h
  obtain ⟨a', b', c', x', rfl⟩ := g
  exact ⟨a', b', c', x', rfl⟩

theorem Dev.Sends.emit (h : Dev.Sends d e) (x : Emit) : Dev.Sends d (e.emit x) := h.trans ⟨e.stem, e.trl, e.grf, e.sent ++ [x], rfl⟩

theorem Dev.Sends.setStem (h : Dev.Sends d e) (i : Nat) (x : StemSt) : Dev.Sends d (e.setStem i x) :=
  h.trans ⟨tput e.stem i x, e.trl, e.grf, e.sent, rfl⟩

theorem Dev.Sends.withTrl (h : Dev.Sends d e) (x : TrlSt) : Dev.Sends d { e with trl := x } := h.trans ⟨e.stem, x, e.grf, e.sent, rfl⟩

theorem Dev.Sends.withGrf (h : Dev.Sends d e) (x : GrfSt) : Dev.Sends d { e with grf := x } := h.trans ⟨e.stem, e.trl, x, e.sent, rfl⟩

theorem Dev.Sends.setTrlPort (h : Dev.Sends d e) (i : Nat) (x : TrlPort) : Dev.Sends d (e.setTrlPort i x) := h.withTrl _

theorem Dev.Sends.foldl {α : Type} {g : Dev → α → Dev} (l : List α) (hg : ∀ e, ∀ a ∈ l, Dev.Sends e (g e a)) (h : Dev.Sends d e) :
    Dev.Sends d (l.foldl g e) := by
  induction l generalizing e with
  | nil => exact h
  | cons a l ih =>
    exact ih (fun e b hb => hg e b (List.mem_cons_of_mem _ hb)) (h.trans (hg e a (List.mem_cons_self ..)))

theorem Dev.Sends.forN {g : Nat → Dev → Dev} {n : Nat} (hg : ∀ i e, Dev.Sends e (g i e)) (h : Dev.Sends d e) :
    Dev.Sends d (Machine.forN n g e) := by
  unfold Machine.forN
  exact h.foldl _ fun e i _ => hg i e

theorem Dev.Sends.flitOut (h : Dev.Sends d e) (a : Nat) (x : Flit) : Dev.Sends d (e.flitOut a x) := by
  unfold Dev.flitOut; exact (h.setStem _ _).emit _

theorem Dev.Sends.stemTx (h : Dev.Sends d e) (a b c : Nat) (l : List Nat) : Dev.Sends d (e.stemTx a b c l) := by
  unfold Dev.stemTx; exact (h.setStem _ _).flitOut _ _

theorem Dev.Sends.stemSend (h : Dev.Sends d e) (a b c : Nat) (l : List Nat) : Dev.Sends d (e.stemSend a b c l) := by
  unfold Dev.stemSend
  dsimp only
  split
  · exact h.stemTx _ _ _ _
  · exact h.setStem _ _

theorem Dev.Sends.stemPump (h : Dev.Sends d e) (a : Nat) : Dev.Sends d (e.stemPump a) := by
  unfold Dev.stemPump
  split
  · exact h
  · exact Dev.Sends.foldl _ (fun e f _ => (Dev.Sends.refl e).stemTx _ _ _ _) (h.setStem _ _)

theorem Dev.Sends.stemAck (h : Dev.Sends d e) (a b : Nat) : Dev.Sends d (e.stemAck a b) := by
  unfold Dev.stemAck; exact (h.setStem _ _).stemPump _

theorem Dev.Sends.stemResume (h : Dev.Sends d e) (a : Nat) : Dev.Sends d (e.stemResume a) := by
  unfold Dev.stemResume
  exact (h.foldl _ fun e f _ => (Dev.Sends.refl e).flitOut _ _).stemPump a

theorem Dev.Sends.commitMsg (h : Dev.Sends d e) (a b c g i : Nat) (l : List Nat) : Dev.Sends d (e.commitMsg a b c g i l) := by
  unfold Dev.commitMsg
  split
  · exact h.stemSend _ _ _ _
  · exact h.emit _

theorem Dev.Sends.portSend (h : Dev.Sends d e) (p : Nat) (c : Cell) : Dev.Sends d (e.portSend p c) := by
  unfold Dev.portSend; exact (h.setTrlPort _ _).emit _

theorem Dev.Sends.cellTx (h : Dev.Sends d e) (p : Nat) (c : Cell) : Dev.Sends d (e.cellTx p c) := by
  unfold Dev.cellTx
  dsimp only
  split
  · exact h
  · split
    · exact h.portSend _ _
    · split
      · exact h.setTrlPort _ _
      · exact (h.setTrlPort _ _).portSend _ _

theorem Dev.Sends.cellPump (h : Dev.Sends d e) (p : Nat) : Dev.Sends d (e.cellPump p) := by
  unfold Dev.cellPump
  exact (h.setTrlPort _ _).foldl _ fun e c _ => (Dev.Sends.refl e).cellTx _ _

theorem Dev.Sends.cellRoute (h : Dev.Sends d e) (c : Cell) : Dev.Sends d (e.cellRoute c) := by
  unfold Dev.cellRoute
  split
  · split
    · exact h.withTrl _
    · exact h
  · exact h.cellTx _ _
  · exact h.cellTx _ _

theorem Dev.Sends.cellSend (h : Dev.Sends d e) (a b c : Nat) (l : List Nat) : Dev.Sends d (e.cellSend a b c l) := by
  unfold Dev.cellSend
  split
  · exact h.cellRoute _
  · exact h

theorem Dev.Sends.cellFlood (h : Dev.Sends d e) (c : Cell) (x : Option Nat) : Dev.Sends d (e.cellFlood c x) := by
  unfold Dev.cellFlood
  refine h.forN fun i e => ?_
  split
  · exact (Dev.Sends.refl e).cellTx _ _
  · exact Dev.Sends.refl e

theorem Dev.Sends.grfOut (h : Dev.Sends d e) (a b : Nat) (l : List Nat) : Dev.Sends d (e.grfOut a b l) := by
  unfold Dev.grfOut
  refine h.forN fun i e => ?_
  generalize (if a = 1 then 2 else 3) = least
  dsimp only
  split
  · exact ((Dev.Sends.refl e).withGrf _).emit _
  · exact Dev.Sends.refl e

theorem Dev.Sends.graftOne (h : Dev.Sends d e) (a : Nat) (l : List Nat) : Dev.Sends d (e.graftOne a l) := by
  unfold Dev.graftOne
  exact (h.withGrf _).grfOut _ _ _

theorem Dev.Sends.graftTx (h : Dev.Sends d e) (a : Nat) (l : List Nat) : Dev.Sends d (e.graftTx a l) := by
  unfold Dev.graftTx
  dsimp only
  split
  · exact h.graftOne _ _
  · exact h.forN fun i e => (Dev.Sends.refl e).graftOne _ _

theorem Dev.Sends.replicate (h : Dev.Sends d e) (a : Nat) (l : List Nat) : Dev.Sends d (e.replicate a l) := by
  unfold Dev.replicate
  split
  · exact h.graftTx _ _
  · exact h

theorem Dev.Sends.rd (h : Dev.Sends d e) (k : Nat) : e.rd k = d.rd k := by obtain ⟨_, _, _, _, rfl⟩ := h; rfl

theorem Dev.Sends.byte (h : Dev.Sends d e) (a : Nat) : e.byte a = d.byte a := by obtain ⟨_, _, _, _, rfl⟩ := h; rfl

theorem Dev.Sends.grp (h : Dev.Sends d e) (g : Nat) : e.grp g = d.grp g := by obtain ⟨_, _, _, _, rfl⟩ := h; rfl

theorem Dev.Sends.commit (h : Dev.Sends d e) : e.commit = d.commit := by obtain ⟨_, _, _, _, rfl⟩ := h; rfl

theorem Dev.Frame.sends {b : Dev → Dev} {p : Nat → Bool} (h : Dev.Frame b p d e) (hs : Dev.Sends e f)
    (hb : ∀ x st tr gr, b { x with stem := st, trl := tr, grf := gr } = b x) : Dev.Frame b p d f := by
  obtain ⟨st, tr, gr, se, rfl⟩ := hs
  exact h.same (hb e.body _ tr gr) rfl rfl

/-- From `d` to `e` only the links, the outputs and registers that `p` holds changed. -/
structure Dev.Wires (p : Nat → Bool) (d e : Dev) : Prop where
  same : ∃ st tr gr se rg, e = { d with stem := st, trl := tr, grf := gr, sent := se, regs := rg }
  regs : ∀ k, p k = false → e.rd k = d.rd k

variable {p : Nat → Bool}

theorem Dev.Wires.refl (p : Nat → Bool) (d : Dev) : Dev.Wires p d d := ⟨⟨d.stem, d.trl, d.grf, d.sent, d.regs, rfl⟩, fun _ _ => rfl⟩

theorem Dev.Wires.trans (h : Dev.Wires p d e) (g : Dev.Wires p e f) : Dev.Wires p d f := by
  refine ⟨?_, fun k hk => (g.regs k hk).trans (h.regs k hk)⟩
  obtain ⟨a, b, c, x, y, rfl⟩ := h.same
  obtain ⟨a', b', c', x', y', rfl⟩ := g.same
  exact ⟨a', b', c', x', y', rfl⟩

theorem Dev.Wires.sends (h : Dev.Wires p d e) (hs : Dev.Sends e f) : Dev.Wires p d f :=
  h.trans ⟨by obtain ⟨a, b, c, x, rfl⟩ := hs; exact ⟨a, b, c, x, e.regs, rfl⟩, fun k _ => hs.rd k⟩

theorem Dev.Wires.wr (h : Dev.Wires p d e) {k : Nat} (v : Nat) (hk : p k = true) : Dev.Wires p d (e.wr k v) :=
  h.trans ⟨by obtain ⟨R, hR⟩ := e.wr_regs_of k v; exact ⟨e.stem, e.trl, e.grf, e.sent, R, hR⟩,
    fun j hj => Dev.rd_wr_other _ _ (by rintro rfl; rw [hk] at hj; cases hj)⟩

theorem Dev.Wires.ite {c : Prop} [Decidable c] (h1 : c → Dev.Wires p d e) (h2 : ¬ c → Dev.Wires p d f) : Dev.Wires p d (if c then e else f) := by
  split
  · exact h1 ‹_›
  · exact h2 ‹_›

theorem Dev.Wires.commit (h : Dev.Wires p d e) : e.commit = d.commit := by obtain ⟨_, _, _, _, _, rfl⟩ := h.same; rfl

theorem Dev.Wires.grp (h : Dev.Wires p d e) (g : Nat) : e.grp g = d.grp g := by obtain ⟨_, _, _, _, _, rfl⟩ := h.same; rfl

theorem Dev.Frame.wires {b : Dev → Dev} {q : Nat → Bool} (h : Dev.Frame b q d e) (hs : Dev.Wires p e f)
    (hb : ∀ x st tr gr, b { x with stem := st, trl := tr, grf := gr } = b x) (hq : ∀ k, q k = false → p k = false) : Dev.Frame b q d f := by
  refine ⟨?_, fun k a c => (hs.regs k (hq k a)).trans (h.regs k a c), fun a ha => ?_⟩
  · obtain ⟨st, tr, gr, se, rg, rfl⟩ := hs.same
    rw [← h.body]
    exact hb e.body _ tr gr
  · obtain ⟨st, tr, gr, se, rg, rfl⟩ := hs.same
    exact h.mem a ha

end Sys2Proof.Machine
end

