-- ==== Sys2Proof/Laws/Hooks.lean ====
section
/-! SUPPORT. Registers whose change has no further effect, and the swap of values into them. -/
namespace Sys2Proof.Machine

theorem unitsOf_nil {ks : List Nat} {lo size n : Nat} (h : ∀ k ∈ ks, ¬ (lo ≤ k ∧ k < lo + size * n)) : unitsOf ks lo size n = [] := by
  unfold unitsOf
  have : (ks.filterMap fun k => if lo ≤ k ∧ k < lo + size * n then some ((k - lo) / size) else none) = [] := by
    rw [List.filterMap_eq_nil_iff]
    intro k hk
    rw [if_neg (h k hk)]
  rw [this]; rfl

theorem unitsOf_lt {ks : List Nat} {lo size n p : Nat} (h : p ∈ unitsOf ks lo size n) : p < n := by
  unfold unitsOf at h
  rw [List.mem_eraseDups, List.mem_filterMap] at h
  obtain ⟨k, _, hk⟩ := h
  split at hk
  · next hh =>
    cases hk
    exact Nat.div_lt_of_lt_mul (by omega)
  · cases hk

/-- A change of registers that have no hooks has no effect of its own (R652). -/
theorem Dev.regHooks_free (d old : Dev) {ks : List Nat} (t0 : Nat) (h : ∀ k ∈ ks, hookFree k = true) : d.regHooks old ks t0 = d := by
  have hf : ∀ k ∈ ks, k / 0x10000 = 0x3010001 ∨ k / 0x10000 = 0x3010007 ∨ k / 0x10000 = 0x300000A ∨ k / 0x10000 = 0x300000C ∨
      k / 0x10000 = 0x3FF0003 ∨ k / 0x10000 = 0x3FF0004 ∨ (k / 0x10000 = 0x3000005 ∧ k % 0x200 ≠ 0) := fun k hk => by
    have := h k hk
    simp only [hookFree, Bool.or_eq_true, Bool.and_eq_true, beq_iff_eq, bne_iff_ne] at this
    tauto
  have hc : ∀ k ∈ d.changedOf old ks, k ∈ ks := fun k hk => (List.mem_filter.1 hk).1
  have nil : ∀ lo size n, (∀ k ∈ ks, ¬ (lo ≤ k ∧ k < lo + size * n)) → unitsOf (d.changedOf old ks) lo size n = [] :=
    fun lo size n hh => unitsOf_nil fun k hk => hh k (hc k hk)
  have out : ∀ x, hookFree x = false → ks.contains x = false := fun x hx => by
    rw [List.contains_eq_mem, decide_eq_false_iff_not]
    intro hm; rw [h x hm] at hx; cases hx
  have outc : ∀ x, hookFree x = false → (d.changedOf old ks).contains x = false := fun x hx => by
    rw [List.contains_eq_mem, decide_eq_false_iff_not]
    intro hm; rw [h x (hc x hm)] at hx; cases hx
  have hdrv : ((unitsOf (d.changedOf old ks) (Reg.DRV_CFG 0) 512 64).filter fun p => (d.changedOf old ks).contains (Reg.DRV_CFG p)) = [] := by
    rw [List.filter_eq_nil_iff]
    intro p hp
    have hp := unitsOf_lt hp
    rw [outc]
    · decide
    · simp only [hookFree, Reg.DRV_CFG, Bool.or_eq_false_iff, Bool.and_eq_false_iff, beq_eq_false_iff_ne, bne_eq_false_iff_eq]
      omega
  have hcam : ((d.changedOf old ks).any fun k => k / 0x10000 == Reg.CAM_CHAN_CFG 0 / 0x10000) = false := by
    rw [List.any_eq_false]
    intro k hk
    have := hf k (hc k hk)
    simp only [Reg.CAM_CHAN_CFG, beq_iff_eq]
    omega
  have hclamp : d.clampHook ks = d := by
    unfold Dev.clampHook forN
    refine List.foldlRecOn (motive := fun e => e = d) _ _ rfl fun e he b hb => ?_
    dsimp only
    rw [out (Reg.BEAM_FPF b) ?_, he]
    · rfl
    · have := List.mem_range.1 hb
      simp only [hookFree, Reg.BEAM_FPF, Bool.or_eq_false_iff, Bool.and_eq_false_iff, beq_eq_false_iff_ne, bne_eq_false_iff_eq]
      omega
  unfold Dev.regHooks
  dsimp only
  rw [nil 0x30000010000 0x1000 8 fun k hk => by have := hf k hk; omega,
    nil 0x30000020000 0x1000 8 fun k hk => by have := hf k hk; omega,
    unitsOf_nil (ks := ks) (lo := 0x30000010000) (size := 0x1000) (n := 8) fun k hk => by have := hf k hk; omega,
    unitsOf_nil (ks := ks) (lo := Reg.COMP_CTRL 0) (size := 0x1000) (n := 8) fun k hk => by have := hf k hk; simp only [Reg.COMP_CTRL]; omega,
    nil (Reg.CAM_BED 0) 32 8 fun k hk => by have := hf k hk; simp only [Reg.CAM_BED]; omega,
    nil (scrollReg 0 0) 16 1024 fun k hk => by have := hf k hk; simp only [scrollReg, Reg.CAM_SCROLL_BASE]; omega,
    nil (Reg.STN_CFG 0) 64 512 fun k hk => by have := hf k hk; simp only [Reg.STN_CFG]; omega,
    nil (Reg.TMR_CTRL 0) 64 32 fun k hk => by have := hf k hk; simp only [Reg.TMR_CTRL]; omega,
    nil (Reg.PIN_CFG 0) 4 248 fun k hk => by have := hf k hk; simp only [Reg.PIN_CFG]; omega,
    nil (Reg.INTC_SRC_CFG 0) 8 512 fun k hk => by have := hf k hk; simp only [Reg.INTC_SRC_CFG]; omega,
    nil (Reg.INTC_PIN_CFG 0) 4 96 fun k hk => by have := hf k hk; simp only [Reg.INTC_PIN_CFG]; omega,
    nil (Reg.CAMIN_CFG 0) 0x1000 16 fun k hk => by have := hf k hk; simp only [Reg.CAMIN_CFG]; omega,
    nil (Reg.RASTER_CFG 0) 0x1000 8 fun k hk => by have := hf k hk; simp only [Reg.RASTER_CFG]; omega,
    nil (Reg.DISP_CFG 0) 0x1000 3 fun k hk => by have := hf k hk; simp only [Reg.DISP_CFG]; omega,
    nil 0x30000090000 0x1000 1 fun k hk => by have := hf k hk; omega,
    nil (Reg.TRL_PORT_CFG 0) 0x1000 8 fun k hk => by have := hf k hk; simp only [Reg.TRL_PORT_CFG]; omega,
    nil (Reg.CLK_CLUS_SEL 0) 16 6 fun k hk => by have := hf k hk; simp only [Reg.CLK_CLUS_SEL]; omega]
  simp only [List.filter_nil, List.foldl_nil, List.isEmpty_nil, if_true, hdrv, hcam, List.map_nil, List.append_nil, hclamp, Dev.tickHook,
    out _ (show hookFree Reg.BEAM_TICK_PERIOD = false by decide), out _ (show hookFree Reg.BEAM_TICK_ALIGN = false by decide),
    outc _ (show hookFree Reg.ITEM_RECIPE_GEN = false by decide), outc _ (show hookFree Reg.AUD_BANK = false by decide),
    outc _ (show hookFree Reg.TRL_CFG = false by decide), outc _ (show hookFree Reg.TRL_NODE = false by decide), Bool.or_self,
    Bool.false_eq_true, if_false]

/-- No register without hooks is one that raising a source may change. -/
theorem hookFree_irq {k : Nat} (hfree : hookFree k = true) : irqReg k = false := by
  by_contra hcon
  rw [Bool.not_eq_false] at hcon
  simp only [hookFree, irqReg, Bool.or_eq_true, Bool.and_eq_true, beq_iff_eq, bne_iff_ne] at hfree hcon
  have h1 : k / 0x10000 = 0x3000008 ∨ k / 0x10000 = 0x300000D := by
    rcases hcon with (⟨⟨h1, h2⟩, h3⟩ | ⟨h1, h2⟩) | h
    · left; have := of_decide_eq_true h1; have := of_decide_eq_true h2; simp only [Reg.INTC_Q_BASE] at *; omega
    · left; have := of_decide_eq_true h1; have := of_decide_eq_true h2; simp only [Reg.INTC_EVT, Reg.INTC_RAISE] at *; omega
    · right; simp only [Reg.HOST_VEC_SERV] at h; omega
  rcases hfree with (((((h | h) | h) | h) | h) | h) | ⟨h, h2⟩ <;> omega

@[simp] theorem Dev.snapKeep_rd (d : Dev) (k j : Nat) : (d.snapKeep k).rd j = d.rd j := by
  unfold Dev.snapKeep
  split <;> rfl

/-- The registers after values have been swapped in. -/
theorem Dev.rd_swapVals (l : List (Nat × Word)) (d : Dev) (k : Nat) (hk : (regRow k).isSome = true) :
    (l.foldl (fun d p => d.swapIn p.1 p.2.toNat) d).rd k = afterVals l k (d.rd k) := by
  unfold afterVals
  induction l generalizing d with
  | nil => rfl
  | cons p l ih =>
    simp only [List.foldl_cons]
    rw [ih]
    congr 1
    obtain ⟨r, hr⟩ := Option.isSome_iff_exists.1 hk
    unfold Dev.swapIn
    split
    · next h => subst h; rw [Dev.rd_wr_same _ _ hr, hr]
    · next h => rw [Dev.rd_wr_other _ _ (Ne.symm h), Dev.snapKeep_rd]

theorem Dev.Frame.swapVals {b : Dev → Dev} {p : Nat → Bool} {d e : Dev} (h : Dev.Frame b p d e) (l : List (Nat × Word))
    (hl : ∀ x ∈ l, p x.1 = true) (hb : ∀ d c, b { d with commit := c } = b d) :
    Dev.Frame b p d (l.foldl (fun d p => d.swapIn p.1 p.2.toNat) e) := by
  induction l generalizing e with
  | nil => exact h
  | cons x l ih =>
    refine ih ?_ fun y hy => hl y (List.mem_cons_of_mem _ hy)
    refine Dev.Frame.wr ?_ _ (.inl (hl x (List.mem_cons_self ..)))
    unfold Dev.snapKeep
    split
    · exact h.withCommit _ (by rw [← hb e.body]; rfl)
    · exact h

/-- What the swap of values leaves of the commit gate: all but the snapshot's copies. -/
theorem Dev.swapVals_commit (l : List (Nat × Word)) (d : Dev) :
    ∃ c, (l.foldl (fun d p => d.swapIn p.1 p.2.toNat) d).commit = { d.commit with snapCopy := c } := by
  induction l generalizing d with
  | nil => exact ⟨_, rfl⟩
  | cons x l ih =>
    obtain ⟨c, hc⟩ := ih (d.swapIn x.1 x.2.toNat)
    refine ⟨c, ?_⟩
    rw [List.foldl_cons, hc]
    unfold Dev.swapIn Dev.snapKeep
    rw [Dev.wr_commit]
    split <;> rfl

end Sys2Proof.Machine
end

