-- ==== Sys2Proof/Tests/Slice0.lean ====
section
/-! SUPPORT. Checks on small states: an ill-formed term for each check of WellFormed, single steps with results from the spec, and for every
statement of Obligations.lean a witness that meets the hypotheses of each of its clauses. -/
open Sys2Proof Sys2Proof.Machine
namespace Sys2Proof.Tests

-- One declaration after the other, as in Laws/Act.lean.
set_option Elab.async false

/-- Bytes from numbers. -/
def bytes (l : List Nat) : List Byte := l.map (BitVec.ofNat 8)

/-- A device as after power-on. -/
def z : Dev := Dev.initial

/-- A device whose Stem is up and whose data plane runs. -/
def up : Dev := { (z.wr Reg.STEM_STATUS 0x7FA).wr Reg.STEMI_STATUS 0x7FA with dataStop := false }

/-- A state with an empty queue. -/
def st (d : Dev) : State := { pending := [], dev := d }

/-- The device after a command. -/
def after (c : Instr) (d : Dev) : Dev :=
  match exec c (st d) with
  | .next t => t.dev
  | _ => default

/-- The register at `k` has a row of which `p` holds. -/
def row (k : Nat) (p : RegDef → Bool) : Bool :=
  match regRow k with
  | some r => isReg k r && p r
  | none => false

/-- A device with group `g` set. -/
def withGrp (d : Dev) (g : Nat) (q : Grp) : Dev := d.setGrp g q

/-- A device with one claimed register. -/
def withClaim (d : Dev) (k g v : Nat) : Dev := { d with commit := { d.commit with claims := aput d.commit.claims k ⟨g, BitVec.ofNat 64 v⟩ } }

/-! Line time, beams and the Stem. -/

theorem witness_StepKeepsSafe : (st z).pending = [] ∧ memWf (st z).dev.mem = true ∧ regsWf (st z).dev.regs = true ∧
    WellFormed .fastRetrain = true ∧ (match step { pending := [.fastRetrain], dev := up } with | .next t => memWf t.dev.mem | _ => false) = true := by
  decide +kernel

def localRun : Dev := up.setBeam 0 { up.beam 0 with mode := .run }

theorem witness_LineTimeSet :
    (z.Reach 24 Reg.BEAM_LT_SET ∧ z.bit Reg.BEAM_LT_CTRL 0 = false ∧ ∀ b < 8, (z.beam b).mode = .off) ∧
    (localRun.Reach 25 Reg.BEAM_LT_SET ∧ ¬ (localRun.bit Reg.BEAM_LT_CTRL 0 = false ∧ ∀ b < 8, (localRun.beam b).mode = .off)) := by
  unfold Dev.Reach; decide +kernel

def dark : Dev := z.setDom 13 false

theorem witness_ClockAndTick :
    z.Canonical ∧
    (dark.domOn 13 = false ∧ (dark.core 24).mode = .reset ∧ dark.tick.ltAdj = 0 ∧ dark.tick.ltFrac = 0 ∧ (∀ p < 8, dark.trlState p < 2) ∧
      (∀ p < 2, dark.grfState p < 2) ∧ (dark.lt + 4) % 2 ^ 64 / 1000000 = dark.lt / 1000000) ∧ z.lt < z.tick.next ∧
    ({ z with lt := 16000 }.domOn 13 = true ∧ { z with lt := 16000 }.tick.next ≤ 16000 ∧ { z with lt := 16000 }.tick.realign = none) := by
  unfold Dev.Canonical; decide +kernel

def enc1 : Dev := { z with encs := tput z.encs 1 { tget z.encs 1 with a := true } }
def idx : Dev := ((up.setBeam 2 { up.beam 2 with mode := .run }).wr (Reg.BEAM_INDEX 2) 0x1000000).wr (Reg.BEAM_SRC_SEL 2) 3

theorem witness_EncoderAndIndex :
    (let old := tget enc1.encs 1
     ¬ (old.a ≠ true ∧ old.b ≠ true) ∧ enc1.fld (Reg.BEAM_ENC_CFG 1) 3 2 = 0 ∧ quadPhase true true = (quadPhase old.a old.b + 1) % 4 ∧
       quadPhase old.a old.b = (quadPhase false false + 1) % 4 ∧ old.a ≠ false ∧ old.b ≠ true ∧ old.ill < 15) ∧
    (∀ b < 8, (z.beam b).mode ≠ .run) ∧
    ((tget idx.encs 3).z ≠ true ∧ true ≠ idx.bit (Reg.BEAM_ENC_CFG 3) 6 ∧ idx.fld (Reg.BEAM_CTRL 2) 1 3 = 0 ∧ idx.rd (Reg.BEAM_SRC_SEL 2) % 64 = 3 ∧
      (idx.beam 2).mode = .run ∧ (∀ x < 8, x ≠ 2 → (idx.beam x).mode ≠ .run) ∧ idx.fld (Reg.BEAM_INDEX 2) 24 2 = 1) := by
  decide +kernel

def line0 : Dev := (up.setBeam 0 { up.beam 0 with mode := .run, lossTicks := 255 }).setF (Reg.BEAM_CTRL 0) 1 3 2
def stale7 : Dev := up.setBeam 7 { up.beam 7 with mode := .stale }

theorem witness_BeamStates :
    ((line0.beam 0).mode = .run ∧ line0.unitOk 0 = true ∧ line0.fld (Reg.BEAM_CTRL 0) 1 3 = 2 ∧ max 1 (line0.fld (Reg.BEAM_LOSS 0) 0 8) ≤ (line0.beam 0).lossTicks) ∧
    (stale7.Reach 0 (Reg.BEAM_CTRL 7) ∧ (stale7.beam 7).mode = .stale ∧ tb (stale7.rd (Reg.BEAM_CTRL 7)) 5 = false ∧
      tb (stale7.rd (Reg.BEAM_CTRL 7)) 4 = false ∧ stale7.unitOk 7 = true ∧ stale7.stopped 7 = false ∧
      (stale7.grp (stale7.srcGrp 0)).mode = .empty ∧ aget stale7.commit.claims (Reg.BEAM_CTRL 7) = none) ∧
    z.Reach 25 (Reg.BEAM_POS 7) := by
  unfold Dev.Reach; decide +kernel

def got3 : Dev := { up with est := tput up.est 3 { tget up.est 3 with got := true } }
def recB : List Byte := bytes (List.replicate 36 0)
def recJ : List Byte := bytes (List.replicate 26 0 ++ [64] ++ List.replicate 9 0)
def recF : List Byte := bytes ([0, 0, 0, 1] ++ List.replicate 32 0)

theorem witness_Broadcast :
    (up.stemUp = true ∧ (up.stemEnd 0).retry.length < 64 ∧ ∀ f ∈ (up.stemEnd 0).queue, f.ty ≠ 0) ∧ recB.length = 36 ∧ (tget up.est 3).got = false ∧
    (let r := recOfBytes (nats recB)
     let est := (tget got3.est 3).at (got3.recPeriod 0) got3.lt
     (tget got3.est 3).got = true ∧ r.jump = false ∧ r.fpfChg = false ∧ (tget got3.est 3).last.fpf = r.fpf ∧
       -(64 * 2 ^ 32) ≤ distL r.fpf est (r.at got3.lt) ∧ distL r.fpf est (r.at got3.lt) ≤ 64 * 2 ^ 32) ∧
    ((recOfBytes (nats recJ)).jump = true ∧ (recOfBytes (nats recJ)).fpfChg = false) ∧
    (let r := recOfBytes (nats recF)
     r.jump = false ∧ r.fpfChg = false ∧ (tget got3.est 3).last.fpf = r.fpf ∧
       64 * 2 ^ 32 < distL r.fpf ((tget got3.est 3).at (got3.recPeriod 0) got3.lt) (r.at got3.lt)) := by
  decide +kernel

def bad : List Byte := bytes (List.replicate 80 0xFF)
def good : List Byte := bytes (flitBytes ⟨0, 3, 5, [7]⟩ 0 false (0, 0))
def goodLate : List Byte := bytes (flitBytes ⟨1, 3, 5, [7]⟩ 0 false (0, 0))
def goodRec : List Byte := bytes (flitBytes ⟨0, 0, 7 * 2 ^ 39, List.replicate 36 1⟩ 0 false (0, 0))
/-- Both ends of the Stem with a change. -/
def ends (f : StemSt → StemSt) : Dev := { up with stem := tput (tput up.stem 0 (f (up.stemEnd 0))) 1 (f (up.stemEnd 1)) }
/-- Both ends have refused SEQ 0, and been refused SEQ 0, twice. -/
def twice : Dev := ends fun s => { s with nakRun := 2, gotRun := 2 }
def fast : Dev := ends fun s => { s with retrain := 1 }
def full : Dev := ends fun s => { s with retrain := 2 }
def half : Dev := (full.wr Reg.STEM_CTRL 2).wr Reg.STEMI_CTRL 2
def armedFar : Dev := up.setGrp 3 { (default : Grp) with mode := .armed, doms := [1] }

theorem witness_StemLink :
    up.Canonical ∧
    (let q := up.stemEnd 1
     flitBad (nats bad) = true ∧ (if q.nakRun ≠ 0 ∧ q.nakSeq = q.rxNext then q.nakRun + 1 else 1) < 3) ∧
    (let q := twice.stemEnd 0
     3 ≤ (if q.nakRun ≠ 0 ∧ q.nakSeq = q.rxNext then q.nakRun + 1 else 1) ∧ twice.stemUp = true) ∧
    (∀ l ∈ [good, goodLate, goodRec], flitBad (nats l) = false ∧ tb (leAt (nats l) 72 4) 19 = false) ∧ (up.stemEnd 1).queue = [] ∧
    bits (leAt (nats goodLate) 0 8) 48 12 ≠ (up.stemEnd 1).rxNext ∧
    (bits (leAt (nats goodRec) 0 8) 48 12 = (up.stemEnd 1).rxNext ∧ bits (leAt (nats goodRec) 0 8) 60 4 = 0) ∧
    (let run := fun (q : StemSt) (ack : BitVec 12) =>
       let keep := q.retry.filter fun f => !decide ((ack.toNat + 4096 - f.seq) % 4096 < 2048)
       if keep.length = q.retry.length ∧ q.gotRun ≠ 0 ∧ q.gotSeq = (ack.toNat + 1) % 4096 then q.gotRun + 1 else 1
     up.stemUp = true ∧ run (up.stemEnd 0) 4095 < 3 ∧ (up.stemEnd 0).owed = [] ∧ 3 ≤ run (twice.stemEnd 1) 4095 ∧ (twice.stemEnd 1).queue = []) ∧
    ((up.stemEnd 0).retrain = 0 ∧ up.fld Reg.STEM_STATUS 0 2 ≠ 0 ∧ (armedFar.grp 3).mode = .armed ∧ (armedFar.grp 3).doms ≠ [] ∧
      (armedFar.stemEnd 0).retrain = 0) ∧
    ((fast.stemEnd 0).retrain ≠ 0 ∧ (fast.stemEnd 0).retrain ≠ 2 ∧ z.fld Reg.STEM_STATUS 0 2 = 0) ∧
    (up.Reach 24 (stemReg 0 Reg.STEM_CTRL) ∧ up.Reach 25 (stemReg 1 Reg.STEM_CTRL)) ∧ tb (1 : BitVec 32).toNat 2 = false ∧
    ((fast.stemEnd 0).retrain = 1 ∧ fast.dataStop = false ∧
      ∀ die < 2, (fast.stemEnd die).held = [] ∧ (fast.stemEnd die).owed = [] ∧
        (fast.stemEnd die).retry.length + (fast.stemEnd die).inTurn.length ≤ 64) ∧
    ((full.stemEnd 0).retrain = 2 ∧ full.dataStop = false ∧ ∀ die < 2, (full.stemEnd die).held = []) ∧
    ones 8 ((255 : BitVec 8).toNat &&& (255 : BitVec 8).toNat) = 8 ∧
    (ones 8 ((255 : BitVec 8).toNat &&& (127 : BitVec 8).toNat) = 7 ∧ (half.bit Reg.STEM_CTRL 1 && half.bit Reg.STEMI_CTRL 1) = true ∧
      (half.stemEnd 0).retrain = 2) ∧
    ((full.wr Reg.STEM_CTRL 0).bit Reg.STEM_CTRL 1 && full.bit Reg.STEMI_CTRL 1) = false ∧ ones 8 ((15 : BitVec 8).toNat &&& (127 : BitVec 8).toNat) < 7 := by
  unfold Dev.Reach Dev.Canonical; decide +kernel

theorem witness_RegisterAccess :
    (row Reg.HOST_EVT (fun r => r.cmt == 0 && (r.rw &&& r.w1c) == 0) = true ∧ plainKey Reg.HOST_EVT = true ∧ (actOf Reg.HOST_EVT).isNone = true ∧
      up.Reach 24 Reg.HOST_EVT) ∧
    (row (Reg.HOST_WIN_BASE 3) (fun r => r.cmt == 0 && (r.rw &&& r.w1c) == 0 && r.width == 64) = true ∧ plainKey (Reg.HOST_WIN_BASE 3) = true ∧
      (actOf (Reg.HOST_WIN_BASE 3)).isNone = true ∧ Reg.HOST_WIN_BASE 3 % 8 = 0 ∧ up.Reach 29 (Reg.HOST_WIN_BASE 3)) ∧
    (row Reg.HOST_NT (fun r => r.rc != 0 && r.wo == 0 && r.snap == 0 && r.width == 32) = true ∧ plainRead Reg.HOST_NT = true ∧
      up.Reach 25 Reg.HOST_NT) ∧
    up.Reach 0 Reg.BEAM_LT ∧
    (∀ k ∈ [0x30000040104, 0x30100050028],
      row k (fun r => r.width == 32 && r.cmt == 0 && r.w1c == 0 && r.rw == 0xFFFFFFFF && r.wo == 0 && r.rc == 0 && r.snap == 0) = true ∧
      plainRead k = true ∧ (actOf k).isNone = true ∧ up.domOn (powDomain k) = true ∧ ((evtSource k).all fun e => !imageSrc e) = true) ∧
    up.stemUp = true ∧ (up.stemEnd 0).retry.length < 64 ∧ (up.stemEnd 1).retry.length < 64 ∧ (up.stemEnd 0).queue = [] ∧
    (up.stemEnd 1).queue = [] := by
  unfold Dev.Reach; decide +kernel

def claimed : Dev := withClaim (up.setGrp 0 { (default : Grp) with mode := .opened }) (Reg.DRV_OUT 3) 0 5
def sealed : Dev := up.setGrp 0 { (default : Grp) with mode := .pending }
def foreign : Dev := withClaim up (Reg.DRV_OUT 3) 4 5

theorem witness_StagingWrites :
    row (Reg.DRV_OUT 3) (fun r => r.cmt != 0 && r.width == 32) = true ∧ hookFree (Reg.DRV_OUT 3) = true ∧ up.srcGrp 25 = 0 ∧
    (up.Reach 25 (Reg.DRV_OUT 3) ∧ claimed.Reach 25 (Reg.DRV_OUT 3) ∧ sealed.Reach 25 (Reg.DRV_OUT 3) ∧ foreign.Reach 25 (Reg.DRV_OUT 3)) ∧
    ((up.grp 0).mode = .empty ∧ aget up.commit.claims (Reg.DRV_OUT 3) = none) ∧
    ((claimed.grp 0).mode = .opened ∧ (aget claimed.commit.claims (Reg.DRV_OUT 3)).map (·.grp) = some 0) ∧
    (sealed.grp 0).mode = .pending ∧
    ((foreign.grp 0).mode = .empty ∧ (aget foreign.commit.claims (Reg.DRV_OUT 3)).map (·.grp) = some 4) := by
  unfold Dev.Reach; decide +kernel

def poisoned : Dev := up.setGrp 6 { (default : Grp) with why := 1 }
def armed : Dev := up.setGrp 2 { (default : Grp) with mode := .armed }

theorem witness_GroupControl :
    (up.Reach 24 (Reg.COMMIT_GRP_CTRL 0) ∧ poisoned.Reach 25 (Reg.COMMIT_GRP_CTRL 6) ∧ claimed.Reach 25 (Reg.COMMIT_GRP_CTRL 0) ∧
      armed.Reach 0 (Reg.COMMIT_GRP_CTRL 2)) ∧
    (tb (0x10003 : BitVec 32).toNat 17 = false ∧ tb (0x10003 : BitVec 32).toNat 18 = false ∧ up.follows = false ∧ (up.grp 0).why = 0 ∧
      bits (0x10003 : BitVec 32).toNat 0 3 < 4 ∧ (up.grp 0).mode = .empty) ∧
    (poisoned.grp 6).why ≠ 0 ∧
    (tb (0x20000 : BitVec 32).toNat 16 = false ∧ tb (0x20000 : BitVec 32).toNat 18 = false ∧ (claimed.grp 0).mode = .opened ∧
      (armed.grp 2).mode = .armed) ∧
    (tb (0x40000 : BitVec 32).toNat 16 = false ∧ tb (0x40000 : BitVec 32).toNat 17 = false) := by
  unfold Dev.Reach; decide +kernel

def wait8 : Dev := up.setGrp 2 { (default : Grp) with mode := .pending }
def armed9 : Dev := withClaim (up.setGrp 2 { (default : Grp) with mode := .armed, csn := 9, applyLt := 150 }) (Reg.DRV_OUT 3) 2 5
def slow : Dev := { up.setGrp 2 { (default : Grp) with mode := .armed, bnd := 3 } with lt := 4 * up.armLead }

theorem witness_ArmAckWithdraw :
    (let q := wait8.grp 2
     q.mode = .pending ∧ q.bnd = 0 ∧ q.lineMoved = false ∧ q.fabric = false ∧ wait8.remoteDoms 2 = [] ∧ wait8.role ≠ 2 ∧
       ∀ h < 9, h ≠ 2 → (wait8.grp h).mode ≠ .pending) ∧
    (let q := armed9.grp 2
     q.mode = .armed ∧ q.csn = (9 : BitVec 32).toNat ∧ (0 : Fin 32).val ≠ 1 ∧ q.bnd ≠ 2 ∧ q.bnd ≠ 3 ∧ armed9.lt + 150 ≤ q.applyLt ∧
       q.applyLt < { armed9 with lt := 1 }.lt + 150 ∧ q.acks.contains 1 = false) ∧
    (let q := slow.grp 2
     q.mode = .armed ∧ q.bnd = 3 ∧ q.armLt + 4 * slow.armLead ≤ slow.lt ∧ slow.remoteDoms 2 = [] ∧ slow.role ≠ 2 ∧
       (slow.fld Reg.COMMIT_CTRL 28 4 = 0 ∨ q.slipRun + 1 < slow.fld Reg.COMMIT_CTRL 28 4)) := by
  decide +kernel

def due : Dev := { armed9 with lt := 150 }
def remote (acked swapped : Bool) : Dev :=
  { due with commit := { due.commit with remote := [⟨0, 2, 9, acked, swapped, false, [(Reg.DRV_OUT 3, 5)], if swapped then [(Reg.DRV_OUT 3, 0)] else []⟩] } }

theorem witness_ApplySwapAbort :
    (let q := due.grp 2
     let vals := due.claimsOf 2
     q.mode = .armed ∧ q.bnd = 0 ∧ q.applyLt ≤ due.lt ∧ q.fabric = false ∧ q.peer = false ∧ q.retrained = false ∧ due.remoteDoms 2 = [] ∧
       due.role ≠ 2 ∧ due.follows = false ∧ due.lowerArmed 2 = [] ∧ due.dueGroups.head? = some 2 ∧ (∀ p ∈ due.seq.sides, p.2.due = []) ∧
       (∀ b < 8, (due.beam b).crossings = []) ∧ vals ≠ [] ∧ ∀ p ∈ vals, hookFree p.1 = true ∧ (regRow p.1).isSome = true) ∧
    (let d := remote true false
     (∀ p ∈ d.seq.sides, p.2.due = []) ∧ ((d.commit.remote.filter fun x => x.dom == 0).map fun r => r.grp == 2 && r.acked && !r.swapped && !r.retrained && (d.grp 2).csn == r.csn &&
        r.vals.all fun p => hookFree p.1 && (regRow p.1).isSome) = [true] ∧
       (d.grp 2).mode = .armed ∧ (d.grp 2).bnd = 0 ∧ (d.grp 2).applyLt ≤ d.lt) ∧
    (let d := remote true true
     ((d.findArm 0 2).map fun r => r.swapped && r.csn == (9 : BitVec 32).toNat && r.undo.all fun p => hookFree p.1 && (regRow p.1).isSome) = some true) := by
  decide +kernel

def snap : Dev := { up with commit := { up.commit with snapOpen := true } }
def ready : Dev := { up with commit := { up.commit with snapOpen := true, snapReady := true } }
def waits : Dev := { snap with commit := { snap.commit with stalled := [⟨25, 0x30000010020, 0, false⟩] } }
def late : Dev := { snap with lt := 1000 * 65535 }
def stuck : Dev :=
  { (z.setF Reg.RST_STATUS 1 3 4) with
    lt := 1000000, host := { z.host with waiting := [⟨true, false, 0x30100050028, [1, 2, 3, 4], 4, 0, 0, 0, false, false⟩] } }

theorem witness_Snapshots :
    (up.Reach 24 Reg.COMMIT_SNAP_CTRL ∧ snap.Reach 25 Reg.COMMIT_SNAP_CTRL) ∧
    (up.commit.snapOpen = false ∧ (∀ p ∈ up.commit.grps, p.1 < 8) ∧ up.claimsOf 8 = [] ∧ up.role ≠ 2 ∧ (∀ h < 8, (up.grp h).mode ≠ .pending) ∧
      up.dataOff = false ∧ up.writesOut up.commit.order 24 = false ∧ snap.commit.snapOpen = true) ∧
    (late.commit.snapOpen = true ∧ late.commit.snapAt + 1000 * max 1 (late.fld Reg.COMMIT_SNAP_TMO 0 16) ≤ late.lt) ∧
    (row 0x30000010020 (fun r => r.cmt == 0xFFFFFFFF && r.width == 32 && r.wo == 0) = true ∧ plainRead 0x30000010020 = true ∧
      snap.Reach 25 0x30000010020 ∧ ready.Reach 25 0x30000010020) ∧
    (snap.commit.snapReady = false ∧ snap.commit.stalled = [] ∧ waits.commit.stalled = [⟨25, 0x30000010020, 0, false⟩] ∧ waits.lt < 0 + waits.stallBound ∧
      waits.commit.snapOpen = true ∧ ready.commit.snapReady = true) ∧
    (let h : HostAcc := ⟨true, false, 0x30100050028, [1, 2, 3, 4], 4, 0, 0, 0, false, false⟩
     stuck.host.waiting = [h] ∧ h.write = true ∧ h.eth = false ∧ h.abandoned = false ∧ h.at0 + stuck.hostTmo ≤ stuck.lt ∧
       stuck.hostPlace h = some 0x30100050028 ∧ isRegSpace 0x30100050028 = true ∧ crosses 25 0x30100050028 = true ∧ h.bytes.length = 4 ∧
       stuck.stemUp = false ∧ stuck.hostAdmits 0x30100050028 (leNum h.bytes) = true) := by
  unfold Dev.Reach; decide +kernel

/-! List memory, cam beds, items and stations. -/

def fwd (bs : List Nat) : Dev := { up with seq := { up.seq with fwd := [(8, bs)] } }
/-- Switch channel 700 is routed and placed active, in a furrow without results; beam 0 does 1 dot per ns from dot 0 at line time 0. -/
def lvl : Dev := { up with cam := { up.cam with level := [(700, true)] } }
/-- Switch channel 512, routed to pin 0, is active on dot 17 of furrow 0 alone, or on every dot from 4; line time is 20. -/
def swDev (edges : List Nat) : Dev :=
  { (up.setF (Reg.CAM_CHAN_CFG 512) 0 1 1).setF (Reg.CAM_CHAN_ROUTE 512) 15 1 1 with
    lt := 20,
    est := [(0, { (default : Est) with got := true, last := { (default : BRec) with vel := 1000 * 2 ^ 16, fpf := 16 } })],
    cam := { up.cam with kept := [(0, [⟨0, 0, [(512, ⟨false, edges⟩)], []⟩])] } }
def ovr (armed : List Nat) : Dev :=
  { (up.setF (Reg.CAM_CHAN_CFG 0) 0 1 1).setF (Reg.CAM_CHAN_OVR 0) 24 1 1 with
    mem := [(0x20003400013, 0x80)], cam := { up.cam with armed := tput [] 0 armed } }
def noRow : Dev := { ovr [] with mem := [] }

/-- The level that switch channel `c` has at a line time. -/
def swAt (d : Dev) (c t : Nat) : Bool := (d.swLevel c t (d.estAt 0 (d.chanBeam c) t)).getD (tget d.cam.level c)

theorem witness_ListMemoryAndCams :
    ([1, 2] ≠ ([] : List Byte) ∧ (0xFFFFE : BitVec 20).toNat + 2 ≤ 0x100000 ∧ up.locked = false ∧ up.domOn 15 = true ∧ up.role ≠ 2 ∧
      up.standbyDrops 25 = false ∧ up.stemUp = true) ∧
    ((fwd [1]).seq.fwd = [(8, [1])] ∧ (fwd []).seq.fwd = [(8, [])]) ∧
    (up.stemUp = true ∧ up.dataOff = false ∧ up.bit (Reg.SEQ_STATUS 0) 25 = false ∧ (∀ p ∈ up.seq.fwd, p.2 ≠ []) ∧
      (up.stemEnd 0).queue = [] ∧ (up.stemEnd 0).retry = []) ∧
    up.Reach 3 (Reg.CAM_CORR_IN 1023) ∧ up.Reach 3 Reg.CAM_OVR_REQ ∧ up.bit (Reg.CAM_CHAN_CFG 1023) 0 = false ∧
    (noRow.Reach 3 Reg.CAM_OVR_REQ ∧ noRow.bit (Reg.CAM_CHAN_CFG 0) 0 = true ∧ noRow.bit (Reg.CAM_CHAN_OVR 0) 24 = true ∧
      ∀ x ∈ noRow.bedsOf 0, noRow.rowOn (noRow.fpf 0) x.1 0 4 = false) ∧
    (let d := ovr []
     d.Reach 3 Reg.CAM_OVR_REQ ∧ d.bit (Reg.CAM_CHAN_CFG 0) 0 = true ∧ d.bit (Reg.CAM_CHAN_OVR 0) 24 = true ∧
       (∃ x ∈ d.bedsOf 0, d.rowOn (d.fpf 0) x.1 0 4 = true) ∧ d.fld (Reg.CAM_CHAN_OVR 0) 0 12 < d.fpf 0 ∧ tget d.cam.armed 0 = []) ∧
    (let d := ovr [1]
     let l := (d.beam (d.chanBeam 0)).l
     let f := d.fieldLen (d.chanBeam 0)
     d.bit (Reg.CAM_CHAN_OVR 0) 24 = true ∧ ((l / f).toNat + (if l % f < (d.ovrWindow 0).1 then 0 else 1)) % 2 ^ 24 ∈ tget d.cam.armed 0) := by
  unfold Dev.Reach; decide +kernel

theorem witness_ListMemoryAndCams_edges :
    ((∀ k < 4, (up.swPlaced 0 && swAt up 0 (up.lt - k)) = tget up.cam.level 0) ∧
     (∀ k < 4, (lvl.swPlaced 700 && swAt lvl 700 (lvl.lt - k)) = !tget lvl.cam.level 700) ∧
     (let d := swDev [4]
      d.swPlaced 512 = true ∧ ∀ k < 4, (d.swPlaced 512 && swAt d 512 (d.lt - k)) = !tget d.cam.level 512) ∧
     (let d := swDev [17, 18]
      d.swPlaced 512 = true ∧ 4 ≤ d.lt ∧ swAt d 512 (d.lt - 4) = tget d.cam.level 512 ∧ swAt d 512 (d.lt - 3) = !tget d.cam.level 512 ∧
        ∀ k < 3, swAt d 512 (d.lt - k) = tget d.cam.level 512)) := by
  decide +kernel

/-- Item 7 lives in slot 5 on beam 0, with an expectation of key 3 and an acknowledgement of key 4. -/
def itm : Dev :=
  { up.wr (Reg.ITEM_CMD_BUF 2 0) 7 with
    items := { up.items with store := [(5, { (default : Item) with id := 7, state := 1, pos := 10, vpend := 1, printing := true })],
                             lists := [(0, [5])], fresh := 6, dls := [⟨5, 3, false, 0⟩, ⟨5, 4, true, 0⟩] } }
def ring (rd : Nat) : Dev := (itm.wr Reg.ITEM_HRING_CFG 0x41).wr Reg.ITEM_HRING_RD rd

theorem witness_ItemStoreWrites :
    (up.locked = false ∧ up.domOn 14 = true ∧ up.standbyDrops 25 = false ∧ up.stemUp = true ∧ (0x3FFFE8 : BitVec 22).toNat + 24 ≤ 0x400000 ∧
      ((List.range 24).any fun k => decide (((0x3FFFE8 : BitVec 22).toNat + k) % 64 < 40)) = false ∧
      ((List.range 25).any fun k => decide (((0x3FFFC7 : BitVec 22).toNat + k) % 64 < 40)) = true) ∧
    (up.Reach 3 Reg.ITEM_HRING_RD ∧
      (up.rd Reg.ITEM_HRING_WR % 2 ^ 17 + 2 ^ 17 - (0 : BitVec 32).toNat % 2 ^ 17) % 2 ^ 17 ≤ 2 ^ up.hringK ∧
      2 ^ up.hringK < (up.rd Reg.ITEM_HRING_WR % 2 ^ 17 + 2 ^ 17 - (1 : BitVec 32).toNat % 2 ^ 17) % 2 ^ 17) := by
  unfold Dev.Reach; decide +kernel

def dl1 (print : Bool) : Dev := { itm with items := { itm.items with dls := [⟨5, 3, print, 0⟩] } }

theorem witness_VerdictPort :
    (up.follows = false ∧ (up.item 5).state = 0) ∧
    (itm.follows = false ∧ (itm.item 5).state ≠ 0 ∧ (itm.item 5).id = (7 : BitVec 32).toNat ∧
      itm.openDl 5 (3 : BitVec 64).toNat false = some ⟨5, 3, false, 0⟩ ∧ itm.openDl 5 (9 : BitVec 64).toNat false = none ∧
      itm.openDl 5 (4 : BitVec 64).toNat true = some ⟨5, 4, true, 0⟩ ∧
      itm.lt < (0 : BitVec 64).toNat + 1000 * clampN 50 2000 (itm.fld Reg.ITEM_VERDICT_DL 0 16)) ∧
    ((dl1 false).items.dls = [⟨5, 3, false, 0⟩] ∧ (dl1 true).items.dls = [⟨5, 3, true, 0⟩] ∧ 0 ≤ (dl1 true).lt) := by
  decide +kernel

/-- Channel 2 has taken up the items of beam 0. -/
def busy2 (flush : List (Nat × Nat)) : Dev := itm.setChan 2 (some ⟨32, 0, flush⟩)

theorem witness_ItemRecordCommands :
    ((busy2 []).Reach 25 (Reg.ITEM_CMD 2) ∧ (aget (busy2 []).items.chans 2).isSome = true) ∧
    (up.Reach 25 (Reg.ITEM_CMD 2) ∧ aget up.items.chans 2 = none ∧ (up.item 5).state = 0) ∧
    (itm.item 5).id ≠ up.rd (Reg.ITEM_CMD_BUF 2 0) ∧
    (itm.Reach 25 (Reg.ITEM_CMD 2) ∧ aget itm.items.chans 2 = none ∧ (itm.item 5).state ≠ 0 ∧ (itm.item 5).id = itm.rd (Reg.ITEM_CMD_BUF 2 0) ∧
      tb (itm.rd (Reg.ITEM_CMD_BUF 2 15)) 0 = false) := by
  unfold Dev.Reach; decide +kernel

def sow : Dev := (up.setBeam 0 { up.beam 0 with mode := .run }).setF Reg.ITEM_CTRL 0 1 1
def ringIn : Dev := itm.setF Reg.ITEM_HRING_CFG 0 1 1 |>.wr Reg.ITEM_HRING_BASE 0x20001000000

theorem witness_ItemFlow :
    (let im := itemOfBytes (sow.cmdImage 0)
     sow.Reach 0 (Reg.ITEM_CMD 0) ∧ aget sow.items.chans 0 = none ∧ sow.stn.rel = [] ∧ (sow.beam im.beam).mode ≠ .off ∧ bits im.pos 12 12 < sow.fpf im.beam ∧
       sow.bit Reg.ITEM_CTRL 0 = true ∧ sow.runs = true ∧ sow.itemCount + sow.trl.resv.length < 65536 ∧ sow.items.fresh < 65536 ∧
       sow.beamList im.beam = []) ∧
    (itm.Reach 0 (Reg.ITEM_CMD 2) ∧ aget itm.items.chans 2 = none ∧ (itm.item 5).state ≠ 0 ∧ (itm.item 5).id = itm.rd (Reg.ITEM_CMD_BUF 2 0) ∧ itm.stn.rel = [] ∧
      itm.beamList (itm.item 5).beam = [5] ∧ itm.bit Reg.ITEM_HRING_CFG 0 = false) ∧
    (let k := ringIn.hringK
     let w := ringIn.rd Reg.ITEM_HRING_WR % 2 ^ 17
     let a := ringIn.fld Reg.ITEM_HRING_BASE 0 48 / 2 ^ (6 + k) * 2 ^ (6 + k) + 64 * (w % 2 ^ k)
     ringIn.bit Reg.ITEM_HRING_CFG 0 = true ∧ ringIn.role ≠ 2 ∧ ringIn.locked = false ∧ (ringIn.item 5).id = ringIn.rd (Reg.ITEM_CMD_BUF 2 0) ∧
       (w + 2 ^ 17 - ringIn.rd Reg.ITEM_HRING_RD % 2 ^ 17) % 2 ^ 17 < 2 ^ k ∧ regionOf a = .ssram ∧ ringIn.domOn 16 = true ∧
       ∀ j < 64, ringIn.inRing (a + j) = false) ∧
    ((aget (busy2 [(5, 7)]).items.chans 2).map (·.flush) = some [(5, 7)] ∧ (itm.item 5).state ≠ 0 ∧ (itm.item 5).id = 7 ∧ (itm.item 5).beam = 0 ∧
      (itm.item 6).state = 0) ∧
    (itm.Reach 0 Reg.ITEM_CTRL ∧ itm.bit Reg.ITEM_HRING_CFG 0 = false ∧ (∀ b < 8, (itm.beamList b).Nodup ∧ ∀ y ∈ itm.beamList b, (itm.item y).beam = b) ∧
      (itm.grp (itm.srcGrp 0)).mode = .empty ∧ aget itm.commit.claims Reg.ITEM_CTRL = none) := by
  unfold Dev.Reach; decide +kernel

/-- Station 9 on beam 0 with action `a` and condition code `cond`; a release for furrow 0, 64 ns old. -/
def stnDev (a cond : Nat) (d : Dev) (r : Release) : Dev :=
  let d := (d.wr (Reg.STN_CFG 9) (2 ^ 31 + a * 2 ^ 8 + cond * 2 ^ 20)).wr (Reg.STN_WE 9) 5
  { d.wr (Reg.STN_LANES 9) 1 with lt := 64, stn := { d.stn with rel := [r] } }
def rel0 : Release := { (default : Release) with csets := [(Reg.STN_CSET 0 0, 1)], dl := 5 }
/-- Beam 0 stands at dot `n` as the estimate has it. -/
def estDot (n : Nat) (d : Dev) : Dev :=
  { d with est := [(0, { (default : Est) with got := true, last := { (default : BRec) with pos := n, fpf := 1024 } })] }
def behind (n : Nat) : Dev := estDot n itm

theorem witness_StationEvaluation :
    (∀ r ∈ up.stn.rel, r.run = none ∧ up.lt < r.at0 + 64) ∧
    (let d := { stnDev 1 0 itm rel0 with lt := 63 }
     ∀ r ∈ d.stn.rel, r.run = none ∧ d.lt < r.at0 + 64) ∧
    (let d := stnDev 1 0 up rel0
     d.nextRel = some rel0 ∧ rel0.run = none ∧ d.stn.busy ≤ d.lt ∧ (d.stnsOf 0).filter rel0.covers = [9] ∧ d.beamList 0 = [] ∧ rel0.entered = none) ∧
    (∀ c ∈ [(9, 0, true, true), (9, 1, false, true), (10, 0, true, false)],
      let d := stnDev 1 c.2.1 (behind c.1) rel0
      let a := d.trigL 9 (d.item 5)
      d.nextRel = some rel0 ∧ (d.stnsOf 0).filter rel0.covers = [9] ∧
        ((d.beamList 0).filter fun y => d.candidate 9 (d.item y) 0 && !rel0.seen.contains (9, y)) = [5] ∧ tget rel0.counts 9 = 0 ∧
        d.qualifies rel0.csets 9 (d.item 5) = true ∧ tb (d.stnCfg 9) 28 = false ∧ 0 ≤ distL (d.fpf 0) 0 a ∧ distL (d.fpf 0) 0 a < furrowLen ∧
        0 < distL (d.fpf 0) (tget rel0.fronts 9) a ∧ d.stnGo 9 (d.item 5) = c.2.2.1 ∧ bits (d.stnCfg 9) 8 4 ≠ 3 ∧
        decide (0 < distL (d.fpf 0) (d.estAt 0 (d.stnBeam 9) d.lt) a) = c.2.2.2) ∧
    (let r := { rel0 with entered := some 9 }
     let d := { up with lt := 64, stn := { up.stn with rel := [r] } }
     d.nextRel = some r ∧ (d.stnsOf 0).filter r.covers = [] ∧ r.noLate = false) := by
  decide +kernel

def sch : Sched := ⟨9, 5, 7, 10 * 2 ^ 32, true, some 60, 60⟩
/-- Action `a` of station 9 on slot 5 is due. -/
def actDev (a : Nat) (d : Dev) : Dev :=
  let d := stnDev a 0 d rel0
  { d with stn := { d.stn with rel := [], sched := [sch] } }

theorem witness_StationActions :
    (∀ k ∈ [0, 1, 2, 4, 5, 6, 7, 8, 9], up.dueAct 9 5 k = none) ∧
    (actDev 0 itm).dueAct 9 5 0 = some (sch, 60) ∧
    ((actDev 4 itm).dueAct 9 5 4 = some (sch, 60) ∧ (actDev 4 itm).bit (Reg.CAM_CHAN_CFG 0) 0 = false) ∧
    (let d := actDev 4 (ovr [])
     d.dueAct 9 5 4 = some (sch, 60) ∧ d.fld (Reg.STN_ARG 9) 0 10 = 0 ∧ d.bit (Reg.CAM_CHAN_CFG 0) 0 = true ∧ d.bit (Reg.CAM_CHAN_OVR 0) 24 = true ∧
       (∃ x ∈ d.bedsOf 0, d.rowOn (d.fpf 0) x.1 0 4 = true) ∧ d.fld (Reg.CAM_CHAN_OVR 0) 0 12 < d.fpf 0 ∧ tget d.cam.armed 0 = []) ∧
    (let d := actDev 4 (ovr [1])
     let l := (d.beam (d.chanBeam 0)).l
     let f := d.fieldLen (d.chanBeam 0)
     ((l / f).toNat + (if l % f < (d.ovrWindow 0).1 then 0 else 1)) % 2 ^ 24 ∈ tget d.cam.armed 0) ∧
    (let d := (actDev 5 itm).wr (Reg.STN_ARG 9) 383
     d.dueAct 9 5 5 = some (sch, 60) ∧ 320 ≤ d.fld (Reg.STN_ARG 9) 0 9 ∧ d.fld (Reg.STN_ARG 9) 0 9 < 384) ∧
    ((actDev 5 itm).fld (Reg.STN_ARG 9) 0 9 < 320 ∧ ((actDev 5 itm).wr (Reg.STN_ARG 9) 384).fld (Reg.STN_ARG 9) 0 9 = 384) ∧
    ((actDev 9 itm).dueAct 9 5 9 = some (sch, 60) ∧ ((actDev 9 itm).setF Reg.ITEM_CTRL 0 1 0).bit Reg.ITEM_CTRL 0 = false) ∧
    (let d := actDev 9 sow
     d.dueAct 9 5 9 = some (sch, 60) ∧ d.bit Reg.ITEM_CTRL 0 = true ∧ d.runs = true ∧ d.items.fresh < 65536 ∧ d.beamList (d.stnBeam 9) = [] ∧
       d.stn.rel = [] ∧ d.itemCount + d.trl.resv.length + min 65536 (d.fld Reg.ITEM_RESERVE 0 17) < 65536) := by
  decide +kernel

/-- Pulse of station 9 at pin 3 from 5 to `e`, whose leading edge still may prove too short. -/
def pulsing (e : Nat) : Dev :=
  { up with lt := 20, stn := { up.stn with
    pulses := [⟨9, 5, 3, 0, 0, 0, 5, some e, []⟩], pins := [(3, { (default : StnPin) with edge := some (5, true, true), upto := 5 })] } }

theorem witness_PulsesAndCameras :
    (let d := (actDev 1 itm).wr (Reg.STN_ARG 9) 0x103
     d.dueAct 9 5 1 = some (sch, 60) ∧ (∀ x ∈ d.stn.pulses, x.pin ≠ 3) ∧ d.stnInputAt 3 60 = false ∧ (d.stnPin 3).edge = none ∧
       (d.stnPin 3).lvl = false ∧ (d.stnPin 3).upto ≤ 60 ∧ 0 < d.fld (Reg.STN_ARG 9) 8 24) ∧
    (let d := (actDev 2 itm).wr (Reg.PIN_CFG 160) 0
     d.dueAct 9 5 2 = some (sch, 60) ∧ d.actLive sch = true ∧ (d.item 5).vpend < 3 ∧ d.items.dls.length < 4096 ∧
       d.bit (Reg.CAMIN_CFG 0) 27 = false ∧ (tget d.trig 0).last = none ∧ d.fld (Reg.PIN_CFG 160) 0 2 = 0 ∧ d.stemUp = true ∧
       (d.stemEnd 0).retry.length < 64 ∧ (d.stemEnd 0).queue = []) ∧
    (let d := (actDev 2 itm).setF (Reg.CAMIN_CFG 0) 27 1 1
     d.dueAct 9 5 2 = some (sch, 60) ∧ d.actLive sch = true ∧ d.bit (Reg.CAMIN_CFG 0) 27 = true) ∧
    (∀ q ∈ (pulsing 21).stn.pulses, ∀ e, q.stop = some e → (pulsing 21).lt < e) ∧
    (∀ e ∈ [6, 8, 9, 20],
      let d := pulsing e
      let u := d.stnPin 3
      d.stn.pulses.map (·.stop) = [some e] ∧ u.upto < e ∧ e ≤ d.lt ∧ d.switchIn 3 = false ∧ d.bit (Reg.STN_PIN_CFG 3) 1 = false ∧ u.lvl = false ∧
        u.edge = some (5, true, true) ∧ (5 + 4 ≤ e ∨ 5 < e ∧ e < 5 + 4)) := by
  decide +kernel

def other : Dev := (itm.setBeam 1 { itm.beam 1 with mode := .run })
def nodes : Dev := { itm with trl := { itm.trl with idValid := true, prim := [(4, 3)] } }.wr (Reg.TRL_PORT_STATUS 2) 2

theorem witness_ItemActions :
    (let d := actDev 6 itm
     d.actLive sch = true ∧ d.dueAct 9 5 6 = some (sch, 60) ∧ d.bit Reg.ITEM_HRING_CFG 0 = false) ∧
    (let d := (actDev 7 other).wr (Reg.STN_ARG 9) 1
     d.actLive sch = true ∧ d.dueAct 9 5 7 = some (sch, 60) ∧ bits (d.rd (Reg.STN_ARG 9)) 0 3 = 1 ∧ (d.beam 1).mode ≠ .off ∧ (d.item 5).beam ≠ 1 ∧
       d.beamList 1 = [] ∧ d.stn.rel = []) ∧
    (let d := (actDev 7 itm).wr (Reg.STN_ARG 9) 1
     d.actLive sch = true ∧ d.dueAct 9 5 7 = some (sch, 60) ∧ (d.beam 1).mode = .off) ∧
    (let d := (actDev 8 nodes).wr (Reg.STN_ARG 9) 4
     d.actLive sch = true ∧ d.dueAct 9 5 8 = some (sch, 60) ∧ d.trl.idValid = true ∧ d.nodeId = 0 ∧ d.trl.offers.length < 256 ∧ d.feeds = false ∧
       bits (d.rd (Reg.STN_ARG 9)) 0 12 = 4 ∧ d.Routed 4 2) := by
  unfold Dev.Routed; decide +kernel

/-! Drive ports. -/

/-- Port 7 in state `s` with `n` good uplinks counted. -/
def port7 (s n : Nat) : Dev := (up.setF (Reg.DRV_STATUS 7) 0 3 s).setF (Reg.DRV_STATUS 7) 8 4 n
def upl : List Nat :=
  let l := [0xA1] ++ List.replicate 27 0
  l ++ leBytes 4 (fcs l)
def frame7 : Nat × Nat × List Nat := (3, 0, List.replicate 36 0)
def tx (lt next : Nat) : Dev :=
  { up with lt := lt, tick := { up.tick with next := next }, drv := [(7, { (default : DrvPort) with frame := some frame7 })] }

/-- Port 7 with its line in synchronisation. -/
def lined (d : Dev) : Dev := { d with drv := [(7, { (default : DrvPort) with line := { (default : DrvPort).line with sync := 6 } })] }
def uplBad : List Nat := 0xA1 :: 1 :: upl.drop 2
def uplAxes : List Nat :=
  let l := [0xA1, 1] ++ List.replicate 50 0
  l ++ leBytes 4 (fcs l)

theorem witness_DrivePorts :
    (up.dport 7).frame = none ∧
    (let due := 0 + max 2400 (up.fld Reg.DRV_TXOFS 0 16)
     let q := (tx 0 0).dport 7
     let start := max ((due + 3) / 4 * 4) (if due < q.free then q.free + 8 else 0)
     q.frame = some frame7 ∧ frame7.2.2.headD 0 % 16 ≤ 8 ∧ (tx 0 0).lt < due ∧ due ≤ (tx due 65536).lt ∧
       start < (tx due 65536).tick.next ∧ 0 < (tx due start).tick.next ∧ (tx due start).tick.next ≤ start) ∧
    (let d := lined (port7 1 0)
     let x := (d.dport 7).line
     up.drvState 7 = 0 ∧ d.drvState 7 ≠ 0 ∧ x.sync = 6 ∧ x.frame = none ∧ lineDecode x.rd 0 = .bad ∧
       (32 ≤ upl.length ∧ fcs (upl.take (upl.length - 4)) = leAt upl (upl.length - 4) 4) ∧
       ¬ (32 ≤ uplBad.length ∧ fcs (uplBad.take (uplBad.length - 4)) = leAt uplBad (uplBad.length - 4) 4) ∧
       (fcs (uplAxes.take (uplAxes.length - 4)) = leAt uplAxes (uplAxes.length - 4) 4 ∧ leAt uplAxes 0 1 = 0xA1 ∧
         leAt uplAxes 1 1 % 16 ≠ d.nax 7)) ∧
    (∀ c ∈ [(1, 0), (2, 6), (2, 7), (3, 0)],
      let d := lined (port7 c.1 c.2)
      d.drvState 7 = c.1 ∧ d.fld (Reg.DRV_STATUS 7) 8 4 = c.2 ∧ d.uplinkOk 7 upl = true ∧
        (d.dport 7).got.1 ≠ d.drvWindow (0 + 4 * (upl.length + 2 + (upl.length + 1) % 2)) + 1 ∧
        d.role ≠ 2 ∧ ∀ b < 8, d.fld (Reg.BEAM_CTRL b) 1 3 ≠ 4) ∧
    (∀ b < 8, up.fld (Reg.BEAM_CTRL b) 1 3 ≠ 4) ∧
    (let d := port7 3 0
     let w := (d.drvWindow d.lt + 2 ^ 32 - 1) % 2 ^ 32 + 1
     let e := d.setF (Reg.DRV_CFG 7) 8 3 0
     (d.dport 7).got.1 ≠ w ∧ (d.dport 7).got.2 ≠ w ∧ (d.dport 7).closed ≠ w ∧ ({ (default : DrvPort) with got := (w, 0) }).got.1 = w ∧
       (d.dport 7).misses + 1 < max 1 (d.fld (Reg.DRV_CFG 7) 8 3) ∧ max 1 (e.fld (Reg.DRV_CFG 7) 8 3) ≤ (e.dport 7).misses + 1) := by
  decide +kernel

/-! Cores: instructions at 0x2000 in the local memory of core 0. -/

def coreDev (hs : List Nat) (f : Core → Core) : Dev :=
  let d := up.store 0x20000002000 (hs.flatMap (leBytes 2))
  d.setCore 0 (f { d.core 0 with mode := .run, r := { (d.core 0).r with pc := 0x2000, ssp := 0x3000 } })

def instOf (d : Dev) : Inst :=
  match d.instAt 0 (d.core 0).r.pc with
  | .ok i => i
  | _ => default

def plan (d : Dev) : List Access × CoreRegs := planOf 0 (d.pri 0) (instOf d) (d.core 0).r

/-- Core 0 is about to execute an instruction of opcode `op`. -/
abbrev IsReady (d : Dev) (op : Nat) : Prop :=
  d.executes 0 = true ∧ d.instAt 0 (d.core 0).r.pc = .ok (instOf d) ∧ d.ibpHit 0 = false ∧
    ((d.core 0).slot = none ∧ (d.core 0).long = [] ∧ (d.core 0).sb = []) ∧ ((d.core 0).stepping = false ∧ (d.core 0).r.trace = false) ∧
    (instOf d).op = op

abbrev IsIssued (d : Dev) (op : Nat) : Prop :=
  IsReady d op ∧
  (∀ a ∈ (plan d).1,
    ((a.priv 0 (d.core 0).r = none ∧ (a.o.kind = .reg ∨ a.o.kind = .imm)) ∨
     ((a.o.kind = .mem ∨ a.o.kind = .field) ∧ coreView 0 a.o.n = .loc ∧ a.o.n + a.o.size ≤ localSize 0 ∧ (a.wr = true → 0x1000 ≤ a.o.n) ∧
       1 ≤ a.o.size ∧ a.o.size ≤ 8 ∧ d.localTarget (localBase 0 + a.o.n) = true) ∨
     (a.o.kind = .mem ∧ a.rd = false ∧ a.wr = false)) ∧
    (a.rd = true → d.sees 0 a < 2 ^ (8 * a.o.size))) ∧
  d.wpHits 0 (plan d).1 = false

theorem ready_of {d : Dev} {op : Nat} (h : IsReady d op) : ∃ i, d.Ready 0 i ∧ i.op = op :=
  ⟨instOf d, ⟨h.1, h.2.1, h.2.2.1, h.2.2.2.1, h.2.2.2.2.1⟩, h.2.2.2.2.2⟩

theorem issues_of {d : Dev} {op : Nat} (h : IsIssued d op) : ∃ i acc r, d.Issues 0 i acc r ∧ i.op = op :=
  ⟨instOf d, (plan d).1, (plan d).2,
    ⟨⟨h.1.1, h.1.2.1, h.1.2.2.1, h.1.2.2.2.1, h.1.2.2.2.2.1⟩, rfl, fun a ha => (h.2.1 a ha).1, fun a ha => (h.2.1 a ha).2, h.2.2⟩,
    h.1.2.2.2.2.2⟩

/-- The first halfword of opcode `op` of word size with FORM and SUB. -/
def word (op form sub : Nat) : Nat := op * 256 + 0x80 + form * 16 + sub

/-- Data operations on registers 1 to 3, by opcode. -/
def dataCode : List (Nat × List Nat) :=
  [(0x10, [word 0x10 2 0, 0x1001, 0x1002]), (0x11, [word 0x11 2 0, 0xA005, 0x1002]), (0x12, [word 0x12 2 0, 0xA080, 0x1002]),
   (0x13, [word 0x13 2 0, 0x2001, 0x1002]), (0x14, [word 0x14 1 0, 0x1001]), (0x15, [word 0x15 1 0, 0x1001])] ++
  ([0x16, 0x20, 0x21, 0x25, 0x26, 0x27, 0x28, 0x29, 0x2A, 0x2B, 0x30, 0x31, 0x32, 0x33, 0x34].map fun op => (op, [word op 2 0, 0x1001, 0x1002])) ++
  [(0x20, [word 0x20 3 0, 0x1001, 0xA004, 0x2002 ]), (0x26, [word 0x26 3 1, 0x1001, 0x1002, 0x1003]),
   (0x22, [word 0x22 3 0, 0x1001, 0x1002, 0x1003]), (0x23, [word 0x23 3 0, 0x1001, 0x1002, 0x1003]), (0x24, [word 0x24 1 0, 0x1001]),
   (0x2C, [word 0x2C 1 0, 0x1001]), (0x0E, [word 0x0E 3 7, 0x1001, 0x1002, 0x1003])]

/-- Core 0 with pointer registers into its local memory. -/
def ptr (c : Core) : Core := { c with r := { c.r with gp := [(2, 0x2800), (13, 0x2800), (14, 0x2900)] } }

theorem issued_data : ∀ e ∈ dataCode, IsIssued (coreDev e.2 ptr) e.1 := by decide +kernel

theorem witness_CoreDataOperations :
    (∀ e ∈ dataCode, ∃ i acc r, (coreDev e.2 ptr).Issues 0 i acc r ∧ i.op = e.1) ∧
    ((plan (coreDev [word 0x13 2 0, 0x2001, 0x1002] ptr)).1.head?).isSome = true :=
  ⟨fun e he => issues_of (issued_data e he), by decide +kernel⟩

/-- Control transfers, by opcode. -/
def jumpCode : List (Nat × List Nat) :=
  [(0x0D, [word 0x0D 2 0, 0xA001, 0xA001, 0x0010]), (0x08, [word 0x08 1 0, 0x2001]), (0x09, [word 0x09 1 0, 0x2001, 0x0100]),
   (0x0A, [word 0x0A 1 0, 0x1001]), (0x0B, [0x0B00]), (0x0C, [0x0C01])]

theorem issued_jump : ∀ e ∈ jumpCode, IsIssued (coreDev e.2 ptr) e.1 := by decide +kernel

/-- A NOP in the delay slot of a transfer to 0x2100. -/
def inSlot (link : Option Nat) : Dev :=
  coreDev [0x0100] fun c => { c with slot := some { (default : Slot) with target := some 0x2100, undo := c.r, link := link } }

theorem witness_CoreTransfers :
    (∀ e ∈ jumpCode, ∃ i acc r, (coreDev e.2 ptr).Issues 0 i acc r ∧ i.op = e.1) ∧
    ((plan (coreDev [word 0x08 1 0, 0x2001] ptr)).1.getLast?).isSome = true ∧
    (let d := coreDev [word 0x09 1 0, 0x2001, 0x0100] ptr
     (plan d).1.getLast?.isSome = true ∧ (plan d).1.head?.isSome = true) ∧
    (coreDev [0x0C01] ptr |>.core 0).r.user = false ∧
    (∀ link ∈ [none, some 0x20000002FF8],
      let d := inSlot link
      d.executes 0 = true ∧ d.instAt 0 (d.core 0).r.pc = .ok (instOf d) ∧ (instOf d).op = 0x01 ∧ d.ibpHit 0 = false ∧
        (((d.core 0).slot.map fun s => s.kind != 5 && s.psw.isNone && !s.complete && !s.hit && !s.undo.trace && s.link == link) = some true) ∧
        (d.core 0).stepping = false ∧ (d.core 0).sb = []) ∧
    localBase 0 + 0x1000 ≤ 0x20000002FF8 ∧ 0x20000002FF8 + 8 ≤ localBase 0 + localSize 0 :=
  ⟨fun e he => issues_of (issued_jump e he), by decide +kernel⟩

def inUser (c : Core) : Core := { c with r := { c.r with user := true } }
def brk (en : Nat) : Dev := (coreDev [0x0500] id).setF (Reg.CORECTL_CTRL 0) 8 1 en
def byZero : List (Nat × List Nat) := [0x42, 0x43, 0x44, 0x45].map fun op => (op, [word op 2 0, 0xA000, 0x1002])

theorem issued_zero : ∀ e ∈ byZero, IsIssued (coreDev e.2 ptr) e.1 ∧ (coreDev e.2 ptr).CanEnter 0 ∧ (instOf (coreDev e.2 ptr)).form = 2 ∧
    (((plan (coreDev e.2 ptr)).1.filter (·.rd)).map ((coreDev e.2 ptr).sees 0)).getD 0 0 = 0 := by
  unfold Dev.CanEnter; decide +kernel

theorem witness_CoreExceptions :
    (IsReady (coreDev [0x060F] id) 0x06 ∧ (coreDev [0x060F] id).CanEnter 0) ∧
    (IsReady (brk 0) 0x05 ∧ (brk 0).CanEnter 0 ∧ (brk 0).dbgEn 0 = false) ∧ (IsReady (brk 1) 0x05 ∧ (brk 1).dbgEn 0 = true) ∧
    (IsReady (coreDev [0x0C00] inUser) 0x0C ∧ IsReady (coreDev [0x0400] inUser) 0x04 ∧ IsReady (coreDev [word 0x07 1 0, 0xA001] inUser) 0x07 ∧
      (coreDev [0x0C00] inUser).CanEnter 0 ∧ ((coreDev [0x0C00] inUser).core 0).r.user = true) ∧
    (let d := coreDev [0xFF00] id
     d.executes 0 = true ∧ d.instAt 0 (d.core 0).r.pc = .illegal 1 3 ∧ d.ibpHit 0 = false ∧ (d.core 0).slot = none ∧ (d.core 0).long = [] ∧
       (d.core 0).sb = [] ∧ (d.core 0).stepping = false ∧ (d.core 0).r.trace = false ∧ d.CanEnter 0) ∧
    ∀ e ∈ byZero, (coreDev e.2 ptr).CanEnter 0 := by
  unfold Dev.CanEnter; refine ⟨?_, ?_, ?_, ?_, ?_, ?_⟩ <;> decide +kernel

def ctlCode : List (Nat × List Nat) := [(0x01, [0x0100]), (0x02, [0x0200]), (0x03, [0x0300]), (0x04, [0x0400]), (0x07, [word 0x07 1 0, 0xA011])]

theorem issued_ctl : ∀ e ∈ ctlCode, IsIssued (coreDev e.2 id) e.1 := by decide +kernel

def asleep : Dev := coreDev [0x0400] fun c => { c with r := { c.r with ie := true } }
def handling : Dev := (coreDev [word 0x07 1 0, 0xA011] id).setStack 0 [{ (default : PriEnt) with src := 0x11 }]

theorem witness_CoreControlOperations :
    (∀ e ∈ ctlCode, ∃ i acc r, (coreDev e.2 id).Issues 0 i acc r ∧ i.op = e.1) ∧ (instOf (coreDev [0x0300] id)).form = 0 ∧
    (((coreDev [0x0400] id).core 0).r.user = false ∧ ((coreDev [0x0400] id).core 0).r.ie = false) ∧
    (IsIssued asleep 0x04 ∧ (asleep.core 0).r.ie = true ∧ asleep.presented 0 = []) ∧
    (IsIssued handling 0x07 ∧ (handling.core 0).r.user = false ∧ (handling.priStack 0).map (·.src) = [0x11] ∧
      (((plan handling).1.filter (·.rd)).map (handling.sees 0)).getD 0 0 % 512 = 0x11) :=
  ⟨fun e he => issues_of (issued_ctl e he), by decide +kernel, by decide +kernel, by decide +kernel, by decide +kernel⟩

def longCode : List (Nat × List Nat) :=
  [(0x40, [word 0x40 3 0, 0x1001, 0x1003, 0x2002]), (0x41, [word 0x41 3 1, 0x1001, 0x1003, 0x2002]), (0x46, [word 0x46 2 0, 0xA009, 0x1002]),
   (0x47, [word 0x47 2 0, 0x1001, 0x1002])] ++ [0x42, 0x43, 0x44, 0x45].map fun op => (op, [word op 2 0, 0xA003, 0x1002])

theorem issued_long : ∀ e ∈ longCode, IsIssued (coreDev e.2 ptr) e.1 := by decide +kernel

/-- Core 0 with one pending result. -/
def pend (dest : Dest) : Dev := coreDev [0x0100] fun c => { c with long := [⟨dest, 5, 4, false, 0⟩] }

theorem witness_CoreLongOperations :
    (∀ e ∈ longCode, ∃ i acc r, (coreDev e.2 ptr).Issues 0 i acc r ∧ i.op = e.1) ∧
    (∀ e ∈ longCode, (plan (coreDev e.2 ptr)).1.getLast?.isSome = true) ∧
    (let d := coreDev [word 0x42 2 0, 0xA003, 0x1002] ptr
     (instOf d).form = 2 ∧ (((plan d).1.filter (·.rd)).map (d.sees 0)).getD 0 0 ≠ 0) ∧
    (let d := coreDev [word 0x46 2 0, 0xA009, 0x1002] ptr
     let x := (((plan d).1.filter (·.rd)).map (d.sees 0)).getD 0 0
     x < 2 ^ 64 ∧ 3 * 3 ≤ x ∧ x < 4 * 4) ∧
    (up.core 0).long.length ≤ (3 : Fin 4).val ∧
    (((pend (.reg 4)).core 0).long = [⟨.reg 4, 5, 4, false, 0⟩] ∧ ((pend (.reg 4)).core 0).slot = none ∧ ((pend (.reg 4)).core 0).halting = false) ∧
    (((pend (.mem 0x20000002FF0 4)).core 0).long = [⟨.mem 0x20000002FF0 4, 5, 4, false, 0⟩] ∧ localBase 0 + 0x1000 ≤ 0x20000002FF0 ∧
      0x20000002FF0 + 16 ≤ localBase 0 + localSize 0 ∧
      ((pend (.reg 4)).core 0).sb.length + (sbSplit 0x20000002FF0 (leBytes 4 5)).length ≤ 8) :=
  ⟨fun e he => issues_of (issued_long e he), by decide +kernel⟩

/-- Block instructions with `n` elements left, by opcode. -/
def blk (n op sub : Nat) : Dev := coreDev [word op 0 sub] fun c => { c with r := { c.r with gp := (if n = 0 then [] else [(12, n)]) ++ [(13, 0x2800), (14, 0x2900)] } }

theorem issued_blk : ∀ op ∈ [0x50, 0x51, 0x52, 0x53, 0x54], ∀ n ∈ [0, 1, 2], IsIssued (blk n op 0) op ∧ tget ((blk n op 0).core 0).r.gp 12 = n := by
  decide +kernel

theorem witness_CoreBlockOperations :
    (∀ op ∈ [0x50, 0x51, 0x52, 0x53, 0x54], ∀ n ∈ [0, 1, 2], ∃ i acc r, (blk n op 0).Issues 0 i acc r ∧ i.op = op) ∧
    (let d := blk 2 0x52 0
     let e := d.store 0x20000002800 [1]
     let v := fun (d : Dev) => ((plan d).1.filter (·.rd)).map (d.sees 0)
     IsIssued e 0x52 ∧ (v d).getD 0 0 = (v d).getD 1 0 ∧ (v e).getD 0 0 ≠ (v e).getD 1 0) ∧
    (IsIssued (blk 2 0x53 8) 0x53 ∧ tb (instOf (blk 2 0x53 8)).sub 3 = true ∧ tb (instOf (blk 2 0x53 0)).sub 3 = false) :=
  ⟨fun op ho n hn => issues_of (issued_blk op ho n hn).1, by decide +kernel⟩

/-- Core 0 with one store buffered. -/
def stored (rel : Bool) : Dev := up.setCore 0 { up.core 0 with sb := [⟨0x20000003000, [1, 2], rel, 0, false⟩] }
/-- A MOV from shared SRAM that waits for its data. -/
def farMov : Dev := coreDev [word 0x10 2 0, 0x2002, 0x1001] fun c =>
  { c with farWait := true, r := { c.r with gp := [(2, 0x100000)] } }
/-- A fetch from shared SRAM that misses. -/
def missing : Dev := coreDev [] fun c => { c with r := { c.r with pc := 0x100040 } }
def matched : Dev := up.setCore 0 { up.core 0 with hit := true }

theorem witness_CoreMemoryRows :
    (∀ rel ∈ [true, false],
      let d := stored rel
      (d.core 0).sb = [⟨0x20000003000, [1, 2], rel, 0, false⟩] ∧ (d.core 0).draining = none ∧ d.locked = false ∧ d.role ≠ 2 ∧
        regionOf 0x20000003000 = .coreMem 0 ∧ regionOf 0x20000003001 = .coreMem 0 ∧ d.domOn 7 = true) ∧
    (IsReady farMov 0x10 ∧ (farMov.core 0).farWait = true ∧
      (match (plan farMov).1 with
       | [a, b] => a.o.kind == .mem && a.rd && !a.wr && decide (0x100000 ≤ a.o.n) && decide (a.o.n + a.o.size ≤ 0x300000) &&
           decide (1 ≤ a.o.size) && farMov.domOn 16 && b.o.kind == .reg && !b.rd && b.wr && (b.priv 0 (farMov.core 0).r).isNone &&
           !farMov.wpHits 0 [a, b]
       | _ => false) = true) ∧
    (up.core 24).farWait = false ∧
    (missing.executes 0 = true ∧ missing.missAt 0 = some 0x100040 ∧
      (match missing.busRead 0 (corePlace 0 (missing.core 0).r 0x100040 / 64 * 64) 64 with | (.ok _, d) => d == missing | _ => false) = true) ∧
    ((up.core 0).hit = false ∧ (matched.core 0).hit = true) := by
  decide +kernel

def halted : Dev := up.setCore 23 { up.core 23 with mode := .halt }
def running : Dev := up.setCore 23 { up.core 23 with mode := .run }

theorem witness_CoreControl :
    ((up.setF Reg.SEC_STATE 0 2 1).locked = true ∧ up.locked = false) ∧ (up.core 23).sb = [] ∧
    ((up.core 23).mode = .reset ∧ (up.core 23).draining = none) ∧
    ((running.core 23).mode = .run ∧ (running.core 23).long = [] ∧ (running.core 23).slot = none ∧ (running.core 23).sb = []) ∧
    ((halted.core 23).mode = .halt ∧ (halted.setF (Reg.CORECTL_DREG_SEL 23) 0 5 28).fld (Reg.CORECTL_DREG_SEL 23) 0 5 < 29) := by
  decide +kernel

/-! Interrupts, timers and pins. -/

/-- Source `k` enabled with configuration `cfg`, in state `q`. -/
def srcDev (k cfg : Nat) (q : Irq) : Dev := (up.wr (Reg.INTC_SRC_CFG k) (2 ^ 31 + cfg)).setIrq k q

theorem witness_InterruptSources :
    (up.Reach 29 Reg.INTC_RAISE ∧ srcReserved (bits (0x69 : BitVec 32).toNat 0 9) = true ∧ 480 ≤ bits (0x1E0 : BitVec 32).toNat 0 9) ∧
    (let d := srcDev 30 0 default
     srcReserved 30 = false ∧ d.srcEn 30 = true ∧ d.srcQueued 30 = false ∧ (d.irq 30).st = 0 ∧ d.isLevel 30 = false) ∧
    (let d := srcDev 23 0 default
     srcReserved 23 = false ∧ d.srcEn 23 = true ∧ d.srcQueued 23 = false ∧ (d.irq 23).st = 0 ∧ d.isLevel 23 = true ∧ (d.irq 23).latch = false ∧
       (d.irq 23).cause = false) ∧
    (let d := srcDev 30 0 { (default : Irq) with st := 1 }
     d.srcEn 30 = true ∧ d.srcQueued 30 = false ∧ d.isLevel 30 = false ∧ (d.irq 30).st = 1) ∧
    (tb (leAt (nats (bytes [0, 0, 0, 0, 2, 0, 0, 0])) 4 1) 1 = true ∧ tb (leAt (nats (bytes [0, 0, 0, 0, 1, 0, 0, 0])) 4 1) 1 = false ∧
      tb (leAt (nats (bytes [0, 0, 0, 0, 1, 0, 0, 0])) 4 1) 0 = true) ∧
    (up.Reach 25 (Reg.INTC_Q_RD 15) ∧
      2 ^ up.qK 15 < (up.rd (Reg.INTC_Q_WR 15) + 2 ^ 17 - (1 : BitVec 32).toNat % 2 ^ 17) % 2 ^ 17 ∧
      (up.rd (Reg.INTC_Q_WR 15) + 2 ^ 17 - (0x1FFF0 : BitVec 32).toNat % 2 ^ 17) % 2 ^ 17 ≤ 2 ^ up.qK 15) := by
  unfold Dev.Reach; decide +kernel

/-- Source 30 pending for core 0, which runs with interrupts enabled. -/
def asked : Dev :=
  let d := (srcDev 30 5 { (default : Irq) with st := 1 }).wr (Reg.INTC_SRC_TGT 30) 1
  d.setCore 0 { d.core 0 with mode := .run, r := { (d.core 0).r with ie := true, pc := 0x2000, ssp := 0x3000 } }
def held (claimed first : Bool) (st : Nat) : Dev :=
  (srcDev 30 (if first then 2 ^ 29 else 0) { (default : Irq) with st := st }).setStack 0 [{ (default : PriEnt) with src := 30, claimed := claimed }]

theorem witness_InterruptEntries :
    up.rankFirst 0 ≠ some 30 ∧
    (asked.rankFirst 0 = some 30 ∧ (asked.core 0).halting = false ∧ (asked.core 0).draining = none ∧ (asked.core 0).phase = .none ∧
      (asked.core 0).slot = none ∧ (asked.core 0).sb = [] ∧ asked.CanEnter 0) ∧
    up.priStack 23 = [] ∧
    ((held false false 0).priStack 0 = [{ (default : PriEnt) with src := 30 }] ∧
      (held false false 0).bit (Reg.INTC_SRC_CFG 30) 29 = false ∧ ((held false true 1).irq 30).st = 1 ∧
      (held false true 0).bit (Reg.INTC_SRC_CFG 30) 29 = true ∧ ((held false true 0).irq 30).st ≠ 1) ∧
    ((held true false 2).priStack 0 = [{ (default : PriEnt) with src := 30, claimed := true }] ∧ (held true false 2).isLevel 30 = false ∧
      ((held true false 2).irq 30).again = false) := by
  unfold Dev.CanEnter; refine ⟨?_, ?_, ?_, ?_, ?_⟩ <;> decide +kernel

def preload : Dev := up.setF (Reg.TMR_CTRL 31) 30 1 1
def switching (ends : Nat) : Dev := { up with lt := 20, pins := tput up.pins 247 { up.pin 247 with sw := some ⟨ends, none⟩ } }
def pinRuns (lt : Nat) (runs : List (Nat × Bool)) : Dev := { up with lt := lt, pins := tput up.pins (inPin 95) { up.pin (inPin 95) with runs := runs } }

theorem witness_TimersAndPins :
    (up.Reach 0 (Reg.TMR_COUNT 31) ∧ up.bit (Reg.TMR_CTRL 31) 30 = false ∧ preload.Reach 24 (Reg.TMR_COUNT 31) ∧
      preload.bit (Reg.TMR_CTRL 31) 30 = true) ∧
    ((up.pin 247).sw = none ∧ ((switching 21).pin 247).sw = some ⟨21, none⟩ ∧ (switching 21).lt < 21 ∧
      ((switching 20).pin 247).sw = some ⟨20, none⟩ ∧ 20 ≤ (switching 20).lt) ∧
    (up.pinOut (inPin 95) = none ∧ (up.pin (inPin 95)).runs = [] ∧ (up.pin (inPin 95)).acc ≠ true) ∧
    (let d := { (pinRuns 109 [(0, true)]) with regs := (up.wr (Reg.INTC_PIN_CFG 95) 11).regs }
     d.pinOut (inPin 95) = none ∧ (d.pin (inPin 95)).runs = [(0, !false)] ∧ (d.pin (inPin 95)).acc = false ∧
       d.lt - (0 : Fin 4).val - 0 < 10 * d.fld (Reg.INTC_PIN_CFG 95) 0 10) ∧
    (((pinRuns 29 [(0, true)]).pin (inPin 95)).runs = [(0, true)] ∧
      (pinRuns 29 [(0, true)]).lt < 0 + 10 * ((pinRuns 29 [(0, true)]).fld (Reg.INTC_PIN_CFG 95) 0 10 + 3) ∧
      0 + 10 * ((pinRuns 30 [(0, true)]).fld (Reg.INTC_PIN_CFG 95) 0 10 + 3) ≤ (pinRuns 30 [(0, true)]).lt ∧
      ∀ n < 32, (pinRuns 30 [(0, true)]).fld (Reg.TMR_SRC n) 28 4 ≠ 4 ∧ (pinRuns 30 [(0, true)]).bit (Reg.TMR_CAP_CFG n) 31 = false) := by
  unfold Dev.Reach; refine ⟨?_, ?_, ?_, ?_, ?_⟩ <;> decide +kernel

/-! Camera ports. -/

/-- Port 3 listens for RAW8 frames of 16 by 1 on virtual channel 2, its slots in image SRAM. -/
def cam3 : Dev :=
  ((up.wr (Reg.CAMIN_CFG 3) (2 ^ 31 + 2 * 2 ^ 20 + 0x2A * 2 ^ 14)).wr (Reg.CAMIN_SIZE 3) 0x10010).wr (Reg.CAMIN_FB_BASE 3) 0x10000000000
def cam3s : Dev := { cam3 with camin := tput cam3.camin 3 { (default : CamIn) with sync := true, deskew := true } }
def tag3 (b6 : Nat) : List Nat := [0, 0, 0, 0, 1, 0, b6, 0] ++ List.replicate 48 0
def cam3q (f : CamIn → CamIn) : Dev := { cam3s with lt := 5000, camin := tput cam3s.camin 3 (f (cam3s.camPort 3)) }

theorem witness_CameraTags :
    (cam3.dataOff = false ∧ (cam3.camPort 3).bad = false ∧ cam3.bit (Reg.CAMIN_CFG 3) 31 = true ∧
      (∀ b6 ∈ [0x83, 3], leAt (nats (bytes (tag3 b6))) 6 1 = b6) ∧ tb 0x83 7 = true ∧ tb 3 7 = false ∧ 0x83 % 16 = 3 ∧
      cam3.camLine 3 = false ∧ (cam3.camPort 3).tags.length < 16 ∧ (cam3.camPort 3).rx = .idle) ∧
    (up.camHears 15 = false ∧ cam3s.camHears 3 = true ∧ 2 = cam3s.fld (Reg.CAMIN_CFG 3) 20 4 ∧ cam3s.camLine 3 = false ∧
      (cam3s.camPort 3).rx = .idle ∧ (cam3s.camPort 3).tags = []) ∧
    (let d := cam3q fun q => { q with tags := [tag3 3] }
     (d.camPort 3).tags = [tag3 3] ∧ { d with lt := 1000 }.tagFits 3 1000 (tag3 3) = true ∧ (d.camPort 3).frames = [] ∧
       0 < d.camSlots 3 ∧ 0 ∉ (d.camPort 3).used ∧ { d with lt := 1000 }.lt ≤ leAt (tag3 3) 8 8 + 1000 * max 1 (d.fld (Reg.CAMIN_FS_WIN 3) 0 16) ∧
       leAt (tag3 3) 8 8 + 1000 * max 1 (d.fld (Reg.CAMIN_FS_WIN 3) 0 16) < { d with lt := 100000000 }.lt) ∧
    (∀ ended ∈ [false, true],
      let d := cam3q fun q => { q with rx := .hold 0 [] ended }
      (d.camPort 3).rx = .hold 0 [] ended ∧ { d with lt := 4999 }.lt < 0 + 5000 ∧ 0 + 5000 ≤ d.lt) ∧
    ((up.bit (Reg.CAMIN_CFG 3) 31 && !(up.camPort 3).bad && !up.dataOff) = false ∧
      (cam3.bit (Reg.CAMIN_CFG 3) 31 && !(cam3.camPort 3).bad && !cam3.dataOff) = true) := by
  refine ⟨?_, ?_, ?_, ?_, ?_⟩ <;> decide +kernel

def frame3 (lines : Nat) : CamFrame := ⟨tag3 3, 0, 0x10000000000, 1, 0, lines, 0, 0, 0⟩
def open3 (lt lines : Nat) : Dev := { cam3q (fun q => { q with rx := .store 0, frames := [frame3 lines] }) with lt := lt }
def i2c (st : Nat) : Dev := up.wr (Reg.CAMIN_I2C_STATUS 15) st

theorem witness_CameraFrames :
    (∀ l ∈ [0, 1],
      let d := open3 9999 l
      d.camHears 3 = true ∧ d.camLine 3 = false ∧ (d.camPort 3).rx = .store 0 ∧ (d.camPort 3).frames = [frame3 l] ∧ d.locked = false ∧ d.role ≠ 2 ∧
        regionOf (frame3 l).addr = .isram ∧ d.domOn 64 = true ∧ d.domOn 65 = true) ∧
    (let d := open3 9999 0
     2 = d.fld (Reg.CAMIN_CFG 3) 20 4 ∧ (frame3 0).lines < (frame3 0).h ∧ d.camW 3 = 16 ∧ (dtBpp (d.camDt 3)).getD 1 = 1 ∧
       regionOf ((frame3 0).addr + 64) = .isram ∧ regionOf ((frame3 0).addr + 64 + 15) = .isram) ∧
    (let d := open3 9999 1
     0 < (frame3 1).h ∧ (frame3 1).lines = (frame3 1).h ∧ (frame3 1).status = 0 ∧ d.jobQuad (d.fld (Reg.CAMIN_JOB 3) 8 4) = some 0 ∧
       d.lt < 0 + 10000 * max 1 (d.fld (Reg.CAMIN_FS_WIN 3) 16 16) ∧
       0 + 10000 * max 1 (d.fld (Reg.CAMIN_FS_WIN 3) 16 16) ≤ (open3 1000000000 1).lt) ∧
    (up.Reach 24 (Reg.CAMIN_I2C_CMD 15) ∧ (i2c 1).Reach 25 (Reg.CAMIN_I2C_CMD 15) ∧ (i2c 1).bit (Reg.CAMIN_I2C_STATUS 15) 0 = true ∧
      (i2c 0).bit (Reg.CAMIN_I2C_STATUS 15) 0 = false) := by
  unfold Dev.Reach; refine ⟨?_, ?_, ?_, ?_⟩ <;> decide +kernel

/-! Sieve jobs: quad 3 runs a list of one descriptor over a RAW8 frame of 16 by 16 in image SRAM. -/

def head3 : List Nat := List.replicate 48 0 ++ [16, 0, 16, 0, 0x2A, 0, 64, 0] ++ List.replicate 8 0
def job3 : SvJob := ⟨3, 0, 0x10000000000, head3, 0, 0⟩
def gold3 : List Nat := [0, 0, 0, 0, 0, 0, 0, 0] ++ leBytes 8 0x10000020000 ++ [16, 0, 16, 0, 64, 0, 0, 1] ++ List.replicate 40 0
def run3 (miss : Bool) : SvRun := ⟨job3, 0x10000010000, 1, 0, 0, List.replicate 16 5, 1, 0, 0, none, gold3, miss, []⟩
def svDev (words : List Nat) (miss : Bool := true) : Dev :=
  let d := ((up.wr Reg.SIEVE_CTRL 1).wr (Reg.SIEVE_WBUF 3) 0x10000030000).wr Reg.SIEVE_RR_BASE 0x10000040000
  let d := d.store 0x10000010000 (words.flatMap (leBytes 4))
  d.setQuad 3 { d.quad 3 with run := some (0, run3 miss) }
def desc3 (d : Dev) : List Nat := match d.svNext 3 with | some (_, w) => w | none => []

abbrev IsSv (d : Dev) (op : Nat) (miss : Bool) : Prop :=
  (d.quad 3).run = some (0, run3 miss) ∧ d.svNext 3 = some (run3 miss, desc3 d) ∧ d.svLate (run3 miss).job = false ∧ ((run3 miss).idx < (run3 miss).len ∧ (run3 miss).steps < 256) ∧
    svInvalid (run3 miss) (desc3 d) = false ∧ (desc3 d).getD 0 0 % 256 = op

theorem sv_of {d : Dev} {op : Nat} {miss : Bool} (h : IsSv d op miss) : ∃ t r w, d.SvReady 3 op t r w :=
  ⟨0, run3 miss, desc3 d, ⟨h.1, h.2.1, h.2.2.1, h.2.2.2.1, h.2.2.2.2.1, h.2.2.2.2.2⟩⟩

/-- Image SRAM at `a` takes engine writes. -/
abbrev IsOpen (d : Dev) (a n : Nat) : Prop :=
  0 < n ∧ regionOf a = .isram ∧ regionOf (a + (n - 1)) = .isram ∧ (d.domOn 64 = true ∧ d.domOn 65 = true ∧ d.dataOff = false) ∧
    d.locked = false ∧ d.role ≠ 2

theorem open_of {d : Dev} {a n : Nat} (h : IsOpen d a n) : d.Open a n := ⟨h.1, h.2.1, h.2.2.1, h.2.2.2.1, h.2.2.2.2⟩

def queued3 (lt : Nat) : Dev := { (svDev []).setQuad 3 { (default : Quad) with queue := [job3] } with lt := lt }
def ring3 (wr : Nat) : Dev := ((svDev [11]).wr Reg.SIEVE_RR_CFG 1).wr Reg.SIEVE_RR_WR wr

theorem sv_words :
    IsSv (svDev [0]) 0 true ∧ IsSv (svDev [11]) 11 true ∧ IsSv (ring3 0) 11 true ∧ IsSv (ring3 16) 11 true ∧ IsOpen (ring3 0) 0x10000040000 256 := by
  refine ⟨?_, ?_, ?_, ?_, ?_⟩ <;> decide +kernel

theorem witness_SieveJobs :
    (((queued3 0).quad 3).run = none ∧ earliest (((queued3 0).quad 3).queue.filter fun x => !(queued3 0).svLate x) = some job3 ∧ (queued3 0).bit Reg.SIEVE_CTRL 0 = true) ∧
    (∃ t r w, (svDev [0]).SvReady 3 0 t r w) ∧
    ((svDev [0]).stemUp = true ∧ ((svDev [0]).stemEnd 1).retry.length < 64 ∧ ((svDev [0]).stemEnd 1).queue = []) ∧
    (let d := svDev [12]
     (d.quad 3).run = some (0, run3 true) ∧ d.svNext 3 = some (run3 true, desc3 d) ∧ d.svLate job3 = false ∧ (run3 true).idx < (run3 true).len ∧
       (run3 true).steps < 256 ∧ svInvalid (run3 true) (desc3 d) = true) ∧
    (∃ t r w, (svDev [11]).SvReady 3 11 t r w) ∧ (∃ t r w, (ring3 0).SvReady 3 11 t r w) ∧ (∃ t r w, (ring3 16).SvReady 3 11 t r w) ∧
    ((svDev [11]).bit Reg.SIEVE_RR_CFG 0 = false ∧ (ring3 0).bit Reg.SIEVE_RR_CFG 0 = true ∧
      clampN 4 12 ((ring3 0).fld Reg.SIEVE_RR_CFG 4 5) = 4 ∧ (ring3 0).rd Reg.SIEVE_RR_RD = 0 ∧ (run3 true).v.length = 16 ∧ 32 ≤ (run3 true).job.head.length) ∧
    (ring3 0).Open 0x10000040000 256 ∧
    ((queued3 0).lt < job3.last + (queued3 0).svDl ∧ job3.last + (queued3 0).svDl ≤ (queued3 2000000).lt ∧ ((queued3 0).quad 3).queue = [job3]) ∧
    (up.Reach 24 Reg.SIEVE_RR_RD ∧ clampN 4 12 (up.fld Reg.SIEVE_RR_CFG 4 5) = 4 ∧
      2 ^ 4 < (up.rd Reg.SIEVE_RR_WR % 2 ^ 17 + 2 ^ 17 - (0x1FFEF : BitVec 32).toNat % 2 ^ 17) % 2 ^ 17 ∧
      (up.rd Reg.SIEVE_RR_WR % 2 ^ 17 + 2 ^ 17 - (0x1FFF0 : BitVec 32).toNat % 2 ^ 17) % 2 ^ 17 ≤ 2 ^ 4) :=
  ⟨by decide +kernel, sv_of sv_words.1, by decide +kernel, by decide +kernel, sv_of sv_words.2.1, sv_of sv_words.2.2.1, sv_of sv_words.2.2.2.1,
    by decide +kernel, open_of sv_words.2.2.2.2, by decide +kernel, by unfold Dev.Reach; decide +kernel⟩

/-- Lists by operation: CB with each CC, SETV, CALC with each function, PRESENCE, COLOUR, CORRX below and above DEAD. -/
def wordLists : List (Nat × List Nat) :=
  ((List.range 8).map fun cc => (7, [7 + cc * 2 ^ 16, 1, 0, 0])) ++ ((List.range 9).map fun f => (10, [10 + f * 2 ^ 16, 1])) ++
  [(8, [8, 0, 2, 3]), (4, [4, 0, 0x10001, 0, 0]), (5, [5, 0, 0x20002]), (9, [9, 5, 65536, 6, 100]), (9, [9, 5, 65536, 5, 100])]

theorem sv_wordLists : ∀ e ∈ wordLists, IsSv (svDev e.2) e.1 true := by decide +kernel

theorem witness_SieveWords :
    (∀ e ∈ wordLists, ∃ t r w, (svDev e.2).SvReady 3 e.1 t r w) ∧
    (svRegion (run3 true) (desc3 (svDev [5, 0, 0x20002]))).2.2 = (2, 2) ∧
    (let v := roundDiv (sx 32 ((run3 true).v.getD 0 0) * sx 32 65536) 65536
     v.natAbs < 6 ∧ 5 ≤ v.natAbs) ∧
    ((svDev [9]).stemUp = true ∧ ((svDev [9]).stemEnd 1).retry.length < 64 ∧ ((svDev [9]).stemEnd 1).queue = []) :=
  ⟨fun e he => sv_of (sv_wordLists e he), by decide +kernel, by decide +kernel, by decide +kernel⟩

def regDev (miss : Bool) : Dev := svDev [2, 0, 0x80008] miss
def tileDev (miss : Bool) : Dev := svDev [3, 0, 0x100010] miss

theorem sv_images :
    IsSv (regDev true) 2 true ∧ IsSv (regDev false) 2 false ∧ IsSv (tileDev true) 3 true ∧ IsSv (tileDev false) 3 false ∧
    IsSv (svDev [6, 0, 0x100010]) 6 true ∧ IsSv (svDev [1]) 1 true ∧ IsOpen (svDev [1]) ((svDev [1]).wbuf 3) (1 * (16 * 16)) := by
  refine ⟨?_, ?_, ?_, ?_, ?_, ?_, ?_⟩ <;> decide +kernel

theorem witness_SieveImages :
    ((∃ t r w, (regDev true).SvReady 3 2 t r w) ∧ (run3 true).miss = true) ∧
    ((∃ t r w, (regDev false).SvReady 3 2 t r w) ∧ (run3 false).miss = false ∧
      ((regDev false).bump.svSearch 3 (run3 false) (desc3 (regDev false))).isSome = true) ∧
    (∃ t r w, (tileDev true).SvReady 3 3 t r w) ∧
    ((∃ t r w, (tileDev false).SvReady 3 3 t r w) ∧ (tileDev false).bump.tileScores 3 (run3 false) (desc3 (tileDev false)) ≠ []) ∧
    (∃ t r w, (svDev [6, 0, 0x100010]).SvReady 3 6 t r w) ∧
    ((∃ t r w, (svDev [1]).SvReady 3 1 t r w) ∧ tb ((desc3 (svDev [1])).getD 0 0) 21 = false ∧ (run3 true).job.w = 16 ∧ (run3 true).job.h = 16 ∧
      (svDev [1]).Open ((svDev [1]).wbuf 3) (1 * (16 * 16)) ∧
      ((svDev [1]).bump.bump.correctPx job3 (desc3 (svDev [1])) 15 15).isSome = true) :=
  ⟨⟨sv_of sv_images.1, rfl⟩, ⟨sv_of sv_images.2.1, rfl, by decide +kernel⟩, sv_of sv_images.2.2.1,
    ⟨sv_of sv_images.2.2.2.1, by decide +kernel⟩, sv_of sv_images.2.2.2.2.1,
    ⟨sv_of sv_images.2.2.2.2.2.1, by decide +kernel, by decide +kernel, by decide +kernel, open_of sv_images.2.2.2.2.2.2, by decide +kernel⟩⟩

/-! Composition pipes. -/

/-- Pipe 6 enabled in mode `m`: frames of 2 by 1 written back to image SRAM. -/
def pipe6 (m : Nat) (f : Pipe → Pipe) : Dev :=
  let d := ((up.wr (Reg.COMP_CTRL 6) (2 * m + 1)).wr (Reg.COMP_SIZE 6) 0x10002).wr (Reg.COMP_WB_BASE 6) 0x10000000000
  { d with pipes := tput d.pipes 6 (f (d.pipe 6)) }
def start6 : SwStart := { (default : SwStart) with id := 9 }
/-- Pipe 6 in mode `m` shows on display port 2. -/
def shows (m : Nat) : Dev := (pipe6 m id).wr (Reg.COMP_OUT 6) 0x21
/-- A frame of pipe 6 whose sprites are known. -/
def pf6 (wb lines : Nat) (mir : Nat := 0) : PipeFrame :=
  { (default : PipeFrame) with
    lat := [(Reg.COMP_SIZE 6, 0x2 + lines * 65536), (Reg.COMP_WB_CFG 6, wb), (Reg.COMP_WB_BASE 6, 0x10000000000)], sprs := some [], mir := mir }
def framed (wb lines : Nat) (mir : Nat := 0) : Dev := pipe6 2 fun q => { q with frame := some (pf6 wb lines mir) }
def loading (kind src : Nat) : Dev := pipe6 2 fun q => { q with load := some (kind, 1, src) }
def entry6 : List Nat := List.replicate 64 7

theorem comp_open : IsOpen (framed 1 1) 0x10000000000 (4 * 2) ∧ IsOpen up 0x10000000000 64 := by
  refine ⟨?_, ?_⟩ <;> decide +kernel

theorem witness_CompositionPipes :
    ((pipe6 2 id).dataOff = false ∧ (pipe6 2 id).bit (Reg.COMP_CTRL 6) 0 = true ∧ (pipe6 2 id).fld (Reg.COMP_CTRL 6) 1 2 = 2 ∧ (pipe6 2 id).compOn 6 = true ∧ ((pipe6 2 id).pipe 6).frame = none ∧
      (pipe6 2 id).Reach 25 (Reg.COMP_GO 6)) ∧
    ((pipe6 0 id).bit (Reg.COMP_CTRL 6) 0 = true ∧ (pipe6 0 id).fld (Reg.COMP_CTRL 6) 1 2 = 0 ∧ (outOf ((pipe6 0 id).rd (Reg.COMP_OUT 6))).1 ≠ 1) ∧
    (let d := shows 0
     d.compOn 6 = true ∧ (d.pipe 6).frame = none ∧ d.fld (Reg.COMP_CTRL 6) 1 2 = 0 ∧ outOf (d.rd (Reg.COMP_OUT 6)) = (1, 2) ∧
       d.fld (Reg.DISP_STATUS 2) 0 3 ≠ 4 ∧ d.fld (Reg.DISP_STATUS 2) 0 3 ≠ 5 ∧ (tget d.disp 2).entering ≠ 1) ∧
    (let d := ((shows 0).wr (Reg.COMP_CTRL 6) 0).wr (Reg.DISP_STATUS 2) 3
     d.dataOff = false ∧ d.bit (Reg.COMP_CTRL 6) 0 = false ∧ outOf (d.rd (Reg.COMP_OUT 6)) = (1, 2) ∧ d.fld (Reg.DISP_STATUS 2) 0 3 = 3 ∧
       ∀ k < 8, d.bit (Reg.COMP_CTRL k) 0 = true → outOf (d.rd (Reg.COMP_OUT k)) ≠ (1, 2)) ∧
    (let d := pipe6 1 fun q => { q with queue := [start6] }
     d.compOn 6 = true ∧ (d.pipe 6).frame = none ∧ d.fld (Reg.COMP_CTRL 6) 1 2 = 1 ∧ (d.pipe 6).queue = [start6] ∧ start6.pjob = 0) ∧
    ((framed 0 1).compOn 6 = true ∧ ((framed 0 1).pipe 6).frame = some (pf6 0 1) ∧ (framed 0 1).fld (Reg.COMP_CTRL 6) 1 2 = 2 ∧
      (framed 0 1).Reach 29 (Reg.COMP_GO 6)) ∧
    ((pf6 0 1).mir ≠ 1 ∧ (pf6 0 1 1).mir = 1 ∧ ((framed 0 1 1).pipe 6).frame = some (pf6 0 1 1) ∧ (framed 0 1 1).beamList 0 = [] ∧
      (framed 0 1 1).stemUp = true) ∧
    (∀ c ∈ [(0, 1), (0, 2), (1, 1)],
      let f := pf6 c.1 c.2
      f.sprs = some [] ∧ f.bad = false ∧ f.start = none ∧ (outOf (f.r (Reg.COMP_OUT 6))).1 ≠ 1 ∧ (framed c.1 c.2).dataOff = false ∧
        tb (f.r (Reg.COMP_LLIST_CFG 6)) 31 = false ∧ f.gold = none ∧ f.part = none ∧ f.line < f.oh 6 ∧ (touching [] f.line).length ≤ 64 ∧
        (f.line + 1 = f.oh 6 ↔ c.2 = 1) ∧ tb (f.r (Reg.COMP_WB_CFG 6)) 0 = (c.1 == 1)) ∧
    (let c := (pf6 1 1).r (Reg.COMP_WB_CFG 6)
     tb c 1 = false ∧ bits c 4 3 = 0 ∧ bits c 2 2 = 0 ∧ (pf6 1 1).ow 6 = 2 ∧ (pf6 1 1).wbSlot 6 = 0x10000000000 ∧ (pf6 1 1).wbClash 6 = false ∧
       (framed 1 1).Open 0x10000000000 (4 * 2)) ∧
    (((pipe6 2 fun q => { q with golds := [(0x10000000000, entry6)] }).pipe 6).golds = [(0x10000000000, entry6)] ∧ entry6.length = 64 ∧
      up.Open 0x10000000000 64) ∧
    (up.Reach 24 (Reg.COMP_TLOAD 6) ∧ ((loading 0 0).pipe 6).load.isSome = true ∧ (up.pipe 6).load = none) ∧
    (((loading 3 0).pipe 6).load = some (3, 1, 0) ∧ ((pipe6 2 id).pipe 6).load = none ∧ tableLen 3 = 287496 ∧
      ((loading 2 0x10000000000).pipe 6).load = some (2, 1, 0x10000000000) ∧
      (loading 2 0x10000000000).hasRange 0x10000000000 (tableLen 2) = true ∧ (loading 2 0x10000000000).dataOff = false ∧
      (loading 2 0x2FFFFFFFFFF).hasRange 0x2FFFFFFFFFF (tableLen 2) = false) := by
  unfold Dev.Reach
  refine ⟨?_, ?_, ?_, ?_, ?_, ?_, ?_, ?_, ⟨?_, ?_, ?_, ?_, ?_, ?_, open_of comp_open.1⟩, ⟨?_, ?_, open_of comp_open.2⟩, ?_, ?_⟩ <;> decide +kernel

/-! Drawing: engine 1 runs and finds a command in image SRAM. -/

def drawDev (words : List Nat) (ctrl : Nat := 1) : Dev :=
  let d := ((up.wr (Reg.DRAW_CTRL 1) ctrl).wr (Reg.DRAW_Q_WR 1) 1).wr (Reg.DRAW_Q_BASE 1) 0x10000050000
  (d.store 0x10000050000 (words.flatMap (leBytes 4))).store 0x10000060000 [65]
/-- Three words of a surface of format `fmt` and stride 64 at `a`, and its corner. -/
def surf (a fmt : Nat) : List Nat := [a % 2 ^ 32, a / 2 ^ 32, 64 + fmt * 2 ^ 20, 0]
def a0 : Nat := 0x10000000000
def fillW : List Nat := [1] ++ surf a0 5 ++ [0x20010, 0, 0, 0, 0, 0, 0xFF]
def copyW : List Nat := [2] ++ surf a0 2 ++ [0] ++ [0x70000, 0x100, 64 + 2 * 2 ^ 20, 0, 0x20008]
def glyphW : List Nat := [3] ++ surf a0 5 ++ [0] ++ [0x70000, 0x100, 64 + 8 * 2 ^ 20, 0, 0x20008, 0xFF, 0, 0]
def symW (n : Nat) : List Nat := [4] ++ surf a0 8 ++ [0] ++ [0x60000, 0x100, n, 0, 0, 3]
def clipW : List Nat := [5]
def sigW : List Nat := [6, 0x70000, 0x100, 1]

abbrev IsDraw (d : Dev) (op : Nat) : Prop :=
  (d.drawState 1 = 2 ∧ d.dataOff = false) ∧ d.hasRange (d.drawAt 1) 64 = true ∧ drawCheck (d.drawCmd 1) = 0 ∧ (d.drawCmd 1).getD 0 0 % 256 = op

theorem draw_of {d : Dev} {op : Nat} (h : IsDraw d op) : d.DrawReady 1 op (d.drawCmd 1) := ⟨h.1, h.2.1, rfl, h.2.2.1, h.2.2.2⟩

abbrev IsSurfOpen (d : Dev) (f : Surf) (w h : Nat) : Prop :=
  (0 < w ∧ 0 < h ∧ w * f.bytes ≤ f.stride) ∧ IsOpen d (f.addr 0 0) (f.stride * (h - 1) + w * f.bytes)

theorem surf_of {d : Dev} {f : Surf} {w h : Nat} (x : IsSurfOpen d f w h) : d.SurfOpen f 0 0 w h := ⟨x.1, open_of x.2⟩

theorem draw_ops : ∀ e ∈ [([0], 0), (fillW, 1), (copyW, 2), (glyphW, 3), (symW 1, 4), (symW 0, 4), (clipW, 5), (sigW, 6)], IsDraw (drawDev e.1 3) e.2 := by
  decide +kernel

theorem draw_surfs :
    IsSurfOpen (drawDev fillW 3) (surfOf ((drawDev fillW 3).drawCmd 1) 1) 16 2 ∧
    IsSurfOpen (drawDev copyW 3) (surfOf ((drawDev copyW 3).drawCmd 1) 1) 8 2 ∧
    IsSurfOpen (drawDev copyW 3) (surfOf ((drawDev copyW 3).drawCmd 1) 6) 8 2 ∧
    IsSurfOpen (drawDev glyphW 3) (surfOf ((drawDev glyphW 3).drawCmd 1) 1) 8 2 ∧ IsOpen (drawDev sigW 3) 0x10000070000 4 := by
  refine ⟨?_, ?_, ?_, ?_, ?_⟩ <;> decide +kernel

theorem reach_draw : up.Reach 0 (Reg.DRAW_Q_WR 1) ∧ up.Reach 0 (Reg.DRAW_CTRL 1) := by
  unfold Dev.Reach; decide +kernel

theorem witness_Drawing_commands :
    (up.Reach 0 (Reg.DRAW_Q_WR 1) ∧ up.drawK 1 = 4 ∧ up.drawRd 1 = 0 ∧ 2 ^ 4 < (0x11 : BitVec 32).toNat % 2 ^ 17 ∧
      (0x10 : BitVec 32).toNat % 2 ^ 17 ≤ 2 ^ 4) ∧
    (up.Reach 0 (Reg.DRAW_CTRL 1) ∧ (up.drawEng 1).halted = false ∧
      ({ up with draw := tput up.draw 1 { up.drawEng 1 with halted := true } }.drawEng 1).halted = true) ∧
    up.drawState 1 ≠ 2 ∧
    (let d := drawDev [7] 3
     d.drawState 1 = 2 ∧ d.dataOff = false ∧ d.hasRange (d.drawAt 1) 64 = true ∧ drawCheck (d.drawCmd 1) ≠ 0 ∧
       (d.drawCmd 1).getD 0 0 % 256 ≠ 4 ∧ d.bit (Reg.DRAW_CTRL 1) 1 = true) ∧
    (∃ w, (drawDev [0] 3).DrawReady 1 0 w) ∧ (∃ w, (drawDev clipW 3).DrawReady 1 5 w) ∧
    (∃ w, (drawDev sigW 3).DrawReady 1 6 w ∧ (w.getD 1 0 + bits (w.getD 2 0) 0 16 * 2 ^ 32) / 4 * 4 = 0x10000070000 ∧
      (drawDev sigW 3).Open 0x10000070000 4) := by
  exact ⟨⟨reach_draw.1, by decide +kernel⟩, ⟨reach_draw.2, by decide +kernel⟩, by decide +kernel, by decide +kernel, ⟨_, draw_of (draw_ops ([0], 0) (by decide))⟩,
    ⟨_, draw_of (draw_ops (clipW, 5) (by decide))⟩, ⟨_, draw_of (draw_ops (sigW, 6) (by decide)), by decide +kernel, open_of draw_surfs.2.2.2.2⟩⟩

theorem witness_Drawing_pixels :
    (∃ w, (drawDev fillW 3).DrawReady 1 1 w ∧ bits (w.getD 0 0) 8 4 = 0 ∧ tb (w.getD 0 0) 16 = false ∧ w.getD 5 0 = 0x20010 ∧
      (drawDev fillW 3).SurfOpen (surfOf w 1) 0 0 16 2) ∧
    (∃ w, (drawDev copyW 3).DrawReady 1 2 w ∧ bits (w.getD 0 0) 8 4 = 0 ∧ bits (w.getD 0 0) 12 4 = 0 ∧ (surfOf w 1).fmt = 2 ∧
      (surfOf w 6).fmt = 2 ∧ w.getD 9 0 = 0 ∧ w.getD 10 0 = 0x20008 ∧ (drawDev copyW 3).SurfOpen (surfOf w 1) 0 0 8 2 ∧
      (drawDev copyW 3).SurfOpen (surfOf w 6) 0 0 8 2 ∧ (drawDev copyW 3).drawMeets 1 w 1 1 = false) ∧
    (∃ w, (drawDev glyphW 3).DrawReady 1 3 w ∧ bits (w.getD 0 0) 12 4 = 0 ∧ w.getD 13 0 = 0 ∧ w.getD 10 0 = 0x20008 ∧
      (drawDev glyphW 3).SurfOpen (surfOf w 1) 0 0 8 2 ∧
      (∀ i < 8, ∀ j < 2, (drawDev glyphW 3).hasRange ((surfOf w 6).addr (0 + i) (0 + j)) 1 = true ∧
        regionOf ((surfOf w 6).addr (0 + i) (0 + j)) = .isram) ∧ (drawDev glyphW 3).drawMeets 1 w 1 1 = false) := by
  exact ⟨⟨_, draw_of (draw_ops (fillW, 1) (by decide)), by decide +kernel, by decide +kernel, by decide +kernel, surf_of draw_surfs.1⟩,
    ⟨_, draw_of (draw_ops (copyW, 2) (by decide)), by decide +kernel, by decide +kernel, by decide +kernel, by decide +kernel, by decide +kernel,
      by decide +kernel, surf_of draw_surfs.2.1, surf_of draw_surfs.2.2.1, by decide +kernel⟩,
    ⟨_, draw_of (draw_ops (glyphW, 3) (by decide)), by decide +kernel, by decide +kernel, by decide +kernel, surf_of draw_surfs.2.2.2.1,
      by decide +kernel, by decide +kernel⟩⟩

def rowsOf : SymOut → List (List Bool)
  | .image r => r
  | .error _ => []

def isImage : SymOut → Bool
  | .image _ => true
  | .error _ => false

theorem image_of {o : SymOut} (h : isImage o = true) : o = .image (rowsOf o) := by
  cases o
  · rfl
  · cases h

theorem symbol_image : ∃ rows, symbolOf 3 false [65] = .image rows ∧
    (let img := quietZone 3 0 rows
     let wid := (img.headD []).length
     (∀ l ∈ img, l.length = wid) ∧ 0 < wid ∧ wid < 2 ^ 16 ∧ 0 < img.length ∧ img.length < 2 ^ 16 ∧ (wid + 7) / 8 ≤ 64 ∧
       0 < 64 * (img.length - 1) + (wid + 7) / 8 ∧ a0 + 64 * img.length ≤ 0x10000060000) :=
  ⟨rowsOf (symbolOf 3 false [65]), image_of (by decide +kernel), by decide +kernel⟩

theorem witness_Drawing_symbols :
    (∃ w, (drawDev (symW 0) 3).DrawReady 1 4 w ∧ (drawDev (symW 0) 3).hasRange 0x10000060000 1 = true ∧ bits (w.getD 8 0) 0 8 = 0 ∧
      symbolOf 3 false [] = .error 3 ∧ (drawDev (symW 0) 3).bit (Reg.DRAW_CTRL 1) 1 = true) ∧
    (∃ w, (drawDev (symW 1) 3).DrawReady 1 4 w ∧ w.getD 6 0 + bits (w.getD 7 0) 0 16 * 2 ^ 32 = 0x10000060000 ∧ bits (w.getD 8 0) 0 8 = 1 ∧
      bits (w.getD 11 0) 0 2 = 3 ∧ tb (w.getD 11 0) 2 = false ∧ (drawDev (symW 1) 3).memRead 0x10000060000 1 = [65] ∧
      (surfOf w 1).base = a0 ∧ (surfOf w 1).stride = 64) :=
  ⟨⟨_, draw_of (draw_ops (symW 0, 4) (by decide)), by decide +kernel, by decide +kernel, rfl, by decide +kernel⟩,
    ⟨_, draw_of (draw_ops (symW 1, 4) (by decide)), by decide +kernel, by decide +kernel, by decide +kernel, by decide +kernel, by decide +kernel,
      by decide +kernel, by decide +kernel⟩⟩

/-! Raster out and display ports. -/

/-- Raster port 7 in state `s`, fed by pipe 0 with lines of 8 pixels. -/
def ras7 (s : Nat) (f : RasPort → RasPort := id) : Dev :=
  let d := (((up.wr (Reg.RASTER_STATUS 7) s).wr (Reg.RASTER_NOZZLES 7) 8).wr (Reg.COMP_SIZE 0) 0x10008).wr (Reg.COMP_OUT 0) 0x72
  let d := d.wr (Reg.COMP_CTRL 0) 3
  { d with pipes := tput d.pipes 0 { d.pipe 0 with frame := some default }, ras := tput d.ras 7 (f (d.rport 7)) }
def start7 : List Byte := bytes (List.replicate 6 0 ++ [7] ++ List.replicate 25 0)
def swath7 : Swath := { (default : Swath) with aL := 2 ^ 17, got0 := [List.replicate 8 0] }
/-- Beam 0 moves one part in 2^16 of a dot in each ns. -/
def line7 : Dev :=
  let d := ras7 2 fun q => { q with swaths := [swath7] }
  { d with est := tput d.est 8 { (default : Est) with got := true, last := { (default : BRec) with vel := 1000, fpf := 1024 } } }
def status7 (k : Nat) : List Byte := let b := k :: List.replicate 31 0; bytes (b ++ leBytes 4 (fcs b))

/-- Blocks as one lane sends them after the state `st`. -/
def sentBy : Nat → List Nat → List Nat
  | _, [] => []
  | st, blk :: t => (laneBlock st blk).1 :: sentBy (laneBlock st blk).2 t
/-- The blocks that bring a STATUS frame: the block before it, and its own. -/
def blocks7 (bs : List Byte) : List (BitVec 66) := (0 :: sentBy (laneState 0) (frameBlocks (nats bs))).map (BitVec.ofNat 66)
/-- What port 7 reads of the blocks. -/
def read7 (blocks : List (BitVec 66)) : Option (List Nat) :=
  readFrame (laneState ((blocks.map BitVec.toNat).headD 0)) ((blocks.map BitVec.toNat).drop 1)

theorem witness_RasterPorts :
    (leAt (nats start7) 6 1 % 8 = 7 ∧ (ras7 1).dataOff = false ∧ (ras7 1).rasState 7 ≠ 2) ∧
    (let d := ras7 2
     d.rasState 7 = 2 ∧ d.rasValid 7 = true ∧ (d.rport 7).swaths.length < 2 ∧ d.bit (Reg.RASTER_CFG 7) 16 = false ∧
       d.fld (Reg.RASTER_CFG 7) 10 3 = 0 ∧ (d.pipe 0).frame.isSome = true ∧ (d.pipe 0).queue.length < 2 ∧ d.stemUp = true ∧
       (d.stemEnd 1).retry.length < 64 ∧ (d.stemEnd 1).queue = []) ∧
    (up.rasState 7 ≠ 1 ∧ up.rasState 7 ≠ 2 ∧ (ras7 1).rasState 7 = 1 ∧ ((ras7 1).rport 7).timeAt = none ∧
      (let d := { ras7 2 (fun q => { q with timeAt := some 99999 }) with lt := 100000 }
       (d.rport 7).timeAt = some 99999 ∧ 99999 / 100000 < d.lt / 100000 ∧ { d with lt := 99999 }.lt / 100000 ≤ 99999 / 100000)) ∧
    (read7 [] = none ∧ (∀ k ∈ [1, 9], read7 (blocks7 (status7 k)) = some (nats (status7 k))) ∧
      (nats (status7 9)).length = 36 ∧ fcs ((nats (status7 9)).take 32) = leAt (nats (status7 9)) 32 4 ∧
      fcs ((nats (status7 1)).take 32) = leAt (nats (status7 1)) 32 4 ∧ leAt (nats (status7 1)) 0 1 ≠ 9 ∧
      leAt (nats (status7 9)) 0 1 = 9 ∧ tb (leAt (nats (status7 9)) 18 1) 0 = false ∧ ((ras7 1 fun q => { q with good := 7 }).rport 7).good = 7) ∧
    (let q := line7.rport 7
     let w := swath7
     line7.rasState 7 = 2 ∧ line7.dataOff = false ∧ q.swaths = [w] ∧ q.ends = [] ∧ w.k < line7.swathLines 7 ∧ (tget line7.est (8 + w.beam)).got = true ∧
       line7.lt ≤ (tget line7.est (8 + w.beam)).last.lt + 2000 ∧ w.front = none ∧ q.lastFire = none ∧
       0 < distL (line7.fpf w.beam) (line7.estAt 1 w.beam line7.lt) (line7.lineAt 7 w w.k) ∧
       line7.reachIn w.beam (line7.lineAt 7 w w.k) (line7.rasLead 7) = some 2 ∧ w.fire = none ∧ w.k < w.got0.length ∧
       line7.bit (Reg.RASTER_CFG 7) 16 = false) ∧
    ((ras7 1).rasState 7 ≠ 2 ∧ (ras7 2).rasState 7 = 2 ∧
      ¬ ((ras7 2).rport 7).lastGood + 1000 * max 1 ((ras7 2).fld (Reg.RASTER_LOSS 7) 0 16) ≤ (ras7 2).lt ∧
      ((ras7 2).rport 7).lastGood + 1000 * max 1 ((ras7 2).fld (Reg.RASTER_LOSS 7) 0 16) ≤ { ras7 2 with lt := 65535000 }.lt) ∧
    (up.Reach 24 (Reg.RASTER_TLOAD 7) ∧ (up.rport 7).load = none ∧
      (let d := ras7 2 fun q => { q with load := some (7, 1, 0x10000000000) }
       (d.rport 7).load = some (7, 1, 0x10000000000) ∧ d.hasRange 0x10000000000 8192 = true ∧ d.dataOff = false)) := by
  unfold Dev.Reach; refine ⟨?_, ?_, ?_, ?_, ?_, ?_, ?_⟩ <;> decide +kernel

/-- Display port `p` enabled with mode 0, in state `s`. -/
def disp (p s : Nat) (f : DispPort → DispPort := id) : Dev :=
  let d := (up.wr (Reg.DISP_CFG p) (2 ^ 31 + 2 * 2 ^ 8 + 3 * 2 ^ 10)).setDispState p s
  { d with disp := tput d.disp p (f (d.dsp p)) }
def sink (q : DispPort) : DispPort := { q with rate := 3, lanes := 2, psr := true, psr2 := true }

theorem witness_DisplayPorts :
    ((disp 0 1).bit (Reg.DISP_CFG 0) 31 = true ∧ (disp 0 1).dispState 0 ≠ 6 ∧ up.bit (Reg.DISP_CFG 0) 31 = false ∧ (disp 0 1).dispState 0 < 3 ∧
      (∀ st ∈ [3, 4, 5], (disp 2 st).dispState 2 = st ∧ (disp 2 st).bit (Reg.DISP_CFG 2) 31 = true)) ∧
    (let d := disp 2 2 sink
     d.dispState 2 = 2 ∧ dispRate 3 ≤ min (dispRate (bits (d.rd (Reg.DISP_CFG 2)) 10 3)) (dispRate (d.dsp 2).rate) ∧
       2 ≤ min (min 2 (bits (d.rd (Reg.DISP_CFG 2)) 8 2)) (d.dsp 2).lanes ∧ d.dispCarries 2 3 (dispLanes 2) = true ∧
       (d.setF (Reg.DISP_CFG 2) 0 4 13).dispCarries 2 0 (dispLanes 0) = false ∧
       dispRate 0 ≤ min (dispRate (bits ((d.setF (Reg.DISP_CFG 2) 0 4 13).rd (Reg.DISP_CFG 2)) 10 3)) (dispRate (d.dsp 2).rate) ∧
       (disp 2 1).dispState 2 ≠ 2 ∧ (d.dsp 2).retryAt = none ∧
       (let e := disp 2 2 fun q => { q with retryAt := some 5 }
        (e.dsp 2).retryAt = some 5 ∧ e.lt < 5)) ∧
    (up.Reach 25 (Reg.DISP_PSR 2) ∧ tb (1 : BitVec 32).toNat 5 = false ∧ (up.dsp 2).psr = false ∧ ((disp 2 3 sink).dsp 2).psr = true ∧
      tb (1 : BitVec 32).toNat 0 = true ∧ (disp 2 3 sink).dispState 2 = 3 ∧ tb (1 : BitVec 32).toNat 4 = false ∧ (disp 2 4 sink).dispState 2 = 4 ∧
      (disp 2 3 sink).dispState 2 ≠ 5) ∧
    (up.Reach 25 (Reg.DISP_SU 0) ∧ up.Reach 25 (Reg.DISP_SU 2) ∧ (disp 2 5 sink).dispState 2 = 5 ∧ (disp 2 3 sink).dispState 2 ≠ 5) ∧
    (up.Reach 25 (Reg.DISP_AUX_CMD 2) ∧ up.bit (Reg.DISP_AUX_STATUS 2) 0 = false ∧
      (up.wr (Reg.DISP_AUX_STATUS 2) 1).bit (Reg.DISP_AUX_STATUS 2) 0 = true ∧ (up.wr (Reg.DISP_AUX_STATUS 2) 1).Reach 25 (Reg.DISP_AUX_CMD 2)) := by
  unfold Dev.Reach; refine ⟨?_, ?_, ?_, ?_, ?_⟩ <;> decide +kernel

/-! Audio, memory controller and DMA. -/

def aud (f : AudSt → AudSt := id) : Dev :=
  let d := (up.wr Reg.AUD_CTRL (2 ^ 31)).wr (Reg.AUD_TDMI_CFG 3) (2 ^ 31)
  { d with aud := f d.aud }
def oa7 (mode : Nat) (drop : Bool) : Dev :=
  let d := (aud fun a => { a with oa := tput a.oa 7 { (default : OaChan) with done := some (63, 0, List.replicate 4 1, drop) } })
  ((d.wr (Reg.AUD_OA_CFG 7) mode).wr Reg.AUD_OA_BASE 0x10000000000)

theorem oa_open : IsOpen (oa7 1 false) (0x10000000000 + 4096 * 7 + 64 * 63) 64 := by decide +kernel

theorem witness_Audio :
    up.audOn 0 = false ∧
    ((aud).audOn 1 = true ∧ ((aud).audDom 1).swap = none ∧ ((aud).audDom 1).ramp = none ∧ ∀ v < 32, ((aud).voice v).st = 0) ∧
    (let c := (aud).rd (Reg.AUD_TDMI_CFG 3)
     (aud).audOn (bits c 30 1) = true ∧ tb c 31 = true ∧ tdmValid c = true ∧ (aud).bit Reg.AUD_DOM_A 31 = false ∧ bits c 30 1 = 0 ∧
       (tget (aud).aud.tdm 3).buf.length < 4 ∧ (16 : BitVec 16).toNat = tdmSlots c * (tdmWidth c).getD 32 ∧
       ¬ (tb c 29 = true ∨ (15 : BitVec 16).toNat = tdmSlots c * (tdmWidth c).getD 32)) ∧
    ((up.audDom 2).locked = false ∧
      ((aud fun a => { a with doms := tput a.doms 2 { (default : AudDom) with locked := true } }).audDom 2).locked = true) ∧
    (up.Reach 24 Reg.AUD_KEY_ON ∧ up.Reach 24 Reg.AUD_KEY_OFF) ∧
    ((up.oa 7).done = none ∧ ((oa7 1 true).oa 7).done = some (63, 0, List.replicate 4 1, true) ∧
      bits ((oa7 1 true).rd (Reg.AUD_OA_CFG 7)) 0 2 = 1 ∧ ((oa7 1 false).oa 7).done = some (63, 0, List.replicate 4 1, false) ∧
      (oa7 1 false).fld Reg.AUD_OA_BASE 12 36 * 4096 = 0x10000000000 ∧ (oa7 1 false).Open (0x10000000000 + 4096 * 7 + 64 * 63) 64) := by
  unfold Dev.Reach
  refine ⟨?_, ?_, ?_, ?_, ?_, ?_, ?_, ?_, ?_, ?_, open_of oa_open⟩ <;> decide +kernel

/-- The memory controller in state `s` with configuration `cfg`. -/
def memc (s cfg : Nat) : Dev := { up.setF Reg.MEMC_STATUS 0 2 s with memcCfg := cfg }
def scrubbed : Dev := ((memc 2 0).setF Reg.MEMC_CFG 16 1 1).setF Reg.MEMC_STATUS 16 1 1

/-- Engine 2 of the DMA block selects channel 15, whose descriptor stands in image SRAM. -/
def dma2 (words : List Nat) : Dev :=
  let d := (up.wr (dmaCh 2 15 0) (2 ^ 31)).wr (dmaCh 2 15 0x10) 1
  (d.wr (dmaCh 2 15 8) 0x10000050000).store 0x10000050000 (words.flatMap (leBytes 4))
/-- The same of engine 0 of the beam die, with the Stem down. -/
def dma0 (words : List Nat) : Dev :=
  let d := (up.wr (dmaCh 0 15 0) (2 ^ 31)).wr (dmaCh 0 15 0x10) 1
  ((d.wr (dmaCh 0 15 8) 0x20001000000).store 0x20001000000 (words.flatMap (leBytes 4))).wr Reg.STEM_STATUS 0
def nopDesc : List Nat := [2, 0, 0, 0, 0, 0, 0, 0]
def badDesc : List Nat := [3, 0, 0, 0, 0, 0, 0, 0]
def badNop : List Nat := [2 + 2 ^ 31, 0, 0, 0, 0, 0, 0, 0]
def fillDesc : List Nat := [1, 8, 7, 7, 0x70000, 0x100, 0, 0]
def copyDesc : List Nat := [0, 8, 0x60000, 0x100, 0x60008, 0x100, 0, 0]
def doneDma (w0 : Nat) : Dev := { up with dma := tput up.dma 2 { (default : DmaEng) with busy := some (15, [w0, 0, 0, 0, 0, 0, 0x70000, 0x100], 0, 8, 0x1FFFF) } }

theorem dma_opens :
    IsOpen (dma2 fillDesc) 0x10000070000 8 ∧ IsOpen (dma2 copyDesc) 0x10000060008 8 ∧ IsOpen (dma2 copyDesc) 0x10000060000 8 ∧
      IsOpen (doneDma 0x40) 0x10000070000 16 ∧ IsOpen (dma0 fillDesc) 0x10000070000 8 := by
  refine ⟨?_, ?_, ?_, ?_, ?_⟩ <;> decide +kernel

theorem witness_MemoryAndDma :
    (up.Reach 24 Reg.MEMC_CTRL ∧ up.dataOff = false) ∧
    (up.fld Reg.MEMC_STATUS 0 2 ≠ 1 ∧ (∀ cfg ∈ [2, 3], (memc 1 cfg).fld Reg.MEMC_STATUS 0 2 = 1 ∧ (memc 1 cfg).dataOff = false) ∧
      bits (memc 1 3).memcCfg 0 2 = 3 ∧ bits (memc 1 2).memcCfg 0 2 ≠ 3) ∧
    ((up.setF Reg.MEMC_CFG 16 1 0).bit Reg.MEMC_CFG 16 = false ∧ scrubbed.bit Reg.MEMC_CFG 16 = true ∧ scrubbed.bit Reg.MEMC_STATUS 16 = true ∧
      (0x1FFFFFFF : BitVec 31).toNat * 64 < scrubbed.dramSize ∧ scrubbed.hasTarget ((0x1FFFFFFF : BitVec 31).toNat * 64) = true) ∧
    (up.fld Reg.MEMC_STATUS 0 2 ≠ 2 ∧ (memc 2 0).fld Reg.MEMC_STATUS 0 2 = 2 ∧ (memc 2 0).dataOff = false) ∧
    (up.Reach 24 (dmaCh 2 15 0x10) ∧ up.Reach 24 (dmaCh 2 15 0x1C) ∧
      2 ^ up.dmaK 2 15 < ((0x11 : BitVec 32).toNat % 2 ^ 17 + 2 ^ 17 - up.rd (dmaCh 2 15 0x14) % 2 ^ 17) % 2 ^ 17 ∧
      ((0x10 : BitVec 32).toNat % 2 ^ 17 + 2 ^ 17 - up.rd (dmaCh 2 15 0x14) % 2 ^ 17) % 2 ^ 17 ≤ 2 ^ up.dmaK 2 15) ∧
    (∀ ws ∈ [nopDesc, badDesc, badNop, fillDesc, copyDesc],
      ((dma2 ws).dmaEng 2).busy = none ∧ (dma2 ws).dmaPowered 2 = true ∧ (dma2 ws).dmaSelect 2 = some 15 ∧ (dma2 ws).dmaDesc 2 15 = ws) ∧
    (let d := dma0 fillDesc
     (d.dmaEng 0).busy = none ∧ d.dmaPowered 0 = true ∧ d.dmaSelect 0 = some 15 ∧ d.dmaDesc 0 15 = fillDesc ∧ d.stemUp = false) ∧
    (dmaBad badDesc = true ∧ dmaBad badNop = true ∧ dmaBad nopDesc = false ∧ dmaBad fillDesc = false ∧ dmaBad copyDesc = false ∧ dmaAddr fillDesc 4 = 0x10000070000 ∧
      dmaAddr copyDesc 4 = 0x10000060008 ∧ dmaAddr copyDesc 2 = 0x10000060000) ∧
    ((dma2 fillDesc).Open 0x10000070000 8 ∧ (dma2 copyDesc).Open 0x10000060008 8 ∧ (dma2 copyDesc).Open 0x10000060000 8 ∧
      (dma0 fillDesc).Open 0x10000070000 8) ∧
    (((doneDma 0).dmaEng 2).busy = some (15, [0, 0, 0, 0, 0, 0, 0x70000, 0x100], 0, 8, 0x1FFFF) ∧
      dmaAddr [0x40, 0, 0, 0, 0, 0, 0x70000, 0x100] 6 / 16 * 16 = 0x10000070000 ∧ (doneDma 0x40).Open 0x10000070000 16) := by
  unfold Dev.Reach
  refine ⟨?_, ?_, ?_, ?_, ?_, ?_, ?_, ?_,
    ⟨open_of dma_opens.1, open_of dma_opens.2.1, open_of dma_opens.2.2.1, open_of dma_opens.2.2.2.2⟩, ?_, ?_, open_of dma_opens.2.2.2.1⟩ <;>
    decide +kernel

/-! Trellis: node 5; port 7 is UP, and node 9 is reached through port 2, which is in HELLO. -/

def fab (f : TrlSt → TrlSt := id) : Dev :=
  let d := (up.setF (Reg.TRL_PORT_STATUS 7) 0 2 3).setF (Reg.TRL_PORT_STATUS 2) 0 2 2
  { d with nodeId := 5, trl := f { d.trl with idValid := true, prim := [(9, 3)], ports := [] } }
/-- A cell from node 9 to this node, in sequence on port 7. -/
def hdr : CellHdr := ⟨7, true, 5, 9, 0, false, false, 0, 0, 0⟩
/-- A flooded cell, and one for another node. -/
def hdrTree : CellHdr := { hdr with tree := true, hops := 31 }
def hdrOn : CellHdr := { hdr with dst := 9 }

/-- The header with the check sequence of its cell. -/
def withFcs (h : CellHdr) (cls sub : Nat) (bs : List Nat) : CellHdr :=
  { h with fcs := BitVec.ofNat 32 (fcs (((cellOf h cls sub bs).octets h.ack.toNat).take (12 + bs.length))) }

theorem leBytes_word (v : Nat) : leBytes 4 (v % 2 ^ 32) = leBytes 4 v := by
  simp only [leBytes, List.cons.injEq, and_true]; omega

theorem sealed_good {h : CellHdr} {cls sub : Nat} {bs : List Nat} (ho : h.ok = true) (h4 : bs.length % 4 = 0) (hl : bs.length ≤ 256) :
    cellGood (withFcs h cls sub bs) cls sub bs = true := by
  have take : ∀ a b c : List Nat, ∀ y : List Nat, a.length = 4 → b.length = 4 → c.length = 4 →
      (a ++ b ++ c ++ bs ++ y).take (12 + bs.length) = a ++ b ++ c ++ bs := by
    intro a b c y ha hb hc; exact List.take_left' (by simp [ha, hb, hc]; omega)
  simp only [cellGood, withFcs, cellOf, Cell.octets, ho, h4, hl, decide_true, Bool.true_and, beq_self_eq_true, BitVec.toNat_ofNat, leBytes_word]
  rw [take _ _ _ _ (leBytes_len _ _) (leBytes_len _ _) (leBytes_len _ _)]
  simp

theorem hears_of {d : Dev} {h : CellHdr} {cls sub : Nat} {bs : List Nat} {near : Bool} (ho : h.ok = true) (h4 : bs.length % 4 = 0) (hl : bs.length ≤ 256)
    (x : d.trlState h.port.val = 3 ∧ (relClass cls = true → h.seq.toNat = (d.trlPort h.port.val).rxNext) ∧
      (d.trlPort h.port.val).window = [] ∧ (d.trlPort h.port.val).waiting = [] ∧
      (near = true ∨ h.tree = false ∧ d.trl.idValid = true ∧ d.nodeId = h.dst.toNat)) : d.Hears (withFcs h cls sub bs) cls sub bs near :=
  ⟨sealed_good ho h4 hl, x⟩
def port7s (s : Nat) : Dev := up.setF (Reg.TRL_PORT_STATUS 7) 0 2 s
def routeRec (w : Nat) : List Byte := bytes (leBytes 2 w ++ [31, 0] ++ List.replicate 68 0)
def syncd (f : TrlSt → TrlSt) : Dev :=
  let d := (fab f).setF Reg.BEAM_LT_CTRL 0 1 1
  { d with lt := 1000, tick := { d.tick with firstLock := true } }
def aCell (cls : Nat) : Cell := { (default : Cell) with cls := cls, dst := 9 }
def win (merged : Bool) (ends : Nat) : AlmWin := { (default : AlmWin) with dst := 9, merged := merged, ends := ends }
def collect : Dev := (fab).wr Reg.LOG_CFG 3

theorem own_uid (t : List Nat) : leAt (nats (bytes (leBytes 8 ownUid ++ t))) 0 8 = ownUid := by
  have h : ownUid < 256 ^ 8 := Config.uid.isLt
  have e : ((nats (bytes (leBytes 8 ownUid ++ t))).drop 0).take 8 = leBytes 8 ownUid := by simp [nats, bytes, leBytes]
  have l := leNum_leBytes_lt h
  rw [← e] at l
  exact l

theorem other_uid : ∃ u < 2, leAt (nats (bytes (leBytes 8 u))) 0 8 ≠ ownUid := by
  by_cases h : ownUid = 0
  · exact ⟨1, by decide, by rw [h]; decide⟩
  · exact ⟨0, by decide, fun e => h (e.symm.trans (by decide))⟩

theorem root_of {d : Dev} (h : d.trlOn = true) (r : d.trl.root = ownUid) : d.isRoot = true := by simp [Dev.isRoot, h, r]

/-- Payload of a cell of `n` zero bytes, and of one that names this device. -/
def nul (n : Nat) : List Byte := bytes (List.replicate n 0)
def ownGrant : List Byte := bytes (leBytes 8 ownUid ++ [0, 128, 0, 0])
def uidCell (u : Nat) : List Byte := bytes (leBytes 8 u ++ [0, 128, 0, 0])
def child : Dev := syncd fun t => { t with parent := some 7 }

theorem own_grant : leAt (nats ownGrant) 0 8 = ownUid ∧ tb (leAt (nats ownGrant) 8 2) 15 = true := by
  refine ⟨own_uid _, ?_⟩
  simp [ownGrant, nats, bytes, leBytes, leAt, leNum, tb]

theorem grant_len : (nats ownGrant).length = 12 := rfl

theorem witness_FabricLinks_cells :
    (cellGood (withFcs hdr 4 0 (nats (nul 32))) 4 0 (nats (nul 32)) = true ∧ ∀ s ∈ [2, 3], (port7s s).trlState 7 = s ∧
      ((port7s s).trlPort 7).window = [] ∧ ((port7s s).trlPort 7).waiting = [] ∧ (port7s s).trlHeld = false) ∧
    (∀ w ∈ [9, 0x8009], (fab).Hears (withFcs hdr 4 1 (nats (routeRec w))) 4 1 (nats (routeRec w)) true ∧ (nats (routeRec w)).length = 72) ∧
    (tb (leAt (nats (routeRec 9)) 0 2) 15 = false ∧ leAt (nats (routeRec 9)) 2 1 < 32 ∧ tb (leAt (nats (routeRec 0x8009)) 0 2) 15 = true ∧
      5 ∉ (((List.range 32).map fun j => leAt (nats (routeRec 9)) (8 + 2 * j) 2 % 4096).take 32) ∧ leAt (nats (routeRec 9)) 0 2 % 4096 ≠ 5) ∧
    (((fab fun t => { t with root := ownUid }).wr Reg.TRL_CFG 1).isRoot = true ∧
      ((fab fun t => { t with root := ownUid }).wr Reg.TRL_CFG 1).Hears (withFcs hdr 4 2 (nats (nul 12))) 4 2 (nats (nul 12)) true) ∧
    (let d := fab fun t => { t with parent := some 2 }
     d.isRoot = false ∧ d.trl.parent = some 2 ∧ 2 ≤ d.trlState 2 ∧ d.Hears (withFcs hdr 4 2 (nats (nul 12))) 4 2 (nats (nul 12)) true) ∧
    (let d := fab fun t => { t with idValid := false }
     d.Hears (withFcs hdr 4 3 (nats ownGrant)) 4 3 (nats ownGrant) true ∧ leAt (nats ownGrant) 0 8 = ownUid ∧
       tb (leAt (nats ownGrant) 8 2) 15 = true ∧ d.bit Reg.TRL_CFG 1 = false ∧ d.trl.idValid = false) ∧
    ((∃ u < 2, leAt (nats (bytes (leBytes 8 u))) 0 8 ≠ ownUid) ∧
      (let d := fab fun t => { t with asked := [(0, 7), (1, 7)] }
       ∀ u < 2, aget d.trl.asked u = some 7 ∧ 2 ≤ d.trlState 7 ∧ d.Hears (withFcs hdr 4 3 (nats (uidCell u))) 4 3 (nats (uidCell u)) true)) :=
  ⟨⟨sealed_good rfl rfl (by decide), by decide +kernel⟩,
    fun w hw => ⟨hears_of rfl (by simp [nats, bytes, routeRec, leBytes]) (by simp [nats, bytes, routeRec, leBytes]) (by decide +kernel),
      by simp [nats, bytes, routeRec, leBytes]⟩,
    by decide +kernel, ⟨root_of (by decide +kernel) rfl, hears_of rfl rfl (by decide) (by refine ⟨?_, ?_, ?_, ?_, ?_⟩ <;> decide +kernel)⟩,
    ⟨by decide +kernel, rfl, by decide +kernel, hears_of rfl rfl (by decide) (by decide +kernel)⟩,
    ⟨hears_of rfl (by rw [grant_len]) (by rw [grant_len]; decide) (by decide +kernel), own_grant.1, own_grant.2, by decide +kernel, rfl⟩,
    ⟨other_uid, fun u hu => ⟨by interval_cases u <;> rfl, by decide +kernel,
      hears_of rfl (by simp [nats, bytes, uidCell, leBytes]) (by simp [nats, bytes, uidCell, leBytes]) (by decide +kernel)⟩⟩⟩

theorem witness_FabricLinks_time :
    (up.bit Reg.BEAM_LT_CTRL 0 = false ∧ (fab).trl.parent = none ∧ { child with lt := 0, trl := { child.trl with syncAt := 5 } }.lt < 5) ∧
    (child.bit Reg.BEAM_LT_CTRL 0 = true ∧ child.trl.parent = some 7 ∧ child.trl.syncAt ≤ child.lt ∧ 2 ≤ child.trlState 7 ∧ child.follows = false ∧
      child.tick.firstLock = true) ∧
    child.Hears (withFcs hdr 0 0 (nats (nul 8))) 0 0 (nats (nul 8)) true ∧ child.Hears (withFcs hdr 0 1 (nats (nul 24))) 0 1 (nats (nul 24)) true ∧
    (let e := up.wr (Reg.TRL_LB_EXP 63) (2 ^ 31)
     tb (up.rd (Reg.TRL_LB_EXP 63)) 31 = false ∧ tb (e.rd (Reg.TRL_LB_EXP 63)) 31 = true ∧ tget e.trl.lbNext 63 ≤ e.lt ∧
       e.lt < tget [(63, 5)] 63) ∧
    cellGood (withFcs hdrTree 0 2 (nats (nul 40))) 0 2 (nats (nul 40)) = true ∧
    ((fab).trlState 7 = 3 ∧ ((fab).trlPort 7).window = [] ∧ ((fab).trlPort 7).waiting = [] ∧ hdrTree.tree = true ∧ hdrTree.hops.toNat < 32 ∧
      aget (fab).trl.lbeam 63 = none ∧
      (∀ n ∈ [8, 9], aget (fab fun t => { t with lbeam := [(63, n, default, 0)] }).trl.lbeam 63 = some (n, default, 0)) ∧ 8 < hdrTree.src.toNat ∧
      hdrTree.src.toNat = 9 ∧ (fab).lt < 0 + 131070) :=
  ⟨by decide +kernel, by decide +kernel, hears_of rfl rfl (by decide) (by decide +kernel), hears_of rfl rfl (by decide) (by decide +kernel),
    by decide +kernel, sealed_good rfl rfl (by decide), by decide +kernel⟩

theorem witness_FabricLinks :
    (∀ s ∈ [0, 1, 2, 3], (port7s s).trlState 7 = s) ∧
    (((fab).trlPort 2).window = [] ∧
      (let d := { fab (fun t => { t with ports := [(7, { (default : TrlPort) with window := [aCell 1] })] }) with lt := 1000 }
       (d.trlPort 7).window = [aCell 1] ∧ { d with lt := 999 }.lt < (aCell 1).at0 + 1000 ∧ (aCell 1).at0 + 1000 ≤ d.lt ∧ d.trlUp 7 = true)) ∧
    ((fab).trl.held = [] ∧
      (let d := fab fun t => { t with held := [aCell 2] }
       d.trl.held = [aCell 2] ∧ { d with lt := 999999 }.lt < (aCell 2).at0 + 1000000 ∧ (aCell 2).at0 + 1000000 ≤ { d with lt := 1000000 }.lt ∧
         (aCell 2).cls ≠ 1 ∧ tget d.trl.prim (aCell 2).dst = 2 + 1 ∧ (d.trlPort 2).window.length < 64 ∧ relClass (aCell 2).cls = true ∧
         2 ≤ d.trlState 2 ∧ tget { d.trl with prim := [] }.prim 9 = 0 ∧ tget d.trl.alt 9 = 0)) ∧
    (collect.Hears (withFcs hdr 1 0 (nats (nul 40))) 1 0 (nats (nul 40)) false ∧ collect.bit Reg.LOG_CFG 1 = true ∧
      findAlm collect.log.alm 0 0 = none ∧ freeAlm collect.log.alm 960 0 < 960) ∧
    (let h := withFcs hdrOn 1 0 (nats (nul 40))
     cellGood h 1 0 (nats (nul 40)) = true ∧ (fab).trlState h.port.val = 3 ∧ h.seq.toNat = ((fab).trlPort 7).rxNext ∧ ((fab).trlPort 7).window = [] ∧
       ((fab).trlPort 7).waiting = [] ∧ h.tree = false ∧ (fab).nodeId ≠ h.dst.toNat ∧ h.hops.toNat < 32 ∧ (fab).Routed h.dst.toNat 2 ∧
       (fab).trl.merge = []) ∧
    (let d := fun m e => fab fun t => { t with merge := [win m e] }
     (d true 1).trl.merge = [win true 1] ∧ (d true 1).lt < (win true 1).ends ∧ (win false 0).ends ≤ (d false 0).lt ∧ (win false 0).merged = false ∧
       (win true 0).merged = true ∧ (d true 0).Routed (win true 0).dst 2) ∧
    (collect.Hears (withFcs hdr 6 0 (nats (nul 32))) 6 0 (nats (nul 32)) false ∧ collect.bit Reg.LOG_CFG 0 = true ∧ collect.log.tail.length < 512 ∧
      (nul 32).length = 32) := by
  unfold Dev.Routed
  exact ⟨by decide +kernel, by decide +kernel, by decide +kernel, ⟨hears_of rfl rfl (by decide) (by decide +kernel), by decide +kernel⟩,
    ⟨sealed_good rfl rfl (by decide), by decide +kernel⟩, by decide +kernel, ⟨hears_of rfl rfl (by decide) (by decide +kernel), by decide +kernel⟩⟩

/-! Handoff, the export space and line commits. -/

def offerRec : List Byte := bytes (leBytes 4 1 ++ [15, 0, 0, 0] ++ leBytes 8 0 ++ List.replicate 64 0)
/-- Handoff input 15 with configuration `cfg`. -/
def hin (cfg : Nat) : Dev := ((fab).wr (Reg.TRL_HIN_CFG 15) cfg).setBeam 7 { up.beam 7 with mode := .run }
def anOffer (t : Nat) : Offer := { (default : Offer) with node := 9, slot := 5, id := 7, at0 := t }
/-- Slot 5 holds item 7 in state `s`, under an open offer; slot 6 is reserved. -/
def hand (s : Nat) : Dev :=
  { (fab fun t => { t with offers := [anOffer 0], resv := [{ anOffer 0 with slot := 6, record := some { (default : Item) with id := 7, state := 1 } }] }) with
    items := { up.items with store := [(5, { (default : Item) with id := 7, state := s })] } }
/-- Export window 7 maps 64 KiB of image SRAM for every peer, writable. -/
def exporting : Dev :=
  (((fab).wr (Reg.TRL_EXP_CFG 7) 0xFFFFFFFF).wr (Reg.TRL_EXP_OFS 7) 0x10000).wr (Reg.TRL_EXP_BASE 7) 0x10000000000
def wrRec (o : Nat) : List Byte := bytes (leBytes 4 o ++ [0, 0, 0, 0] ++ leBytes 8 3 ++ List.replicate 64 1)
def rdRec (n : Nat) : List Byte := bytes (leBytes 4 1 ++ leBytes 4 0 ++ leBytes 2 n ++ [0, 0, 0, 0, 0, 0])
/-- A read of `n` bytes of node 9 by core 3. -/
def aRead (n : Nat) : ExpRead := ⟨1, 3, 0x100900000000, n, 0, []⟩
def reading (n : Nat) : Dev := fab fun t => { t with reads := [aRead n] }
def respRec (status : Nat) : List Byte := bytes [1, 0, 0, 0, status, 0, 0, 0, 9, 9, 9, 9]
def regRec (off : Nat) : List Byte := bytes (leBytes 4 0 ++ leBytes 4 off)

/-- Port 7 takes the next cell, for this node, and port 2 leads to node 9. -/
abbrev IsRx (d : Dev) : Prop :=
  (d.trlState 7 = 3 ∧ (d.trlPort 7).rxNext = 0 ∧ (d.trlPort 7).window = [] ∧ (d.trlPort 7).waiting = [] ∧ d.trl.idValid = true ∧ d.nodeId = 5) ∧
    tget d.trl.prim 9 = 2 + 1 ∧ 2 ≤ d.trlState 2 ∧ (d.trlPort 2).window.length < 64 ∧ d.feeds = false

theorem rx {d : Dev} (x : IsRx d) (cls sub : Nat) (bs : List Nat) (h4 : bs.length % 4 = 0) (hl : bs.length ≤ 256) :
    d.Hears (withFcs hdr cls sub bs) cls sub bs false ∧ d.Routed 9 2 :=
  ⟨hears_of rfl h4 hl ⟨x.1.1, fun _ => x.1.2.1.symm, x.1.2.2.1, x.1.2.2.2.1, .inr ⟨rfl, x.1.2.2.2.2.1, x.1.2.2.2.2.2⟩⟩,
    x.1.2.2.2.2.1, x.2.1, x.2.2.1, x.2.2.2.1⟩

/-- An admitted offer, with sowing on. -/
def admitting : Dev := (hin (0xC0000000 + 7 * 2 ^ 20)).wr Reg.ITEM_CTRL 1
/-- The devices of these witnesses. -/
def linked : List Dev :=
  [fab, hin 0x80000008, hin (0xC0000000 + 7 * 2 ^ 20), admitting, hand 1, hand 2, exporting, reading 4, reading 300]

theorem linked_rx : ∀ d ∈ linked, IsRx d := by decide +kernel

theorem witness_FabricHandoff_heard :
    ∀ d ∈ linked,
      (∀ c ∈ [(3, 0, offerRec), (3, 1, nul 8), (3, 2, nul 12), (3, 3, nul 8), (3, 4, nul 8), (3, 8, wrRec 0xFFC0), (5, 0, rdRec 0),
          (5, 0, rdRec 256), (5, 0, rdRec 257), (5, 1, respRec 0), (5, 1, respRec 1), (4, 8, regRec 0x10000), (4, 8, regRec 0xFFFC), (4, 8, regRec 0xFFFE),
          (4, 9, nul 16)],
        d.Hears (withFcs hdr c.1 c.2.1 (nats c.2.2)) c.1 c.2.1 (nats c.2.2) false) ∧ d.Routed hdr.src.toNat 2 ∧ d.feeds = false := by
  intro d hd
  refine ⟨fun c hc => (rx (linked_rx d hd) _ _ _ ?_ ?_).1, (rx (linked_rx d hd) 1 0 (nats (nul 40)) rfl (by decide)).2, (linked_rx d hd).2.2.2.2⟩ <;>
    revert c hc <;> decide +kernel

theorem witness_FabricHandoff_offers :
    (leAt (nats offerRec) 0 4 = 1 ∧ leAt (nats offerRec) 4 1 % 16 = 15 ∧ tb ((fab).rd (Reg.TRL_HIN_CFG 15)) 31 = false ∧
      (∀ d ∈ linked, (9, 1) ∉ d.trl.seenTxn)) ∧
    (let c := (hin 0x80000008).rd (Reg.TRL_HIN_CFG 15)
     tb c 31 = true ∧ tb c 30 = false ∧ bits c 0 12 ≠ 9) ∧
    (let c := admitting.rd (Reg.TRL_HIN_CFG 15)
     let stops := admitting.setBeam 7 { admitting.beam 7 with mode := .hold }
     let full := { admitting with trl := { admitting.trl with resv := List.replicate 64 (anOffer 0) } }
     let lim := leAt (nats offerRec) 8 8 + admitting.fld Reg.TRL_HO_AGE 0 16 * 1000
     tb c 31 = true ∧ tb c 30 = true ∧ (hin (0xC0000000 + 7 * 2 ^ 20)).rd (Reg.TRL_HIN_CFG 15) = c ∧
       (hin (0xC0000000 + 7 * 2 ^ 20)).bit Reg.ITEM_CTRL 0 = false ∧ admitting.bit Reg.ITEM_CTRL 0 = true ∧
       (admitting.takeSlot false).1 = some 0 ∧ (admitting.beam (bits c 20 3)).mode = .run ∧ (stops.takeSlot false).1 = some 0 ∧
       (stops.beam (bits c 20 3)).mode ≠ .run ∧ admitting.lt ≤ lim ∧ lim < { admitting with lt := lim + 1 }.lt ∧ admitting.trl.resv.length < 64 ∧
       (full.takeSlot false).1.isSome = true ∧ 64 ≤ full.trl.resv.length) ∧
    (∀ s ∈ [1, 2],
      let d := hand s
      d.findOffer 9 0 = some (anOffer 0) ∧ (d.item 5).state = s ∧ (d.item 5).id = 7 ∧ d.bit Reg.ITEM_HRING_CFG 0 = false) ∧
    ((hand 2).findResv 9 0 = some { anOffer 0 with slot := 6, record := some { (default : Item) with id := 7, state := 1 } } ∧
      (anOffer 0).recovered = false ∧ (hand 2).stn.rel = [] ∧ (hand 2).beamList 0 = []) ∧
    ((fab).trl.offers = [] ∧ (fab).trl.resv = []) ∧
    (let d := hand 2
     let tmo := max 1 (d.fld Reg.TRL_HO_TMO 0 16) * 1000
     let hold := max 1 (d.fld Reg.TRL_HO_HOLD 0 16) * 1000000
     d.trl.offers = [anOffer 0] ∧ d.trl.resv.length = 1 ∧ { d with lt := tmo - 1 }.lt < (anOffer 0).at0 + tmo ∧
       (anOffer 0).at0 + tmo ≤ { d with lt := tmo }.lt ∧ { d with lt := hold - 1 }.lt < (anOffer 0).at0 + hold ∧
       (anOffer 0).at0 + hold ≤ { d with lt := hold }.lt) := by
  refine ⟨?_, ?_, ?_, ?_, ?_, ?_, ?_⟩ <;> decide +kernel

theorem witness_FabricHandoff_memory :
    ((fab).peerAddr 9 0xFFC0 64 true = none ∧ exporting.peerAddr 9 0xFFC0 64 true = some 0x1000000FFC0 ∧
      leAt (nats (wrRec 0xFFC0)) 0 4 / 64 * 64 = 0xFFC0) ∧
    (leAt (nats (rdRec 0)) 8 2 = 0 ∧ leAt (nats (rdRec 257)) 8 2 = 257 ∧ (fab).peerAddr 9 0 256 false = none ∧
      leAt (nats (rdRec 256)) 8 2 = 256 ∧ exporting.peerAddr 9 0 256 false = some 0x10000000000 ∧ regionOf 0x10000000000 = .isram ∧
      exporting.hasRange 0x10000000000 256 = true ∧ exporting.stemUp = true) ∧
    (∀ n ∈ [4, 300],
      let r := aRead n
      let l := (nats (respRec 0)).drop 8
      let got := r.got ++ l.take (min 248 (r.len - r.got.length))
      (reading n).trl.reads = [r] ∧ r.src < 25 ∧ leAt (nats (respRec 0)) 0 4 = r.tag ∧ leAt (nats (respRec 1)) 0 4 = r.tag ∧
        leAt (nats (respRec 0)) 4 1 = 0 ∧ leAt (nats (respRec 1)) 4 1 ≠ 0 ∧ ((got.length < r.len ∧ l ≠ []) ↔ n = 300) ∧
        (r.addr + got.length - 0x100000000000) / 2 ^ 32 = 9 ∧ (reading n).lt < r.at0 + 100000 ∧ r.at0 + 100000 ≤ { reading n with lt := 100000 }.lt) ∧
    (0x10000 ≤ leAt (nats (regRec 0x10000)) 4 4 ∧ leAt (nats (regRec 0xFFFC)) 4 4 < 0x10000 ∧ leAt (nats (regRec 0xFFFC)) 4 4 % 4 = 0 ∧
      leAt (nats (regRec 0xFFFE)) 4 4 % 4 ≠ 0) := by
  refine ⟨?_, ?_, ?_, ?_⟩ <;> decide +kernel

theorem export_open : IsOpen exporting 0x1000000FFC0 64 := by decide +kernel

theorem witness_FabricHandoff_write : exporting.Open 0x1000000FFC0 64 := open_of export_open

/-- Group 7 as the peer of a line commit of node 9, or as its initiator. -/
def grp7 (q : Grp) : Dev := ((fab).setF (Reg.COMMIT_GRP_CTRL 7) 8 1 1).setGrp 7 q
def peer7 (t : Nat) (c : Bool) : Grp := { (default : Grp) with mode := .pending, bnd := 4, peer := true, peerFrom := 9, ltTarget := t, confirmed := c }
def init7 (ready : List Nat) (apply : Nat) : Grp :=
  { (default : Grp) with mode := .armed, fabric := true, peers := [9], ready := ready, applyLt := apply }
def prepRec (t : Nat) : List Byte := bytes ([0, 0, 0, 0, 7, 0, 0, 0] ++ leBytes 8 t)
def resulted : Dev := (grp7 (init7 [9] 0)).setF (Reg.TRL_LC_STATUS 7) 16 3 2

def parties : List Dev :=
  [fab, fab fun t => { t with seenLc := [(9, 0)] }, grp7 default, grp7 (peer7 0 false), grp7 (peer7 300 false), grp7 { (default : Grp) with why := 1 },
    grp7 { peer7 300 false with mode := .armed }, grp7 (init7 [] 0), grp7 (init7 [9] 0), resulted]

theorem parties_rx : ∀ d ∈ parties, IsRx d := by decide +kernel

theorem witness_FabricCommits_heard :
    ∀ d ∈ parties,
      (∀ c ∈ [(2, 0, prepRec 0), (2, 0, prepRec 1), (2, 1, nul 4), (2, 2, nul 8), (2, 3, nul 4), (2, 4, nul 4), (2, 5, nul 12),
          (2, 5, bytes (List.replicate 8 0 ++ [1, 0, 0, 0]))],
        d.Hears (withFcs hdr c.1 c.2.1 (nats c.2.2)) c.1 c.2.1 (nats c.2.2) false) ∧ d.Routed hdr.src.toNat 2 ∧ d.feeds = false := by
  intro d hd
  refine ⟨fun c hc => (rx (parties_rx d hd) _ _ _ ?_ ?_).1, (rx (parties_rx d hd) 1 0 (nats (nul 40)) rfl (by decide)).2, (parties_rx d hd).2.2.2.2⟩ <;>
    revert c hc <;> decide +kernel

theorem witness_FabricCommits :
    ((fab fun t => { t with seenLc := [(9, 0)] }).trl.seenLc = [(9, 0)] ∧ leAt (nats (prepRec 0)) 0 4 = 0 ∧ leAt (nats (prepRec 1)) 4 1 % 8 = 7 ∧
      leAt (nats (prepRec 1)) 8 8 = 1 ∧ leAt (nats (prepRec 0)) 8 8 = 0 ∧ (9, 0) ∉ (grp7 default).trl.seenLc) ∧
    ((fab).bit (Reg.COMMIT_GRP_CTRL 7) 8 = false ∧ (grp7 default).bit (Reg.COMMIT_GRP_CTRL 7) 8 = true ∧
      ((grp7 (peer7 0 false)).grp 7).mode = .pending ∧ ((grp7 default).grp 7).mode ≠ .pending ∧ ((grp7 default).grp 7).mode ≠ .armed ∧
      ((grp7 { (default : Grp) with why := 1 }).grp 7).why ≠ 0 ∧ ((grp7 default).grp 7).why = 0 ∧ 0 ≤ (grp7 default).lt ∧ (grp7 default).lt < 1) ∧
    ((grp7 (init7 [] 0)).lcGroup 0 = some 7 ∧ 9 ∈ (init7 [] 0).peers ∧ 9 ∉ (init7 [] 0).ready ∧
      (grp7 (init7 [9] 0)).lcGroup 0 = some 7 ∧ 9 ∈ (init7 [9] 0).ready ∧ (init7 [] 0).refusedBy = []) ∧
    (let lead := max 2 ((grp7 default).fld (Reg.TRL_LC_CFG 7) 8 8) * 1000
     let d := fun (ready : List Nat) => grp7 (init7 ready lead)
     ((grp7 default).grp 7).mode ≠ .armed ∧ (grp7 (init7 [9] (lead + 1))).lt + lead < (init7 [9] (lead + 1)).applyLt ∧
       (∀ ready ∈ [[], [9]], ((d ready).grp 7) = init7 ready lead ∧ (init7 ready lead).applyLt ≤ (d ready).lt + lead ∧ (init7 ready lead).confirmed = false ∧
         tget (d ready).trl.prim 9 = 2 + 1 ∧ (d ready).feeds = false) ∧
       (d [9]).lt + 150 ≤ (init7 [9] lead).applyLt ∧ (init7 [9] 149).applyLt < (grp7 (init7 [9] 149)).lt + 150) ∧
    ((grp7 (peer7 300 false)).peerGroup 9 0 = some 7 ∧ (grp7 { peer7 300 false with mode := .armed }).peerGroup 9 0 = some 7 ∧
      (grp7 (peer7 300 false)).lt + 300 ≤ (peer7 300 false).ltTarget ∧ (peer7 299 false).ltTarget < (grp7 (peer7 299 false)).lt + 300 ∧
      (peer7 300 false).peerFrom = 9) ∧
    (((grp7 default).grp 7).peer = false ∧ (peer7 0 true).confirmed = true ∧ (grp7 (peer7 301 false)).lt + 300 < (peer7 301 false).ltTarget ∧
      (peer7 300 false).ltTarget ≤ (grp7 (peer7 300 false)).lt + 300) ∧
    (((List.range 8).find? fun k => resulted.fld (Reg.TRL_LC_STATUS k) 16 3 != 0 && resulted.armedCsn k == leAt (nats (nul 12)) 0 4) = some 7 ∧
      leAt (nats (nul 12)) 8 1 ≠ 1 ∧ leAt (nats (bytes (List.replicate 8 0 ++ [1, 0, 0, 0]))) 8 1 = 1 ∧ 9 ∉ (resulted.grp 7).results ∧
      9 ∈ (resulted.grp 7).peers ∧ (9 ∈ ({ init7 [9] 0 with results := [9] } : Grp).results)) := by
  refine ⟨?_, ?_, ?_, ?_, ?_, ?_, ?_⟩ <;> decide +kernel

/-! Graft: port 1 is UP. -/

def twin (role : Nat) (f : GrfSt → GrfSt := id) : Dev :=
  let d := (up.setF Reg.GRF_STATUS 0 3 role).setF (Reg.GRF_PORT_STATUS 1) 0 2 3
  { d with grf := f d.grf }
def fhdr : FrameHdr := ⟨1, true, false, 0, 0, 1, 0⟩

/-- The header with the check sequence of its frame. -/
def withFrameFcs (h : FrameHdr) (ty : Nat) (bs : List Nat) : FrameHdr :=
  { h with fcs := BitVec.ofNat 32 (fcs ((frameOctets (ty + b2n h.more * 256) h.gseq.toNat h.ack.toNat h.epoch.toNat bs).take (16 + bs.length))) }

theorem sealed_frame {h : FrameHdr} {ty : Nat} {bs : List Nat} (ho : h.ok = true) (h4 : bs.length % 4 = 0) (hl : bs.length ≤ 1024) :
    frameGood (withFrameFcs h ty bs) ty bs = true := by
  have take : ∀ a b c e : List Nat, ∀ y : List Nat, a.length = 4 → b.length = 4 → c.length = 4 → e.length = 4 →
      (a ++ b ++ c ++ e ++ bs ++ y).take (16 + bs.length) = a ++ b ++ c ++ e ++ bs := by
    intro a b c e y ha hb hc he; exact List.take_left' (by simp [ha, hb, hc, he]; omega)
  simp only [frameGood, withFrameFcs, frameOctets, ho, h4, hl, decide_true, Bool.true_and, beq_self_eq_true, BitVec.toNat_ofNat, leBytes_word]
  rw [take _ _ _ _ _ (leBytes_len _ _) (leBytes_len _ _) (leBytes_len _ _) (leBytes_len _ _)]
  simp

/-- Port 1 takes the next frame. -/
abbrev IsGx (d : Dev) : Prop :=
  d.grfState 1 = 3 ∧ d.grf.rxNext = 0 ∧ d.grf.sentF = [] ∧ d.grf.await = [] ∧ d.grf.early = [] ∧ d.grf.part = []

theorem gx {d : Dev} (x : IsGx d) (ty : Nat) (bs : List Nat) (h4 : bs.length % 4 = 0) (hl : bs.length ≤ 1024) : d.Gets (withFrameFcs fhdr ty bs) ty bs :=
  ⟨sealed_frame rfl h4 hl, rfl, x.1, x.2.1.symm, x.2.2⟩
def beatRec (r u : Nat) (req : Nat := 0) : List Byte := bytes (List.replicate 20 0 ++ [r, req, 0, 0] ++ leBytes 8 u)
def commRec (apply : Nat) : List Byte := bytes (leBytes 4 1 ++ [0, 0, 0, 0] ++ leBytes 8 apply)
def repOf (bs : List Byte) : RepCommit :=
  let x := nats bs
  ⟨leAt x 0 4, leAt x 4 1, leAt x 5 1 % 8, leAt x 8 8, repVals (leAt x 6 2) (x.drop 16) [], [], false⟩
def aRep (swapped : Bool) : RepCommit := ⟨1, 0, 0, 0, [(Reg.DRV_OUT 3, 5)], if swapped then [(Reg.DRV_OUT 3, 0)] else [], swapped⟩
def furRec (n : Nat) : List Byte := bytes ([7, 0] ++ leBytes 2 n ++ List.replicate 112 0)
def memRec : List Byte := bytes (leBytes 6 0x10000000000 ++ [0, 0, 1, 2, 3, 4])
def resRec (ok : Nat) : List Byte := bytes [1, 0, 0, 0, ok, 0, 0, 0]
def setRec : List Byte := bytes (leBytes 4 0x50614 ++ leBytes 4 5)

theorem other_peer : ∃ u < 2, ∀ c ∈ [(1, 0), (1, 1), (2, 0), (4, 0)],
    leAt (nats (beatRec c.1 u c.2)) 24 8 ≠ ownUid ∧ leAt (nats (beatRec c.1 u c.2)) 20 1 % 8 = c.1 ∧ bits (leAt (nats (beatRec c.1 u c.2)) 21 1) 0 2 = c.2 ∧
      leAt (nats (beatRec c.1 u c.2)) 0 4 = 0 := by
  by_cases h : ownUid = 0
  · exact ⟨1, by decide, by rw [h]; decide +kernel⟩
  · have z : ∀ c ∈ [(1, 0), (1, 1), (2, 0), (4, 0)],
        leAt (nats (beatRec c.1 0 c.2)) 24 8 = 0 ∧ leAt (nats (beatRec c.1 0 c.2)) 20 1 % 8 = c.1 ∧
          bits (leAt (nats (beatRec c.1 0 c.2)) 21 1) 0 2 = c.2 ∧ leAt (nats (beatRec c.1 0 c.2)) 0 4 = 0 := by decide +kernel
    exact ⟨0, by decide, fun c hc => ⟨fun e => h (e.symm.trans (z c hc).1), (z c hc).2⟩⟩

theorem twin_open : ∀ r ∈ [3, 4], IsOpen (twin r) 0x10000000000 4 := by decide +kernel

theorem twin_opens : ∀ r ∈ [3, 4], (twin r).Open 0x10000000000 4 := fun r h => open_of (twin_open r h)

/-- A device that feeds a peer other than the one it started with. -/
def feeding : Dev := twin 2 fun g => { g with peerRole := 3, fedUid := 1 }
def waiting (w : Bool) : Dev := twin 4 fun g => { g with commits := [aRep w] }
def onBeam7 : Dev := (twin 3).setF (Reg.BEAM_CTRL 7) 0 1 1
def copied : Dev := twin 2 fun g => { g with peerRole := 3, copied := true }
def locking : Dev := { twin 4 with tick := { (twin 4).tick with firstLock := true } }
def initiating : Dev := (twin 1).setF Reg.GRF_CFG 28 2 1
def wanting : Dev := (twin 0).wr Reg.GRF_PEER_UID 0xFFFF
def twins : List Dev :=
  [twin 0, twin 1, twin 2, twin 3, twin 4, feeding, waiting true, waiting false, onBeam7, copied, locking, initiating, wanting]

theorem twins_gx : ∀ d ∈ twins, IsGx d := by decide +kernel

theorem witness_TwinFrames_heard :
    ∀ d ∈ twins,
      (∀ c ∈ [(2, commRec 150), (2, commRec 149), (3, resRec 1), (3, resRec 2), (4, furRec 0), (4, furRec 1), (5, memRec), (6, nul 40),
          (7, nul 8), (8, nul 24), (9, nul 76), (10, nul 0), (11, nul 4), (12, memRec), (13, setRec), (14, nul 0)],
        d.Gets (withFrameFcs fhdr c.1 (nats c.2)) c.1 (nats c.2)) ∧
      ∀ r u req, d.Gets (withFrameFcs fhdr 1 (nats (beatRec r u req))) 1 (nats (beatRec r u req)) := by
  intro d hd
  refine ⟨fun c hc => gx (twins_gx d hd) _ _ ?_ ?_, fun r u req => gx (twins_gx d hd) _ _ ?_ ?_⟩
  · revert c hc; decide +kernel
  · revert c hc; decide +kernel
  all_goals simp [nats, bytes, beatRec, leBytes]

theorem witness_TwinFrames_beats :
    (∃ u < 2, ∀ c ∈ [(1, 0), (1, 1), (2, 0), (4, 0)],
      leAt (nats (beatRec c.1 u c.2)) 24 8 ≠ ownUid ∧ leAt (nats (beatRec c.1 u c.2)) 20 1 % 8 = c.1 ∧ bits (leAt (nats (beatRec c.1 u c.2)) 21 1) 0 2 = c.2 ∧
        leAt (nats (beatRec c.1 u c.2)) 0 4 = 0) ∧
    (∀ r ∈ [0, 1, 2], (twin r).role = r ∧ (twin r).rd Reg.GRF_PEER_UID = 0) ∧
    (wanting.role = 0 ∧ wanting.rd Reg.GRF_PEER_UID = 0xFFFF ∧ ∀ u < 2, leAt (nats (beatRec 1 u)) 24 8 ≠ 0xFFFF) ∧
    ((twin 1).fld Reg.GRF_CFG 28 2 ≠ 1 ∧ initiating.fld Reg.GRF_CFG 28 2 = 1 ∧ initiating.role = 1 ∧ initiating.rd Reg.GRF_PEER_UID = 0) ∧
    ((twin 2).grf.peerRole ≠ 3 ∧ (twin 2).grf.peerRole ≠ 4 ∧ csnBefore ((twin 2).rd Reg.GRF_EPOCH) fhdr.epoch.toNat = true ∧
      (twin 2).grf.deposeAt = none) ∧
    (copied.role = 2 ∧ copied.grf.peerRole = 3 ∧ copied.grf.copied = true ∧ copied.bit Reg.GRF_STATUS 3 = false ∧ copied.rd Reg.GRF_PEER_UID = 0) := by
  refine ⟨other_peer, ?_, ?_, ?_, ?_, ?_⟩ <;> decide +kernel

theorem witness_TwinFrames :
    ((∀ r ∈ [3, 4], (twin r).role = r ∧ (twin r).trl.idValid = false) ∧ (twin 4).repAhead (repOf (commRec 150)) = some 150 ∧
      (twin 4).repAhead (repOf (commRec 149)) = some 149) ∧
    (∀ w : Bool,
      (waiting w).grf.commits = [aRep w] ∧ (waiting w).role = 4 ∧ (aRep w).csn = leAt (nats (resRec 1)) 0 4 ∧
        (aRep w).csn = leAt (nats (resRec 2)) 0 4 ∧ (aRep w).csn ≠ 0 ∧ (aRep w).swapped = w ∧ leAt (nats (resRec 1)) 4 1 = 1 ∧
        leAt (nats (resRec 2)) 4 1 ≠ 1 ∧ (∀ p ∈ (aRep w).undo, hookFree p.1 = true ∧ (regRow p.1).isSome = true) ∧
        ∀ p ∈ (aRep w).vals, hookFree p.1 = true ∧ (regRow p.1).isSome = true) ∧
    (leAt (nats (furRec 0)) 2 2 = 0 ∧ leAt (nats (furRec 1)) 2 2 = 1 ∧ ((nats (furRec 1)).drop 32).headD 3 = 0) ∧
    (leAt (nats memRec) 0 6 = 0x10000000000 ∧ (nats memRec).length - 8 = 4 ∧ (twin 3).grf.units.contains (0x10000000000 / 256) = false ∧
      ∀ r ∈ [3, 4], (twin r).Open 0x10000000000 4) ∧
    (let d := twin 4
     let near := recOfBytes ((nats (nul 40)).drop 4)
     let far := recOfBytes ((nats (bytes (List.replicate 4 0 ++ recF.map BitVec.toNat))).drop 4)
     near.jump = false ∧ -(64 * dotUnit) ≤ distL (d.fpf 0) (d.beam 0).l (near.at d.lt) ∧ distL (d.fpf 0) (d.beam 0).l (near.at d.lt) ≤ 64 * dotUnit ∧
       64 * dotUnit < distL (d.fpf 0) (d.beam 0).l (far.at d.lt)) ∧
    (up.follows = false ∧ (twin 4).follows = true ∧ (twin 4).lt < (twin 4 fun g => { g with syncs := 1 }).grf.syncs ∧
      (twin 4).grf.syncs ≤ (twin 4).lt) ∧
    ((twin 2).role = 2 ∧ locking.follows = true ∧ locking.tick.firstLock = true) ∧
    ((twin 4).role ≠ 2 ∧ (feeding.role = 2 ∧ feeding.grf.peerRole = 3 ∧ feeding.grf.fedUid ≠ feeding.grf.peerUid) ∧
      (let d := twin 2
       d.bit Reg.GRF_STATUS 3 = false ∧ d.grf.peerRole ≠ 3 ∧ d.grf.peerRole ≠ 4 ∧ d.commit.snapOpen = false ∧ (∀ p ∈ d.commit.grps, p.1 < 8) ∧
         (∀ g < 8, (d.grp g).mode ≠ .pending) ∧ d.claimsOf 8 = [] ∧ d.dataOff = false ∧ d.writesOut d.commit.order 24 = false)) ∧
    (((repVals ((nats setRec).length / 8) (nats setRec) []).filter fun p => !(twin 3).grf.setKeys.contains p.1) = [(Reg.DRV_OUT 3, 5)] ∧
      hookFree (Reg.DRV_OUT 3) = true ∧ (regRow (Reg.DRV_OUT 3)).isSome = true ∧
      (onBeam7.role = 3 ∧ ∃ b < 8, onBeam7.bit (Reg.BEAM_CTRL b) 0 = true ∧ b ∉ onBeam7.grf.furrows) ∧
      (∀ b < 8, (twin 3).bit (Reg.BEAM_CTRL b) 0 = true → b ∈ (twin 3).grf.furrows)) := by
  refine ⟨?_, ?_, ?_, ⟨?_, ?_, ?_, twin_opens⟩, ?_, ?_, ?_, ?_, ?_⟩ <;> decide +kernel

def beatDue : Dev := { twin 4 (fun g => { g with missed := 1, hbTick := 7 }) with lt := 1000000 }

theorem witness_TwinRoles :
    (up.grfState 0 ≠ 1 ∧ (up.setF (Reg.GRF_PORT_STATUS 1) 0 2 1).grfState 1 = 1 ∧ up.grfState 0 < 2 ∧ (twin 4).grfState 1 = 3) ∧
    (((twin 4).grf.sentF = []) ∧
      (let d := { (up.setF (Reg.GRF_PORT_STATUS 0) 0 2 3) with lt := 2000, grf := { up.grf with sentF := [(0, 1, [], 0)] } }
       d.grf.sentF = [(0, 1, [], 0)] ∧ 0 + 2000 ≤ d.lt ∧ d.grfState 0 = 3 ∧ d.grfState 1 ≠ 3)) ∧
    ((twin 1).follows = false ∧ (twin 1).feeds = false ∧ (twin 4 fun g => { g with hbSeen := true }).grf.hbSeen = true ∧
      (twin 4).lt < (twin 4).tick.start + (twin 4).hbDeadline ∧
      (beatDue.role = 4 ∧ beatDue.grf.hbSeen = false ∧ beatDue.tick.start + beatDue.hbDeadline ≤ beatDue.lt ∧
        beatDue.grf.hbTick ≠ beatDue.rd Reg.BEAM_TICK_NUM ∧ (twin 4).grf.hbTick = (twin 4).rd Reg.BEAM_TICK_NUM ∧ (twin 4).grf.missed = 0 ∧
        0 < beatDue.grf.missed ∧ beatDue.bit Reg.GRF_CFG 30 = false ∧ (beatDue.setF Reg.GRF_CFG 30 1 1).bit Reg.GRF_CFG 30 = true)) ∧
    ((twin 2).grf.deposeAt = none ∧
      (let d := twin 2 fun g => { g with deposeAt := some 1 }
       d.grf.deposeAt = some 1 ∧ d.lt < 1 ∧ 1 ≤ { d with lt := 1 }.lt ∧ d.role = 2 ∧ d.trlOn = false ∧ ∀ p < 8, d.trlUp p = false)) ∧
    ((twin 2).role ≠ 1 ∧
      (let d := twin 1 fun g => { g with pairEnds := 1 }
       d.role = 1 ∧ d.grf.pairEnds ≠ 0 ∧ d.lt < d.grf.pairEnds ∧ d.grf.pairEnds ≤ { d with lt := 1 }.lt ∧ d.fld Reg.GRF_CFG 28 2 ≠ 1 ∧
         (d.setF Reg.GRF_CFG 28 2 1).fld Reg.GRF_CFG 28 2 = 1)) ∧
    ((∀ r ∈ [0, 1, 2, 3, 4, 5], (twin r).Reach 24 Reg.GRF_CTRL ∧ (twin r).role = r ∧ (twin r).grf.await = []) ∧ (twin 5).trlOn = false ∧ (twin 5).trl.idValid = false ∧
      (∀ p < 8, (twin 5).trlUp p = false) ∧ (twin 4).trlOn = false ∧ (twin 3).trlOn = false ∧ (twin 1).trlOn = false ∧ (twin 1).trl.idValid = false ∧
      (∀ p < 8, (twin 1).trlUp p = false) ∧ (twin 4).tickNs ≠ 0) ∧
    ((twin 2).role ≠ 4 ∧ (twin 4).grf.takeAt = none ∧
      (let d := twin 4 fun g => { g with takeAt := some 1 }
       d.grf.takeAt = some 1 ∧ d.role = 4 ∧ d.lt < 1 ∧ 1 ≤ { d with lt := 1 }.lt ∧ d.trlOn = false ∧ d.grf.commits = [] ∧ d.grf.steps = [] ∧ d.grf.caps = [] ∧
         d.items.store = [] ∧ ∀ k < 512, d.bit (Reg.STN_CFG k) 31 = false)) := by
  unfold Dev.Reach; refine ⟨?_, ?_, ?_, ?_, ?_, ?_, ?_⟩ <;> decide +kernel

/-! Power, clocks and health. -/

def pwrDev (f : PwrSt → PwrSt) (d : Dev := up) : Dev := { d with pwr := f d.pwr }
def lowDev (step low : Nat) (d : Dev := up) : Dev := pwrDev (fun p => { p with step := step, low := low }) d
def imageOff : Dev := (entryDoms 2).foldl (fun d k => d.setDom k false) up
def wakes : Dev := up.setF Reg.PWR_WAKE_CFG 1 1 1
/-- Domain 35 is asked to go off, which it refuses. -/
def held35 : Dev := up.setF (Reg.PWR_DOM_REQ 1) 3 1 0
def offMem : Dev := up.setDom 64 false

theorem witness_PowerStates :
    (up.Reach 24 (Reg.PWR_DOM_REQ 2) ∧ up.domReq 66 = true ∧ tb (0 : BitVec 32).toNat (66 % 32) = false ∧ domFixed 66 = false ∧ up.domOn 66 = true ∧
      held35.nextDom = some 35 ∧ held35.pwr.step = 0 ∧ held35.pwr.switching = none ∧ held35.domReq 35 = false ∧ held35.domRefused 35 = true ∧
      up.domOn 0 = true ∧ up.domRefused 0 = true ∧ up.Reach 24 (Reg.PWR_DOM_REQ 0)) ∧
    ((lowDev 3 2).pwr.step = 3 ∧ (pwrDev fun p => { p with switching := some (40, true) }).pwr.step = 0 ∧ up.nextDom = none ∧ up.pwr.switching = none ∧
      (∀ k ∈ [7, 16, 33, 35, 39, 66], (up.setDom k false).nextDom = some k ∧ (up.setDom k false).pwr.step = 0) ∧ domRetains 7 = true ∧
      domRetains 16 = true ∧ (up.stemEnd 0).retry.length < 64 ∧ (up.stemEnd 0).queue = [] ∧ (up.setDom 39 false).stemUp = true) ∧
    ((lowDev 1 2 imageOff).pwr.woke = [] ∧ ∀ k ∈ entryDoms 2, (lowDev 1 2 imageOff).domOn k = false) ∧
    (∀ e ∈ [(Reg.TMR_COUNT 0, true), (Reg.DRV_OUT 0, false)],
      row e.1 (fun r => (r.cmt == 0) == e.2) = true ∧ (up.setDom (powDomain e.1) false).domOn (powDomain e.1) = false ∧
        (up.setDom (powDomain e.1) false).stemUp = true ∧ ∀ src < 30, (up.setDom (powDomain e.1) false).standbyDrops src = false) ∧
    (offMem.domOn 64 = false ∧ offMem.standbyDrops 25 = false ∧ 0x10000000000 ≤ (0x10000FFFFFF : BitVec 48).toNat ∧ (0x10000FFFFFF : BitVec 48).toNat + 1 ≤ 0x10001000000) ∧
    (up.Reach 25 Reg.PWR_STATE_REQ ∧ up.stateRefuse 2 = 0 ∧ up.stateRefuse 3 = 0 ∧ (twin 2).stateRefuse 2 ≠ 0 ∧ (twin 2).stateRefuse 3 ≠ 0 ∧
      up.pwr.step ≠ 3 ∧ (twin 2).Reach 25 Reg.PWR_STATE_REQ ∧
      (let d := lowDev 3 2
       d.Reach 25 Reg.PWR_STATE_REQ ∧ (∀ k < 68, d.domReq k = true ∨ domFixed k = true → d.domOn k = true) ∧ d.follows = false ∧ d.role ≠ 5)) ∧
    (up.pwr.step = 0 ∧ up.wakeOk 1 0 = false ∧ wakes.wakeOk 1 0 = true ∧ wakes.cloche = false ∧ (lowDev 1 2 wakes).wakeOk 1 0 = true ∧ (lowDev 2 2 wakes).wakeOk 1 0 = true ∧ (lowDev 1 2 wakes).follows = false ∧
      (lowDev 1 2 wakes).role ≠ 5) ∧
    ((up.stemEnd 1).retry.length < 64 ∧ (up.stemEnd 1).queue = [] ∧ up.stemUp = true ∧ up.domOn 66 = tb (0x8000000 : BitVec 28).toNat 27) := by
  unfold Dev.Reach; refine ⟨?_, ?_, ?_, ?_, ?_, ?_, ?_, ?_⟩ <;> decide +kernel

/-- Cluster 5 wants another clock than it has. -/
def clus5 : Dev := up.setF (Reg.CLK_CLUS_SEL 5) 0 11 800
def capped (dl : Nat) (hurry : Bool) : Dev :=
  pwrDev (fun p => { p with capWait := some (dl, hurry) }) (clus5.setBeam 0 { up.beam 0 with mode := .run })
def cool : Dev := (up.setF Reg.HEALTH_THERM 0 8 100).setF Reg.HEALTH_THERM 8 8 110

theorem witness_ClocksAndHealth :
    (up.clusWant 5 = up.fld (Reg.CLK_CLUS_SEL 5) 0 11 ∧ clus5.clusWant 5 ≠ clus5.fld (Reg.CLK_CLUS_SEL 5) 0 11 ∧ clus5.grp7Free = true ∧
      clus5.pwr.capWait = none ∧ clus5.follows = false ∧ (clus5.grp 7).why = 0 ∧ aget clus5.commit.claims (Reg.CLK_CLUS_SEL 5) = none ∧
      (clus5.setGrp 7 { (default : Grp) with mode := .armed }).grp7Free = false) ∧
    (let d := capped 1 false
     d.pwr.capWait = some (1, false) ∧ (pwrDev (fun p => { p with capWait := some (1, false) }) up).capLowers = [] ∧ d.capLowers = [5] ∧
       (d.setGrp 7 { (default : Grp) with mode := .armed }).grp7Free = false ∧ (d.beam (d.fld Reg.HEALTH_CFG 24 3)).mode = .run ∧
       d.fld Reg.HEALTH_CFG 24 3 = 0 ∧ { d with items := itm.items }.beamLive 0 ≠ 0 ∧ d.lt < 1 ∧ d.beamLive 0 = 0 ∧ d.grp7Free = true ∧
       d.follows = false ∧ (d.grp 7).why = 0 ∧ ∀ c < 6, aget d.commit.claims (Reg.CLK_CLUS_SEL c) = none) ∧
    ((∀ i < 10, sx 16 0 < (cool.fld Reg.HEALTH_THERM 0 8 : Int) * 16 ∧ sx 16 0 < (cool.fld Reg.HEALTH_THERM 8 8 : Int) * 16 ∧ sx 16 0 < 1920) ∧
      (∀ i < 24, cool.temp i < 1920) ∧ cool.pwr.caps = [] ∧ cool.pwr.trip = false ∧ cool.cloche = false ∧ cool.pwr.ms + 1 < 3600000) ∧
    (sx 16 (1599 : BitVec 16).toNat < (cool.fld Reg.HEALTH_THERM 0 8 : Int) * 16 ∧ (cool.fld Reg.HEALTH_THERM 0 8 : Int) * 16 ≤ sx 16 (1600 : BitVec 16).toNat ∧
      sx 16 (1600 : BitVec 16).toNat < (cool.fld Reg.HEALTH_THERM 8 8 : Int) * 16 ∧ cool.temp 23 < (cool.fld Reg.HEALTH_THERM 0 8 : Int) * 16) ∧
    ((up.stemEnd 1).retry.length < 64 ∧ (up.stemEnd 1).queue = [] ∧ up.stemUp = true) ∧
    ((90 : BitVec 16).toNat = 6 * 15 ∧ (List.replicate 6 (0 : BitVec 32)).length = 6) ∧
    (up.pwr.planDue = false ∧ (pwrDev fun p => { p with planDue := true }).pwr.planDue = true ∧ ∀ r < 8, up.bit (Reg.PWR_RAIL_CFG r) 31 = false) := by
  refine ⟨?_, ?_, ?_, ?_, ?_, ?_, ?_⟩ <;> decide +kernel

/-! Log, alarms and traces. -/

/-- The log is on with path `p`, which has 64 bytes in each ms for each kind. -/
def logDev (p : Nat) (f : LogSt → LogSt := id) (d : Dev := fab) : Dev :=
  let d := (((d.wr Reg.LOG_CFG (2 ^ (4 + p) + 1 + 9 * 65536)).wr (Reg.LOG_PATH_ALM p) 1).wr (Reg.LOG_PATH_LOG p) 1).wr (Reg.LOG_PATH_TRC p) 1
  let d := ((d.wr Reg.LOG_ARING_BASE 0x10000000000).wr Reg.LOG_RING_BASE 0x10000000000).wr Reg.HOST_ETH_PEER 9
  let d := (d.setF Reg.HOST_CTRL 1 1 1).setF Reg.HOST_STATUS 8 1 1
  { d with log := f d.log }
def logOff : Dev := up.wr Reg.LOG_CFG 0
def aRec (n : Nat) : LogRec := { (default : LogRec) with seq := n }
def anAlm (pend : Tab Bool) : Alm := { (default : Alm) with subject := 7, fclass := 0x40, pend := pend }
def almAt (n p : Nat) (pend : Tab Bool) : Dev := logDev p fun l => { l with alm := [(n, anAlm pend)] }

theorem log_open : IsOpen (almAt 959 0 [(0, true)]) 0x10000000000 32 ∧ IsOpen (logDev 0 fun l => { l with tail := [aRec 1], spentA := [(0, 64)] }) 0x10000000000 32 := by
  refine ⟨?_, ?_⟩ <;> decide +kernel

theorem witness_LogsAndAlarms :
    (logOff.Reach 24 Reg.LOG_PUT ∧ logOff.bit Reg.LOG_CFG 0 = false ∧ (logDev 0).Reach 24 Reg.LOG_PUT ∧ (logDev 0).bit Reg.LOG_CFG 0 = true ∧
      (logDev 0).log.tail.length < 512 ∧
      (let d := logDev 0 fun l => { l with tail := List.replicate 512 (aRec 1) }
       d.log.tail = aRec 1 :: aRec 1 :: List.replicate 510 (aRec 1) ∧ 512 ≤ d.log.tail.length ∧ (aRec 1).kind ≠ 1)) ∧
    (findAlm (almAt 959 0 []).log.alm (7 : BitVec 12).toNat (0x40 : BitVec 8).toNat = some 959 ∧ aget (almAt 959 0 []).log.alm 959 = some (anAlm []) ∧
      findAlm up.log.alm (7 : BitVec 12).toNat (0x40 : BitVec 8).toNat = none ∧ freeAlm up.log.alm 960 0 = 0) ∧
    (up.Reach 29 Reg.LOG_ALM_RAISE ∧ bits (0x7003F : BitVec 32).toNat 0 16 < 0x40 ∧ 0x7F < bits (0x70080 : BitVec 32).toNat 0 16 ∧
      0x40 ≤ bits (0x70040 : BitVec 32).toNat 0 16 ∧ bits (0x7007F : BitVec 32).toNat 0 16 ≤ 0x7F ∧ findAlm up.log.alm 7 0x7F = none) ∧
    (aget up.log.alm 1023 = none ∧ aget (almAt 1023 1 []).log.alm 1023 = some (anAlm []) ∧ (almAt 1023 1 []).almPends 1 (anAlm []) = false ∧
      (∀ p < 3,
        let a := anAlm [(p, true)]
        let d := almAt 959 p [(p, true)]
        d.almPends p a = true ∧ d.almHeldOff p a = true ∧ tget d.log.spentA p + 32 ≤ d.resAlm p ∧ aget d.log.alm 959 = some a ∧
          { d with log := { d.log with spentA := [(p, 33)] } }.resAlm p < 33 + 32) ∧
      (almAt 959 1 [(1, true)]).ethPeer = some 9 ∧ (almAt 959 2 [(2, true)]).fld Reg.LOG_CFG 16 12 = 9) ∧
    (let d := almAt 959 0 [(0, true)]
     clampN 4 16 (d.fld Reg.LOG_ARING_CFG 0 5) = 8 ∧ d.fld Reg.LOG_ARING_WR 0 17 = 0 ∧ d.fld Reg.LOG_ARING_BASE 0 48 + 32 * (0 % 2 ^ 8) = 0x10000000000 ∧
       (0 + 2 ^ 17 - d.fld Reg.LOG_ARING_RD 0 17) % 2 ^ 17 < 2 ^ 8 ∧ (∀ j < 32, d.inRing (0x10000000000 + j) = false) ∧ d.Open 0x10000000000 32) ∧
    (almAt 959 2 [(2, true)]).Routed 9 2 ∧
    (let d := almAt 1023 0 []
     let e := { (almAt 1023 0 []).setF Reg.LOG_CFG 3 1 1 with lt := 10 * (almAt 1023 0 []).almHold }
     d.Reach 24 Reg.LOG_ALM_ACK ∧ bits (1023 : BitVec 32).toNat 0 10 = 1023 ∧ aget d.log.alm 1023 = some (anAlm []) ∧
       (∀ p < 3, d.almPends p (anAlm []) = false ∧ (d.logPath p = true → tget (anAlm []).new p = 0)) ∧
       ¬ (almAt 1023 0 [(0, true)]).almPends 0 (anAlm [(0, true)]) = false ∧ d.bit Reg.LOG_CFG 3 = false ∧ e.bit Reg.LOG_CFG 3 = true ∧
       (∀ p < 3, e.logPath p = true → tget { anAlm [] with written := [(0, 1)] }.written p ≠ 0) ∧ (anAlm []).lastLt + 10 * e.almHold ≤ e.lt) ∧
    up.logWaits 2 = false ∧
    (∀ p < 3,
      let d := logDev p fun l => { l with tail := [aRec 1], spentA := [(p, 64)] }
      d.log.tail = [aRec 1] ∧ (aRec 1).kind ≠ 1 ∧ d.logPath p = true ∧ (∀ q < 3, q ≠ p → d.logPath q = false) ∧ tget d.log.next p = 0 ∧ 32 ≤ { d with log := { d.log with spentL := [(p, 1)] } }.logCredit p ∧
        { d with log := { d.log with spentL := [(p, 1)] } }.logCredit p < 64) ∧
    (let d := logDev 0 fun l => { l with tail := [aRec 1], spentA := [(0, 64)] }
     d.ringAt (d.rd Reg.LOG_RING_WR) = 0x10000000000 ∧ d.Open 0x10000000000 32 ∧
       (d.rd Reg.LOG_RING_WR + 2 ^ 32 - d.rd Reg.LOG_RING_RD) % 2 ^ 32 ≠ 2 ^ (d.ringK - 5)) ∧
    (let d := up.wr Reg.LOG_RING_WR 2
     d.Reach 24 Reg.LOG_RING_RD ∧ 0 < ((2 : BitVec 32).toNat + 2 ^ 32 - d.rd Reg.LOG_RING_RD) % 2 ^ 32 ∧
       ((2 : BitVec 32).toNat + 2 ^ 32 - d.rd Reg.LOG_RING_RD) % 2 ^ 32 ≤ (d.rd Reg.LOG_RING_WR + 2 ^ 32 - d.rd Reg.LOG_RING_RD) % 2 ^ 32 ∧
       (d.rd Reg.LOG_RING_WR + 2 ^ 32 - d.rd Reg.LOG_RING_RD) % 2 ^ 32 < ((3 : BitVec 32).toNat + 2 ^ 32 - d.rd Reg.LOG_RING_RD) % 2 ^ 32) ∧
    (up.Reach 24 Reg.LOG_TRING_RD ∧ up.tringK = 16 ∧ (up.rd Reg.LOG_TRING_WR % 2 ^ 21 + 2 ^ 21 - (0x1F0000 : BitVec 32).toNat % 2 ^ 21) % 2 ^ 21 = 65536 ∧
      (up.rd Reg.LOG_TRING_WR % 2 ^ 21 + 2 ^ 21 - (0x1EFFFF : BitVec 32).toNat % 2 ^ 21) % 2 ^ 21 = 65537) ∧
    (let d := logDev 0 fun l => { l with spentT := [(0, 128)] }
     logOff.Reach 24 (Reg.LOG_TRC_PUT 63) ∧ (∀ p < 3, logOff.logPath p = false) ∧ d.Reach 24 (Reg.LOG_TRC_PUT 63) ∧
       (tget d.log.offers 63 + 1) % 2 ^ d.trcShift 63 = 0 ∧ d.logPath 0 = true ∧ d.logPath 1 = false ∧ d.logPath 2 = false ∧
       (d.setF (Reg.LOG_TRC_CFG 63) 0 1 1).bit (Reg.LOG_TRC_CFG 63) 0 = true ∧ (tget d.log.buf 0).length < 64 ∧
       { d with log := { d.log with spentT := [(0, 300)] } }.trcCredit 0 < 16) ∧
    (let d := { logDev 0 (fun l => { l with offered := [(0, 65)] }) with lt := 1000000 }
     up.lt / 1000000 = up.log.ms ∧ { logOff with lt := 1000000 }.lt / 1000000 ≠ logOff.log.ms ∧ (∀ p < 3, logOff.logPath p = false) ∧
       d.lt / 1000000 ≠ d.log.ms ∧ d.logPath 0 = true ∧ d.logPath 1 = false ∧ d.logPath 2 = false ∧ tget d.log.buf 0 = [] ∧
       d.resTrc 0 < tget d.log.offered 0) := by
  unfold Dev.Reach Dev.Routed
  refine ⟨?_, ?_, ?_, ?_, ⟨?_, ?_, ?_, ?_, ?_, open_of log_open.1⟩, ?_, ?_, ?_, ?_, ⟨?_, open_of log_open.2, ?_⟩, ?_, ?_, ?_, ?_⟩ <;> decide +kernel

/-! Security, boot and resets. -/

def secDev (f : SecSt → SecSt) (d : Dev := up) : Dev := { d with sec := f d.sec }
def armedSec : Dev := secDev fun s => { s with pwd := List.replicate 32 1, oem := [1], pk := [(0, [1])] }
def secLocked : Dev := up.setF Reg.SEC_STATE 0 2 1
def secOpen : Dev := up.setF Reg.SEC_STATE 0 2 2
def zeros16 : List Nat := List.replicate 16 0
/-- A password whose hash is programmed: sixteen bytes of zeros. -/
def pwdSet : Dev := secDev fun s => { s with pwd := sha256 zeros16 }
def imgHead (target load len : Nat) : List Nat :=
  leBytes 4 0x4D495747 ++ [1, 0, target, 0] ++ List.replicate 8 0 ++ leBytes 6 load ++ [0, 0] ++ leBytes 4 len ++ List.replicate 228 0
def codeImg : List Nat := imgHead 2 0x20001000000 1 ++ [0xAB]
def bootImg : List Byte := bytes (imgHead 0 0x3FE00000000 1 ++ [0xAB])

/-- SEC_DATA holding eight words. -/
def withData (d : Dev) (h : List Nat) : Dev := (List.range 8).foldl (fun d i => d.wr (Reg.SEC_DATA i) (leNum (beBytes 4 (h.getD i 0)))) d

theorem le4 {a b c e : Nat} (ha : a < 256) (hb : b < 256) (hc : c < 256) (he : e < 256) :
    leBytes 4 (leNum [a, b, c, e] % 2 ^ 32) = [a, b, c, e] := by
  simp only [leNum, leBytes, Nat.mod_eq_of_lt ha, Nat.mod_eq_of_lt hb, Nat.mod_eq_of_lt hc, Nat.mod_eq_of_lt he, List.cons.injEq, and_true]
  omega

theorem le_be (x : Nat) : leBytes 4 (leNum (beBytes 4 x) % 2 ^ 32) = beBytes 4 x :=
  le4 (Nat.mod_lt _ (by decide)) (Nat.mod_lt _ (by decide)) (Nat.mod_lt _ (by decide)) (Nat.mod_lt _ (by decide))

theorem rd_withData (d : Dev) (h : List Nat) {i : Nat} (hi : i < 8) :
    (withData d h).rd (Reg.SEC_DATA i) = leNum (beBytes 4 (h.getD i 0)) % 2 ^ 32 := by
  have e : ∀ j < 8, regWidth (Reg.SEC_DATA j) 32 = true := by decide +kernel
  have ne : ∀ j < 8, ∀ k < 8, j ≠ k → Reg.SEC_DATA j ≠ Reg.SEC_DATA k := by decide +kernel
  have step : ∀ n ≤ 8, i < n → ((List.range n).foldl (fun d i => d.wr (Reg.SEC_DATA i) (leNum (beBytes 4 (h.getD i 0)))) d).rd (Reg.SEC_DATA i) =
      leNum (beBytes 4 (h.getD i 0)) % 2 ^ 32 := by
    intro n
    induction n with
    | zero => intro _ h0; omega
    | succ n ih =>
      intro hn hin
      rw [List.range_succ, List.foldl_append, List.foldl_cons, List.foldl_nil]
      by_cases hc : i = n
      · subst hc; exact Dev.rd_wr_w _ _ (e i hi)
      · rw [Dev.rd_wr_other _ _ (ne i hi n (by omega) hc)]
        exact ih (by omega) (by omega)
  exact step 8 (Nat.le_refl 8) hi

theorem secData_withData (d : Dev) {h : List Nat} (e : h.length = 8) : (withData d h).secData 32 = h.flatMap (beBytes 4) := by
  match h, e with
  | [a, b, c, x, p, q, r, s], _ =>
    have w := fun i (hi : i < 8) => rd_withData d [a, b, c, x, p, q, r, s] hi
    simp only [Dev.secData, List.range, List.range.loop, List.flatMap_cons, List.flatMap_nil, w 0 (by omega), w 1 (by omega), w 2 (by omega),
      w 3 (by omega), w 4 (by omega), w 5 (by omega), w 6 (by omega), w 7 (by omega), le_be]
    simp [beBytes, leBytes]

theorem withData_other (d : Dev) (h : List Nat) {k : Nat} (hk : ∀ j < 8, k ≠ Reg.SEC_DATA j) : (withData d h).rd k = d.rd k := by
  have step : ∀ n ≤ 8, ((List.range n).foldl (fun d i => d.wr (Reg.SEC_DATA i) (leNum (beBytes 4 (h.getD i 0)))) d).rd k = d.rd k := by
    intro n
    induction n with
    | zero => intro _; rfl
    | succ n ih =>
      intro hn
      rw [List.range_succ, List.foldl_append, List.foldl_cons, List.foldl_nil, Dev.rd_wr_other _ _ (hk n (by omega))]
      exact ih (by omega)
  exact step 8 (Nat.le_refl 8)

theorem withData_sec (d : Dev) (h : List Nat) : (withData d h).sec = d.sec ∧ (withData d h).lt = d.lt := by
  have wr : ∀ (d : Dev) (k v : Nat), (d.wr k v).sec = d.sec ∧ (d.wr k v).lt = d.lt := by
    intro d k v; unfold Dev.wr; split <;> exact ⟨rfl, rfl⟩
  have step : ∀ n, ((List.range n).foldl (fun d i => d.wr (Reg.SEC_DATA i) (leNum (beBytes 4 (h.getD i 0)))) d).sec = d.sec ∧
      ((List.range n).foldl (fun d i => d.wr (Reg.SEC_DATA i) (leNum (beBytes 4 (h.getD i 0)))) d).lt = d.lt := by
    intro n
    induction n with
    | zero => exact ⟨rfl, rfl⟩
    | succ n ih =>
      rw [List.range_succ, List.foldl_append, List.foldl_cons, List.foldl_nil]
      exact ⟨(wr _ _ _).1.trans ih.1, (wr _ _ _).2.trans ih.2⟩
  exact step 8

/-- A nonce was drawn, and the OEM key is programmed. -/
def nonced : Dev := secDev fun s => { s with oem := [1], nonceAt := 1 }
/-- The words whose bytes are the SHA-256 of `m`, and what HMAC hashes last. -/
def shaState (m : List Nat) : List Nat := (shaOf m).words
def hmacLast (key m : List Nat) : List Nat :=
  let k := key ++ List.replicate (64 - key.length) 0
  k.map (· ^^^ 0x5C) ++ sha256 (k.map (· ^^^ 0x36) ++ m)
theorem sha256_eq (m : List Nat) : sha256 m = (shaState m).flatMap (beBytes 4) := rfl
theorem hmac_eq (k m : List Nat) : hmacSha256 k m = sha256 (hmacLast k m) := rfl
theorem shaState_length (m : List Nat) : (shaState m).length = 8 := rfl

/-- The answer to the nonce stands in SEC_DATA. -/
def answered : Dev := withData nonced (shaState (hmacLast [1] nonced.nonceMsg))

theorem answered_good : answered.sec.programmed 8 = true ∧ hmacSha256 (answered.sec.field 8) answered.nonceMsg = answered.secData 32 ∧
    answered.lt < answered.sec.nonceAt ∧ answered.sec.fails < 16 ∧ answered.sec.backAt ≤ answered.lt := by
  have hs : answered.sec = nonced.sec := (withData_sec _ _).1
  have hl : answered.lt = nonced.lt := (withData_sec _ _).2
  have hn : answered.nonceMsg = nonced.nonceMsg := by
    have o : ∀ i < 4, answered.rd (Reg.SEC_NONCE i) = nonced.rd (Reg.SEC_NONCE i) := fun i hi =>
      withData_other _ _ ((by decide +kernel : ∀ i < 4, ∀ j < 8, Reg.SEC_NONCE i ≠ Reg.SEC_DATA j) i hi)
    simp only [Dev.nonceMsg, List.range, List.range.loop, List.flatMap_cons, List.flatMap_nil, o 0 (by omega), o 1 (by omega), o 2 (by omega),
      o 3 (by omega)]
  have hd : answered.secData 32 = hmacSha256 [1] nonced.nonceMsg := by
    rw [hmac_eq, sha256_eq]; exact secData_withData _ (shaState_length _)
  have hf : nonced.sec.field 8 = [1] := by decide +kernel
  rw [hs, hl, hn, hd, hf]
  exact ⟨by decide +kernel, rfl, by decide +kernel, by decide +kernel, by decide +kernel⟩

theorem witness_Security :
    (up.Reach 25 Reg.SEC_CMD ∧ up.Reach 24 Reg.SEC_CMD ∧
      (∀ v ∈ [1 + 0xC10C * 65536, 7 + 0xC10C * 65536, 2, 3, 4, 5, 6], up.secAdmits 25 Reg.SEC_CMD v = true) ∧ up.bit Reg.SEC_RESULT 31 = false) ∧
    (secLocked.secAdmits 25 Reg.SEC_CMD (1 + 0xC10C * 65536) = false ∧ up.secAdmits 0 Reg.SEC_CMD 2 = false ∧ (0xC10D : BitVec 16) ≠ 0xC10C#16) ∧
    (up.fld Reg.SEC_STATE 0 2 = 0 ∧ secOpen.fld Reg.SEC_STATE 0 2 = 2 ∧ secOpen.secAdmits 25 Reg.SEC_CMD (1 + 0xC10C * 65536) = true ∧
      armedSec.sec.programmed 7 = true ∧ armedSec.sec.programmed 8 = true ∧ armedSec.sec.pkSet = true ∧ up.sec.programmed 7 = false) ∧
    (8 < (up.setF Reg.SEC_OTP_SEL 0 4 9).fld Reg.SEC_OTP_SEL 0 4 ∧ (up.setF Reg.SEC_OTP_SEL 0 4 8).fld Reg.SEC_OTP_SEL 0 4 = 8 ∧
      up.sec.programmed 8 = false) ∧
    (16 ≤ (secDev fun s => { s with fails := 16 }).sec.fails ∧ up.lt < (secDev fun s => { s with fails := 15, backAt := 1 }).sec.backAt ∧
      pwdSet.sec.fails < 16 ∧ pwdSet.sec.backAt ≤ pwdSet.lt ∧ pwdSet.sec.programmed 7 = true ∧ sha256 (pwdSet.secData 16) = pwdSet.sec.field 7) ∧
    (up.sec.nonceAt ≤ up.lt ∧ nonced.lt < nonced.sec.nonceAt ∧ (secDev fun s => { s with nonceAt := 1 }).sec.programmed 8 = false) ∧
    (up.sec.verify = none ∧ up.fld Reg.RST_STATUS 1 3 ≠ 5 ∧ (up.imgVerify []).1 ≠ 0 ∧ up.imgVerify codeImg = (0, true) ∧ up.freeCode = some 0 ∧
      leAt codeImg 6 1 = 2 ∧ leAt codeImg 12 4 = 0 ∧ tb (leAt codeImg 36 4) 1 = false ∧ up.role ≠ 2 ∧ imgLen codeImg = 1 ∧
      up.inRing (imgLoad codeImg) = false ∧ (secDev fun s => { s with verify := some codeImg }).sec.verify = some codeImg) ∧
    (let d := secLocked.wr (Reg.SEC_CODE_LEN 31) 1 |>.wr (Reg.SEC_CODE 31) 0x200011FFFFF
     d.domOn 16 = true ∧ (crosses 25 0x200011FFFFF = true → d.stemUp = true) ∧ d.role ≠ 2 ∧ d.locked = true ∧ d.codeHit 0x200011FFFFF 1 = true ∧
       d.codeHit 0x20001000000 1 = false ∧ d.standbyDrops 25 = false ∧ up.locked = false) ∧
    (up.sec.busy = none ∧ (secDev fun s => { s with busy := some (9, []) }).sec.busy = some (9, []) ∧
      ∀ f ≤ 8, (secDev fun s => { s with busy := some (f, [1]) }).sec.busy = some (f, [1]) ∧
        { up.sec with busy := none }.spoiled.contains f = false) := by
  unfold Dev.Reach; refine ⟨?_, ?_, ?_, ?_, ?_, ?_, ?_, ?_, ?_⟩ <;> decide +kernel

theorem witness_BootAndResets :
    (z.pwr.trip = false ∧ z.sec.flagar = none ∧ z.fld Reg.RST_STATUS 1 3 = 0 ∧ (1 : Fin 4) = 1 ∧ tb z.sec.bootCfg 0 = false ∧
      (z.bootCheck ((nats []).take 0x200000)).1 ≠ 0 ∧ (z.bootCheck ((nats bootImg).take 0x200000)).1 = 0 ∧
      imgsFrom 8192 (((nats bootImg).take 0x200000).drop (imgSpan ((nats bootImg).take 0x200000))) = [] ∧ z.role ≠ 2 ∧
      (z.setF Reg.RST_STATUS 1 3 4).fld Reg.RST_STATUS 1 3 ≠ 0) ∧
    (up.sec.busy = none ∧ up.sec.lockSet = false ∧ (secDev fun s => { s with lock := 3 }).sec.lockSet = true) ∧
    (up.Reach 0 Reg.RST_CTRL ∧ up.Reach 24 Reg.RST_CTRL ∧ up.sec.verify = none ∧ (∀ g ∈ up.grpKeys, (up.grp g).mode ≠ .armed) ∧ up.role ≠ 5 ∧ up.bit Reg.GRF_CFG 31 = false ∧
      up.role ≠ 2 ∧ up.fld Reg.MEMC_STATUS 0 2 ≠ 1 ∧ (∀ p ∈ up.items.store, p.2.printing = false) ∧ up.dataOff = false ∧ up.sec.flagar = none ∧
      up.sec.next = none ∧ up.fld Reg.SEC_STATE 0 2 ≠ 2 ∧ ∀ b < 8, up.bit (Reg.BEAM_CTRL b) 0 = false) ∧
    ((∀ b < 8, up.bit (Reg.BEAM_CTRL b) 0 = true → (up.beam b).mode = .run) ∧
      (let d := (up.setF (Reg.BEAM_CTRL 7) 0 1 1).setBeam 7 { up.beam 7 with mode := .run }
       (∀ b < 8, d.bit (Reg.BEAM_CTRL b) 0 = true → (d.beam b).mode = .run) ∧ d.bit (Reg.BEAM_CTRL 7) 0 = true ∧ d.bit (Reg.BEAM_CTRL 7) 5 = false ∧
         d.unitOk 7 = true ∧ tb (0x80 : BitVec 9).toNat 7 = true ∧ tb (0 : BitVec 9).toNat 7 = false ∧ d.stopped 7 = false)) := by
  unfold Dev.Reach; refine ⟨?_, ?_, ?_, ?_⟩ <;> decide +kernel

/-! Host interfaces. -/

/-- Window 3 of BAR2 leads to shared SRAM, and `cfg` configures it; the Ethernet MAC is 5. -/
def hostDev (cfg : Nat) (f : HostSt → HostSt := id) : Dev :=
  let d := (up.wr (Reg.HOST_WIN_BASE 3) 0x20000000000).wr (Reg.HOST_WIN_CFG 3) cfg
  { d with host := f d.host, regs := aset d.regs Reg.HOST_ETH_MAC (some 5) }
def lastOff : BitVec 32 := 0xC11FFFFF
def mbHead (op len : Nat) (a : Nat := 0x200011FFFFC) : List Byte := bytes ([op, 0] ++ leBytes 2 len ++ leBytes 4 7 ++ leBytes 8 a ++ List.replicate 8 0)
def readAcc : HostAcc := { (default : HostAcc) with size := 4 }
/-- Vector 31 follows source 30 and is in service. -/
def vec31 (again : Bool) (mask : Nat) : Dev :=
  let d := (up.wr Reg.HOST_VEC_SERV (2 ^ 31)).setF (Reg.HOST_VEC_SRC 31) 0 9 30
  { d with host := { d.host with again := tput [] 31 again, msix := tput [] 127 mask } }

theorem witness_HostAccess :
    ((up.setF Reg.HOST_CTRL 0 1 0).hostIf false = false ∧ (hostDev 1).hostIf false = true ∧ (hostDev 1).hostIf true = true ∧
      (hostDev 1).host.waiting = []) ∧
    (let d := hostDev 1
     let x := d.fld (Reg.HOST_WIN_BASE 3) 30 18 * 2 ^ 30 + lastOff.toNat % 2 ^ 30
     lastOff.toNat / 2 ^ 30 = 3 ∧ d.bit (Reg.HOST_WIN_CFG 3) 0 = true ∧ d.bit (Reg.HOST_WIN_CFG 3) 1 = false ∧ 0x20001000000 ≤ x ∧
       x + 1 ≤ 0x20001200000 ∧ d.domOn 16 = true ∧ (hostDev 0).bit (Reg.HOST_WIN_CFG 3) 0 = false ∧ (hostDev 3).bit (Reg.HOST_WIN_CFG 3) 1 = true ∧
       d.role ≠ 2 ∧ d.role ≠ 4 ∧ d.locked = false) ∧
    (row Reg.HOST_STATUS (fun r => r.rc == 0 && r.width == 32) = true ∧ plainRead Reg.HOST_STATUS = true ∧ 0x300000D0000 ≤ Reg.HOST_STATUS ∧
      Reg.HOST_STATUS < 0x300000E0000 ∧ (hostDev 1).domOn (powDomain Reg.HOST_STATUS) = true) ∧
    (let d := (hostDev 1).wr (Reg.HOST_WIN_BASE 3) 0x10000000000
     regionOf (d.fld (Reg.HOST_WIN_BASE 3) 30 18 * 2 ^ 30 + (0xC0000000 : BitVec 32).toNat % 2 ^ 30) = .isram ∧ d.fld Reg.RST_STATUS 1 3 ≠ 4) ∧
    (let d := hostDev 1 fun h => { h with waiting := [readAcc] }
     (∀ h ∈ d.host.waiting, h.write = true ∨ { d with lt := d.hostTmo - 1 }.lt < h.at0 + d.hostTmo) ∧ d.host.waiting = [readAcc] ∧
       readAcc.write = false ∧ readAcc.eth = false ∧ readAcc.at0 + d.hostTmo ≤ { d with lt := d.hostTmo }.lt) ∧
    (up.Reach 0 Reg.HOST_VEC_EOI ∧ up.bit Reg.HOST_VEC_SERV 31 = false ∧
      (∀ a : Bool, (vec31 a 0).Reach 0 Reg.HOST_VEC_EOI ∧ (vec31 a 0).bit Reg.HOST_VEC_SERV 31 = true ∧ tget (vec31 a 0).host.again 31 = a) ∧
      (vec31 false 0).isLevel ((vec31 false 0).fld (Reg.HOST_VEC_SRC 31) 0 9) = false ∧ (vec31 true 0).vecMasked 31 = true ∧
      (vec31 true 1).vecMasked 31 = false) ∧
    (let d := hostDev 1
     d.ethTakes 5 9 0x88B5 = true ∧ d.ethTakes 6 9 0x88B5 = false ∧ leAt (nats (mbHead 1 4)) 0 1 = 1 ∧ leAt (nats (mbHead 2 4)) 0 1 = 2 ∧
       mailboxBad (nats (mbHead 1 3)) [] = true ∧ mailboxBad (nats (mbHead 1 4)) [] = false ∧ mailboxBad (nats (mbHead 2 4)) [1, 2, 3, 4] = false ∧
       (d.host.kept.find? (·.1 == 7)).isNone = true ∧
       ((hostDev 1 fun h => { h with kept := [(7, 0, List.replicate 16 0)] }).host.kept.find? (·.1 == 7)) = some (7, 0, List.replicate 16 0) ∧
       16 ≤ ((hostDev 1 fun h => { h with waiting := List.replicate 16 { readAcc with eth := true } }).host.waiting.filter fun g => g.eth && !g.abandoned).length ∧
       leAt (nats (mbHead 1 4)) 8 6 + leAt (nats (mbHead 1 4)) 2 2 ≤ 0x20001200000 ∧ 0x20001000000 ≤ leAt (nats (mbHead 1 4)) 8 6 ∧
       d.domOn 16 = true ∧ d.locked = false ∧ d.role ≠ 2 ∧ d.role ≠ 4) ∧
    (∀ h ∈ (hostDev 1 fun h => { h with waiting := [readAcc] }).host.waiting, h.write = false ∧ h.eth = false) ∧
    (let d := fun s => { lowDev s 3 ((hostDev 1).setF Reg.PWR_WAKE_CFG 2 1 1) with lt := 0 }
     (∀ s ∈ [0, 1, 2], (d s).pwr.low = 3 ∧ (d s).ethTakes 5 9 0x88B5 = true ∧ leAt (nats (mbHead 7 0)) 0 1 = 7 ∧ (d s).bit Reg.PWR_WAKE_CFG 2 = true ∧
       (d s).pwr.step = s) ∧ (d 1).follows = false ∧ (d 1).role ≠ 5) ∧
    (up.Reach 24 Reg.HOST_MDIO ∧ up.bit Reg.HOST_MDIO 31 = false ∧ (up.wr Reg.HOST_MDIO (2 ^ 31)).bit Reg.HOST_MDIO 31 = true) := by
  unfold Dev.Reach; refine ⟨?_, ?_, ?_, ?_, ?_, ?_, ?_, ?_, ?_, ?_⟩ <;> decide +kernel

theorem witness_LockedSecWrites :
    secLocked.locked = true ∧ secLocked.Reach 25 Reg.SEC_CMD ∧
    (row Reg.SEC_EVT_EN (fun _ => true) = true ∧ row Reg.SEC_OTP_SEL (fun r => r.width == 32) = true) ∧
    (∀ k ∈ [Reg.SEC_EVT_EN, Reg.SEC_OTP_SEL], 0x3FF00050000 ≤ k ∧ k < 0x3FF00060000 ∧ k ∉ (List.range 8).map Reg.SEC_DATA ∧ k ≠ Reg.SEC_IMG_ADDR ∧
      k ≠ Reg.SEC_CMD) ∧
    (∀ v < 16, (v ≠ 2 ∧ v ≠ 3 ∧ v ≠ 4 ∧ v ≠ 6) ∨ v = 2 ∨ v = 3 ∨ v = 4 ∨ v = 6) := by
  unfold Dev.Reach; refine ⟨?_, ?_, ?_, ?_, ?_⟩ <;> decide +kernel

/-! Ill-formed commands, and single steps with results worked out from the rules. -/

def cellHdr : CellHdr := ⟨0, true, 0, 0, 0, false, false, 0, 0, 0⟩
def frameHdr : FrameHdr := ⟨0, true, false, 0, 0, 0, 0⟩
def zeros (n : Nat) : List Byte := List.replicate n 0

/-- Records and frames of one exact length (R63, R19, R371, R447, R530, R625, R623), one byte short. -/
theorem ill_formed_exact_lengths : ∀ i ∈ [Instr.broadcastRecordReceive false 0 (zeros 35), .stemFlitReceive 0 (zeros 79) 0, .cameraTag (zeros 31),
    .swathStart (zeros 31), .heartbeat frameHdr (zeros 32), .wakeFrame 0 0 0 (zeros 23),
    .mailboxRead 0 0 0 (zeros 23) [], .mailboxWrite 0 0 0 (zeros 25) [], .mailboxRead 0 0 0 (zeros 24) (zeros 1),
    .thermalSample (List.replicate 9 0), .healthPlan [List.replicate 15 0] 0], WellFormed i = false := by decide +kernel

/-- Lengths beyond their bounds. -/
theorem ill_formed_bounded_lengths : ∀ i ∈ [Instr.listMemoryWrite 0 0 [], .listMemoryWrite 0 0 (zeros 65), .itemDirectWrite 0 0 (zeros 65),
    .eventFlit 0 0 (zeros 65), .auxDone 0 0 (zeros 17), .offAccess 0 true 0 (zeros 65), .codeDeny 0 0 [],
    .hostWrite false 0 [], .hostRead false 0 0 0, .hostRead false 0 4097 0, .graftCommit frameHdr (zeros 1025), .cresult frameHdr (zeros 1025),
    .furrow frameHdr (zeros 1025), .memwr frameHdr (zeros 1025), .graftBeam frameHdr (zeros 1025), .graftSync none false (zeros 1025),
    .graftHandoff frameHdr (zeros 1025), .joinReq frameHdr (zeros 1025), .joinAck frameHdr (zeros 1025), .graftCopy frameHdr (zeros 1025),
    .regimg frameHdr (zeros 1025), .joinDone frameHdr (zeros 1025), .sync none (zeros 257), .uplinkReceive 0 0 true (List.replicate 1523 0),
    .statusFrame 0 0 [0], .statusFrame 0 0 (List.replicate 18 0),
    .mailboxWrite 0 0 0 (zeros 24) (zeros 1477), .tdmFrame 0 0 (List.replicate 17 0), .monData 0 (List.replicate 16 0)],
    WellFormed i = false := by decide +kernel

/-- Accesses that end outside list memory or the item store (R107, R164). -/
theorem ill_formed_windows : ∀ i ∈ [Instr.listMemoryWrite 0 0xFFFFE (zeros 4), .itemDirectWrite 0 0x3FFFFE (zeros 4)], WellFormed i = false := by
  decide +kernel

/-- A cell's payload is a whole number of 4-byte words, at most 256 bytes (R503). -/
theorem ill_formed_cells : ∀ bs ∈ [zeros 6, zeros 260], ∀ f ∈ [Instr.hello cellHdr, .route cellHdr, .idReq cellHdr, .idGrant cellHdr,
    .syncReply cellHdr, .lbeamReceive cellHdr, .offer cellHdr, .accept cellHdr, .handoffRefuse cellHdr, .handoffDone cellHdr,
    .handoffAbort cellHdr, .write cellHdr, .rdReq cellHdr, .rdResp cellHdr, .regRd cellHdr, .regResp cellHdr, .prepare cellHdr, .ready cellHdr,
    .lcRefuse cellHdr, .confirm cellHdr, .lcAbort cellHdr, .lcResult cellHdr, .alarm cellHdr, .logTraceCell cellHdr true],
    WellFormed (f bs) = false := by
  decide +kernel

/-- A packet longer than its 16-bit word count can say (R369). -/
theorem ill_formed_packet (bs : List Byte) (h : bs.length = 65536) : WellFormed (.longPacket 0 0 0 0 true 0 bs) = false := by
  show decide (0 ≤ bs.length ∧ bs.length ≤ 65535) = false
  rw [h]; decide

/-- Well-formed commands at the bounds. -/
theorem well_formed_bounds : ∀ i ∈ [Instr.listMemoryWrite 0 0xFFFFC (zeros 4), .itemDirectWrite 0 0 (zeros 64), .cameraTag (zeros 32),
    .hello cellHdr (zeros 256), .auxDone 0 0 [], .hostRead false 0 4096 0, .tdmFrame 0 0 (List.replicate 16 0), .monData 0 []],
    WellFormed i = true := by decide +kernel

/-- Core 0 with two X registers, about to run halfwords. -/
def alu (hs : List Nat) (x y : Nat) : Dev := coreDev hs fun c => { c with r := { c.r with gp := [(1, x), (2, y)] } }
/-- Register `n` of core 0. -/
def gp (d : Dev) (n : Nat) : Nat := tget (d.core 0).r.gp n

/-- ADD W FORM 2, opcode halfword 0010_0000 10 10 0000, wraps modulo 2^32 and moves the PC past three halfwords (R266, R272). -/
theorem test_add_wraps : gp (after (.opAdd 0) (alu [0x20A0, 0x1001, 0x1002] 0xFFFFFFFF 3)) 2 = 2 ∧
    ((after (.opAdd 0) (alu [0x20A0, 0x1001, 0x1002] 0xFFFFFFFF 3)).core 0).r.pc = 0x2006 := by decide +kernel

/-- SUB FORM 2 is d := d − s (R272). -/
theorem test_sub_order : gp (after (.opSub 0) (alu [0x21A0, 0x1001, 0x1002] 7 5)) 2 = 0xFFFFFFFE := by decide +kernel

/-- SET tells LT from LTU (R275). -/
theorem test_set_signed : gp (after (.opSet 0) (alu [0x0EB2, 0x1001, 0x1002, 0x1003] 1 0xFFFFFFFF)) 3 = 0 ∧
    gp (after (.opSet 0) (alu [0x0EB4, 0x1001, 0x1002, 0x1003] 1 0xFFFFFFFF)) 3 = 1 := by decide +kernel

/-- SEXT of an immediate at byte size (R271). -/
theorem test_sext_byte : gp (after (.opSext 0) (alu [0x12A0, 0xA080, 0x1002] 0 0)) 2 = 0xFFFFFF80 := by decide +kernel

/-- BIC FORM 2 is d and not s (R272). -/
theorem test_bic : gp (after (.opBic 0) (alu [0x2BA0, 0x1001, 0x1002] 0x0F 0x3C)) 2 = 0x30 := by decide +kernel

/-- MUL gives the low half (R272). -/
theorem test_mul_low : gp (after (.opMul 0) (alu [0x25A0, 0x1001, 0x1002] 0x10001 0x10001)) 2 = 0x20001 := by decide +kernel

/-- A decoded instruction is not the one of another command: the core is left as it is (log 31). -/
theorem test_other_opcode : after (.opSub 0) (alu [0x20A0, 0x1001, 0x1002] 1 3) = alu [0x20A0, 0x1001, 0x1002] 1 3 := by decide +kernel

/-- A write of TMR_LOAD sets the count at once (R351). -/
theorem test_tmr_load : (after (.tmrLoad 0 5 1234) up).rd (Reg.TMR_COUNT 5) = 1234 := by decide +kernel

/-- A write to list memory is seen there, low byte first (R107, R118). -/
theorem test_list_write : (after (.listMemoryWrite 0 0x10 (bytes [1, 2])) up).load 0x20003500010 2 = [1, 2] := by decide +kernel

/-- SHA-256 of "abc" (FIPS 180-4). -/
theorem test_sha : (sha256 [0x61, 0x62, 0x63]).take 8 = [0xBA, 0x78, 0x16, 0xBF, 0x8F, 0x01, 0xCF, 0xEA] := by decide +kernel

end Sys2Proof.Tests
end

section
/-! SUPPORT. What running a command can do to the state as a whole, and the statement about a step (00). -/
namespace Sys2Proof.Machine

/-- No command reads the queue, changes it or stops: each is an operation on the device alone. That a queue brings the commands, one to a
step, is the model's choice (log 15, log 33). -/
theorem exec_eq_onDev (c : Instr) : ∃ f : Dev → Dev, ∀ s : State, exec c s = .next (s.onDev f) := by
  cases c <;> exact ⟨_, fun _ => rfl⟩

@[simp] theorem step_cons (c : Instr) (q : List Instr) (d : Dev) :
    step { pending := c :: q, dev := d } = exec c { pending := q, dev := d } := rfl

/-- Settles O1: the step is the front command's run, and that run is an operation on the device. -/
theorem stepRunsFront : Obligations.StepRunsFront := by
  intro c q d
  obtain ⟨f, hf⟩ := exec_eq_onDev c
  exact ⟨step_cons c q d, f d, (step_cons c q d).trans (hf _)⟩

end Sys2Proof.Machine
end

section
/-! SUPPORT. BEAM_LT_SET (02 R58): when it is carried out, what it comes to in each case, and the statement about it. -/
namespace Sys2Proof.Machine

/-- A write command of BEAM_LT_SET sets line time: LOCAL mode, and every beam is OFF (R58). -/
def Dev.ltSettable (d : Dev) : Prop := d.bit Reg.BEAM_LT_CTRL 0 = false ∧ ∀ b < 8, (d.beam b).mode = .off

theorem Dev.ltSettable_wr (d : Dev) {k : Nat} (x : Nat) (hk : Reg.BEAM_LT_CTRL ≠ k) : (d.wr k x).ltSettable ↔ d.ltSettable := by
  unfold Dev.ltSettable Dev.bit Dev.beam
  rw [Dev.rd_wr_other d x hk, Dev.wr_beams]

/-- The condition that `Dev.ltSet` evaluates. -/
theorem Dev.ltSettable_iff (d : Dev) :
    d.ltSettable ↔ (!d.bit Reg.BEAM_LT_CTRL 0 && (List.range 8).all fun b => (d.beam b).mode == .off) = true := by
  simp [Dev.ltSettable]

theorem Dev.ltSet_of_settable {d : Dev} (v : Nat) (h : d.ltSettable) :
    d.ltSet v = ({ d with lt := v % 2 ^ 64, tick := { d.tick with ltFrac := 0 } }).setF Reg.BEAM_LT_STATUS 1 1 0 :=
  if_pos (d.ltSettable_iff.1 h)

theorem Dev.ltSet_of_not_settable {d : Dev} (v : Nat) (h : ¬ d.ltSettable) : d.ltSet v = d.setF Reg.BEAM_LT_STATUS 1 1 1 :=
  if_neg (mt d.ltSettable_iff.2 h)

/-- A write of all 64 bits leaves nothing of the old value. -/
theorem mergeMask_full (v x : Nat) : mergeMask v x 0xFFFFFFFFFFFFFFFF % 2 ^ 64 = x % 2 ^ 64 := by
  refine Nat.eq_of_testBit_eq fun i => ?_
  rw [show 0xFFFFFFFFFFFFFFFF = 2 ^ 64 - 1 by norm_num, Nat.testBit_mod_two_pow, Nat.testBit_mod_two_pow, mergeMask_testBit,
    Nat.testBit_two_pow_sub_one]
  by_cases hi : i < 64 <;> simp [hi]

/-- The 64-bit write command: BEAM_LT_SET takes some value that is the written one modulo 2^64, and then acts with it. -/
theorem exec_beamLtSet (s : State) {src : Fin 30} (v : BitVec 64) (hr : s.dev.Reach src.val Reg.BEAM_LT_SET) :
    ∃ x, x % 2 ^ 64 = v.toNat ∧
      exec (.beamLtSet src v) s = .next { s with dev := (s.dev.wr Reg.BEAM_LT_SET x).ltSet x } := by
  refine ⟨mergeMask (s.dev.rd Reg.BEAM_LT_SET) (v.toNat % 2 ^ 64) 0xFFFFFFFFFFFFFFFF, ?_, ?_⟩
  · rw [mergeMask_full, Nat.mod_mod, Nat.mod_eq_of_lt v.isLt]
  · exact congrArg (fun d => Host.Outcome.next { s with dev := d }) (s.dev.act_ltSet v.toNat hr)

theorem Dev.Frame.setF {b : Dev → Dev} {p : Nat → Bool} {d e : Dev} (h : Dev.Frame b p d e) {k : Nat} (lo w x : Nat)
    (hk : p k = true ∨ irqReg k = true) : Dev.Frame b p d (e.setF k lo w x) := h.wr _ hk

/-- The device with line time and the ticks set aside. -/
def noLineTime (d : Dev) : Dev := { d with lt := 0, tick := default }

theorem Dev.Frame.withLineTime {p : Nat → Bool} {d e : Dev} (h : Dev.Frame noLineTime p d e) (n : Nat) (t : TickSt) :
    Dev.Frame noLineTime p d { e with lt := n, tick := t } := h.same rfl rfl rfl

theorem regWidth_BEAM_LT_STATUS : regWidth Reg.BEAM_LT_STATUS 32 = true := by decide +kernel

/-- SET_REFUSED after it is set to `x`. -/
theorem Dev.setRefused_setF (d : Dev) (x : Nat) : (d.setF Reg.BEAM_LT_STATUS 1 1 x).bit Reg.BEAM_LT_STATUS 1 = tb x 0 :=
  Dev.bit_setF d x regWidth_BEAM_LT_STATUS (by decide)

/-- Settles O5: the write is kept in BEAM_LT_SET first, which leaves the condition of R58 as it was; each case then changes LT_STATUS alone
beside line time. -/
theorem lineTimeSet : Obligations.LineTimeSet := by
  intro s src v hr
  obtain ⟨x, hx, hexec⟩ := exec_beamLtSet s v hr
  have hkeep : (s.dev.wr Reg.BEAM_LT_SET x).ltSettable ↔ s.dev.ltSettable := s.dev.ltSettable_wr x (by decide)
  have hframe (b : Dev → Dev) : Dev.Frame b (among [Reg.BEAM_LT_SET, Reg.BEAM_LT_STATUS]) s.dev (s.dev.wr Reg.BEAM_LT_SET x) :=
    (Dev.Frame.refl b _ s.dev).wr x (.inl (by decide))
  have hstatus : among [Reg.BEAM_LT_SET, Reg.BEAM_LT_STATUS] Reg.BEAM_LT_STATUS = true := by decide
  constructor
  · intro hset
    refine ⟨_, hexec, ?_⟩
    rw [Dev.ltSet_of_settable x (hkeep.2 hset)]
    refine ⟨((hframe noLineTime).withLineTime _ _).setF 1 1 0 (.inl hstatus), ?_, Dev.setRefused_setF _ 0⟩
    exact (Dev.wr_lt _ _ _).trans hx
  · intro hno
    refine ⟨_, hexec, ?_⟩
    rw [Dev.ltSet_of_not_settable x (mt hkeep.1 hno)]
    exact ⟨(hframe id).setF 1 1 1 (.inl hstatus), Dev.setRefused_setF _ 1⟩

end Sys2Proof.Machine
end

section
/-! SUPPORT. Writes to the registers of SEC (24 R592, R594): how a write command reaches them, what HOST may write while the device is LOCKED,
and the statement about it. -/
namespace Sys2Proof.Machine

/-- `k` lies in the address block of SEC. -/
abbrev secSpace (k : Nat) : Prop := 0x3FF00050000 ≤ k ∧ k < 0x3FF00060000

theorem secSpace_block {k : Nat} (h : secSpace k) : k / 0x10000 = 0x3ff0005 := by omega

theorem secSpace_SEC_CMD : secSpace Reg.SEC_CMD := by decide

theorem secSpace_SEC_IMG_ADDR : secSpace Reg.SEC_IMG_ADDR := by decide

/-! The rows of SEC in the register map. -/

theorem regFindIn_keyOf {l : List RegDef} {a : Nat} {r : RegDef} {k : Nat} (h : regFindIn l a = some (r, k)) : r.keyOf a = some k := by
  induction l with
  | nil => cases h
  | cons x l ih =>
    unfold regFindIn at h
    split at h
    · next hx => cases h; exact hx
    · exact ih h

theorem blockRegs_SEC : blockRegs regBlocks 0x3ff0005 = secRegs := rfl

theorem regFind_sec {k : Nat} (h : secSpace k) : regFind k = regFindIn secRegs k := by
  unfold regFind
  rw [secSpace_block h, blockRegs_SEC]
  cases regFindIn secRegs k <;> rfl

/-- A register's first byte is word-aligned, and the register map finds the register there. -/
theorem isReg_place {k : Nat} {r : RegDef} (hk : isReg k r = true) : k % 4 = 0 ∧ regFind k = some (r, k) := by
  simp only [isReg, Bool.and_eq_true, beq_iff_eq] at hk
  obtain ⟨⟨⟨⟨_, halign⟩, _⟩, hfind⟩, _⟩ := hk
  exact ⟨halign, hfind⟩

theorem isReg_sec {k : Nat} {r : RegDef} (hk : isReg k r = true) (h : secSpace k) : regFindIn secRegs k = some (r, k) :=
  (regFind_sec h).symm.trans (isReg_place hk).2

theorem secRegs_cmt : ∀ r ∈ secRegs, r.cmt = 0 := by decide

/-- A 64-bit register of SEC stands at a multiple of 8, and so does every step of its array. -/
theorem secRegs_wide : ∀ r ∈ secRegs, r.width = 64 → r.base % 8 = 0 ∧ ∀ p ∈ r.dims, 8 ∣ p.2 := by decide

theorem dimOffset_mod {m : Nat} {ds : List (Nat × Nat)} {o x : Nat} (hm : ∀ p ∈ ds, m ∣ p.2) (h : dimOffset ds o = some x) :
    x % m = o % m := by
  induction ds generalizing o with
  | nil => cases h; rfl
  | cons p ds ih =>
    unfold dimOffset at h
    split at h
    · rw [ih (fun q hq => hm q (List.mem_cons_of_mem _ hq)) h, Nat.mod_mod_of_dvd _ (hm p (List.mem_cons_self ..))]
    · cases h

/-- The first byte of a register is a multiple of whatever the row's base and steps are multiples of. -/
theorem keyOf_mod {m k : Nat} {r : RegDef} (hb : r.base % m = 0) (hm : ∀ p ∈ r.dims, m ∣ p.2) (h : r.keyOf k = some k) : k % m = 0 := by
  unfold RegDef.keyOf at h
  split at h
  · cases h
  · next hlo =>
    split at h
    · next o ho =>
      split at h
      · have hkey : k - o = k := Option.some.inj h
        have hoff : o = 0 ∨ k = 0 := by omega
        have hmod := dimOffset_mod hm ho
        rcases hoff with rfl | rfl
        · rw [Nat.zero_mod] at hmod
          rw [← Nat.sub_add_cancel (Nat.not_lt.1 hlo), Nat.add_mod, ← hmod, hb]
          simp
        · exact Nat.zero_mod m
      · cases h
    · cases h

theorem rowIs_sec {k : Nat} {r : RegDef} (hk : isReg k r = true) (h : secSpace k) : rowIs k = true := by
  have hcmt := secRegs_cmt r (regFindIn_mem (isReg_sec hk h))
  unfold rowIs
  rw [isReg_row hk]
  simp [hk, hcmt]

theorem rowIs8_sec {k : Nat} {r : RegDef} (hk : isReg k r = true) (h : secSpace k) (hw : r.width = 64) : rowIs8 k = true := by
  have hrow := isReg_sec hk h
  have hcmt := secRegs_cmt r (regFindIn_mem hrow)
  obtain ⟨hbase, hstep⟩ := secRegs_wide r (regFindIn_mem hrow) hw
  have h8 := keyOf_mod hbase hstep (regFindIn_keyOf hrow)
  unfold rowIs8
  rw [isReg_row hk]
  simp [hk, hcmt, hw, h8]

/-! A write command that reaches SEC. -/

theorem exec_registerWrite_host {s : State} {a : BitVec 48} {wide : Bool} {v : BitVec 64} {e : Dev}
    (h : s.dev.regCommand 25 a.toNat (if wide then 8 else 4) v.toNat = e) :
    exec (.registerWrite 25 a wide v) s = .next { s with dev := e } := h ▸ rfl

theorem regionOf_sec {k : Nat} (h : secSpace k) : regionOf k = .regMgmt := by
  unfold regionOf
  repeat rw [if_neg (by omega)]
  rw [if_pos (by omega)]

theorem powDomain_sec {k : Nat} (h : secSpace k) : powDomain k = 0 := by
  have hlow : ¬ corectlHigh ≤ k := by unfold corectlHigh; omega
  unfold powDomain
  rw [if_neg hlow, secSpace_block h]
  rfl

/-- The whole of SEC is as near to a source as SEC_CMD. -/
theorem Dev.Reach.sec {d : Dev} {src k : Nat} (hr : d.Reach src Reg.SEC_CMD) (h : secSpace k) : d.Reach src k := by
  obtain ⟨hcross, hpow, hdrop⟩ := hr
  refine ⟨fun hc => hcross ?_, ?_, hdrop⟩
  · rw [← hc]
    unfold crosses
    rw [regionOf_sec h, regionOf_sec secSpace_SEC_CMD]
  · rw [powDomain_sec h, ← powDomain_sec secSpace_SEC_CMD]
    exact hpow

theorem coreReg_sec {k : Nat} (h : secSpace k) : coreReg k = none := by
  unfold coreReg corectlHigh
  dsimp only
  rw [if_neg (by omega)]

theorem Dev.regAct_sec (d : Dev) {k : Nat} (src v m : Nat) (h : secSpace k) :
    d.regAct src k v m = (d.secWrite src k v m).evtWritten k := by
  unfold Dev.regAct
  rw [coreReg_sec h]
  exact if_pos h

/-- The level sources of the management plane: the one of SEC, and those whose registers lie outside SEC (R317). -/
theorem evtOf_mgmt : ∀ i < 6, ∀ p ∈ evtOf (449 + i), p = (Reg.SEC_EVT, Reg.SEC_EVT_EN) ∨ (¬ secSpace p.1 ∧ ¬ secSpace p.2) := by decide

/-- Of the registers of SEC, SEC_EVT and SEC_EVT_EN alone feed a level source (R317). -/
theorem evtSource_sec {k : Nat} (h : secSpace k) (hevt : k ≠ Reg.SEC_EVT) (hen : k ≠ Reg.SEC_EVT_EN) : evtSource k = none := by
  have hamong : evtSource k = evtAmong k 449 6 := by
    unfold evtSource
    rw [secSpace_block h]
    rfl
  rw [hamong, evtAmong, List.find?_eq_none]
  intro j hj
  obtain ⟨i, hi, rfl⟩ := List.mem_map.1 hj
  split
  · next e en he =>
    rcases evtOf_mgmt i (List.mem_range.1 hi) (e, en) he with hp | ⟨hp, hq⟩
    · cases hp
      simp [hevt.symm, hen.symm]
    · have h1 : e ≠ k := fun hk => hp (hk ▸ h)
      have h2 : en ≠ k := fun hk => hq (hk ▸ h)
      simp [h1, h2]
  · simp

theorem Dev.evtWritten_sec (d : Dev) {k : Nat} (h : secSpace k) (hevt : k ≠ Reg.SEC_EVT) (hen : k ≠ Reg.SEC_EVT_EN) : d.evtWritten k = d := by
  unfold Dev.evtWritten
  rw [evtSource_sec h hevt hen]

/-- Looking again at the level source of a register changes nothing outside the interrupt controller. -/
theorem Dev.evtWritten_frame (d : Dev) (k : Nat) : Dev.Frame id (among []) d (d.evtWritten k) := by
  unfold Dev.evtWritten
  split
  · exact (Dev.Frame.refl id (among []) d).refresh _ (by decide)
  · exact Dev.Frame.refl id (among []) d

/-- A 4-byte write command of a register of SEC. -/
theorem Dev.regCommand4_sec (d : Dev) {src k : Nat} (v : Nat) (hk : rowIs k = true) (h : secSpace k) (hr : d.Reach src Reg.SEC_CMD) :
    d.regCommand src k 4 v = (d.secWrite src k (v % 2 ^ 32) 0xFFFFFFFF).evtWritten k := by
  rw [Dev.regCommand4_act d v hk (hr.sec h), d.regAct_sec _ _ _ h]

/-- An 8-byte write command of a 64-bit register of SEC. -/
theorem Dev.regCommand8_sec (d : Dev) {src k : Nat} (v : Nat) (hk : rowIs8 k = true) (h : secSpace k) (hr : d.Reach src Reg.SEC_CMD) :
    d.regCommand src k 8 v = (d.secWrite src k (v % 2 ^ 64) 0xFFFFFFFFFFFFFFFF).evtWritten k := by
  rw [Dev.regCommand8_act d v hk (hr.sec h), d.regAct_sec _ _ _ h]

/-! What SEC does with a write. -/

theorem Dev.secWrite_refused {d : Dev} {src k v : Nat} (m : Nat) (h : d.secAdmits src k v = false) : d.secWrite src k v m = d := by
  unfold Dev.secWrite
  rw [h]
  rfl

theorem Dev.secWrite_SEC_CMD (d : Dev) (src v m : Nat) : d.secWrite src Reg.SEC_CMD v m = d.secCmd src v := by
  unfold Dev.secWrite Dev.secCmd
  cases d.secAdmits src Reg.SEC_CMD v <;> rfl

theorem Dev.secWrite_SEC_DATA {d : Dev} {src i v : Nat} (m : Nat) (hi : i < 8) (h : d.secAdmits src (Reg.SEC_DATA i) v = true) :
    d.secWrite src (Reg.SEC_DATA i) v m = d.wr (Reg.SEC_DATA i) v := by
  unfold Dev.secWrite
  rw [h, if_neg (by decide), if_neg (by unfold Reg.SEC_DATA Reg.SEC_CMD; omega), if_pos (by unfold Reg.SEC_DATA; omega)]

theorem Dev.secWrite_SEC_IMG_ADDR {d : Dev} {src v : Nat} (m : Nat) (h : d.secAdmits src Reg.SEC_IMG_ADDR v = true) :
    d.secWrite src Reg.SEC_IMG_ADDR v m = d.storeReg Reg.SEC_IMG_ADDR v m := by
  unfold Dev.secWrite
  rw [h, if_neg (by decide), if_neg (by decide), if_neg (by decide)]

theorem rowIs_SEC_CMD : rowIs Reg.SEC_CMD = true := by decide +kernel

theorem rowIs_SEC_DATA : ∀ i < 8, rowIs (Reg.SEC_DATA i) = true := by decide +kernel

theorem rowIs8_SEC_IMG_ADDR : rowIs8 Reg.SEC_IMG_ADDR = true := by decide +kernel

theorem regRow_SEC_IMG_ADDR : regRow Reg.SEC_IMG_ADDR = some ⟨0x3ff00050050, [], 64, 0, false, 0xffffffffffff, 0, 0, 0, 0, 0⟩ := by
  decide +kernel

theorem regWidth_SEC_DATA : ∀ i < 8, regWidth (Reg.SEC_DATA i) 32 = true := by decide +kernel

/-- SEC_IMG_ADDR keeps the 48 bits of an address. -/
theorem Dev.fld_storeReg_SEC_IMG_ADDR (d : Dev) (v : Nat) :
    (d.storeReg Reg.SEC_IMG_ADDR v 0xFFFFFFFFFFFFFFFF).fld Reg.SEC_IMG_ADDR 0 48 = bits v 0 48 := by
  have hmask : ∀ i < 48, (0xffffffffffff &&& 0xFFFFFFFFFFFFFFFF).testBit (0 + i) = true := by decide
  unfold Dev.fld
  rw [Dev.rd_storeReg d v _ regRow_SEC_IMG_ADDR, bits_mod (by decide), bits_clearMask_out (by simp), bits_mergeMask_in hmask]

/-- A write command of SEC_CMD. -/
theorem Dev.regCommand_SEC_CMD (d : Dev) {src : Nat} (v : Nat) (hr : d.Reach src Reg.SEC_CMD) :
    d.regCommand src Reg.SEC_CMD 4 v = d.secCmd src (v % 2 ^ 32) := by
  rw [d.regCommand4_sec v rowIs_SEC_CMD secSpace_SEC_CMD hr, Dev.secWrite_SEC_CMD,
    Dev.evtWritten_sec _ secSpace_SEC_CMD (by decide) (by decide)]

/-- The upper half of SEC_CMD is the confirmation of LOCK and OTP_PROG alone: another command is known by its OP (R592). -/
theorem Dev.secCmd_congr (d : Dev) (src : Nat) {v w : Nat} (h : v % 16 = w % 16) (hlock : w % 16 ≠ 1) (hotp : w % 16 ≠ 7) :
    d.secCmd src v = d.secCmd src w := by
  have hadmit : d.secAdmits src Reg.SEC_CMD v = d.secAdmits src Reg.SEC_CMD w := by unfold Dev.secAdmits; rw [h]
  have hdo : d.secDo v = d.secDo w := by
    unfold Dev.secDo
    dsimp only
    rw [h]
    split
    · rfl
    · split
      case h_1 => contradiction
      case h_7 => contradiction
      all_goals rfl
  unfold Dev.secCmd
  rw [hadmit, hdo]

theorem Dev.regCommand_SEC_CMD_congr (d : Dev) {src v w : Nat} (hr : d.Reach src Reg.SEC_CMD) (h : v % 16 = w % 16) (hlock : w % 16 ≠ 1)
    (hotp : w % 16 ≠ 7) : d.regCommand src Reg.SEC_CMD 4 v = d.regCommand src Reg.SEC_CMD 4 w := by
  rw [d.regCommand_SEC_CMD v hr, d.regCommand_SEC_CMD w hr]
  exact d.secCmd_congr src (by omega) (by omega) (by omega)

/-! HOST while the device is LOCKED. -/

/-- R594: what SEC takes from HOST while the device is LOCKED. -/
theorem Dev.secAdmits_locked {d : Dev} (k v : Nat) (hl : d.locked = true) :
    d.secAdmits 25 k v = true ↔ (Reg.SEC_DATA 0 ≤ k ∧ k < Reg.SEC_DATA 8) ∨ k = Reg.SEC_IMG_ADDR ∨ k = Reg.SEC_IMG_ADDR + 4 ∨
      (k = Reg.SEC_CMD ∧ v % 16 ∈ [2, 3, 4, 6]) := by
  unfold Dev.secAdmits
  simp [hl, Reg.SEC_DATA, or_assoc]

theorem mem_secData {k : Nat} : k ∈ (List.range 8).map Reg.SEC_DATA ↔ Reg.SEC_DATA 0 ≤ k ∧ k < Reg.SEC_DATA 8 ∧ k % 4 = 0 := by
  simp only [List.mem_map, List.mem_range, Reg.SEC_DATA]
  constructor
  · rintro ⟨i, hi, rfl⟩
    omega
  · intro hk
    exact ⟨(k - 0x3ff00050020) / 4, by omega, by omega⟩

/-- The upper half of SEC_IMG_ADDR is not a register of its own. -/
theorem not_isReg_imgAddrHigh (r : RegDef) : isReg (Reg.SEC_IMG_ADDR + 4) r = false := by
  have hfind : (regFind (Reg.SEC_IMG_ADDR + 4)).map Prod.snd = some Reg.SEC_IMG_ADDR := by decide +kernel
  rw [Bool.eq_false_iff]
  intro hk
  rw [(isReg_place hk).2] at hfind
  exact absurd (show Reg.SEC_IMG_ADDR + 4 = Reg.SEC_IMG_ADDR from Option.some.inj hfind) (by decide)

/-- Of the first bytes of registers, SEC takes from HOST while the device is LOCKED only those that R594 names. -/
theorem Dev.secAdmits_locked_other {d : Dev} {k : Nat} {r : RegDef} (v : Nat) (hl : d.locked = true) (hk : isReg k r = true)
    (hdata : k ∉ (List.range 8).map Reg.SEC_DATA) (himg : k ≠ Reg.SEC_IMG_ADDR) (hcmd : k ≠ Reg.SEC_CMD) : d.secAdmits 25 k v = false := by
  rw [Bool.eq_false_iff]
  intro hadmit
  rcases (Dev.secAdmits_locked k v hl).1 hadmit with ⟨hlo, hhi⟩ | hk' | rfl | ⟨hk', _⟩
  · exact hdata (mem_secData.2 ⟨hlo, hhi, (isReg_place hk).1⟩)
  · exact himg hk'
  · rw [not_isReg_imgAddrHigh r] at hk
    cases hk
  · exact hcmd hk'

section
variable {d : Dev} (hl : d.locked = true) (hr : d.Reach 25 Reg.SEC_CMD)
include hl hr

theorem Dev.regCommand_locked_other {k : Nat} {r : RegDef} (wide : Bool) (v : Nat) (hk : isReg k r = true) (h : secSpace k)
    (hw : wide = true → r.width = 64) (hdata : k ∉ (List.range 8).map Reg.SEC_DATA) (himg : k ≠ Reg.SEC_IMG_ADDR) (hcmd : k ≠ Reg.SEC_CMD) :
    d.regCommand 25 k (if wide then 8 else 4) v = d.evtWritten k := by
  have hno := fun x => Dev.secAdmits_locked_other x hl hk hdata himg hcmd
  cases wide with
  | false => exact (d.regCommand4_sec v (rowIs_sec hk h) h hr).trans (by rw [Dev.secWrite_refused _ (hno _)])
  | true => exact (d.regCommand8_sec v (rowIs8_sec hk h (hw rfl)) h hr).trans (by rw [Dev.secWrite_refused _ (hno _)])

theorem Dev.regCommand_locked_SEC_DATA {i : Nat} (v : Nat) (hi : i < 8) :
    d.regCommand 25 (Reg.SEC_DATA i) 4 v = d.wr (Reg.SEC_DATA i) (v % 2 ^ 32) := by
  have hspace : secSpace (Reg.SEC_DATA i) := by simp only [Reg.SEC_DATA]; omega
  have hadmit := (Dev.secAdmits_locked (Reg.SEC_DATA i) (v % 2 ^ 32) hl).2 (.inl (by simp only [Reg.SEC_DATA]; omega))
  rw [d.regCommand4_sec v (rowIs_SEC_DATA i hi) hspace hr, Dev.secWrite_SEC_DATA _ hi hadmit,
    Dev.evtWritten_sec _ hspace (by simp only [Reg.SEC_DATA, Reg.SEC_EVT]; omega) (by simp only [Reg.SEC_DATA, Reg.SEC_EVT_EN]; omega)]

theorem Dev.regCommand_locked_SEC_IMG_ADDR (v : Nat) :
    d.regCommand 25 Reg.SEC_IMG_ADDR 8 v = d.storeReg Reg.SEC_IMG_ADDR (v % 2 ^ 64) 0xFFFFFFFFFFFFFFFF := by
  have hadmit := (Dev.secAdmits_locked Reg.SEC_IMG_ADDR (v % 2 ^ 64) hl).2 (.inr (.inl rfl))
  rw [d.regCommand8_sec v rowIs8_SEC_IMG_ADDR secSpace_SEC_IMG_ADDR hr, Dev.secWrite_SEC_IMG_ADDR _ hadmit,
    Dev.evtWritten_sec _ secSpace_SEC_IMG_ADDR (by decide) (by decide)]

/-- A command of SEC_CMD other than the four of R594 is not taken. -/
theorem Dev.regCommand_locked_SEC_CMD (v : Nat) (hop : v % 16 ∉ [2, 3, 4, 6]) : d.regCommand 25 Reg.SEC_CMD 4 v = d := by
  have hno : d.secAdmits 25 Reg.SEC_CMD (v % 2 ^ 32) = false := by
    rw [Bool.eq_false_iff, Ne, Dev.secAdmits_locked _ _ hl, show v % 2 ^ 32 % 16 = v % 16 by omega]
    simp [hop, Reg.SEC_DATA, Reg.SEC_CMD, Reg.SEC_IMG_ADDR]
  rw [d.regCommand_SEC_CMD v hr, Dev.secCmd, hno]
  rfl

end

/-- Settles O60: each clause is one write command to SEC, and R594's list decides whether SEC takes it. -/
theorem lockedSecWrites : Obligations.LockedSecWrites := by
  intro s v hl hr
  refine ⟨fun a wide r hk hlo hhi hw hdata himg hcmd => ?_, fun a hdata => ?_, fun a himg => ?_, fun a hcmd => ?_⟩
  · have hexec := exec_registerWrite_host (Dev.regCommand_locked_other hl hr wide v.toNat hk ⟨hlo, hhi⟩ hw hdata himg hcmd)
    refine ⟨⟨_, hexec, s.dev.evtWritten_frame _⟩, fun hevt hen => ?_⟩
    rw [hexec, Dev.evtWritten_sec _ ⟨hlo, hhi⟩ hevt hen]
  · obtain ⟨i, hi, hai⟩ := List.mem_map.1 hdata
    have hi := List.mem_range.1 hi
    have hwritten := Dev.regCommand_locked_SEC_DATA hl hr v.toNat hi
    rw [hai] at hwritten
    refine ⟨_, exec_registerWrite_host hwritten, (Dev.Frame.refl id _ s.dev).wr _ (.inl (by simp [among])), ?_⟩
    rw [Dev.rd_wr_w _ _ (hai ▸ regWidth_SEC_DATA i hi), Nat.mod_mod]
  · have hwritten := Dev.regCommand_locked_SEC_IMG_ADDR hl hr v.toNat
    rw [← himg] at hwritten
    refine ⟨_, exec_registerWrite_host hwritten, (Dev.Frame.refl id _ s.dev).storeReg _ _ (.inl (by simp [among])), ?_⟩
    rw [himg, Dev.fld_storeReg_SEC_IMG_ADDR, bits_mod (by decide), bits, pow_zero, Nat.div_one]
  · have htaken (op : Nat) (hop : v.toNat % 16 = op % 16) (hlock : op % 16 ≠ 1) (hotp : op % 16 ≠ 7) :
        exec (.registerWrite 25 a false v) s = .next { s with dev := s.dev.regCommand 25 Reg.SEC_CMD 4 op } :=
      exec_registerWrite_host (hcmd ▸ s.dev.regCommand_SEC_CMD_congr hr hop hlock hotp)
    refine ⟨fun hop => exec_registerWrite_host (hcmd ▸ Dev.regCommand_locked_SEC_CMD hl hr v.toNat ?_), fun hop => ?_, fun hop => ?_,
      fun hop => ?_, fun hop => ?_⟩
    · simpa using hop
    · exact htaken 2 hop (by decide) (by decide)
    · exact htaken 3 hop (by decide) (by decide)
    · exact htaken 4 hop (by decide) (by decide)
    · exact htaken 6 hop (by decide) (by decide)

end Sys2Proof.Machine
end
